-- ==== Sys2Proof/Word.lean ====
section
/-! DEFINITION. The byte and the plainest words of the block (00 R7: sizes, little-endian registers,
descriptors and completions), and the shape of a sparse table. Bit-field, byte-order and table operations
stand in Machine/Bits.lean. -/

namespace Sys2Proof

/-- One byte. -/
abbrev Byte := BitVec 8

/-- A byte string, first byte first, as it lies in memory from the lowest address up. -/
abbrev Bytes := List Byte

/-- A ring index: free-running, modulo 2^32 (04 R72). -/
abbrev Index := BitVec 32

/-- A host address (02 R37: the ports address 64 bits). -/
abbrev Addr := BitVec 64

/-- A sparse table over natural numbers: pairs of key and record with strictly rising keys. A key that is not
listed reads as the record type's reset record, which no entry equals. -/
abbrev Table (α : Type) := List (Nat × α)

end Sys2Proof
end

