-- ==== Sys2Proof/Syntax.lean ====
section
/-! DEFINITION. The commands of the block, one constructor for each row of the table of operations and events, and
the data they carry. An operand is what the command's sender chooses (an address, a value), what the environment
gives (read data, a sample, a frame) or which of the block's units the event is about. -/

namespace Sys2Proof

/-- States of a key slot (10 R214). -/
inductive SlotState where
  | empty | reserved | live | draining | continuation
  deriving DecidableEq, Repr

/-- One key slot as the store holds it (10 R214 to R217, R228), the two shares of the secret part as the one value
they share (log entry 10). The material of a chain stands in its head. -/
structure SlotRec where
  st      : SlotState := .empty
  /-- Slots of the chain, in the head. -/
  chain   : Nat := 0
  gen     : Nat := 0
  usage   : Bytes := []
  algChar : Nat := 0
  mode    : Nat := 0
  exportc : Nat := 0
  kvn     : Bytes := []
  code    : Nat := 0
  /-- WORDS of codes 0x20 and 0x24 (R217). -/
  words   : Nat := 0
  keyBits : Nat := 0
  refs    : Nat := 0
  /-- Head slot, in a continuation and in a slot of a draining chain that was one. -/
  head    : Nat := 0
  secret  : Bytes := []
  pub     : Bytes := []
  deriving DecidableEq, Repr

/-- One context (07 R164), the two shares of the chaining state as the one value they share (log entry 10). -/
structure CtxRec where
  /-- 0 empty, 1 SYM, 2 HASH/MAC. -/
  kind  : Nat := 0
  op    : Nat := 0
  var   : Nat := 0
  alg   : Nat := 0
  slot  : Nat := 0
  gen   : Nat := 0
  bytes : Nat := 0
  param : Nat := 0
  owner : Nat := 0
  /-- The chaining state, at most 208 bytes. -/
  state : Bytes := []
  deriving DecidableEq, Repr

/-- Header of a twin frame and what the receiver's checks of its trailer found (14 R313, R315). -/
structure FrameHdr where
  seq   : BitVec 64
  /-- Highest SEQ the sender has received in order; all ones before any. -/
  ack   : BitVec 64
  crcOk : Bool
  tagOk : Bool
  deriving DecidableEq, Repr

/-- Payload of a HELLO frame (14 R314). -/
structure HelloMsg where
  serial    : BitVec 64
  leaseBase : BitVec 64
  /-- SHA-384 of the partition table with every FLAGS.HOME bit cleared. -/
  digest    : Bytes
  /-- The 4,096-bit HOME vector: bit p is partition p. -/
  home      : Nat
  nonce     : Bytes
  deriving DecidableEq, Repr

/-- Payload of a HEARTBEAT frame (14 R314). -/
structure HeartbeatMsg where
  tk         : BitVec 64
  mode       : Nat
  /-- The six counts of AV_AVAIL, in the register's order. -/
  avail      : List Nat
  henStopped : Bool
  lost       : Bool
  deriving DecidableEq, Repr

/-- One delta of a commit entry (14 R317). The deltas of a split entry stand in the part that holds their last word;
a KEEP delta may stand in pieces over consecutive parts (R319). -/
inductive Delta where
  | ctx (index : Nat) (c : CtxRec)
  | slots (first : Nat) (recs : List SlotRec)
  | emptied (first : Nat) (count : Nat)
  | keep (data : Bytes)
  | keepUsed
  deriving DecidableEq, Repr

/-- One entry of a COMMIT frame (14 R317, R319). -/
structure CommitItem where
  ring         : Nat
  abortReplace : Bool
  split        : Bool
  continuation : Bool
  subIndex     : Index
  q            : Index
  deltaWords   : Nat
  completion   : Bytes
  digest       : Bytes
  deltas       : List Delta
  deriving DecidableEq, Repr

/-- What one STATE frame carries (14 R314, R321, R322). -/
inductive StateItem where
  | stop (ring : Nat)
  | retract (ring : Nat) (newP : Index)
  | partReset (part : Nat)
  | kmLock (part : Nat) (held : Bool) (holder : Nat) (leaseEnds : Nat)
  | slotWrite (part first : Nat) (recs : List SlotRec)
  deriving DecidableEq, Repr

/-- One item of copied state in a SYNC_DATA frame (14 R332). -/
inductive SyncItem where
  | ring (ring : Nat) (running : Bool) (setup : List (BitVec 64)) (p c q d : Index) (committed : List Index) (doorbell : Index)
  | keep (ring : Nat) (member : Index) (data : Bytes)
  | ctx (index : Nat) (c : CtxRec)
  | slots (first : Nat) (recs : List SlotRec)
  | lock (part : Nat) (held : Bool) (holder : Nat) (leaseEnds : Nat) (halted : Bool) (haltRing : Nat)
  deriving DecidableEq, Repr

/-- The commands of the block: one constructor for each row of spec/opcode_table.json. Each docstring gives the
row's mnemonic and the rule that governs it. -/
inductive Instr where
  /-- TIME_SAMPLE (R44). On a TREFCLK edge with TIME_STB high the block samples TIME_SEC, TIME_NS and TIME_VALID together, discarding bad nanosecond values or entering holdover. -/
  | timeSample (sec : Nat) (ns : Nat) (valid : Bool)
  /-- STB_TIMEOUT (R45). 20 µs pass without an accepted sample, so the block treats time-valid as 0 and enters holdover. -/
  | stbTimeout
  /-- REGISTER_WRITE (R30). A slave-port write to a register that has no row of its own sets RW fields and acts on W1C and W1S fields. -/
  | registerWrite (addr : Nat) (size : Nat) (tag : Nat) (data : BitVec 64)
  /-- RC_FIELD_READ (R8). A read returns an RC field and clears it, taking account of how 32-bit and 64-bit reads cover the field. -/
  | rcFieldRead (addr : Nat) (size : Nat) (tag : Nat)
  /-- SPORT_BAD_ACCESS (R29). An access of unsupported size or alignment, or a 32-bit push-window write, is refused and counted. -/
  | sportBadAccess (addr : Nat) (size : Nat) (tag : Nat) (write : Bool)
  /-- OWNER_ERR (R28). An access with a tag that does not own the target reads zero or is discarded, is counted, and gets an OK response. -/
  | ownerErr (addr : Nat) (size : Nat) (tag : Nat) (write : Bool)
  /-- EARLY_WRITE (R6). Before READY a write to a partition page or ring page is discarded and counted per tag. -/
  | earlyWrite (addr : Nat) (size : Nat) (tag : Nat)
  /-- MPORT_ERROR_RESPONSE (R41). An error response arrives on a master port, and the block applies the outcome for the request kind. -/
  | mportErrorResponse (req : Nat)
  /-- MPORT_TIMEOUT (R41). A request has no response 10,000 ticks after issue, sets Mn_TIMEOUT and is treated as an error response. -/
  | mportTimeout (req : Nat)
  /-- IRQ_MESSAGE_REISSUE (R41). 1 tick after a failed interrupt message the block reissues it, and drops and records it if it fails again. -/
  | irqMessageReissue (vec : Nat)
  /-- PORST_ASSERT (R47). PORST_N is asserted, and the block stops issuing requests and ignores every response. -/
  | porstAssert
  /-- RESET_RELEASE (R47). PORST_N release is synchronised, the OX operand-memory wipe completes, and boot begins in FACTORY or CONFIGURE. -/
  | resetRelease
  /-- WARM (R305). A write of WARM starts a warm block reset that stops fetching, aborts entries with detail 0x05 and then reboots. -/
  | warm (tag : Nat)
  /-- HANDOVER (R305). WARM written with HANDOVER first hands every home paired partition to the twin before the reset. -/
  | handover (tag : Nat)
  /-- WARM_HANDOVER_TIMEOUT (R305). A handover for a warm reset has not ended within 2,000 ticks, so HANDOVER_FAILED sets and the reset proceeds. -/
  | warmHandoverTimeout
  /-- WARM_RESET_DRAIN_END (R305). The outstanding fabric responses of a warm reset have ended, and the compute die resets and boots, keeping the listed state. -/
  | warmResetDrainEnd
  /-- PART_RESET (R306). A write of PART_RESET.RESET starts a partition reset that withdraws entries, cuts off work, zeroes staging and contexts, and writes abort completions. -/
  | partReset (part : Nat) (tag : Nat)
  /-- PARTITION_RESET_END (R306). The outstanding fabric responses of a partition reset have ended, and its rings become DISABLED and RESETTING clears. -/
  | partitionResetEnd (part : Nat)
  /-- ABORT_COMPLETION_DROP (R307). After 1,000 ticks without completion room during a reset, the remaining abort completions are discarded and counted in ABORT_DROPPED. -/
  | abortCompletionDrop (ring : Nat)
  /-- BIST_DONE (R61). The SRAM BIST and soft repair of boot step 1 complete, and the availability registers are set. -/
  | bistDone (failed : List Nat)
  /-- HEN_WARMUP_END (R343). The source warm-up period ends and start-up health testing of the raw bits begins. -/
  | henWarmupEnd
  /-- HEN_STARTUP_TEST_END (R343). The start-up tests and known-answer tests complete; the pool is filled and the instances are instantiated. -/
  | henStartupTestEnd (failTest : Nat) (failSource : Nat) (raw : List Bytes)
  /-- HEN_SEEDED (R343). The priority-1 seeds for lanes, OX units, lattice units and GANDER are delivered, and HEN_SEEDED and RUNNING set. -/
  | henSeeded
  /-- IMAGE_LOAD_START (R53). A write of START in AV_IMG_CTRL starts a structure image load, or is refused and sets START_REFUSED. -/
  | imageLoadStart (tag : Nat)
  /-- IMAGE_FETCH_START (R61). A load that waited for HEN seeding begins fetching the image from AV_IMG_ADDR. -/
  | imageFetchStart
  /-- IMAGE_CHECKS (R54). The fetched image is checked in order, and is rejected, halts the block as malformed, or is applied. -/
  | imageChecks (readOk : Bool) (image : Bytes)
  /-- FUSE_ADVANCE_STEP (R55). Each 100 µs step of the rollback advance blows one fuse until the counter reads r. -/
  | fuseAdvanceStep
  /-- END_OF_BOOT (R58). Personalities and firmware are loaded, and the block enters OPERATIONAL, LOCKED or ZEROIZED with READY set. -/
  | endOfBoot
  /-- CAL_DONE (R61). DVFS calibration completes, CAL_DONE sets and full frequencies are permitted. -/
  | calDone
  /-- REQUEST_OPERATIONAL (R59). REQUEST 0x3 asks for the change from MAINTENANCE to OPERATIONAL. -/
  | requestOperational (tag : Nat)
  /-- REQUEST_MAINTENANCE (R59). REQUEST 0x4 asks for the change from OPERATIONAL to MAINTENANCE, which waits for the tenant drain. -/
  | requestMaintenance (tag : Nat)
  /-- MODE_REQUEST_REFUSED (R59). A REQUEST naming a transition not in the table is refused and REQ_REFUSED sets. -/
  | modeRequestRefused (tag : Nat) (request : Nat)
  /-- MAINTENANCE_DRAIN_END (R59). Every fetched tenant descriptor has completed, and the mode becomes MAINTENANCE. -/
  | maintenanceDrainEnd
  /-- OPERATIONAL_RETURN (R59). No attach, detach, enrolment or ceremony remains in progress, and the mode returns to OPERATIONAL. -/
  | operationalReturn
  /-- RETEST_COMPLETE (R65). The retest of a quarantined unit ends, and the unit becomes a spare, returns to service or is retired. -/
  | retestComplete (unit : Nat) (pass : Bool)
  /-- PERIODIC_SELF_TEST (R64). An idle unit's built-in self-test, due once every 10,000,000 ticks, runs and may quarantine it. -/
  | periodicSelfTest (unit : Nat) (pass : Bool)
  /-- STORE_SCRUB (R120). A store line is read, scrubbed and corrected as part of the pass that covers every line once per 10,000,000 ticks. -/
  | storeScrub (bank : Nat) (corrected : Bool)
  /-- STORE_UNCORRECTABLE_ERROR (R66). An uncorrectable store line is treated by region: the descriptor faults, the context is invalidated, the slot is erased or the ring stops. -/
  | storeUncorrectableError (bank : Nat) (region : Nat) (index : Nat) (sub : Index)
  /-- BANK_MIGRATION_DONE (R66). The migration of a bank's contents to a spare bank completes, and the old bank is quarantined. -/
  | bankMigrationDone (bank : Nat)
  /-- ENABLE (R71). A write of ENABLE checks the set-up record and latches it into RUNNING, or refuses it with SETUP_CAUSE. -/
  | enable (ring : Nat) (tag : Nat)
  /-- STOP (R90). A write of STOP puts the ring in STOPPING, withdraws unfetched entries and aborts fetched ones until the ring is DISABLED. -/
  | stop (ring : Nat) (tag : Nat)
  /-- DOORBELL (R76). A write to SUB_DOORBELL advances P, is ignored as stale or for state, or overruns. -/
  | doorbell (ring : Nat) (tag : Nat) (value : BitVec 64)
  /-- SETUP_RECORD_WRITE (R70). A 64-bit write to push slot 0 of a DISABLED ring stores one word of the set-up record. -/
  | setupRecordWrite (ring : Nat) (tag : Nat) (word : Nat) (value : BitVec 64)
  /-- PUSH_WRITE (R78). A 64-bit write to a push slot of a RUNNING ring stores one word of a pushed descriptor. -/
  | pushWrite (ring : Nat) (tag : Nat) (slot : Nat) (word : Nat) (value : BitVec 64)
  /-- RETRACT (R81). A write to AV_RING_RETRACT withdraws submitted entries that have not been fetched. -/
  | retract (ring : Nat) (tag : Nat) (value : BitVec 64)
  /-- CONSUME (R85). A write to CMP_CONSUMER advances D and frees completion slots, or is ignored and sets CMP_BAD. -/
  | consume (ring : Nat) (tag : Nat) (value : BitVec 64)
  /-- MOD_COUNT_WRITE (R301). A write to MOD_COUNT sets the vector's count threshold and may make its message due at once. -/
  | modCountWrite (ring : Nat) (tag : Nat) (value : BitVec 64)
  /-- MOD_TIME_WRITE (R301). A write to MOD_TIME sets the vector's time threshold and may make its message due at once. -/
  | modTimeWrite (ring : Nat) (tag : Nat) (value : BitVec 64)
  /-- MOD_TABLE_WRITE (R300). Partition 0 writes a vector moderation table entry, setting thresholds or WAKE. -/
  | modTableWrite (vec : Nat) (offset : Nat) (size : Nat) (tag : Nat) (data : BitVec 64)
  /-- VECTOR_TABLE_WRITE (R302). A write to a vector table entry changes its address, data or mask and may release a held message. -/
  | vectorTableWrite (vec : Nat) (offset : Nat) (size : Nat) (tag : Nat) (data : BitVec 64)
  /-- PARTITION_SLEEP (R303). PART_SLEEP.ASLEEP goes from 0 to 1, and each WAKE vector with pending completions sends one message. -/
  | partitionSleep (part : Nat) (tag : Nat)
  /-- PARTITION_WAKE (R303). PART_SLEEP.ASLEEP goes from 1 to 0, held messages are sent in vector order and WOKE clears. -/
  | partitionWake (part : Nat) (tag : Nat)
  /-- MOD_TIME_EXPIRY (R301). A vector's time threshold expires on the interval clock, and its message falls due. -/
  | modTimeExpiry (vec : Nat)
  /-- TURN_GRANT (R296). The ring engine grants an eligible partition's ring a turn by the round rules. -/
  | turnGrant
  /-- POLL_DUE (R80). A polling ring's interval of N ticks expires, and a poll becomes due. -/
  | pollDue (ring : Nat)
  /-- FETCH_DATA_RETURN (R77). The read data of a fetch burst returns, and its entries are validated. -/
  | fetchDataReturn (ring : Nat) (data : Bytes)
  /-- POLL_BURST_RETURN (R80). The data of a poll burst returns, and entries are accepted while their PHASE matches the phase of their index. -/
  | pollBurstReturn (ring : Nat) (data : Bytes)
  /-- FETCH_REPEAT (R91). 1 tick after a failed fetch, completion or shadow write the block repeats it, and the ring enters FAULT if it fails again. -/
  | fetchRepeat (ring : Nat)
  /-- FAULT_REPEAT (R91). Every 1,000 ticks in FAULT the failed request is repeated, and success returns the ring to RUNNING. -/
  | faultRepeat (ring : Nat)
  /-- CREDIT_ADMIT (R294). A descriptor waiting for class credit is charged or borrowed and admitted to staging. -/
  | creditAdmit (part : Nat)
  /-- STAGING_GRANT (R124). A waiting descriptor's staging requirement is reserved from its floor and the pool, and gathering begins. -/
  | stagingGrant (part : Nat)
  /-- SG_LIST_READ_RETURN (R101). A descriptor's scatter-gather lists are read and checked before any gather. -/
  | sgListReadReturn (ring : Nat) (sub : Index) (srcList : Bytes) (dstList : Bytes)
  /-- GATHER_READ_RETURN (R128). Gather data returns to staging, and with the last input byte the descriptor is Staged and enters its dispatch queue. -/
  | gatherReadReturn (ring : Nat) (sub : Index) (src : Bytes) (aux : Bytes)
  /-- WRITE_RESPONSE (R40). Once every output write has been accepted, the read-back of the last line written is issued. -/
  | writeResponse (port : Nat) (req : Nat)
  /-- READBACK_RETURN (R40). The read-back returns, and the descriptor is Scattered, then committed or completed. -/
  | readbackReturn (ring : Nat) (sub : Index)
  /-- SERVICE_FRAME (R293). Each 50-tick service frame begins: capacities are computed, allocations given and balances updated, and waiting descriptors are examined. -/
  | serviceFrame
  /-- ADAPTATION_PERIOD (R298). At the end of 1,000 frames SAT_PERIOD is set for every class saturated in more than 500 of them. -/
  | adaptationPeriod
  /-- ACQUIRE (R230). AV_KM_LOCK.ACQUIRE takes the key-management lock for a ring, renews its lease, or sets CONTENDED. -/
  | acquire (part : Nat) (tag : Nat) (data : BitVec 64)
  /-- RELEASE (R230). AV_KM_LOCK.RELEASE releases the lock held by REQ_RING, or sets BAD_REQ. -/
  | release (part : Nat) (tag : Nat) (data : BitVec 64)
  /-- LOCK_LEASE_EXPIRY (R231). The key-management lock's lease ends, and the lock is released with EXPIRED set. -/
  | lockLeaseExpiry (part : Nat)
  /-- DESCRIPTOR_TIME_LIMIT (R18). 20,000,000 ticks after dispatch a descriptor still running completes ST_TIMEOUT. -/
  | descriptorTimeLimit (ring : Nat) (sub : Index)
  /-- LANE_DISPATCH (R152). A free lane takes the first entry it may serve from its personality queue, copies the key and takes a reference. -/
  | laneDispatch (pers : Nat)
  /-- LANE_MISMATCH (R158). A dual-computation or re-encryption mismatch stops the lane's work and queues a retry that excludes the lane. -/
  | laneMismatch (lane : Nat) (reencOnly : Bool)
  /-- LANE_WORK_DONE (R165). A lane finishes its descriptor or call and releases the result to staging. -/
  | laneWorkDone (lane : Nat)
  /-- PERSONALITY_LOAD_DONE (R25). A switched lane finishes loading its new personality in 2 µs and accepts dispatches. -/
  | personalityLoadDone (lane : Nat)
  /-- BALANCER_EVALUATION (R142). Every 50,000 ticks the balancer computes targets and makes up to SWITCH_LIMIT switches. -/
  | balancerEvaluation
  /-- STARVATION_SWITCH (R144). Within 1 tick of a personality starving, one lane is switched to it. -/
  | starvationSwitch (pers : Nat)
  /-- OX_DISPATCH (R169). A free OX unit takes the first entry it may serve from the OX queue and copies the key shares. -/
  | oxDispatch
  /-- OX_VALIDATION_REPORT (R175). An OX job refused at check 5 reports exactly T_val after its load phase. -/
  | oxValidationReport (unit : Nat)
  /-- OX_SELF_CHECK_MISMATCH (R187). An OX self-check mismatch stops the job and queues a retry on another unit. -/
  | oxSelfCheckMismatch (unit : Nat)
  /-- OX_JOB_DONE (R184). An OX unit finishes computing and releases its result to staging. -/
  | oxJobDone (unit : Nat)
  /-- UNIT_WIPE_DONE (R188). The wipe of an OX or lattice unit completes, and the unit may take another job. -/
  | unitWipeDone (unit : Nat) (clean : Bool)
  /-- LAT_DISPATCH (R196). A free lattice unit takes the first entry from the lattice queue and copies the key shares. -/
  | latDispatch
  /-- LAT_CHECK_PHASE_END (R202). The fixed-time check phase of a lattice job ends, and the job is refused or continues. -/
  | latCheckPhaseEnd (unit : Nat)
  /-- LAT_SELF_CHECK_MISMATCH (R209). A lattice self-check mismatch stops the job and queues a retry on another unit. -/
  | latSelfCheckMismatch (unit : Nat)
  /-- LAT_JOB_DONE (R208). A lattice unit finishes its job and releases the result to staging. -/
  | latJobDone (unit : Nat)
  /-- PAY_DISPATCH (R263). A core with a free bank takes a PAY entry, copies the keys to the bay, fills the bank and starts the function context. -/
  | payDispatch
  /-- CORE_FAULT (R238). A parity error quarantines the DRAKE core and retries its functions on another core. -/
  | coreFault (core : Nat)
  /-- WATCHDOG_EXPIRY (R285). A context issues 65,536 cycles without suspending, which is a core fault under R238. -/
  | watchdogExpiry (core : Nat)
  /-- KEY_LANE_DISPATCH (R154). The key lane pair takes the next key-management request in order of arrival onto one key lane. -/
  | keyLaneDispatch
  /-- ERASE_DRAIN_END (R222). The reference count of a DRAINING chain reaches zero, the chain is zeroed and EMPTY, and ERASE completes. -/
  | eraseDrainEnd (slot : Nat)
  /-- NOP (R103). The ring engine completes a NOP or pure fence ST_OK with RESULT equal to PARAM. -/
  | nop (ring : Nat) (sub : Index)
  /-- ENCRYPT (R104). SYM ENCRYPT under K1 in the mode that VARIANT selects. -/
  | encrypt (lane : Nat)
  /-- DECRYPT (R104). SYM DECRYPT under K1, releasing AEAD plaintext only when the tag matches. -/
  | decrypt (lane : Nat)
  /-- HASH (R107). HASH computes the digest of the source. -/
  | hash (lane : Nat)
  /-- HASH_VERIFY (R107). HASH_VERIFY compares a digest with the expected value in AUX. -/
  | hashVerify (lane : Nat)
  /-- MAC_GENERATE (R107). MAC_GENERATE computes an HMAC, CMAC or ISO/IEC 9797-1 MAC under K1. -/
  | macGenerate (lane : Nat)
  /-- MAC_VERIFY (R107). MAC_VERIFY compares a computed MAC with the expected MAC. -/
  | macVerify (lane : Nat)
  /-- XOF (R107). XOF writes DST_LEN bytes of SHAKE output. -/
  | xof (lane : Nat)
  /-- MOD_ADD (R108). Modular addition of a and b modulo n. -/
  | modAdd (unit : Nat)
  /-- MOD_SUB (R108). Modular subtraction of b from a modulo n. -/
  | modSub (unit : Nat)
  /-- MOD_MUL (R108). Modular multiplication of a and b modulo n. -/
  | modMul (unit : Nat)
  /-- MOD_EXP (R108). Modular exponentiation of base by exponent modulo n. -/
  | modExp (unit : Nat)
  /-- MOD_INV (R108). Modular inverse of a modulo n. -/
  | modInv (unit : Nat)
  /-- RSA_ENCRYPT (R180). RSA encryption with raw, PKCS#1 v1.5 or OAEP padding. -/
  | rsaEncrypt (unit : Nat)
  /-- RSA_VERIFY (R180). RSA signature verification. -/
  | rsaVerify (unit : Nat)
  /-- RSA_DECRYPT (R180). RSA CRT decryption under K1. -/
  | rsaDecrypt (unit : Nat)
  /-- RSA_SIGN (R180). RSA CRT signing under K1. -/
  | rsaSign (unit : Nat)
  /-- RSA_KEYGEN (R191). RSA key generation that writes the private key to the slot K1 names. -/
  | rsaKeygen (unit : Nat)
  /-- ECDSA_SIGN (R180). ECDSA signing with a hedged nonce. -/
  | ecdsaSign (unit : Nat)
  /-- ECDSA_VERIFY (R180). ECDSA signature verification. -/
  | ecdsaVerify (unit : Nat)
  /-- ECDH (R180). Cofactor Diffie-Hellman that outputs the shared x-coordinate. -/
  | ecdh (unit : Nat)
  /-- EC_KEYGEN (R180). Elliptic-curve key generation that writes d and outputs Q. -/
  | ecKeygen (unit : Nat)
  /-- EDDSA_SIGN (R180). Ed25519 or Ed448 signing. -/
  | eddsaSign (unit : Nat)
  /-- EDDSA_VERIFY (R180). Ed25519 or Ed448 verification with the cofactored equation. -/
  | eddsaVerify (unit : Nat)
  /-- XDH (R180). X25519 or X448 key agreement. -/
  | xdh (unit : Nat)
  /-- EDWARDS_KEYGEN (R180). Edwards or Montgomery key generation. -/
  | edwardsKeygen (unit : Nat)
  /-- KEM_KEYGEN (R200). ML-KEM key generation that writes dk. -/
  | kemKeygen (unit : Nat)
  /-- KEM_ENCAPS (R200). ML-KEM encapsulation after the encapsulation key check. -/
  | kemEncaps (unit : Nat)
  /-- KEM_DECAPS (R204). ML-KEM decapsulation with implicit rejection. -/
  | kemDecaps (unit : Nat)
  /-- DSA_KEYGEN (R200). ML-DSA key generation that writes sk. -/
  | dsaKeygen (unit : Nat)
  /-- DSA_SIGN (R206). ML-DSA signing by the fixed-time rejection loop. -/
  | dsaSign (unit : Nat)
  /-- DSA_VERIFY (R200). ML-DSA verification. -/
  | dsaVerify (unit : Nat)
  /-- PIN_TRANSLATE (R246). Translates a PIN block between formats and keys. -/
  | pinTranslate (core : Nat) (ctx : Nat)
  /-- PIN_VERIFY (R247). Verifies a PIN by the offset or PVV method. -/
  | pinVerify (core : Nat) (ctx : Nat)
  /-- DUKPT_DECRYPT (R251). Derives the DUKPT data key and decrypts the source. -/
  | dukptDecrypt (core : Nat) (ctx : Nat)
  /-- DUKPT_PIN_TRANSLATE (R251). Derives the DUKPT PIN key and translates the PIN block to the outgoing key. -/
  | dukptPinTranslate (core : Nat) (ctx : Nat)
  /-- DUKPT_MAC_VERIFY (R251). Derives the DUKPT MAC key and verifies the MAC. -/
  | dukptMacVerify (core : Nat) (ctx : Nat)
  /-- EMV_ARQC_VERIFY (R254). Verifies an ARQC under the derived session key. -/
  | emvArqcVerify (core : Nat) (ctx : Nat)
  /-- EMV_ARPC_GENERATE (R254). Verifies the ARQC and writes the ARPC. -/
  | emvArpcGenerate (core : Nat) (ctx : Nat)
  /-- EMV_SCRIPT_MAC (R254). Writes the script MAC under the session key derived from the E2 key. -/
  | emvScriptMac (core : Nat) (ctx : Nat)
  /-- EMV_SESSION_DERIVE (R254). Writes a derived EMV session key into the slot K2 names. -/
  | emvSessionDerive (core : Nat) (ctx : Nat)
  /-- KCV (R255). Computes a key check value of K1 into RESULT. -/
  | kcv (core : Nat) (ctx : Nat)
  /-- SLH_VERIFY (R256). Verifies an SLH-DSA signature read through the firmware channel. What the firmware's next hash call hashes, and the
  bank offset its output goes to, come with the command. -/
  | slhVerify (core : Nat) (ctx : Nat) (hashed : Bytes) (off : Nat)
  /-- IMPORT (R224). Checks and unwraps an X9.143 key block into a slot chain. -/
  | keyImport (lane : Nat)
  /-- EXPORT (R225). Wraps the key in K1 into an X9.143 key block. -/
  | keyExport (lane : Nat)
  /-- KEY_GENERATE (R226). Draws a symmetric key into the destination, or reserves the slot for a later key generation. -/
  | keyGenerate (lane : Nat)
  /-- DERIVE (R226). Derives a key with the KDF of VARIANT into the destination slot. -/
  | keyDerive (lane : Nat)
  /-- KEY_ERASE (R222). Puts a slot chain into DRAINING, to be emptied when its references drain. -/
  | keyErase (lane : Nat)
  /-- QUERY (R228). Writes the 32-byte attribute record of a slot. -/
  | keyQuery (lane : Nat)
  /-- TWIN_ATTACH (R330). Starts the twin handshake and synchronisation with LEASE_BASE. -/
  | twinAttach (lane : Nat)
  /-- TWIN_DETACH (R333). Sends DETACH, hands partitions to their preferred homes and erases the pairing records. -/
  | twinDetach (lane : Nat)
  /-- CHALLENGE (R361). Issues a nonce with the serial and LOCK_SEQ for a dual-control operation. -/
  | challenge (lane : Nat)
  /-- UNLOCK (R364). Checks two custodian signatures, clears the latches and leaves LOCKED. -/
  | unlock (lane : Nat)
  /-- ENROL (R364). Enrols a custodian under dual control, or under bootstrap. -/
  | enrol (lane : Nat)
  /-- REVOKE (R364). Removes a custodian under dual control. -/
  | revoke (lane : Nat)
  /-- MK_BEGIN (R365). Opens a master-key ceremony and outputs the ephemeral public keys. -/
  | mkBegin (lane : Nat)
  /-- MK_SHARE (R365). Accepts one encrypted share and installs the recovered master key at the M-th share. -/
  | mkShare (lane : Nat)
  /-- RNG_GENERATE (R342). Writes DST_LEN random bytes from one DRBG instance. -/
  | rngGenerate (ring : Nat) (sub : Index)
  /-- GENERATE_PR (R342). Reseeds the instance, then writes DST_LEN random bytes. -/
  | generatePr (ring : Nat) (sub : Index)
  /-- COPY (R112). MOVE copies the source to the destination with an optional byte swap. -/
  | copy (ring : Nat) (sub : Index)
  /-- FILL (R112). MOVE repeats the 8 bytes of PARAM over DST_LEN bytes. -/
  | fill (ring : Nat) (sub : Index)
  /-- CALL_COMPLETE (R279). A firmware call completes: ST_OK sets EV.CALL and latches the result word, and any other status ends the function. -/
  | callComplete (core : Nat) (ctx : Nat)
  /-- MOV (R266). K14 d ← s. -/
  | mov (core : Nat) (g : BitVec 3) (d : BitVec 3) (s : BitVec 3)
  /-- ADD (R266). K14 d ← d + s modulo 2^32. -/
  | add (core : Nat) (g : BitVec 3) (d : BitVec 3) (s : BitVec 3)
  /-- SUB (R266). K14 d ← d − s modulo 2^32. -/
  | sub (core : Nat) (g : BitVec 3) (d : BitVec 3) (s : BitVec 3)
  /-- AND (R266). K14 bitwise AND. -/
  | and (core : Nat) (g : BitVec 3) (d : BitVec 3) (s : BitVec 3)
  /-- OR (R266). K14 bitwise OR. -/
  | or (core : Nat) (g : BitVec 3) (d : BitVec 3) (s : BitVec 3)
  /-- XOR (R266). K14 bitwise XOR. -/
  | xor (core : Nat) (g : BitVec 3) (d : BitVec 3) (s : BitVec 3)
  /-- SHL (R266). K14 shift left by imm. -/
  | shl (core : Nat) (g : BitVec 3) (d : BitVec 3) (imm : BitVec 5)
  /-- SHR (R266). K14 logical shift right by imm. -/
  | shr (core : Nat) (g : BitVec 3) (d : BitVec 3) (imm : BitVec 5)
  /-- SAR (R266). K14 arithmetic shift right by imm. -/
  | sar (core : Nat) (g : BitVec 3) (d : BitVec 3) (imm : BitVec 5)
  /-- ROL (R266). K14 rotate left by imm. -/
  | rol (core : Nat) (g : BitVec 3) (d : BitVec 3) (imm : BitVec 5)
  /-- BSWAP (R266). K14 byte reversal of d. -/
  | bswap (core : Nat) (g : BitVec 3) (d : BitVec 3)
  /-- MUL (R266). K14 low 32 bits of d × s. -/
  | mul (core : Nat) (g : BitVec 3) (d : BitVec 3) (s : BitVec 3)
  /-- MOVI (R266). K14 d ← sign-extended immediate. -/
  | movi (core : Nat) (g : BitVec 3) (d : BitVec 3) (imm : BitVec 14)
  /-- MOVU (R266). K14 d ← (d << 14) OR immediate. -/
  | movu (core : Nat) (g : BitVec 3) (d : BitVec 3) (imm : BitVec 14)
  /-- ADDI (R266). K14 add of a sign-extended immediate. -/
  | addi (core : Nat) (g : BitVec 3) (d : BitVec 3) (imm : BitVec 14)
  /-- ANDI (R266). K14 AND with a sign-extended immediate. -/
  | andi (core : Nat) (g : BitVec 3) (d : BitVec 3) (imm : BitVec 14)
  /-- ORI (R266). K14 OR with a sign-extended immediate. -/
  | ori (core : Nat) (g : BitVec 3) (d : BitVec 3) (imm : BitVec 14)
  /-- XORI (R266). K14 XOR with a sign-extended immediate. -/
  | xori (core : Nat) (g : BitVec 3) (d : BitVec 3) (imm : BitVec 14)
  /-- CMP (R268). K14 compare of two registers that writes a predicate pair. -/
  | cmp (core : Nat) (g : BitVec 3) (d : BitVec 3) (s : BitVec 3) (pair : BitVec 2) (cond : BitVec 3)
  /-- CMPI (R268). K14 compare with an immediate that writes a predicate pair. -/
  | cmpi (core : Nat) (g : BitVec 3) (d : BitVec 3) (cond : BitVec 3) (pair : BitVec 2) (imm : BitVec 12)
  /-- LDW (R269). K14 32-bit load from a bank. -/
  | ldw (core : Nat) (g : BitVec 3) (d : BitVec 3) (s : BitVec 3) (c : Bool) (post : Bool) (disp : BitVec 12)
  /-- LDH (R269). K14 16-bit zero-extended load. -/
  | ldh (core : Nat) (g : BitVec 3) (d : BitVec 3) (s : BitVec 3) (c : Bool) (post : Bool) (disp : BitVec 12)
  /-- LDB (R269). K14 8-bit zero-extended load. -/
  | ldb (core : Nat) (g : BitVec 3) (d : BitVec 3) (s : BitVec 3) (c : Bool) (post : Bool) (disp : BitVec 12)
  /-- STW (R269). K14 32-bit store. -/
  | stw (core : Nat) (g : BitVec 3) (d : BitVec 3) (s : BitVec 3) (c : Bool) (post : Bool) (disp : BitVec 12)
  /-- STH (R269). K14 16-bit store. -/
  | sth (core : Nat) (g : BitVec 3) (d : BitVec 3) (s : BitVec 3) (c : Bool) (post : Bool) (disp : BitVec 12)
  /-- STB (R269). K14 8-bit store. -/
  | stb (core : Nat) (g : BitVec 3) (d : BitVec 3) (s : BitVec 3) (c : Bool) (post : Bool) (disp : BitVec 12)
  /-- DADD (R270). K14 packed-decimal add with carry out. -/
  | dadd (core : Nat) (g : BitVec 3) (d : BitVec 3) (s : BitVec 3) (pair : BitVec 2)
  /-- DADC (R270). K14 packed-decimal add with carry in. -/
  | dadc (core : Nat) (g : BitVec 3) (d : BitVec 3) (s : BitVec 3) (pair : BitVec 2)
  /-- DSUB (R270). K14 packed-decimal subtract with borrow out. -/
  | dsub (core : Nat) (g : BitVec 3) (d : BitVec 3) (s : BitVec 3) (pair : BitVec 2)
  /-- DSBB (R270). K14 packed-decimal subtract with borrow in. -/
  | dsbb (core : Nat) (g : BitVec 3) (d : BitVec 3) (s : BitVec 3) (pair : BitVec 2)
  /-- DADDN (R270). K14 digit-wise add modulo 10 without carry. -/
  | daddn (core : Nat) (g : BitVec 3) (d : BitVec 3) (s : BitVec 3)
  /-- DSUBN (R270). K14 digit-wise subtract modulo 10 without borrow. -/
  | dsubn (core : Nat) (g : BitVec 3) (d : BitVec 3) (s : BitVec 3)
  /-- DAA (R270). K14 decimal adjust of a binary value. -/
  | daa (core : Nat) (g : BitVec 3) (d : BitVec 3) (s : BitVec 3)
  /-- DBIN (R270). K14 conversion of packed digits to binary. -/
  | dbin (core : Nat) (g : BitVec 3) (d : BitVec 3) (s : BitVec 3)
  /-- NEXT (R270). K14 extraction of one nibble. -/
  | next (core : Nat) (g : BitVec 3) (d : BitVec 3) (s : BitVec 3) (byReg : Bool) (pos : BitVec 3)
  /-- NINS (R270). K14 insertion of one nibble. -/
  | nins (core : Nat) (g : BitVec 3) (d : BitVec 3) (s : BitVec 3) (byReg : Bool) (pos : BitVec 3)
  /-- NSHL (R270). K14 nibble shift in. -/
  | nshl (core : Nat) (g : BitVec 3) (d : BitVec 3) (s : BitVec 3)
  /-- B (R266). K14 branch with one delay slot. -/
  | branch (core : Nat) (g : BitVec 3) (imm : BitVec 14)
  /-- CALL (R266). K14 call that sets LK, with one delay slot. -/
  | call (core : Nat) (g : BitVec 3) (imm : BitVec 14)
  /-- JR_JUMP (R266). K14 jump to a register. -/
  | jrJump (core : Nat) (g : BitVec 3) (s : BitVec 3)
  /-- JR_CALL (R266). K14 call to a register that sets LK. -/
  | jrCall (core : Nat) (g : BitVec 3) (s : BitVec 3)
  /-- LOOP (R273). K14 set-up of a zero-overhead loop with a register count. -/
  | loop (core : Nat) (g : BitVec 3) (s : BitVec 3) (le : BitVec 14)
  /-- LOOPI (R273). K14 set-up of a zero-overhead loop with an immediate count. -/
  | loopi (core : Nat) (g : BitVec 3) (count : BitVec 6) (le : BitVec 14)
  /-- RPT (R274). K14 repetition of the next instruction n times. -/
  | rpt (core : Nat) (g : BitVec 3) (count : BitVec 6)
  /-- MFR (R275). K14 read of a special register. -/
  | mfr (core : Nat) (g : BitVec 3) (d : BitVec 3) (num : BitVec 6)
  /-- MTR (R275). K14 write of a special register, including LPOP. -/
  | mtr (core : Nat) (g : BitVec 3) (s : BitVec 3) (num : BitVec 6)
  /-- POST (R279). K14 check of a call block and its entry into the target's queue. -/
  | post (core : Nat) (g : BitVec 3) (d : BitVec 3)
  /-- MBR (R279). K14 read of the latched call result word. -/
  | mbr (core : Nat) (g : BitVec 3) (d : BitVec 3)
  /-- MCH (R281). K14 queueing of a firmware channel block. -/
  | mch (core : Nat) (g : BitVec 3) (d : BitVec 3)
  /-- CTL_NOP (R267). K14 no operation. -/
  | ctlNop (core : Nat) (g : BitVec 3)
  /-- RET (R267). K14 return to LK with one delay slot. -/
  | ret (core : Nat) (g : BitVec 3)
  /-- TRAPI (R284). K14 software trap with cause 0x10 + n. -/
  | trapi (core : Nat) (g : BitVec 3) (n : BitVec 3)
  /-- SEV (R277). K14 sending of an event to context 0 of one core or of all cores. -/
  | sev (core : Nat) (g : BitVec 3) (pos : BitVec 4) (all : Bool) (event : BitVec 3)
  /-- WFE (R277). K14 wait for an event in the mask, suspending if none is pending. -/
  | wfe (core : Nat) (g : BitVec 3) (d : BitVec 3) (mask : BitVec 10)
  /-- WAITT (R278). K14 timed wait until TK reaches the target. -/
  | waitt (core : Nat) (g : BitVec 3) (s : BitVec 3)
  /-- DONE (R283). K14 end of a function or of the service context, reporting status, OUT_LEN and RESULT. -/
  | done (core : Nat) (g : BitVec 3) (s : BitVec 3)
  /-- ERET (R286). K14 return from emulation to EPC. -/
  | eret (core : Nat) (g : BitVec 3)
  /-- EMULATION_VECTOR (R286). A reserved encoding with a true guard sets EPC and ECAUSE and branches to 0x0004. -/
  | emulationVector (core : Nat)
  /-- CONTEXT_RESUME (R260). The core resumes the next ready context in bank order once the issuing context suspends or ends. -/
  | contextResume (core : Nat)
  /-- WAITT_REACHED (R278). The schedule tick reaches a suspended WAITT target, and the context becomes ready. -/
  | waittReached (core : Nat) (ctx : Nat)
  /-- MULE_START (R130). A write of START on a raw channel checks its registers and starts a copy. -/
  | muleStart (ch : Nat) (tag : Nat) (data : BitVec 64)
  /-- MULE_DISABLE (R134). A write of DISABLE stops the channel at once and sets DISABLED. -/
  | muleDisable (ch : Nat) (tag : Nat) (data : BitVec 64)
  /-- CHANNEL_LIST_READ_RETURN (R132). A raw channel's lists are read and checked before its first data request. -/
  | channelListReadReturn (ch : Nat) (srcList : Bytes) (dstList : Bytes)
  /-- CHUNK_READ_RETURN (R131). A chunk's read data returns to the window, and its writes are issued in copy order. -/
  | chunkReadReturn (ch : Nat) (m : Nat) (data : Bytes)
  /-- CHANNEL_DONE (R133). A raw channel's read-back returns, DONE sets, and a vector or MULE event is raised. -/
  | channelDone (ch : Nat)
  /-- CHANNEL_BLOCK_START (R281). The firmware channel starts the next queued channel block when the previous one ends. -/
  | channelBlockStart (core : Nat)
  /-- HEN_HEALTH_ALARM (R338). An RCT or APT alarm on a source discards its pending bits and may fail the source. -/
  | henHealthAlarm (source : Nat) (test : Nat)
  /-- CONDITIONER_OUTPUT (R339). 2,048 tested raw bits are conditioned by SHA3-256 into a pool output. -/
  | conditionerOutput (raw : Bytes)
  /-- DRBG_REQUEST_DONE (R340). A DRBG request finishes with its update step, and its bytes are delivered to the consumer. -/
  | drbgRequestDone (inst : Nat)
  /-- DRBG_RESEED_DEADLINE (R340). 10,000 ticks after an instance's last reseed, it must reseed before its next request. -/
  | drbgReseedDeadline (inst : Nat)
  /-- RNG_DATA_READ (R346). A read of AV_RNG_DATA removes 4 FIFO bytes or sets RNG_EMPTY, and triggers a refill when needed. -/
  | rngDataRead (addr : Nat) (size : Nat) (tag : Nat)
  /-- HEN_TEST_WRITE (R347). A write to AV_HEN_TEST sets test-pattern mode in FACTORY, or is discarded and sets REFUSED. -/
  | henTestWrite (tag : Nat) (data : BitVec 64)
  /-- HELLO (R331). A received HELLO frame is checked for matching tables, LEASE_BASE and complementary HOME vectors. -/
  | hello (hdr : FrameHdr) (msg : HelloMsg)
  /-- KEX (R331). A received KEX frame supplies the ML-KEM and ECDH material of the key agreement. -/
  | kex (hdr : FrameHdr) (kem : Bytes) (point : Bytes)
  /-- CONFIRM (R331). A received CONFIRM is compared with the expected value, and on a match the session is established. -/
  | confirm (hdr : FrameHdr) (value : Bytes)
  /-- HEARTBEAT (R316). A received heartbeat refreshes the loss timer and re-examines waiting handovers. -/
  | heartbeat (hdr : FrameHdr) (msg : HeartbeatMsg)
  /-- FAULT_NOTICE (R316). A received fault notice declares the twin lost. -/
  | faultNotice (hdr : FrameHdr) (cause : Nat) (parts : List Nat)
  /-- COMMIT (R318). The shadow applies a COMMIT frame in SEQ order and acknowledges it within 20 ticks. -/
  | commit (hdr : FrameHdr) (items : List CommitItem)
  /-- COMMIT_ACK (R318). An acknowledgement brings its descriptors to Committed, and their completions are written. -/
  | commitAck (hdr : FrameHdr) (seqs : List Nat)
  /-- STATE (R321). A received STATE frame applies forwarded page-write outcomes, slot writes or a partition reset. -/
  | state (hdr : FrameHdr) (item : StateItem)
  /-- SYNC_DATA (R332). The synchronisation target applies copied state. -/
  | syncData (hdr : FrameHdr) (item : SyncItem)
  /-- SYNC_DONE (R332). Synchronisation of a partition ends, and the source becomes HOME and the target SHADOW. -/
  | syncDone (hdr : FrameHdr) (part : Nat)
  /-- HANDOVER_BEGIN (R327). The twin learns that a drain handover of the partition has begun. -/
  | handoverBegin (hdr : FrameHdr) (part : Nat)
  /-- HANDOVER_DONE (R327). The twin adopts the handed partition under steps 4 and 5 of R325. -/
  | handoverDone (hdr : FrameHdr) (part : Nat) (epoch : Nat)
  /-- DETACH (R333). A received DETACH makes the block proceed with the detach. -/
  | detach (hdr : FrameHdr)
  /-- SYNC_COPY_END (R332). The source finishes copying a partition's state and sends SYNC_DONE. -/
  | syncCopyEnd (part : Nat)
  /-- HEARTBEAT_SEND (R316). Every 20 ticks the block sends a heartbeat. -/
  | heartbeatSend
  /-- HELLO_SEND (R316). Every 1,000 ticks a block with a pairing record, the link up and no session sends HELLO. -/
  | helloSend
  /-- TWIN_LOSS (R316). 100 ticks without a heartbeat, or a COMMIT frame unacknowledged for 100 ticks, declare the twin lost. -/
  | twinLoss
  /-- TW_LINK_UP_CHANGE (R316). TW_LINK_UP changes, which enables or stops the sending of HELLO. -/
  | twLinkUpChange (up : Bool)
  /-- REPLAY_TIMEOUT (R315). ACK_SEQ has not advanced for 4 ticks, so the sender resends from ACK_SEQ + 1. -/
  | replayTimeout
  /-- COMMIT_FLUSH (R318). 100 ns after its first entry a partly filled COMMIT frame is sent. -/
  | commitFlush
  /-- SESSION_REKEY (R331). After 2^32 frames or 3,600,000,000 ticks a new key exchange runs inside the session. -/
  | sessionRekey
  /-- LEASE_RENEWAL (R324). Every 500 ticks the holder renews each lease by compare-and-swap. -/
  | leaseRenewal (part : Nat)
  /-- LEASE_RENEWAL_RESPONSE (R324). A renewal compare-and-swap returns, and an unexpected value fences the block. -/
  | leaseRenewalResponse (part : Nat) (old : BitVec 64)
  /-- LEASE_RENEWAL_RETRY (R324). Every 50 ticks a renewal that failed is repeated. -/
  | leaseRenewalRetry (part : Nat)
  /-- LEASE_OUTPUT_STOP (R324). 700 ticks after the last successful renewal the block stops output for the partition. -/
  | leaseOutputStop (part : Nat)
  /-- LEASE_FENCED (R324). 1,000 ticks without renewal fence the block, and the partition goes STANDBY. -/
  | leaseFenced (part : Nat)
  /-- LEASE_WATCH_READ (R325). Every 100 ticks the lease is re-read during a watch, and a lease unchanged for 1,000 ticks is taken. -/
  | leaseWatchRead (part : Nat) (word : BitVec 64)
  /-- LEASE_TAKE_RESPONSE (R325). The take compare-and-swap returns; on success completions are rewritten and the ring is re-fetched. -/
  | leaseTakeResponse (part : Nat) (old : BitVec 64)
  /-- HANDOVER_TIMEOUT (R327). A handover that has not ended within 2,000 ticks becomes a release. -/
  | handoverTimeout (part : Nat)
  /-- CASE_ALARM (R350). A case contact stays open for 1 ms, and the source becomes active and alarms. -/
  | caseAlarm (n : Nat)
  /-- MESH_ALARM (R352). A mesh loop reaches its mismatch threshold, and the source alarms. -/
  | meshAlarm (n : Nat) (mismatches : Nat)
  /-- MESH_BURST (R352). On the cell, every 125 ms a 64-chip burst checks the meshes and the VBAT, temperature and bond sources. -/
  | meshBurst (mismatches : List Nat) (vbatMv : Nat) (temp : Int) (bondOpen : Bool)
  /-- VENC_ALARM (R350). VENC is overvoltage or in its low band for the stated time. -/
  | vencAlarm (mv : Nat)
  /-- VBAT_ALARM (R350). VBAT is outside 2.2 to 3.6 V for 1 ms while VENC is present. -/
  | vbatAlarm (mv : Nat)
  /-- TEMP_ALARM (R350). The sentinel die temperature is outside −45 to +130 °C. -/
  | tempAlarm (temp : Int)
  /-- CLK_GLITCH (R350). A clock phase is shorter than 40% of its period while PORST_N is high. -/
  | clkGlitch
  /-- VOLT_GLITCH (R350). VDD_CORE or VDD_SRAM is outside its trip window for 2 ns while PORST_N is high. -/
  | voltGlitch
  /-- BOND_ALARM (R350). The face-to-face continuity loop opens or exceeds 100 Ω. -/
  | bondAlarm
  /-- CELL_EXHAUSTION (R351). VBAT falls below 2.2 V with VENC absent, and ERASE is applied. -/
  | cellExhaustion (mv : Nat)
  /-- VENC_ABSENT (R350). VENC falls below 4.0 V, and GANDER changes to VBAT within 1 µs. -/
  | vencAbsent (mv : Nat)
  /-- VENC_UP (R378). VENC comes up, and GANDER loads the recorder's valid bank and writes the buffered alarms; cfgOk: a copy of the sentinel configuration passes its CRC (R354); cellKept: the battery-backed state was kept (R360). -/
  | vencUp (mv : Nat) (cfgOk : Bool) (cellKept : Bool)
  /-- GANDER_EVALUATION (R358). Each microsecond GANDER applies the highest response of the confirmed alarms once and records every source. -/
  | ganderEvaluation
  /-- STORE_INVERSION (R359). Every 24 hours GANDER inverts the master key store and toggles INVERTED. -/
  | storeInversion
  /-- FUSE_BLOW (R355). A write of GO in AV_GANDER_FUSE starts a fuse blow in FACTORY, or sets REFUSED. -/
  | fuseBlow (tag : Nat) (data : BitVec 64)
  /-- FUSE_BLOW_DONE (R355). A fuse blow completes after 100 µs, and DONE sets. -/
  | fuseBlowDone
  /-- NONCE_EXPIRY (R362). A CHALLENGE nonce expires 600,000,000 ticks after issue. -/
  | nonceExpiry
  /-- CEREMONY_EXPIRY (R365). The ceremony closes 3,600,000,000 ticks after opening, and its ephemerals and shares are zeroed. -/
  | ceremonyExpiry
  /-- OP_MINUTE (R368). OP_MINUTES increments, and a commit starts on each hour. -/
  | opMinute
  /-- EXTREMES_SAMPLE (R370). Each millisecond temperatures and voltages are sampled into the extremes entries. -/
  | extremesSample (ts : Int) (tj : Int) (venc : Nat) (vbat : Nat)
  /-- REC_COMMIT (R377). A write of AV_REC_CTRL.COMMIT starts a recorder commit. -/
  | recCommit (tag : Nat)
  /-- DEFERRED_COMMIT (R377). A severity-2 or archive commit deferred by the 1,000,000-tick spacing starts. -/
  | deferredCommit
  /-- REC_COMMIT_DONE (R377). A commit finishes or fails program-verify, and any queued commit starts. -/
  | recCommitDone (ok : Bool)
  /-- ARCHIVE (R379). A write of UP_TO archives the read severity-3 records, updates ARCHIVE_DIGEST and commits, or is refused. -/
  | archive (tag : Nat) (upTo : BitVec 64)
  /-- REC_WORD_READ (R379). A 64-bit read of the working copy marks a record word as read for the archive rule. -/
  | recWordRead (addr : Nat) (size : Nat) (tag : Nat)
  /-- THERMAL_STEP (R24). Every 1,000 ticks the thermal governor lowers or raises each region's ceiling by 100 MHz. -/
  | thermalStep (sensors : List Int)
  /-- THERMAL_CLAMP (R389). A sensor reads 125 °C or more, and the region's domains go to 400 MHz within 10 µs. -/
  | thermalClamp (sensor : Nat) (temp : Int)
  /-- THERMAL_CLAMP_LIFT (R389). Every sensor of a clamped region reads below 120 °C, and the clamp lifts. -/
  | thermalClampLift (region : Nat) (sensors : List Int)
  /-- DVFS_READING (R386). Every 1,000 ticks the aging monitors are read and the VCORE_REQ code is recomputed. -/
  | dvfsReading (needs : List Nat)
  /-- FREQUENCY_RAISE (R386). A domain's frequency rises after a raised request has been held for 20 µs. -/
  | frequencyRaise (domain : Nat)
  /-- PLL_UNLOCK (R391). A PLL loses lock while PORST_N is high, and the domains it feeds stop. -/
  | pllUnlock (domains : List Nat)
  /-- PLL_LOCK (R391). Lock returns, and the stopped domains resume. -/
  | pllLock (domains : List Nat)
  /-- SOURCE_INACTIVE (R350). A GANDER source's condition ends, such as a case contact closing again or a glitch's 1 ms window running out, so the source becomes inactive and can alarm again after 1 ms. -/
  | sourceInactive (source : Nat)
  /-- MPORT_PAIRED_NO_RESPONSE (R329). A master-port request for a paired partition's work has had no response for 200 ticks while the twin is SHADOW, which triggers a release. -/
  | mportPairedNoResponse (req : Nat)
  /-- RELEASE_ACK_WAIT_END (R329). 20 ticks into a release, scattered entries whose commit acknowledgement has not arrived are abandoned. -/
  | releaseAckWaitEnd (part : Nat)
  /-- VCORE_CODE_STEP_DUE (R386). 20 µs after the last VCORE_REQ change, a request that is still unmet takes its next step of at most 8 codes. -/
  | vcoreCodeStepDue
  deriving DecidableEq, Repr

end Sys2Proof
end

