-- ==== Sys2Proof/Machine/State.lean ====
section
/-! DEFINITION. The state of the block: every register, queue, buffer, counter and mode that the spec gives it, as
plain data, and the queue of commands that wait. INVENTORY.md lists each field with the rule that names it and its
reset value. Sparse tables (`Table`) hold an entry only where it differs from the record type's default. -/

namespace Sys2Proof.Machine

open Sys2Proof

/-! ## Time base (01 R17 to R22, 02 R44, R45) -/

/-- The two clocks of the block and what external time does to them. -/
structure TimeBase where
  /-- The interval clock, in ticks; it counts on through every reset, and every interval is a difference of two of its
  values (R18; log entry 14). -/
  interval : Nat := 0
  /-- The schedule tick, AV_TICK. -/
  sched : BitVec 64 := 0
  /-- External time in microseconds as last sampled, carried forward between samples. -/
  ext : BitVec 64 := 0
  timeValid : Bool := false
  synced : Bool := false
  holdover : Bool := true
  hold : Bool := false
  slew : Bool := false
  holdoverSeen : Bool := false
  backSeen : Bool := false
  jumpSeen : Bool := false
  slewSeen : Bool := false
  /-- A difference of -1 or +1 still to be taken up, and the ticks in which it is (R20). -/
  absorb : Int := 0
  absorbLeft : Nat := 0
  /-- Microseconds of external time into the present 100 of a slew. -/
  slewPhase : Nat := 0
  /-- Ticks since the last accepted sample (02 R45). -/
  sinceSample : Nat := 0
  badNs : Nat := 0
  stbTimeouts : Nat := 0
  deriving DecidableEq, Repr

/-! ## Slave port and master ports (02) -/

/-- AV_SPORT_ERR, AV_SPORT_ERR_COUNT and the response channel. -/
structure SlavePort where
  sizeErr : Bool := false
  alignErr : Bool := false
  ownerErr : Bool := false
  firstAddr : Nat := 0
  firstTag : Nat := 0
  count : Nat := 0
  /-- The response channel after the last access: read data, and OK or ERROR. -/
  lastRead : BitVec 64 := 0
  lastOk : Bool := true
  /-- The last access was accepted; one to a register whose earlier write has not taken effect is not (R31, 14 R321). -/
  taken : Bool := true
  deriving DecidableEq, Repr

/-- What a master-port request is for (02 R37, R41). Entries are named by ring pair and submission index. -/
inductive Purpose where
  | fetch (ring : Nat)
  | poll (ring : Nat)
  | srcList (ring : Nat) (sub : Index)
  | dstList (ring : Nat) (sub : Index)
  | gather (ring : Nat) (sub : Index)
  | aux (ring : Nat) (sub : Index)
  | output (ring : Nat) (sub : Index)
  | readback (ring : Nat) (sub : Index)
  | completion (ring : Nat) (q : Index)
  | shadow (ring : Nat)
  | irq (vec : Nat)
  | leaseRenew (part : Nat)
  | leaseRead (part : Nat)
  | leaseTake (part : Nat)
  | leaseGive (part : Nat)
  | image
  | chanSrcList (ch : Nat)
  | chanDstList (ch : Nat)
  | chanRead (ch m : Nat)
  | chanWrite (ch m : Nat)
  | chanReadback (ch : Nat)
  /-- A request of work that has been cut off, and what it was for: its response is discarded (02 R42). -/
  | discarded (was : Purpose)
  deriving DecidableEq, Repr

/-- The request kinds of R37. -/
inductive ReqKind where
  | read | write | cas
  deriving DecidableEq, Repr

/-- A request issued on a master port whose response has not come. -/
structure Request where
  id : Nat
  /-- 0 M0, 1 M1. -/
  port : Nat
  kind : ReqKind
  purpose : Purpose
  part : Nat
  addr : Nat
  len : Nat
  /-- Interval tick of issue. -/
  issued : Nat
  /-- The bytes of an ordered write, kept for a repeat, and whether this request is the repeat (02 R41, 04 R91). -/
  data : Bytes := []
  again : Bool := false
  deriving DecidableEq, Repr

/-- What the block puts on its boundary: requests on the master ports with their data and ordering class (02 R38),
and frames on the twin port (14 R314). The log is the model's own (log entry 4). -/
inductive Sent where
  | read (port part ring : Nat) (ordered : Bool) (addr len : Nat)
  | write (port part ring addr : Nat) (ordered : Bool) (data : Bytes)
  | cas (port part ring : Nat) (ordered : Bool) (addr : Nat) (expected new : BitVec 64)
  | hello (m : HelloMsg)
  | kex (kem point : Bytes)
  | confirm (value : Bytes)
  | heartbeat (m : HeartbeatMsg)
  | faultNotice (cause : Nat) (parts : List Nat)
  | commit (seq : Nat) (items : List CommitItem)
  | commitAck (seqs : List Nat)
  | state (seq : Nat) (item : StateItem)
  | syncData (item : SyncItem)
  | syncDone (part : Nat)
  | handoverBegin (part : Nat)
  | handoverDone (part epoch : Nat)
  | detach
  | replay (fromSeq : Nat)
  | vcoreReq (code : Nat)
  deriving DecidableEq, Repr

/-- AV_MPORT_ERR, AV_MPORT_ERR_COUNT and the outstanding requests. -/
structure MasterPorts where
  /-- AV_MPORT_ERR [7:0]. -/
  err : BitVec 8 := 0
  count0 : Nat := 0
  count1 : Nat := 0
  outst : List Request := []
  nextId : Nat := 0
  deriving DecidableEq, Repr

/-! ## Modes, boot and structure image (03) -/

/-- The modes of AV_MODE (R57). -/
inductive Mode where
  | factory | configure | operational | maintenance | locked | zeroized
  deriving DecidableEq, Repr

/-- AV_MODE, AV_GLOBAL_STATUS and AV_RESET. -/
structure ModeCtl where
  mode : Mode := .configure
  /-- The requested mode while a change waits for its drain. -/
  transition : Option Mode := none
  reqRefused : Bool := false
  lockCause : Nat := 0
  ready : Bool := false
  halted : Bool := false
  haltCause : Nat := 0
  bootStep : Nat := 1
  /-- Interval tick of reset release, from which the boot timeline runs (R61). -/
  releasedAt : Nat := 0
  henSeeded : Bool := false
  imgLoaded : Bool := false
  calDone : Bool := false
  bistDone : Bool := false
  /-- PORST_N is asserted. -/
  porstLow : Bool := false
  /-- The wipe of a cold or warm reset runs, on every OX and lattice unit (08 R188, 09 R210). -/
  wiping : Bool := false
  /-- A warm reset in progress: with a handover first, and since when; steps 1 to 4 of 13 R305. -/
  warm : Option (Bool × Nat) := none
  handoverFailed : Bool := false
  warmCount : Nat := 0
  deriving DecidableEq, Repr

/-- One partition-table entry of the structure image (R51). -/
structure PartCfg where
  ringFirst : Nat := 0
  ringCount : Nat := 0
  slotFirst : Nat := 0
  slotCount : Nat := 0
  ctxFirst : Nat := 0
  ctxCount : Nat := 0
  vecFirst : Nat := 0
  vecCount : Nat := 0
  stagingKib : Nat := 0
  minShare : Nat := 0
  maxShare : Nat := 0
  enabled : Bool := false
  paired : Bool := false
  home : Bool := false
  deriving DecidableEq, Repr

/-- One ring-table entry (R51); BURST is 1 to 256. -/
structure RingCfg where
  burst : Nat := 1
  weight : Nat := 0
  pollAllowed : Bool := false
  deriving DecidableEq, Repr

/-- One personality of the set with its balancer bounds (R51, 07 R138). -/
structure PersCfg where
  id : Nat
  cls : Nat
  maskOrder : Nat
  minLanes : Nat
  maxLanes : Nat
  initial : Nat
  deriving DecidableEq, Repr

/-- What a structure image puts in force. -/
structure Image where
  imageId : BitVec 64 := 0
  rollback : Nat := 0
  advance : Bool := false
  parts : Table PartCfg := []
  rings : Table RingCfg := []
  /-- Base and size in KiB of staging, context, key slot and ring state. -/
  storeMap : List (Nat × Nat) := []
  pers : List PersCfg := []
  switchLimit : Nat := 1
  program : List (BitVec 14) := []
  common : Bytes := []
  /-- Source, response and mesh mode of each listed sentinel entry. -/
  sentinel : List (Nat × Nat × Bool) := []
  /-- SHA-384 of the partition table with every FLAGS.HOME bit cleared (14 R314). -/
  tableDigest : Bytes := []
  deriving DecidableEq, Repr

/-- The image load registers and a load in progress. -/
structure ImageCtl where
  /-- AV_IMG_ADDR [63:6]. -/
  addr : BitVec 58 := 0
  startRefused : Bool := false
  st : Nat := 0
  reason : Nat := 0
  loads : Nat := 0
  imageId : BitVec 64 := 0
  faultOff : Nat := 0
  /-- The value the fuse counter advances to, and when the next step ends. -/
  advanceTo : Option (Nat × Nat) := none
  staged : Option Image := none
  inForce : Image := {}
  deriving DecidableEq, Repr

/-! ## Health and store (03 R64 to R68, 06) -/

/-- States of a unit in AV_UNIT_STATE. -/
inductive UnitState where
  | spare | inService | quarantined | retired
  deriving DecidableEq, Repr

/-- One unit: its state and what the health manager remembers of it. -/
structure UnitRec where
  st : UnitState := .spare
  /-- Operating minutes at each quarantine within the last 24 hours, newest first (R65). -/
  quarantines : List Nat := []
  quarantinedAt : Nat := 0
  /-- Interval tick of the last mismatch that a successful retry followed (07 R160). -/
  loneMismatch : Option Nat := none
  /-- Interval tick of the last periodic self-test. -/
  tested : Nat := 0
  /-- The personality index a data lane carried before its quarantine; 64 for a key lane (R67). -/
  before : Nat := 0
  /-- The logical position of a DRAKE core in service (12 R275). -/
  pos : Nat := 0
  deriving DecidableEq, Repr

/-- The health manager. -/
structure Health where
  units : Table UnitRec := []
  quarantines : Nat := 0
  retestPass : Nat := 0
  retirements : Nat := 0
  promotions : Nat := 0
  deriving DecidableEq, Repr

/-- The central store as registers show it. -/
structure Store where
  corrected : Nat := 0
  uncorrectable : Nat := 0
  lastBank : Nat := 0
  /-- Banks and ticks of the corrected errors within the last 1,000 ticks, newest first. -/
  bankErrs : List (Nat × Nat) := []
  /-- Banks whose contents migrate. -/
  migrating : List Nat := []
  /-- Reductions of staging in force, in banks without a replacement (06 R121). -/
  reduced : Nat := 0
  deriving DecidableEq, Repr

/-! ## Rings (04) -/

/-- Ring pair states of R69. -/
inductive RingSt where
  | disabled | running | stopping | halted | fault
  deriving DecidableEq, Repr

/-- A push slot: its eight words and which of them have been written (R78). -/
structure PushSlot where
  words : List (BitVec 64) := List.replicate 8 0
  mask : BitVec 8 := 0
  deriving DecidableEq, Repr

/-- An open chain (R87, R88): its first member, members fetched, DST_KEEP of the last member, the failed member. -/
structure Chain where
  first : Index
  fetched : Nat
  lastKeep : Bool
  /-- Index and status code of the member that failed. -/
  failed : Option (Index × Nat) := none
  deriving DecidableEq, Repr

/-- A fetch or poll burst whose reads are outstanding (R77, R80). -/
structure Burst where
  first : Index
  count : Nat
  poll : Bool
  /-- Interval tick at which its first read was issued. -/
  at_ : Nat := 0
  /-- Its place among the turns that admitted entries (01 R13, 13 R294). -/
  order : Nat := 0
  /-- LOCKED was entered while its reads were outstanding: its entries are cut off (03 R60). -/
  locked : Bool := false
  deriving DecidableEq, Repr

/-- A failed request of R91: the tick at which it is repeated, whether its repeat has failed too, whether a repeat is
outstanding, the request that issued it first and the one that issued it last; for a completion or shadow write its port, address and bytes; for a fetch
the reads that failed, as port, address and length. -/
structure Failed where
  due : Nat
  twice : Bool := false
  out : Bool := false
  orig : Nat := 0
  req : Nat := 0
  purpose : Purpose
  port : Nat := 0
  addr : Nat := 0
  data : Bytes := []
  reads : List (Nat × Nat × Nat) := []
  deriving DecidableEq, Repr

/-- A completion that has been issued and that no shadow word shows yet (04 R84): its index, whether its write has been
accepted, whether it raises the ring's vector, and its port. -/
structure Signal where
  q : Index
  accepted : Bool := false
  raises : Bool
  port : Nat
  deriving DecidableEq, Repr

/-- A completion that waits behind a failed completion write (R91) or for the twin's acknowledgement. -/
structure Completion where
  ring : Nat
  tag : BitVec 64
  status : Nat
  detail : Nat
  engine : Nat
  outLen : Nat
  sub : Index
  result : BitVec 64
  irq : Bool
  port : Nat := 0
  /-- The completion of a doorbell overrun, which no entry and no reserved slot stands for. -/
  overrun : Bool := false
  /-- The 32 bytes and the completion index, once a commit entry has fixed them (14 R317). -/
  bytes : Option Bytes := none
  slot : Option Index := none
  deriving DecidableEq, Repr

/-- What a block keeps of a ring for the twin (14 R317, R321, R325). -/
structure RingTwin where
  /-- Digests of the last 64 committed entries, newest first. -/
  digests : List Bytes := []
  doorbell : Index := 0
  /-- Committed completions by completion index, their 32 bytes and their submission index. -/
  committed : List (Index × Bytes × Index) := []
  /-- Kept chain outputs taken from applied frames, by the member that kept them. -/
  keep : List (Index × Bytes) := []
  deriving DecidableEq, Repr

/-- One ring pair. -/
structure RingRec where
  st : RingSt := .disabled
  setup : List (BitVec 64) := List.replicate 8 0
  setupMask : BitVec 8 := 0
  subBase : BitVec 64 := 0
  cmpBase : BitVec 64 := 0
  shadow : BitVec 64 := 0
  subLog2 : Nat := 0
  cmpLog2 : Nat := 0
  vector : Nat := 0
  poll : Bool := false
  pollN : Nat := 0
  p : Index := 0
  f : Index := 0
  c : Index := 0
  q : Index := 0
  d : Index := 0
  push : List PushSlot := List.replicate 4 {}
  fetchErr : Bool := false
  cmpErr : Bool := false
  setupErr : Bool := false
  setupCause : Nat := 0
  dbStale : Bool := false
  dbIgnored : Bool := false
  pushDropped : Bool := false
  cmpBad : Bool := false
  stallTicks : Nat := 0
  /-- The ring has been stalled in the present tick (R83). -/
  stallMark : Bool := false
  retracted : Nat := 0
  retractP : Index := 0
  chain : Option Chain := none
  /-- Kept outputs: the member that kept each, its bytes, the staging lines it holds. -/
  kept : List (Index × Bytes × Nat) := []
  burst : Option Burst := none
  /-- A fetch that has failed, and the completion and shadow writes that have failed, in the order of their issue (R91). -/
  failedF : Option Failed := none
  failedW : List Failed := []
  /-- Completions issued and not shown by a shadow word, in index order (R84). -/
  sig : List Signal := []
  held : List Completion := []
  /-- STOP is to resume when a completion-write fault ends (R95). -/
  stopAfter : Bool := false
  pollDue : Bool := false
  pollAt : Nat := 0
  turns : Nat := 0
  inRound : Bool := false
  forfeited : Bool := false
  tw : RingTwin := {}
  deriving DecidableEq, Repr

/-! ## Entries -/

/-- A descriptor taken apart (05 R97, R99). -/
structure Desc where
  phase : Bool := false
  chain : Bool := false
  irq : Bool := false
  fence : Bool := false
  family : Nat := 0
  op : Nat := 0
  var : Nat := 0
  key1 : Nat := 0
  ctx : Nat := 0
  ctxUse : Bool := false
  srcLen : Nat := 0
  srcAddr : Nat := 0
  dstAddr : Nat := 0
  auxAddr : Nat := 0
  dstLen : Nat := 0
  auxLen : Nat := 0
  srcSg : Bool := false
  dstSg : Bool := false
  srcPrev : Bool := false
  dstKeep : Bool := false
  param : Nat := 0
  tag : BitVec 64 := 0
  deriving DecidableEq, Repr

/-- Where an entry stands between Fetched and Completed (01 R13). -/
inductive Stage where
  /-- Pushed and fetched, and not examined before the entries of its ring that come first have been (04 R78; log entry 15). -/
  | ahead
  /-- Pushed, waiting for its turn. -/
  | pushed
  /-- Validated, waiting for check 2 and class credit. -/
  | credit
  /-- Charged, waiting for staging lines. -/
  | staging
  | lists
  | gather
  /-- Staged, in its dispatch queue. -/
  | queued
  | dispatched
  /-- Output writes issued. -/
  | writing
  | readback
  /-- Scattered, with a slot write waiting on the key lane pair. -/
  | keyWrite
  /-- Scattered; waits for an earlier chain member to complete. -/
  | scattered
  /-- A commit entry sent, its acknowledgement not arrived. -/
  | commit
  deriving DecidableEq, Repr

/-- A key copied at dispatch (07 R153): slot, generation, and the record copied. -/
structure KeyCopy where
  slot : Nat
  gen : Nat
  slotRec : SlotRec
  deriving DecidableEq, Repr

/-- The result of an execution. -/
structure Result where
  status : Nat := 0
  detail : Nat := 0
  result : BitVec 64 := 0
  out : Bytes := []
  /-- New context contents to be written back. -/
  ctx : Option CtxRec := none
  /-- A key chain to be written: head slot and record; `written` once a call of the function has written it (12 R280). -/
  key : Option (Nat × SlotRec) := none
  written : Bool := false
  deriving DecidableEq, Repr

/-- An entry fetched and not completed. -/
structure Entry where
  ring : Nat
  sub : Index
  part : Nat
  raw : Bytes := []
  d : Desc := {}
  stage : Stage := .credit
  /-- Place in a chain, from 0, and whether the entry belongs to one. -/
  member : Nat := 0
  chained : Bool := false
  /-- The personality index whose queue the entry enters, and the algorithm code read at check 2 (07 R140). -/
  pers : Nat := 0
  alg : Nat := 0
  /-- Estimated cost in units of 1/12800 ns, and whether the entry was borrowed (13 R294, R295). -/
  cost : Nat := 0
  borrowed : Bool := false
  charged : Bool := false
  /-- Engine class of R291, and the unit time used, once the engine has reported it. -/
  cls : Nat := 7
  used : Option Nat := none
  /-- Its place among the turns that admitted entries (01 R13, 13 R294). -/
  order : Nat := 0
  lines : Nat := 0
  waitSince : Nat := 0
  srcList : List (Nat × Nat) := []
  dstList : List (Nat × Nat) := []
  src : Bytes := []
  aux : Bytes := []
  keys : List KeyCopy := []
  refsHeld : Bool := false
  ctx : Option CtxRec := none
  /-- Unit that executes it, as an engine index, and the units a retry excludes. -/
  engine : Nat := 255
  excluded : List Nat := []
  /-- Interval tick of dispatch, from which the time limit of R18 runs. -/
  dispatchedAt : Option Nat := none
  /-- Interval tick at which the entry was fetched (17 R371). -/
  fetchedAt : Nat := 0
  /-- Random bytes delivered for it, and whether a request waits. -/
  rnd : Bytes := []
  asked : Bool := false
  res : Option Result := none
  /-- Work units a generator of draws has used: candidates tested. -/
  tested : Nat := 0
  primes : List Nat := []
  /-- The master port chosen when it was executed (02 R39). -/
  port : Option Nat := none
  commitSeq : Nat := 0
  /-- The slot that the entry's key generation is to write has been erased since dispatch (08 R190). -/
  erased : Bool := false
  /-- Completion formed at the commit. -/
  done : Option Completion := none
  deriving DecidableEq, Repr

/-- Work an engine runs or a queue holds: a descriptor or a call of DRAKE firmware. -/
inductive Job where
  | entry (ring : Nat) (sub : Index)
  | call (core ctx : Nat)
  deriving DecidableEq, Repr

/-- A queue entry; a retry names the units it excludes. -/
structure QItem where
  job : Job
  retry : Bool := false
  excluded : List Nat := []
  /-- Interval tick of the mismatch that the retry follows; none where it follows another cause. -/
  mism : Option Nat := none
  deriving DecidableEq, Repr

/-! ## Partitions (13, 10 R230, 14 R311) -/

/-- AV_KM_LOCK of a partition. -/
structure KmLock where
  held : Bool := false
  holder : Nat := 0
  contended : Bool := false
  expired : Bool := false
  badReq : Bool := false
  lease : Nat := 0
  acquisitions : Nat := 0
  ends : Nat := 0
  deriving DecidableEq, Repr

/-- Roles of 14 R311. -/
inductive Role where
  | unpaired | home | shadow | solo | standby | syncSource | syncTarget | handing
  deriving DecidableEq, Repr

/-- Twin state of a partition (14 R311, R323 to R329). -/
structure PartTwin where
  role : Role := .unpaired
  /-- The lease word last read or written. -/
  lease : BitVec 64 := 0
  renewedAt : Nat := 0
  renewDue : Nat := 0
  /-- No output for the partition until a renewal succeeds (R324). -/
  stopped : Bool := false
  /-- A watch runs (R325 step 2); the word first read, when, and when the next read is due. -/
  watching : Bool := false
  watch : Option (BitVec 64 × Nat × Nat) := none
  /-- The word that an outstanding take, renewal or give would leave. -/
  offered : Option (BitVec 64) := none
  /-- The renewal that is outstanding is that of step 1 of R325. -/
  atLoss : Bool := false
  /-- Tick at which a failed renewal is repeated (R324). -/
  retryAt : Option Nat := none
  wasShadow : Bool := false
  /-- A handover: since when; whether HANDOVER_BEGIN has been sent; whether the lease has been moved. -/
  handover : Option (Nat × Bool × Bool) := none
  /-- A release: since when scattered entries wait for acknowledgements. -/
  releaseAt : Option Nat := none
  /-- SEQ of the SYNC_DONE that ended the copy (R332). -/
  syncDone : Option Nat := none
  /-- A detach left the partition in STANDBY (R333). -/
  detached : Bool := false
  deriving DecidableEq, Repr

/-- Per-partition statistics (17 R371, R380). -/
structure PartStats where
  /-- Latency bins, 16. -/
  lat : List Nat := List.replicate 16 0
  /-- Queue-depth bins, 8. -/
  depth : List Nat := List.replicate 8 0
  stallUs : Nat := 0
  overloadUs : Nat := 0
  maxLat : Nat := 0
  maxDepth : Nat := 0
  deriving DecidableEq, Repr

/-- One partition. -/
structure PartRec where
  resetRefused : Bool := false
  halted : Bool := false
  haltRing : Nat := 0
  /-- A partition reset in progress and since when. -/
  resetting : Option Nat := none
  abortDropped : Nat := 0
  resets : Nat := 0
  saturated : Bool := false
  asleep : Bool := false
  sleeps : Nat := 0
  lock : KmLock := {}
  /-- Balance, allocation and frame total of each class, in 1/12800 ns. -/
  balance : List Int := List.replicate 7 0
  alloc : List Nat := List.replicate 7 0
  spent : List Nat := List.replicate 7 0
  backlogged : List Bool := List.replicate 7 false
  turns : Nat := 0
  inRound : Bool := false
  forfeited : Bool := false
  ringPtr : Nat := 0
  tw : PartTwin := {}
  stats : PartStats := {}
  deriving DecidableEq, Repr

/-- The scheduler (13 R293 to R298, R309). -/
structure Sched where
  frames : BitVec 64 := 0
  /-- Interval tick at which the present frame began; frames run from the end of boot. -/
  frameAt : Nat := 0
  caps : List Nat := List.replicate 7 0
  satFrame : BitVec 7 := 0
  satPeriod : BitVec 7 := 0
  satFrames : Nat := 0
  /-- Saturated frames of each class in the present adaptation period, and its frames so far. -/
  satCount : List Nat := List.replicate 7 0
  periodFrames : Nat := 0
  qosSel : BitVec 12 := 0
  partPtr : Nat := 0
  /-- Turns that have admitted entries so far. -/
  admitted : Nat := 0
  /-- The last periodic governor that acted: interval tick and place in the order of 01 R26. -/
  governor : Nat × Nat := (0, 0)
  deriving DecidableEq, Repr

/-! ## Lanes, OX and lattice units, key lanes (07, 08, 09, 10) -/

/-- What a lane is in service for. -/
inductive LaneRole where
  | none | data (pers : Nat) | loading (pers : Nat) | key | keyLoading
  deriving DecidableEq, Repr

/-- One cipher lane. -/
structure LaneRec where
  role : LaneRole := .none
  /-- A switch waits for the lane's work: the personality it goes to, 64 for the key-management configuration. -/
  switchTo : Option Nat := none
  /-- Tick at which a load ends. -/
  loadAt : Nat := 0
  job : Option Job := none
  /-- The units the job excludes, as a retry, and the tick of the mismatch it follows. -/
  jobRetry : List Nat := []
  jobMism : Option Nat := none
  startedAt : Nat := 0
  /-- Lane time of the job at the lane's frequency, in 1/12800 ns; how much of it the balancer has counted; and the generator blocks
that the job takes (07 R142, R155, R165). -/
  cost : Nat := 0
  counted : Nat := 0
  need : Nat := 0
  idleSince : Nat := 0
  /-- Generator blocks since the last seed; whether a seed has come and whether one is waited for. -/
  blocks : Nat := 0
  seeded : Bool := false
  seedAsked : Bool := false
  deriving DecidableEq, Repr

/-- Per-personality working state. -/
structure PersState where
  target : Nat := 0
  minNow : Nat := 0
  queue : List QItem := []
  /-- Lane-time spent executing in this evaluation period, in 1/12800 ns. -/
  busy : Nat := 0
  deriving DecidableEq, Repr

/-- The lanes and the balancer (07 R167). -/
structure Lanes where
  units : Table LaneRec := []
  pers : List PersState := []
  evalAt : Nat := 0
  switches : Nat := 0
  starve : Nat := 0
  lastSwitched : Nat := 0
  evaluations : Nat := 0
  single : Nat := 0
  double : Nat := 0
  reenc : Nat := 0
  lastLane : Nat := 0
  reseeds : Nat := 0
  deriving DecidableEq, Repr

/-- One OX or lattice unit. -/
structure MathUnit where
  job : Option Job := none
  /-- The units the job excludes, as a retry, and the tick of the mismatch it follows. -/
  jobRetry : List Nat := []
  jobMism : Option Nat := none
  /-- A wipe is due before the next job; `verify` marks one of a reset, which ends with a verifying read (08 R188). -/
  wiping : Bool := false
  verify : Bool := false
  /-- The partition whose reset cut its work off. -/
  cutFor : Option Nat := none
  /-- The tick in which its last job was cut off, and a mismatch that ends its job with the tick: the detail (08 R193, 09 R212). -/
  cutAt : Option Nat := none
  fatal : Option Nat := none
  idleSince : Nat := 0
  startedAt : Nat := 0
  /-- Jobs since the blinding generator's last seed, and the seed's request. -/
  jobs : Nat := 0
  seeded : Bool := false
  seedAsked : Bool := false
  /-- The fixed-time check phase has ended (08 R175, 09 R202). -/
  checked : Bool := false
  deriving DecidableEq, Repr

/-- The OX units (08 R194). -/
structure Ox where
  units : Table MathUnit := []
  queue : List QItem := []
  single : Nat := 0
  double : Nat := 0
  recheck : Nat := 0
  lastUnit : Nat := 0
  validation : Nat := 0
  timeouts : Nat := 0
  entropy : Nat := 0
  candidates : Nat := 0
  primes : Nat := 0
  max100ms : Nat := 0
  deriving DecidableEq, Repr

/-- The lattice units (09 R213). -/
structure Lat where
  units : Table MathUnit := []
  queue : List QItem := []
  single : Nat := 0
  double : Nat := 0
  recheck : Nat := 0
  lastUnit : Nat := 0
  validation : Nat := 0
  timeouts : Nat := 0
  entropy : Nat := 0
  signs : Nat := 0
  maxIter : Nat := 0
  over32 : Nat := 0
  deriving DecidableEq, Repr

/-- Key slots and the key lane pair's queue (10). -/
structure Keys where
  slots : Table SlotRec := []
  queue : List QItem := []
  /-- Which key lane served last: requests alternate (07 R154). -/
  lastLane : Nat := 0
  /-- ERASEs that wait for their chain's references, oldest first: head slot and entry. -/
  drains : List (Nat × Nat × Index) := []
  authFail : Nat := 0
  deriving DecidableEq, Repr

/-! ## MULE raw channels (06 R129 to R137) -/

/-- A transfer in progress on a raw channel. -/
structure ChanRun where
  src : Nat
  dst : Nat
  count : Nat
  /-- Sides of a firmware block (12 R281): 0 host, 1 channel window, 2 the context's bank. -/
  srcSel : Nat := 0
  dstSel : Nat := 0
  /-- The lists read, as pairs of address and length. -/
  srcList : List (Nat × Nat) := []
  dstList : List (Nat × Nat) := []
  listsRead : Bool := false
  /-- Chunks asked for and chunks read, by m; bytes whose writes are accepted. -/
  asked : List Nat := []
  got : List (Nat × Bytes) := []
  written : List Nat := []
  lastWrite : Nat := 0
  readback : Bool := false
  /-- Stopped by DISABLE, responses still outstanding. -/
  stopped : Bool := false
  deriving DecidableEq, Repr

/-- One raw channel. -/
structure Channel where
  src : BitVec 64 := 0
  dst : BitVec 64 := 0
  count : BitVec 32 := 0
  srcSg : Bool := false
  dstSg : Bool := false
  swap : Nat := 0
  irqEn : Bool := false
  vector : Nat := 0
  part : Nat := 0
  done : Bool := false
  err : Bool := false
  disabled : Bool := false
  descending : Bool := false
  startRefused : Bool := false
  busyWrite : Bool := false
  port : Nat := 0
  cause : Nat := 0
  errAddr : Nat := 0
  run : Option ChanRun := none
  /-- The window has been removed (06 R121). -/
  removed : Bool := false
  deriving DecidableEq, Repr

/-! ## Interrupt vectors (02 R43, 13 R299 to R303) -/

/-- One vector: its table entry, its moderation entry, and a message being reissued. -/
structure IrqVec where
  addr : BitVec 64 := 0
  data : BitVec 32 := 0
  ctl : BitVec 32 := 1
  countThresh : Nat := 1
  timeThresh : Nat := 0
  pending : Nat := 0
  wake : Bool := false
  woke : Bool := false
  due : Bool := false
  /-- Interval tick of the first pending completion. -/
  firstAt : Nat := 0
  /-- Port of the last completion signalled. -/
  port : Nat := 0
  /-- Failed messages to be reissued: the tick, the port, the address and the bytes. -/
  reissue : List (Nat × Nat × Nat × Bytes) := []
  deriving DecidableEq, Repr

/-! ## Twin port (14) -/

/-- A handshake in progress (R331). -/
structure Handshake where
  started : Nat
  /-- This block's serial. -/
  serial : BitVec 64
  ownHello : Option HelloMsg := none
  gotHello : Option HelloMsg := none
  /-- KEX of this block and of the twin: key or ciphertext, and point. -/
  ownKex : Option (Bytes × Bytes) := none
  gotKex : Option (Bytes × Bytes) := none
  /-- A new exchange inside a session. -/
  rekey : Bool := false
  /-- Ephemeral secrets and public parts: ML-KEM decapsulation key, ECDH scalar. -/
  kemDk : Bytes := []
  scalar : Nat := 0
  /-- The ML-KEM shared secret, on side 1. -/
  shared : Bytes := []
  /-- Random bytes delivered for it, and whether a request waits. -/
  rnd : Bytes := []
  asked : Bool := false
  /-- K_01, K_10, C_0, C_1. -/
  keys : Option (Bytes × Bytes × Bytes × Bytes) := none
  gotConfirm : Option Bytes := none
  deriving DecidableEq, Repr

/-- A session (R313, R315). -/
structure Session where
  k01 : Bytes := []
  k10 : Bytes := []
  began : Nat := 0
  frames : Nat := 0
  seqOut : Nat := 0
  /-- SEQ expected next from the twin. -/
  seqIn : Nat := 0
  /-- Highest own SEQ acknowledged plus one, and when it last advanced. -/
  acked : Nat := 0
  ackAt : Nat := 0
  /-- Unacknowledged frames: SEQ and words. -/
  replay : List (Nat × Nat) := []
  /-- Tag failures on frames with a good CRC: interval ticks, newest first. -/
  tagFails : List Nat := []
  deriving DecidableEq, Repr

/-- The twin port logic and its registers (R335). -/
structure Twin where
  linkUp : Bool := false
  record : Bool := false
  /-- LEASE_BASE of the pairing record, bits [63:15]. -/
  leaseBase : BitVec 49 := 0
  lost : Bool := false
  detaching : Bool := false
  lossSeen : Bool := false
  fencedSeen : Bool := false
  authFail : Bool := false
  hbAge : Nat := 0xFFFF
  serial : BitVec 64 := 0
  /-- Side of this block (R310), and the side that the pairing record keeps. -/
  side : Nat := 0
  recordSide : Nat := 0
  sel : BitVec 12 := 0
  takeovers : Nat := 0
  handovers : Nat := 0
  releases : Nat := 0
  fences : Nat := 0
  crcErr : Nat := 0
  tagErr : Nat := 0
  replays : Nat := 0
  sessions : Nat := 0
  bpTicks : Nat := 0
  commits : Nat := 0
  session : Option Session := none
  hs : Option Handshake := none
  /-- LEASE_BASE of a TWIN_ATTACH in progress, and its descriptor. -/
  attach : Option (BitVec 49 × Nat × Index) := none
  /-- The handshake of that TWIN_ATTACH has succeeded. -/
  shaken : Bool := false
  /-- Descriptor of a TWIN_DETACH in progress. -/
  detachEntry : Option (Nat × Index) := none
  /-- The COMMIT frame being filled and the tick of its first entry. -/
  fill : List CommitItem := []
  fillAt : Nat := 0
  /-- Commit frames sent and not acknowledged: SEQ, tick, the entries whose last part they carry, acknowledged. -/
  unacked : List (Nat × Nat × List (Nat × Index) × Bool) := []
  /-- STATE frames sent and not acknowledged, with the outcome that takes effect then (R321). -/
  forwarded : List (Nat × StateItem) := []
  /-- Parts of a split entry received so far (R319). -/
  parts : List CommitItem := []
  peer : Option HeartbeatMsg := none
  helloDue : Nat := 0
  heartbeatDue : Nat := 0
  deriving DecidableEq, Repr

/-! ## HEN (15) -/

/-- Who a random request is for (R341). -/
inductive Consumer where
  | lane (l : Nat)
  | unit (u : Nat)
  | gander
  | entry (ring : Nat) (sub : Index)
  | handshake
  | call (core ctx : Nat)
  | fifo
  deriving DecidableEq, Repr

/-- A waiting request. -/
structure HenReq where
  prio : Nat
  bytes : Nat
  asked : Nat
  who : Consumer
  /-- Reseed before the request (GENERATE_PR). -/
  pr : Bool := false
  /-- The instance that serves every request of the descriptor (R342), and whether another request follows. -/
  inst : Option Nat := none
  more : Nat := 0
  deriving DecidableEq, Repr

/-- One DRBG instance. -/
structure Drbg where
  seeded : Bool := false
  key : Bytes := []
  v : Bytes := []
  requests : Nat := 0
  reseedAt : Nat := 0
  reseedDue : Bool := false
  /-- Whether the deadline set reseedDue (counted in DEADLINE). -/
  byDeadline : Bool := false
  idleSince : Nat := 0
  deriving DecidableEq, Repr

/-- Steps of the start-up of R343. -/
inductive HenPhase where
  | off | warmup | testing | filling | seeding | running | stopped
  deriving DecidableEq, Repr

/-- HEN and its registers (R349). -/
structure Hen where
  phase : HenPhase := .off
  phaseAt : Nat := 0
  startupFail : Bool := false
  failSource : Nat := 0
  failTest : Nat := 0
  rngEmpty : Bool := false
  pool : List Bytes := []
  lastOut : Bytes := []
  insts : List Drbg := List.replicate 16 {}
  waiting : List HenReq := []
  rct0 : Nat := 0
  apt0 : Nat := 0
  rct1 : Nat := 0
  apt1 : Nat := 0
  /-- Interval ticks of the alarms of source 0 and of source 1, newest first. -/
  alarms0 : List Nat := []
  alarms1 : List Nat := []
  reseeds : Nat := 0
  prReseeds : Nat := 0
  deadline : Nat := 0
  fifo : Bytes := []
  testEn : Bool := false
  sources : BitVec 2 := 0
  rawSel : Bool := false
  testRefused : Bool := false
  pattern : BitVec 64 := 0
  /-- Raw bits of the selected source and conditioned bytes, readable in test-pattern mode. -/
  raw : Bytes := []
  cond : Bytes := []
  deriving DecidableEq, Repr

/-! ## GANDER (16) -/

/-- Configuration in force of one source (R354). -/
structure SrcCfg where
  response : Nat := 0
  prbs : Bool := false
  fromImage : Bool := false
  deriving DecidableEq, Repr

/-- One source. -/
structure SrcRec where
  active : Bool := false
  /-- Interval tick at which the source last became inactive; of an active glitch source, of its last event (R350). -/
  inactiveAt : Option Nat := none
  fired : Bool := false
  deriving DecidableEq, Repr

/-- An enrolled custodian (R363). -/
structure Custodian where
  enrolled : Bool := false
  mldsa : Bool := false
  ecKey : Bytes := []
  dsaKey : Bytes := []
  deriving DecidableEq, Repr

/-- An open master-key ceremony (R365). -/
structure Ceremony where
  m : Nat
  kcv : Bytes
  nonce : Bytes
  dk : Bytes
  scalar : Nat
  /-- SHA-384 of the MK_BEGIN output. -/
  context : Bytes
  opened : Nat
  /-- Custodian and share (x, y) of each accepted share. -/
  shares : List (Nat × Nat × Bytes) := []
  deriving DecidableEq, Repr

/-- GANDER and its registers (R367). -/
structure Gander where
  vencPresent : Bool := true
  lockLatch : Bool := false
  eraseLatch : Bool := false
  bootstrap : Bool := true
  inverted : Bool := false
  invertedAt : Nat := 0
  lockSeq : BitVec 32 := 0
  lockSeqFlash : BitVec 32 := 0
  mkInstalled : Bool := false
  /-- The 8 KiB of the store: MARKER, KCV, LINE and the key of that line, when a key is present. -/
  masterKey : Option Bytes := none
  mkKcv : Bytes := []
  mkLine : Nat := 0
  cust : List Custodian := List.replicate 8 {}
  sources : List SrcRec := List.replicate 19 {}
  cfg : List SrcCfg := []
  /-- Alarms confirmed and not yet evaluated. -/
  confirmed : List Nat := []
  /-- The response that has been applied and still stands (R358; log entry 49). -/
  applied : Nat := 0
  vencMv : Nat := 0
  vbatMv : Nat := 0
  temp : Int := 0
  lastLoop : Nat := 0
  mismatches : Nat := 0
  seeds : List (BitVec 31) := List.replicate 8 1
  /-- Alarms held on the cell, as source and response applied; 32 stands for cell exhaustion (R351, R356). -/
  cellBuf : List (Nat × Nat) := []
  cellOver : Table Nat := []
  fuseDone : Bool := false
  fuseRefused : Bool := false
  /-- A fuse blow in progress: source, action, tick of its end. -/
  blow : Option (Nat × Nat × Nat) := none
  nonce : Option (Bytes × Nat) := none
  ceremony : Option Ceremony := none
  deriving DecidableEq, Repr

/-! ## Event recorder (17) -/

/-- A record (R373), and which of its four 64-bit words have been read since it was written (R379). -/
structure Rec where
  kind : Nat
  sev : Nat
  subject : Nat
  count : Nat := 1
  first : Nat
  last : Nat
  cycle : Nat
  detail : Nat
  id : Nat
  read : BitVec 4 := 0
  deriving DecidableEq, Repr

/-- An extremes entry (R370): minimum and maximum of each value, none where it was never sampled. -/
structure Extremes where
  hour : Nat := 0
  ts : Option (Int × Int) := none
  tj : Option (Int × Int) := none
  venc : Option (Int × Int) := none
  vbat : Option (Int × Int) := none
  deriving DecidableEq, Repr

/-- The contents of the working copy and of a flash bank (R369). -/
structure RecCopy where
  seq : Nat := 0
  opMinutes : Nat := 0
  powerCycles : Nat := 0
  archived : Nat := 0
  nextId : Nat := 0
  digest : Bytes := List.replicate 32 0
  reserveLock : Bool := false
  lat : List Nat := List.replicate 16 0
  depth : List Nat := List.replicate 8 0
  stallUs : Nat := 0
  overloadUs : Nat := 0
  /-- 19 tamper counts and 206 mismatch counts. -/
  tamper : List Nat := List.replicate 19 0
  mismatch : List Nat := List.replicate 206 0
  retirements : Nat := 0
  failovers : Nat := 0
  earlyWrites : Nat := 0
  life : Extremes := {}
  hours : Table Extremes := []
  /-- The general area, by slot number 0 to 1,151. -/
  general : List (Nat × Rec) := []
  /-- The severity-3 area and behind it the reserve, in slot order. -/
  sev3 : List Rec := []
  sev3Lost : Nat := 0
  deriving DecidableEq, Repr

/-- The recorder and its registers (R382). -/
structure Recorder where
  copy : RecCopy := {}
  bankA : Option RecCopy := none
  bankB : Option RecCopy := none
  /-- Bank of the last good commit: false A, true B. -/
  bank : Bool := false
  /-- A commit in progress: the copy being written and the bank. -/
  committing : Option (RecCopy × Bool) := none
  /-- A further commit follows the one in progress. -/
  queued : Bool := false
  /-- A severity-2 or archive commit waits for the spacing of R377. -/
  deferred : Bool := false
  /-- Interval tick of the last commit that such a trigger started. -/
  spacedAt : Option Nat := none
  /-- Interval tick of the last commit that an hour boundary started (R381). -/
  hourAt : Option Nat := none
  noneValidSeen : Bool := false
  commitFail : Bool := false
  refused : Bool := false
  dropped : Nat := 0
  commitsA : Nat := 0
  commitsB : Nat := 0
  /-- Interval tick of the last minute and of the last sample. -/
  minuteAt : Nat := 0
  sampleAt : Nat := 0
  deriving DecidableEq, Repr

/-! ## Power, clocks and temperature (01 R23, R24, 18 R385 to R396) -/

/-- AV_PWR_STATUS, AV_THERMAL, AV_TJ_REGION and AV_DOMAIN_FREQ, and the governors behind them. -/
structure Power where
  code : Nat := 60
  codeMin : Nat := 60
  codeMax : Nat := 60
  codeChanges : Nat := 0
  /-- The code the last reading asks for. -/
  want : Nat := 60
  /-- Interval tick of the last change of VCORE_REQ and of its last raise. -/
  changedAt : Option Nat := none
  raisedAt : Option Nat := none
  pllUnlock : Bool := false
  /-- Domains stopped under R391. -/
  stopped : List Nat := []
  /-- Frequencies of the 140 domains in 100 MHz; 0 gated. -/
  freq : List Nat := List.replicate 140 0
  /-- The frequency that the last reading sets for each domain (18 R386). -/
  goal : List Nat := List.replicate 140 0
  /-- Domains whose step waits on a raised request. -/
  raising : List Nat := []
  /-- Ticks since the last reading in which a unit of each domain worked (01 R23). -/
  load : List Nat := List.replicate 140 0
  /-- Domains that the last reading gates while no unit of them works. -/
  gated : List Nat := []
  /-- The 32 junction sensors in 0.1 °C: sensor s of region r at 4r + s. -/
  tj : List Int := List.replicate 32 0
  /-- Ceiling of each region in 100 MHz. -/
  ceiling : List Nat := List.replicate 8 16
  clamped : List Bool := List.replicate 8 false
  clamps : Nat := 0
  thermalAt : Nat := 0
  readingAt : Nat := 0
  deriving DecidableEq, Repr

/-! ## DRAKE cores (11, 12) -/

/-- An active hardware loop (12 R273). -/
structure LoopRec where
  ls : BitVec 14
  le : BitVec 14
  lc : BitVec 32
  deriving DecidableEq, Repr

/-- What a context does (12 R260). -/
inductive CtxSt where
  /-- No function; in context 0, stopped. -/
  | idle
  | ready
  /-- Suspended on WFE with destination and mask. -/
  | waitEvent (d : BitVec 3) (mask : BitVec 10)
  | waitTime (target : BitVec 32)
  /-- Suspended on an MCH that names a window another context holds: the MCH's destination field. It issues again when the
  window is released. -/
  | waitWindow (d : BitVec 3)
  /-- Suspended in DONE: its source field. -/
  | waitDone (s : BitVec 3)
  deriving DecidableEq, Repr

/-- A result on its way to a register (12 R271): its value, the instructions still to lie between, and whether an
instruction inside the distance has written the register. -/
structure Late where
  reg : BitVec 3
  value : BitVec 32
  left : Nat
  spoiled : Bool := false
  deriving DecidableEq, Repr

/-- A key of the bay (11 R235): the key and its algorithm code, 0 where it has none; the record of the slot that it is a copy of,
with nothing in it for a key that a call has written. -/
structure BayKey where
  key : Bytes
  code : Nat := 0
  origin : SlotRec := {}
  deriving DecidableEq, Repr

/-- A call in progress (12 R279, R280), its areas read when it was posted. -/
structure CallRec where
  target : Nat
  op : Nat
  input : Option BayKey
  outEntry : Nat
  outKey : Bool
  dstArea : Nat
  dstOff : Nat
  dstLen : Nat
  src : Bytes
  aux : Bytes
  param : Nat
  /-- Random bytes delivered for it. -/
  rnd : Bytes := []
  asked : Bool := false
  /-- The unit that serves it, and whether it has been served. -/
  engine : Nat := 255
  served : Bool := false
  /-- A status other than ST_OK that the target gave it, with the detail. -/
  failed : Option (Nat × Nat) := none
  deriving DecidableEq, Repr

/-- One context of a core (12 R260, R264, R275). -/
structure Ctx14 where
  st : CtxSt := .idle
  g : Vector (BitVec 32) 8 := Vector.replicate 8 0
  /-- P0 to P7; bits 0 and 1 are never read. -/
  p : BitVec 8 := 0
  pc : BitVec 14 := 0
  lk : BitVec 14 := 0
  epc : BitVec 14 := 0
  ecause : BitVec 28 := 0
  /-- Active loops, innermost first. -/
  loops : List LoopRec := []
  ev : BitVec 10 := 0
  emulating : Bool := false
  /-- Address of the instruction that took the emulation vector, for the end test that follows ERET (12 R288). -/
  emuPc : BitVec 14 := 0
  /-- Repetitions of the instruction at the PC still to be made under RPT. -/
  rpt : Nat := 0
  /-- Target of a branch whose delay slot is next. -/
  delay : Option (BitVec 14) := none
  late : List Late := []
  /-- Cycles issued since the context last suspended. -/
  cycles : Nat := 0
  call : Option CallRec := none
  /-- The latched call result word. -/
  result : BitVec 32 := 0
  /-- MCS: DONE, ERR, DISABLED and CAUSE of the last channel block. -/
  mcs : BitVec 32 := 0
  /-- A channel block queued or in progress. -/
  block : Bool := false
  /-- The function's descriptor. -/
  fn : Option (Nat × Index) := none
  op : Nat := 0
  var : Nat := 0
  part : Nat := 0
  /-- Data bank, 4 KiB, in the canonical form of memory; unlisted bytes read zero. Context 0 uses the common bank. -/
  bank : List Host.Cell := []
  bay : Table (Option BayKey) := []
  /-- Calls and channel blocks that the payment firmware has made for the function, and what its blocks have read
(11 R256, R257). -/
  run : Nat := 0
  got : Bytes := []
  deriving DecidableEq, Repr

/-- One DRAKE core. -/
structure Core14 where
  ctxs : Vector Ctx14 8 := Vector.replicate 8 {}
  /-- The context the core issues from. -/
  running : Option (Fin 8) := none
  /-- The last context that ran, for the order of R260. -/
  last : Fin 8 := 0
  /-- Contexts whose timed wait lay in a jump of the schedule tick, in order of target: they are reached, and resume first
(01 R20). -/
  jumped : List (Fin 8) := []
  /-- Functions are accepted (R287). -/
  accepting : Bool := false
  /-- The common bank, bank 0. -/
  common : List Host.Cell := []
  /-- Holder of the channel window and its contents. -/
  holder : Option (Fin 8) := none
  window : List Host.Cell := []
  /-- Channel blocks waiting: context and the 32 bytes; the first is in progress when `busy`. -/
  blocks : List (Fin 8 × Bytes) := []
  busy : Bool := false
  deriving DecidableEq, Repr

/-- The payment cores and their registers (11 R259). -/
structure Pay where
  queue : List QItem := []
  lastTrapCore : Nat := 0
  lastTrapCause : Nat := 0
  formatRefused : Nat := 0
  pinMismatch : Nat := 0
  dukptExhausted : Nat := 0
  traps : Nat := 0
  coreRetries : Nat := 0
  /-- Program memory: 16,384 words of 14 bits, unlisted words 0. -/
  prog : Table (BitVec 14) := []
  cores : Table Core14 := []
  deriving DecidableEq, Repr

/-! ## Fuses and ROM: written once, never by a reset (03 R52, R55, R63, 16 R355) -/

/-- One-time state. -/
structure Fuses where
  /-- The factory fuse is intact. -/
  factoryOpen : Bool := false
  /-- The fuse counter of R55. -/
  rollback : Nat := 0
  ecdsaHash : Bytes := []
  mldsaHash : Bytes := []
  /-- SHA3-256 of the Walxia key in ROM (R51), and the key bytes. -/
  walxiaKey : Bytes := []
  serial : BitVec 64 := 0
  /-- Floor of each sentinel source from its fuses: 0, 1 LOCK, 2 ERASE. -/
  floor : List Nat := List.replicate 19 0
  fusedOff : BitVec 19 := 0
  deriving DecidableEq, Repr

/-! ## The block -/

/-- What the block holds of a context beside its record (07 R163, 03 R66): an invalid mark after a store error, and the
entry that holds it between dispatch and write-back. -/
structure CtxSlot where
  c : CtxRec := {}
  invalid : Bool := false
  deriving DecidableEq, Repr

/-- Everything but the queue of commands and the fuses. -/
structure Block where
  time : TimeBase := {}
  sport : SlavePort := {}
  mport : MasterPorts := {}
  mode : ModeCtl := {}
  img : ImageCtl := {}
  health : Health := {}
  store : Store := {}
  /-- EARLY_WRITES and OWNER_WRITES of each tag (02 R35). -/
  earlyWrites : Table Nat := []
  ownerWrites : Table Nat := []
  rings : Table RingRec := []
  entries : List Entry := []
  parts : Table PartRec := []
  sched : Sched := {}
  ctxs : Table CtxSlot := []
  lanes : Lanes := {}
  ox : Ox := {}
  lat : Lat := {}
  keys : Keys := {}
  pay : Pay := {}
  mule : Table Channel := []
  irq : Table IrqVec := []
  twin : Twin := {}
  hen : Hen := {}
  gander : Gander := {}
  recorder : Recorder := {}
  power : Power := {}
  /-- Counter of free values drawn (log entry 5). -/
  free : Nat := 0
  /-- What the block has put on its ports (log entry 4). -/
  bus : List Sent := []
  deriving DecidableEq, Repr

/-- The machine: the commands that wait, first in, first out; the one-time state; the block. -/
structure State where
  pending : List Instr
  fuses : Fuses
  blk : Block
  deriving DecidableEq, Repr

/-- The machine right after reset: every register at its reset value, no command waiting, no memory listed. Log
entries 6 to 9 name the values that the spec does not give. -/
def State.reset : State := { pending := [], fuses := {}, blk := {} }

/-- The reasons for which a step could stop with a fault. No meaning of this model raises one: the block reports every
error in a register, a completion or a mode (03 R56, 05 R118). Safe: the type has no constructor. -/
inductive Fault where
  deriving DecidableEq, Repr

/-- The reasons for which a step answers no meaning. -/
inductive Refusal where
  /-- A command without a meaning, by its mnemonic; raised by Dispatch alone. Safe: the machine stops. -/
  | notModelled (mnemonic : String)
  deriving DecidableEq, Repr

end Sys2Proof.Machine
end

