-- ==== Sys2Proof/Decode.lean ====
section
/-! DEFINITION. The word form of commands that the host asks for. The table of operations and events gives no row any
bits, so no word spells a command. The 14-bit words of K14, which lie in the program memory of the state, are read in
Machine/Code14.lean. -/

namespace Sys2Proof

/-- The command that a word of the table spells: none, for the table gives its rows no bits. -/
def decodeTableWord (_nbits _w : Nat) : Option Instr := none

end Sys2Proof
end

