-- ==== Sys2Proof/Config.lean ====
section
/-! DEFINITION. The free values of the model: what the spec leaves open and an instruction goes on with. Each is an
opaque constant with no body, applied to the counter `free` of the state or to the operands that the open value
depends on, so that nothing can be proved of its value. -/

namespace Sys2Proof.Config

/-- A register result that the spec calls undefined (06 R134, R135: COUNT, SRC and DST of a raw channel), by the
counter and the register. -/
opaque undefinedReg : Nat → Nat → BitVec 64

/-- A K14 register read before its producer's result is due (12 R271), by the counter. -/
opaque earlyRead : Nat → BitVec 32

/-- An inverse asked for modulo a number to which the operand is not coprime, in a generic curve whose modulus is
not prime (08 R178: the block does not test it), by operand and modulus. -/
opaque noInverse : Nat → Nat → Nat

/-- The base of round i of a Miller–Rabin test (08 R191 names the round counts and no source of the bases), by the
candidate and the round. -/
opaque millerRabinBase : Nat → Nat → Nat

/-- Masks and seeds that the block draws for its own use and that no rule shows (07 R155, 16 R352), by the counter. -/
opaque internalDraw : Nat → BitVec 64

/-- What the clipping loop of 07 R142 leaves when no share can take what clipping freed, by the total left. -/
opaque openShare : Nat → Nat

/-- What an estimated cost takes for operands that are not in the block when it is charged (13 R291: an exponent, a key
serial number, the hash calls of a signature), by family, OP, VARIANT and the two input lengths. -/
opaque openCost : Nat → Nat → Nat → Nat → Nat → Nat

/-- The thermal region of a frequency domain (01 R23, R24 name eight regions and no assignment), by the domain. -/
opaque regionOf : Nat → Nat

/-- The frequency that the DVFS governor wants for a domain, in 100 MHz (01 R23 names the load it measures and no function of
it), by the domain and the ticks since the last reading in which a unit of it worked. -/
opaque wantedFreq : Nat → Nat → Nat

/-- Whether the DVFS governor gates a domain while no unit of it works (01 R16, 18 R387), by the domain and the same ticks. -/
opaque gatesIdle : Nat → Nat → Bool

/-- What a bank of sentinel flash that holds no valid commit reads as (17 R380), by the counter. -/
opaque blankFlash : Nat → BitVec 64

/-- The firmware version and FEAT0 value of an image (11 R259 reports them, and no rule places them in the firmware
section), by IMAGE_ID and body word. -/
opaque firmwareWord : BitVec 64 → Nat → BitVec 32

end Sys2Proof.Config
end

