-- ==== Sys2Proof/Machine/Bits.lean ====
section
/-! DEFINITION. Bit fields, byte order, and the operations on byte strings and sparse tables that the meanings
use. Registers, descriptors and completions are little-endian (00 R7); counter blocks and lengths inside the
cryptographic functions are big-endian (07 R146). -/

namespace Sys2Proof

/-- Bits [hi:lo] of a natural number. -/
def field (x hi lo : Nat) : Nat := (x >>> lo) % 2 ^ (hi - lo + 1)

/-- Bit n of a natural number. -/
def bit (x n : Nat) : Bool := x.testBit n

/-- A Bool as one bit. -/
def flag (b : Bool) : Nat := if b then 1 else 0

/-- A value placed at bit lo. -/
def at_ (lo x : Nat) : Nat := x <<< lo

/-- The number that a byte string spells, first byte least significant. -/
def ofLE : Bytes → Nat
  | [] => 0
  | b :: bs => b.toNat + 256 * ofLE bs

/-- The number that a byte string spells, first byte most significant. -/
def ofBE (bs : Bytes) : Nat := bs.foldl (fun n b => 256 * n + b.toNat) 0

/-- The low n bytes of a number, least significant first. -/
def toLE : Nat → Nat → Bytes
  | 0, _ => []
  | n + 1, x => BitVec.ofNat 8 x :: toLE n (x / 256)

/-- The low n bytes of a number, most significant first. -/
def toBE (n x : Nat) : Bytes := (toLE n x).reverse

/-- A byte. -/
def byte (x : Nat) : Byte := BitVec.ofNat 8 x

/-- n zero bytes. -/
def zeros (n : Nat) : Bytes := List.replicate n 0

/-- len bytes from offset off. -/
def slice (off len : Nat) (bs : Bytes) : Bytes := (bs.drop off).take len

/-- The first n bytes, filled up with zeros where the string is shorter. -/
def fit (n : Nat) (bs : Bytes) : Bytes := bs.take n ++ zeros (n - bs.length)

/-- Byte-wise exclusive or, as long as the shorter string. -/
def xorB (a b : Bytes) : Bytes := List.zipWith (· ^^^ ·) a b

/-- A byte string cut into pieces of n bytes, the last one possibly shorter; `fuel` bounds the pieces. -/
def chunksAux (n : Nat) : Nat → Bytes → List Bytes
  | 0, _ => []
  | _, [] => []
  | fuel + 1, bs => bs.take n :: chunksAux n fuel (bs.drop n)

/-- A byte string cut into pieces of n bytes, the last one possibly shorter. -/
def chunks (n : Nat) (bs : Bytes) : List Bytes := chunksAux n bs.length bs

/-- a divided by b, rounded up. -/
def ceilDiv (a b : Nat) : Nat := (a + b - 1) / b

/-- A counter of w bits that stops at its highest value (00 R8). -/
def satAdd (w x n : Nat) : Nat := min (x + n) (2 ^ w - 1)

/-- The ASCII codes of a text. -/
def ascii (t : String) : Bytes := t.toList.map (fun c => byte c.toNat)

/-- The digit character 0 to 9, A to F of a nibble. -/
def hexChar (n : Nat) : Byte := if n < 10 then byte (0x30 + n) else byte (0x37 + n)

/-- The value of a hexadecimal character; upper and lower case. -/
def hexVal (c : Byte) : Option Nat :=
  let n := c.toNat
  if 0x30 ≤ n ∧ n ≤ 0x39 then some (n - 0x30)
  else if 0x41 ≤ n ∧ n ≤ 0x46 then some (n - 0x37)
  else if 0x61 ≤ n ∧ n ≤ 0x66 then some (n - 0x57)
  else none

/-- A byte string as hexadecimal characters. -/
def toHex (bs : Bytes) : Bytes := bs.flatMap (fun b => [hexChar (b.toNat / 16), hexChar (b.toNat % 16)])

/-- The bytes that hexadecimal characters spell; none where a character is not one or the number of characters is odd. -/
def ofHex : Bytes → Option Bytes
  | [] => some []
  | [_] => none
  | a :: b :: r => do
    let x ← hexVal a
    let y ← hexVal b
    let t ← ofHex r
    return byte (16 * x + y) :: t

/-- The number that decimal characters spell; none where one is not a decimal digit. -/
def decVal (bs : Bytes) : Option Nat :=
  bs.foldl (fun acc c => acc.bind fun n =>
    if 0x30 ≤ c.toNat ∧ c.toNat ≤ 0x39 then some (10 * n + (c.toNat - 0x30)) else none) (some 0)

/-- A number as n decimal characters. -/
def toDec : Nat → Nat → Bytes
  | 0, _ => []
  | n + 1, x => toDec n (x / 10) ++ [byte (0x30 + x % 10)]

/-- The byte's bits reversed. -/
def revByte (b : Byte) : Byte :=
  byte ((List.range 8).foldl (fun n i => n + (if b.toNat.testBit i then 2 ^ (7 - i) else 0)) 0)

/-- The distance from index b up to index a, modulo 2^32 (04 R72). -/
def dist (a b : Index) : Nat := (a - b).toNat

/-! ## Lists -/

/-- Element i of a list, or a default. -/
def nth {α : Type} (d : α) (l : List α) (i : Nat) : α := l.getD i d

/-- A list with element i changed by a function. -/
def modNth {α : Type} (f : α → α) : Nat → List α → List α
  | _, [] => []
  | 0, x :: r => f x :: r
  | i + 1, x :: r => x :: modNth f i r

/-- A list without its first element that satisfies p. -/
def eraseFirst {α : Type} (p : α → Bool) : List α → List α
  | [] => []
  | x :: r => if p x then r else x :: eraseFirst p r

/-- The sum of f over a list. -/
def sumBy {α : Type} (f : α → Nat) (l : List α) : Nat := (l.map f).sum

/-- The element for which f is largest, the first of equals. -/
def argMax {α : Type} (f : α → Int) : List α → Option α
  | [] => none
  | x :: r => match argMax f r with
    | none => some x
    | some y => if f y > f x then some y else some x

/-- The element for which f is smallest, the first of equals. -/
def argMin {α : Type} (f : α → Int) (l : List α) : Option α := argMax (fun x => -f x) l

/-- An element put into a list that f orders, behind its equals. -/
def insertBy {α : Type} (f : α → Nat) (x : α) : List α → List α
  | [] => [x]
  | y :: r => if f x < f y then x :: y :: r else y :: insertBy f x r

/-- A list in the order of f, equals keeping their order. -/
def sortBy {α : Type} (f : α → Nat) (l : List α) : List α := l.foldl (fun acc x => insertBy f x acc) []

/-! ## Sparse tables -/

/-- The record at key k; the default where the key is not listed. -/
def Table.get {α : Type} (d : α) : Table α → Nat → α
  | [], _ => d
  | (j, v) :: r, k => if j = k then v else Table.get d r k

/-- A table without key k. -/
def Table.del {α : Type} : Table α → Nat → Table α
  | [], _ => []
  | (j, v) :: r, k => if j = k then Table.del r k else (j, v) :: Table.del r k

/-- A table with record v at key k, in key order. -/
def Table.put {α : Type} : Table α → Nat → α → Table α
  | [], k, v => [(k, v)]
  | (j, w) :: r, k, v =>
    if k < j then (k, v) :: (j, w) :: r else if k = j then (k, v) :: r else (j, w) :: Table.put r k v

/-- A table with record v at key k, an entry equal to the default left out. -/
def Table.set {α : Type} [DecidableEq α] (d : α) (t : Table α) (k : Nat) (v : α) : Table α :=
  if v = d then Table.del t k else Table.put t k v

/-- A table with the record at key k changed by a function. -/
def Table.modify {α : Type} [DecidableEq α] (d : α) (t : Table α) (k : Nat) (f : α → α) : Table α :=
  Table.set d t k (f (Table.get d t k))

/-- The canonical form: keys strictly rising, no entry equal to the default. -/
def Table.wf {α : Type} [DecidableEq α] (d : α) : Table α → Bool
  | [] => true
  | [(_, v)] => decide (v ≠ d)
  | (j, v) :: (k, w) :: r => decide (v ≠ d) && decide (j < k) && Table.wf d ((k, w) :: r)

end Sys2Proof
end

