-- ==== Sys2Proof/Machine/BigNum.lean ====
section
/-! DEFINITION. Modular arithmetic on natural numbers for the OX units (08 R180, R191): powers, inverses, square
roots and the Miller–Rabin test. -/

namespace Sys2Proof.BigNum

open Sys2Proof

/-- The number of bits of a number, 0 for 0. -/
def bitLen (n : Nat) : Nat := if n = 0 then 0 else n.log2 + 1

/-- The number of one bits among the low `fuel` bits. -/
def weight : Nat → Nat → Nat
  | 0, _ => 0
  | fuel + 1, n => n % 2 + weight fuel (n / 2)

/-- b to the power e modulo m, over the low `fuel` bits of e. -/
def powAux (m : Nat) : Nat → Nat → Nat → Nat → Nat
  | 0, _, _, acc => acc
  | fuel + 1, b, e, acc => if e = 0 then acc else powAux m fuel (b * b % m) (e / 2) (if e % 2 = 1 then acc * b % m else acc)

/-- b to the power e modulo m. -/
def powMod (b e m : Nat) : Nat := powAux m (bitLen e) (b % m) e (1 % m)

/-- The extended Euclidean algorithm: the gcd of the first two, and the factor of a in it. -/
def egcd : Nat → Int → Int → Int → Int → Int × Int
  | 0, r0, _, s0, _ => (r0, s0)
  | fuel + 1, r0, r1, s0, s1 => if r1 = 0 then (r0, s0) else egcd fuel r1 (r0 - r0 / r1 * r1) s1 (s0 - r0 / r1 * s1)

/-- The inverse of a modulo m, none where they share a factor. -/
def inverse (a m : Nat) : Option Nat :=
  let (g, x) := egcd (2 * bitLen m + 4) (a % m) m 1 0
  if g = 1 then some ((x % m).toNat) else none

/-- The inverse of a modulo m; a free value where there is none. -/
def inv (a m : Nat) : Nat := (inverse a m).getD (Config.noInverse a m % m)

/-- a - b modulo m, for a and b below m. -/
def subMod (a b m : Nat) : Nat := (a + m - b % m) % m

/-- One round of Miller–Rabin on n = d·2^s + 1 with a base: the squarings after the power. -/
def mrSquares (n : Nat) : Nat → Nat → Bool
  | 0, _ => false
  | s + 1, x => if x = n - 1 then true else mrSquares n s (x * x % n)

/-- n = d·2^s + 1 with d odd: the pair (d, s). -/
def oddPart : Nat → Nat → Nat → Nat × Nat
  | 0, d, s => (d, s)
  | fuel + 1, d, s => if d % 2 = 0 ∧ d ≠ 0 then oddPart fuel (d / 2) (s + 1) else (d, s)

/-- One round of Miller–Rabin with base a. -/
def mrRound (n a : Nat) : Bool :=
  let (d, s) := oddPart (bitLen n) (n - 1) 0
  let x := powMod a d n
  x = 1 || mrSquares n s x

/-- Miller–Rabin with `rounds` bases, each a free value in the range 2 to n - 2. -/
def probablyPrime (rounds n : Nat) : Bool :=
  n > 3 && (List.range rounds).all (fun i => mrRound n (2 + Config.millerRabinBase n i % (n - 3)))

/-- The round counts of FIPS 186-5 for a prime of `bits` bits (log entry 12). -/
def mrRounds (bits : Nat) : Nat := if bits < 1024 then 7 else if bits < 1536 then 5 else 4

/-- Whether n has an odd divisor below 2^22: d counts the odd numbers from 3. -/
def sieveAux (n : Nat) : Nat → Nat → Bool
  | 0, _ => false
  | fuel + 1, d => if d < n ∧ n % d = 0 then true else sieveAux n fuel (d + 2)

/-- The hardware sieve of the odd primes below 2^22 (08 R191): whether it screens a candidate out. -/
def sieved (n : Nat) : Bool := sieveAux n (2 ^ 21 - 1) 3

end Sys2Proof.BigNum
end

