-- ==== Sys2Proof/Machine/Hash.lean ====
section
/-! DEFINITION. The hash functions of 07 R147: SHA-1, SHA-224 to SHA-512 (FIPS 180-4), SHA-3 and SHAKE (FIPS 202),
each as a state, a compression or absorption of whole blocks, and a finish, so that a stream can stop between
blocks (07 R164). The round constants of SHA-2 are computed from their definition, the fractional parts of
square and cube roots of primes. -/

namespace Sys2Proof.Hash

open Sys2Proof

/-! ## SHA-2 -/

/-- The first primes, by trial division; `fuel` numbers from n are tried. -/
def primesFrom : Nat → Nat → List Nat → List Nat
  | 0, _, acc => acc.reverse
  | fuel + 1, n, acc => primesFrom fuel (n + 1) (if acc.all (fun p => n % p ≠ 0) then n :: acc else acc)

/-- The 80 primes up to 409. -/
def primes : List Nat := primesFrom 408 2 []

/-- The largest r below 2^n more than `acc` whose k-th power is at most x. -/
def rootAux (k x : Nat) : Nat → Nat → Nat
  | 0, acc => acc
  | n + 1, acc => rootAux k x n (if (acc + 2 ^ n) ^ k ≤ x then acc + 2 ^ n else acc)

/-- 64 fractional bits of the square root of p. -/
def sqrtFrac (p : Nat) : Nat := rootAux 2 (p <<< 128) 70 0 % 2 ^ 64

/-- 64 fractional bits of the cube root of p. -/
def cbrtFrac (p : Nat) : Nat := rootAux 3 (p <<< 192) 70 0 % 2 ^ 64

/-- The 80 round constants of SHA-512. -/
def k512 : Array (BitVec 64) := (primes.map (fun p => BitVec.ofNat 64 (cbrtFrac p))).toArray

/-- The 64 round constants of SHA-256. -/
def k256 : Array (BitVec 32) := ((primes.take 64).map (fun p => BitVec.ofNat 32 (cbrtFrac p / 2 ^ 32))).toArray

/-- What differs between the 32-bit and the 64-bit SHA-2 functions. -/
structure Sha2Params (w : Nat) where
  rounds : Nat
  k : Array (BitVec w)
  /-- Rotations of the two large sigmas. -/
  s0 : Nat × Nat × Nat
  s1 : Nat × Nat × Nat
  /-- Two rotations and a shift of the two small sigmas. -/
  g0 : Nat × Nat × Nat
  g1 : Nat × Nat × Nat

/-- SHA-224 and SHA-256. -/
def p256 : Sha2Params 32 := ⟨64, k256, (2, 13, 22), (6, 11, 25), (7, 18, 3), (17, 19, 10)⟩

/-- SHA-384 and SHA-512. -/
def p512 : Sha2Params 64 := ⟨80, k512, (28, 34, 39), (14, 18, 41), (1, 8, 7), (19, 61, 6)⟩

/-- A large sigma. -/
def bigSigma {w : Nat} (r : Nat × Nat × Nat) (x : BitVec w) : BitVec w :=
  x.rotateRight r.1 ^^^ x.rotateRight r.2.1 ^^^ x.rotateRight r.2.2

/-- A small sigma. -/
def smallSigma {w : Nat} (r : Nat × Nat × Nat) (x : BitVec w) : BitVec w :=
  x.rotateRight r.1 ^^^ x.rotateRight r.2.1 ^^^ (x >>> r.2.2)

/-- The message schedule, newest word first; `win` holds the last sixteen words, oldest first. -/
def schedule {w : Nat} (p : Sha2Params w) : Nat → Array (BitVec w) → Array (BitVec w)
  | 0, ws => ws
  | n + 1, ws =>
    let i := ws.size
    let x := smallSigma p.g1 (ws.getD (i - 2) 0) + ws.getD (i - 7) 0 + smallSigma p.g0 (ws.getD (i - 15) 0) + ws.getD (i - 16) 0
    schedule p n (ws.push x)

/-- The working variables a to h. -/
structure Vars (w : Nat) where
  a : BitVec w
  b : BitVec w
  c : BitVec w
  d : BitVec w
  e : BitVec w
  f : BitVec w
  g : BitVec w
  h : BitVec w

/-- One round. -/
def round {w : Nat} (p : Sha2Params w) (ws : Array (BitVec w)) (v : Vars w) (i : Nat) : Vars w :=
  let t1 := v.h + bigSigma p.s1 v.e + ((v.e &&& v.f) ^^^ (~~~v.e &&& v.g)) + p.k.getD i 0 + ws.getD i 0
  let t2 := bigSigma p.s0 v.a + ((v.a &&& v.b) ^^^ (v.a &&& v.c) ^^^ (v.b &&& v.c))
  ⟨t1 + t2, v.a, v.b, v.c, v.d + t1, v.e, v.f, v.g⟩

/-- The words of a byte string, big-endian, n bytes each. -/
def words (w n : Nat) (bs : Bytes) : List (BitVec w) := (chunks n bs).map (fun c => BitVec.ofNat w (ofBE c))

/-- Compression of one block into a state of eight words. -/
def compress2 {w : Nat} (p : Sha2Params w) (st : List (BitVec w)) (blk : Bytes) : List (BitVec w) :=
  let ws := schedule p (p.rounds - 16) (words w (w / 8) blk).toArray
  match st with
  | [a, b, c, d, e, f, g, h] =>
    let v := (List.range p.rounds).foldl (round p ws) ⟨a, b, c, d, e, f, g, h⟩
    [a + v.a, b + v.b, c + v.c, d + v.d, e + v.e, f + v.f, g + v.g, h + v.h]
  | _ => st

/-- Compression over a state held as bytes. -/
def compressBytes2 {w : Nat} (p : Sha2Params w) (st blk : Bytes) : Bytes :=
  (compress2 p (words w (w / 8) st) blk).flatMap (fun x => toBE (w / 8) x.toNat)

/-! ## SHA-1 -/

/-- The message schedule of SHA-1. -/
def schedule1 : Nat → Array (BitVec 32) → Array (BitVec 32)
  | 0, ws => ws
  | n + 1, ws =>
    let i := ws.size
    schedule1 n (ws.push ((ws.getD (i - 3) 0 ^^^ ws.getD (i - 8) 0 ^^^ ws.getD (i - 14) 0 ^^^ ws.getD (i - 16) 0).rotateLeft 1))

/-- Compression of one block of SHA-1, over a state held as bytes. -/
def compress1 (st blk : Bytes) : Bytes :=
  let ws := schedule1 64 (words 32 4 blk).toArray
  match words 32 4 st with
  | [a, b, c, d, e] =>
    let step := fun (v : BitVec 32 × BitVec 32 × BitVec 32 × BitVec 32 × BitVec 32) (i : Nat) =>
      let (a, b, c, d, e) := v
      let (f, k) : BitVec 32 × BitVec 32 :=
        if i < 20 then ((b &&& c) ^^^ (~~~b &&& d), 0x5A827999)
        else if i < 40 then (b ^^^ c ^^^ d, 0x6ED9EBA1)
        else if i < 60 then ((b &&& c) ^^^ (b &&& d) ^^^ (c &&& d), 0x8F1BBCDC)
        else (b ^^^ c ^^^ d, 0xCA62C1D6)
      (a.rotateLeft 5 + f + e + k + ws.getD i 0, a, b.rotateLeft 30, c, d)
    let v := (List.range 80).foldl step (a, b, c, d, e)
    [a + v.1, b + v.2.1, c + v.2.2.1, d + v.2.2.2.1, e + v.2.2.2.2].flatMap (fun x => toBE 4 x.toNat)
  | _ => st

/-! ## Keccak -/

/-- Bit rc(t) of the linear feedback shift register of FIPS 202; `r` holds the register, n steps left. -/
def lfsr : Nat → Nat → Nat
  | 0, r => r
  | n + 1, r => lfsr n (if 2 * r ≥ 256 then (2 * r) ^^^ 0x171 else 2 * r)

/-- The round constant of round i. -/
def rc (i : Nat) : BitVec 64 :=
  BitVec.ofNat 64 ((List.range 7).foldl (fun n j => n + (if (lfsr (7 * i + j) 1) % 2 = 1 then 2 ^ (2 ^ j - 1) else 0)) 0)

/-- The 24 round constants. -/
def rcs : List (BitVec 64) := (List.range 24).map rc

/-- The lanes that rho and pi move, as (target, rotation), following the walk of FIPS 202 from lane (1, 0). -/
def rhoPi : Nat → Nat → Nat → Nat → List (Nat × Nat × Nat)
  | 0, _, _, _ => []
  | n + 1, x, y, t =>
    -- lane (x, y) goes to (y, 2x + 3y) rotated by (t + 1)(t + 2) / 2
    (x + 5 * y, y + 5 * ((2 * x + 3 * y) % 5), ((t + 1) * (t + 2) / 2) % 64) :: rhoPi n y ((2 * x + 3 * y) % 5) (t + 1)

/-- The 24 moves of rho and pi. -/
def moves : List (Nat × Nat × Nat) := rhoPi 24 1 0 0

/-- One round of Keccak-f[1600] on 25 lanes. -/
def keccakRound (a : Array (BitVec 64)) (k : BitVec 64) : Array (BitVec 64) :=
  let c := ((List.range 5).map (fun x => a.getD x 0 ^^^ a.getD (x + 5) 0 ^^^ a.getD (x + 10) 0 ^^^ a.getD (x + 15) 0 ^^^ a.getD (x + 20) 0)).toArray
  let d := ((List.range 5).map (fun x => c.getD ((x + 4) % 5) 0 ^^^ (c.getD ((x + 1) % 5) 0).rotateLeft 1)).toArray
  let a := ((List.range 25).map (fun i => a.getD i 0 ^^^ d.getD (i % 5) 0)).toArray
  let b := moves.foldl (fun (b : Array (BitVec 64)) m => b.setIfInBounds m.2.1 ((a.getD m.1 0).rotateLeft m.2.2)) a
  ((List.range 25).map (fun i =>
    let x := i % 5
    let y := 5 * (i / 5)
    let v := b.getD i 0 ^^^ (~~~(b.getD (y + (x + 1) % 5) 0) &&& b.getD (y + (x + 2) % 5) 0)
    if i = 0 then v ^^^ k else v)).toArray

/-- Keccak-f[1600] on a state of 200 bytes. -/
def keccakF (st : Bytes) : Bytes :=
  let a := ((chunks 8 (fit 200 st)).map (fun c => BitVec.ofNat 64 (ofLE c))).toArray
  ((rcs.foldl keccakRound a).toList).flatMap (fun x => toLE 8 x.toNat)

/-- Absorption of one block of the rate's length. -/
def absorb (st blk : Bytes) : Bytes := keccakF (xorB st (fit 200 blk))

/-- The padded last block: domain bits, then pad10*1. -/
def spongePad (rate : Nat) (dom : Byte) (rest : Bytes) : Bytes :=
  xorB (fit rate (rest ++ [dom])) (zeros (rate - 1) ++ [0x80])

/-- n bytes squeezed from a state. -/
def squeeze (rate : Nat) : Nat → Bytes → Nat → Bytes
  | 0, _, _ => []
  | fuel + 1, st, n => if n ≤ rate then st.take n else st.take rate ++ squeeze rate fuel (keccakF st) (n - rate)

/-! ## One interface -/

/-- The hash functions by their codes h of 05 R107, and the two SHAKE functions by their VARIANT codes. -/
inductive Fn where
  | sha224 | sha256 | sha384 | sha512 | sha3_224 | sha3_256 | sha3_384 | sha3_512 | shake128 | shake256 | sha1
  deriving DecidableEq, Repr

/-- The function of a code. -/
def ofCode : Nat → Option Fn
  | 1 => some .sha224
  | 2 => some .sha256
  | 3 => some .sha384
  | 4 => some .sha512
  | 5 => some .sha3_224
  | 6 => some .sha3_256
  | 7 => some .sha3_384
  | 8 => some .sha3_512
  | 9 => some .shake128
  | 10 => some .shake256
  | 15 => some .sha1
  | _ => none

/-- Digest bytes; 0 for the extendable functions. -/
def digestLen : Fn → Nat
  | .sha224 => 28
  | .sha256 => 32
  | .sha384 => 48
  | .sha512 => 64
  | .sha3_224 => 28
  | .sha3_256 => 32
  | .sha3_384 => 48
  | .sha3_512 => 64
  | .shake128 => 0
  | .shake256 => 0
  | .sha1 => 20

/-- Bytes of the input block: the compression block, or the sponge rate. -/
def blockLen : Fn → Nat
  | .sha224 | .sha256 | .sha1 => 64
  | .sha384 | .sha512 => 128
  | .sha3_224 => 144
  | .sha3_256 => 136
  | .sha3_384 => 104
  | .sha3_512 => 72
  | .shake128 => 168
  | .shake256 => 136

/-- Whether the function is a sponge. -/
def isSponge : Fn → Bool
  | .sha3_224 | .sha3_256 | .sha3_384 | .sha3_512 | .shake128 | .shake256 => true
  | _ => false

/-- The state before any input. -/
def init : Fn → Bytes
  | .sha1 => toBE 20 0x67452301EFCDAB8998BADCFE10325476C3D2E1F0
  | .sha256 => (primes.take 8).flatMap (fun p => toBE 4 (sqrtFrac p / 2 ^ 32))
  | .sha512 => (primes.take 8).flatMap (fun p => toBE 8 (sqrtFrac p))
  | .sha384 => ((primes.drop 8).take 8).flatMap (fun p => toBE 8 (sqrtFrac p))
  | .sha224 => ((primes.drop 8).take 8).flatMap (fun p => toBE 4 (sqrtFrac p))
  | _ => zeros 200

/-- One whole block taken in. -/
def block (h : Fn) (st blk : Bytes) : Bytes :=
  match h with
  | .sha1 => compress1 st blk
  | .sha224 | .sha256 => compressBytes2 p256 st blk
  | .sha384 | .sha512 => compressBytes2 p512 st blk
  | _ => absorb st blk

/-- The whole blocks of a string taken in; what is left over does not count. -/
def update (h : Fn) (st data : Bytes) : Bytes :=
  (chunks (blockLen h) data).foldl (fun s c => if c.length = blockLen h then block h s c else s) st

/-- The padded last blocks of FIPS 180-4: the rest, a one bit, zeros, the length in bits of all the input. -/
def mdPad (h : Fn) (rest : Bytes) (total : Nat) : Bytes :=
  let b := blockLen h
  let lenBytes := if b = 128 then 16 else 8
  let used := rest.length + 1 + lenBytes
  rest ++ [0x80] ++ zeros ((b - used % b) % b) ++ toBE lenBytes (8 * total)

/-- The output after the last bytes of input: `total` counts all the bytes of the message, n is the number of bytes
an extendable function gives. -/
def finish (h : Fn) (st rest : Bytes) (total n : Nat) : Bytes :=
  let whole := rest.length / blockLen h * blockLen h
  let st := update h st (rest.take whole)
  let rest := rest.drop whole
  if isSponge h then
    let dom : Byte := if digestLen h = 0 then 0x1F else 0x06
    let n := if digestLen h = 0 then n else digestLen h
    squeeze (blockLen h) (n + 1) (absorb st (spongePad (blockLen h) dom rest)) n
  else ((chunks (blockLen h) (mdPad h rest total)).foldl (block h) st).take (digestLen h)

/-- The digest of a whole message. -/
def hash (h : Fn) (m : Bytes) : Bytes := finish h (init h) m m.length 0

/-- n bytes of an extendable function's output on a whole message. -/
def xof (h : Fn) (m : Bytes) (n : Nat) : Bytes := finish h (init h) m m.length n

/-- The HMAC key block: the key, hashed first where it is longer than the input block (07 R147). -/
def hmacKey (h : Fn) (k : Bytes) : Bytes := fit (blockLen h) (if k.length > blockLen h then hash h k else k)

/-- The inner state of HMAC after its key block. -/
def hmacInit (h : Fn) (k : Bytes) : Bytes := block h (init h) ((hmacKey h k).map (· ^^^ 0x36))

/-- HMAC's outer call on an inner digest. -/
def hmacOuter (h : Fn) (k inner : Bytes) : Bytes := hash h ((hmacKey h k).map (· ^^^ 0x5C) ++ inner)

/-- HMAC's result from a stream state, the last bytes and the count of all message bytes (FIPS 198-1). -/
def hmacFinish (h : Fn) (k st rest : Bytes) (total : Nat) : Bytes :=
  hmacOuter h k (finish h st rest (blockLen h + total) 0)

/-- HMAC of a whole message. -/
def hmac (h : Fn) (k m : Bytes) : Bytes := hmacFinish h k (hmacInit h k) m m.length

end Sys2Proof.Hash
end

