-- ==== Sys2Proof/Machine/Lattice.lean ====
section
/-! DEFINITION. What ML-KEM and ML-DSA share: polynomials of 256 coefficients, the number-theoretic transform, bit
packing and the samplers' output streams (09 R198 to R200; FIPS 203, FIPS 204). -/

namespace Sys2Proof.Lattice

open Sys2Proof

/-- A polynomial, or its transform: 256 coefficients modulo q. -/
abbrev Poly := Array Nat

/-- The zero polynomial. -/
def zero : Poly := Array.replicate 256 0

/-- A polynomial from its coefficients. -/
def mk (f : Nat → Nat) : Poly := ((List.range 256).map f).toArray

/-- Coefficient i. -/
def co (p : Poly) (i : Nat) : Nat := p.getD i 0

/-- The low n bits of x in reverse order. -/
def bitRev (n x : Nat) : Nat := (List.range n).foldl (fun r i => r + (if x.testBit i then 2 ^ (n - 1 - i) else 0)) 0

/-- Sum modulo q. -/
def add (q : Nat) (a b : Poly) : Poly := mk (fun i => (co a i + co b i) % q)

/-- Difference modulo q. -/
def sub (q : Nat) (a b : Poly) : Poly := mk (fun i => (co a i + q - co b i) % q)

/-- One butterfly of the transform on places j and j + len. -/
def butterfly (q len z : Nat) (f : Poly) (j : Nat) : Poly :=
  let t := z * co f (j + len) % q
  let a := co f j
  (f.setIfInBounds (j + len) ((a + q - t) % q)).setIfInBounds j ((a + t) % q)

/-- One butterfly of the inverse transform. -/
def invButterfly (q len z : Nat) (f : Poly) (j : Nat) : Poly :=
  let a := co f j
  let b := co f (j + len)
  (f.setIfInBounds j ((a + b) % q)).setIfInBounds (j + len) (z * (b + q - a) % q)

/-- The transform: layers of lengths 128 down to the last, zeta i for the i-th group. -/
def ntt (q : Nat) (zeta : Nat → Nat) (layers : Nat) (f : Poly) : Poly :=
  (List.range layers).foldl (fun f l =>
    let len := 128 / 2 ^ l
    (List.range (2 ^ l)).foldl (fun f g =>
      (List.range len).foldl (fun f j => butterfly q len (zeta (2 ^ l + g)) f (2 * len * g + j)) f) f) f

/-- The inverse transform, with the final factor. -/
def invNtt (q : Nat) (zeta : Nat → Nat) (layers scale : Nat) (f : Poly) : Poly :=
  let r := ((List.range layers).reverse).foldl (fun f l =>
    let len := 128 / 2 ^ l
    (List.range (2 ^ l)).foldl (fun f g =>
      (List.range len).foldl (fun f j => invButterfly q len (zeta (2 ^ (l + 1) - 1 - g)) f (2 * len * g + j)) f) f) f
  mk (fun i => co r i * scale % q)

/-- n bytes as their bits, least significant first, cut into d-bit numbers. -/
def unpack (d : Nat) (bs : Bytes) : List Nat :=
  let x := ofLE bs
  (List.range (8 * bs.length / d)).map (fun i => x / 2 ^ (d * i) % 2 ^ d)

/-- Numbers of d bits packed, least significant bit first. -/
def pack (d : Nat) (l : List Nat) : Bytes :=
  toLE (d * l.length / 8) (l.foldr (fun x n => x % 2 ^ d + 2 ^ d * n) 0)

/-- The polynomial that d-bit numbers spell. -/
def unpackPoly (d : Nat) (bs : Bytes) : Poly := (unpack d bs).toArray

/-- A polynomial's coefficients as d-bit numbers. -/
def packPoly (d : Nat) (p : Poly) : Bytes := pack d p.toList

/-- A sampler that draws coefficients from the blocks of a sponge's output until it has 256: `take` turns one block
into accepted values. 64 blocks bound it, more than any seed needs. -/
def sample (rate : Nat) (take : Bytes → List Nat) : Nat → Bytes → List Nat → List Nat
  | 0, _, acc => acc
  | fuel + 1, st, acc =>
    if acc.length ≥ 256 then acc.take 256
    else sample rate take fuel (Hash.keccakF st) (acc ++ take (st.take rate))

/-- The sponge state from which a SHAKE function squeezes its output on a message. -/
def shakeState (h : Hash.Fn) (m : Bytes) : Bytes :=
  let r := Hash.blockLen h
  let whole := m.length / r * r
  Hash.absorb (Hash.update h (zeros 200) (m.take whole)) (Hash.spongePad r 0x1F (m.drop whole))

/-- A 256-coefficient polynomial from accepted values. -/
def ofList (l : List Nat) : Poly := ((l ++ List.replicate (256 - l.length) 0).take 256).toArray

end Sys2Proof.Lattice
end

