-- ==== Sys2Proof/Machine/Dsa.lean ====
section
/-! DEFINITION. ML-DSA of FIPS 204 for the three parameter sets (09 R198, R200, R206). -/

namespace Sys2Proof.Dsa

open Sys2Proof Lattice

/-- The modulus. -/
def q : Nat := 8380417

/-- Dropped bits of t. -/
def dBits : Nat := 13

/-- The parameters of a set. -/
structure Params where
  tau : Nat
  lambda : Nat
  gamma1Bits : Nat
  gamma2 : Nat
  k : Nat
  l : Nat
  eta : Nat
  omega : Nat

/-- The set of a VARIANT: 0x11 ML-DSA-44, 0x12 ML-DSA-65, else ML-DSA-87. -/
def params : Nat → Params
  | 0x11 => ⟨39, 128, 17, (q - 1) / 88, 4, 4, 2, 80⟩
  | 0x12 => ⟨49, 192, 19, (q - 1) / 32, 6, 5, 4, 55⟩
  | _ => ⟨60, 256, 19, (q - 1) / 32, 8, 7, 2, 75⟩

/-- The powers of the root of unity 1753, in the order of the transform. -/
def zetas : Array Nat := ((List.range 256).map (fun i => BigNum.powMod 1753 (bitRev 8 i) q)).toArray

/-- Zeta i. -/
def zeta (i : Nat) : Nat := zetas.getD i 0

/-- The transform. -/
def toNtt (f : Poly) : Poly := ntt q zeta 8 f

/-- The inverse transform. -/
def ofNtt (f : Poly) : Poly := invNtt q zeta 8 8347681 f

/-- The product of two transforms. -/
def mulNtt (a b : Poly) : Poly := mk (fun i => co a i * co b i % q)

/-- The inner product of two lists of transforms. -/
def dot (a b : List Poly) : Poly := (List.zipWith mulNtt a b).foldl (add q) zero

/-- Values below q from three bytes, the top bit dropped. -/
def uniformTake (blk : Bytes) : List Nat := ((chunks 3 blk).map (fun c => ofLE c % 2 ^ 23)).filter (· < q)

/-- Entry (r, s) of the matrix of a seed, in the transform's domain (ExpandA). -/
def matrix (rho : Bytes) (r s : Nat) : Poly :=
  ofList (sample 168 uniformTake 64 (shakeState .shake128 (rho ++ [byte s, byte r])) [])

/-- Values in -eta to eta from nibbles, modulo q. -/
def boundedTake (eta : Nat) (blk : Bytes) : List Nat :=
  (blk.flatMap (fun b => [b.toNat % 16, b.toNat / 16])).flatMap (fun n =>
    if eta = 2 then (if n < 15 then [(q + 2 - n % 5) % q] else [])
    else (if n < 9 then [(q + 4 - n) % q] else []))

/-- RejBoundedPoly for nonce r. -/
def bounded (eta : Nat) (seed : Bytes) (r : Nat) : Poly :=
  ofList (sample 136 (boundedTake eta) 64 (shakeState .shake256 (seed ++ toLE 2 r)) [])

/-- ExpandMask for nonce r: coefficients gamma1 - x. -/
def maskPoly (pr : Params) (seed : Bytes) (r : Nat) : Poly :=
  let v := unpack (pr.gamma1Bits + 1) (Hash.xof .shake256 (seed ++ toLE 2 r) (32 * (pr.gamma1Bits + 1)))
  (v.map (fun x => (q + 2 ^ pr.gamma1Bits - x) % q)).toArray

/-- Fisher-Yates placement of SampleInBall: i from 256 - tau, the bytes of the stream left, sign bits. -/
def ballAux (signs : Nat) : Nat → Nat → Nat → Bytes → Poly → Poly
  | 0, _, _, _, c => c
  | _, 0, _, _, c => c
  | fuel + 1, left, n, bs, c =>
    match bs with
    | [] => c
    | b :: r =>
      let i := 256 - left
      if b.toNat > i then ballAux signs fuel left n r c
      else
        let j := b.toNat
        ballAux signs fuel (left - 1) (n + 1) r
          ((c.setIfInBounds i (co c j)).setIfInBounds j (if signs.testBit n then q - 1 else 1))

/-- SampleInBall. 2,048 bytes of the stream are more than any seed needs. -/
def ball (pr : Params) (seed : Bytes) : Poly :=
  let s := Hash.xof .shake256 seed 2048
  ballAux (ofLE (s.take 8)) 2040 pr.tau 0 (s.drop 8) zero

/-- The absolute value of a coefficient taken between -q/2 and q/2. -/
def norm1 (x : Nat) : Nat := if x > q / 2 then q - x else x

/-- The infinity norm of a list of polynomials. -/
def norm (v : List Poly) : Nat := v.foldl (fun n p => p.toList.foldl (fun n x => max n (norm1 x)) n) 0

/-- Power2Round: the pair (high, low) with low between -2^12 and 2^12, modulo q. -/
def power2Round (r : Nat) : Nat × Nat :=
  let r0 := r % 2 ^ dBits
  if r0 > 2 ^ (dBits - 1) then ((r + 2 ^ dBits - r0) / 2 ^ dBits, (q + r0 - 2 ^ dBits) % q)
  else ((r - r0) / 2 ^ dBits, r0)

/-- Decompose: the pair (high, low), low modulo q. -/
def decompose (g2 r : Nat) : Nat × Nat :=
  let a := 2 * g2
  let r0 := r % a
  let (hi, lo) : Nat × Nat := if r0 > g2 then (r + a - r0, (q + r0 - a) % q) else (r - r0, r0)
  if hi = q - 1 then (0, (lo + q - 1) % q) else (hi / a, lo)

/-- HighBits of a polynomial. -/
def highBits (g2 : Nat) (p : Poly) : Poly := mk (fun i => (decompose g2 (co p i)).1)

/-- LowBits of a polynomial, modulo q. -/
def lowBits (g2 : Nat) (p : Poly) : Poly := mk (fun i => (decompose g2 (co p i)).2)

/-- UseHint for one coefficient. -/
def useHint (g2 : Nat) (h : Bool) (r : Nat) : Nat :=
  let m := (q - 1) / (2 * g2)
  let (r1, r0) := decompose g2 r
  if !h then r1 else if 0 < r0 ∧ r0 ≤ q / 2 then (r1 + 1) % m else (r1 + m - 1) % m

/-- The encoding of w1. -/
def w1Encode (pr : Params) (w : List Poly) : Bytes :=
  w.flatMap (packPoly (BigNum.bitLen ((q - 1) / (2 * pr.gamma2) - 1)))

/-- Coefficients c packed as top - c on d bits. -/
def packTop (d top : Nat) (p : Poly) : Bytes := packPoly d (mk (fun i => (top + q - co p i) % q))

/-- The polynomial from a packing of top - c on d bits. -/
def unpackTop (d top : Nat) (bs : Bytes) : Poly := ((unpack d bs).map (fun x => (q + top - x) % q)).toArray

/-- Bits of a packed coefficient of s1 and s2. -/
def etaBits (pr : Params) : Nat := if pr.eta = 2 then 3 else 4

/-- ML-DSA.KeyGen_internal: public key and private key of a seed. -/
def keyGen (pr : Params) (xi : Bytes) : Bytes × Bytes :=
  let g := Hash.xof .shake256 (xi ++ [byte pr.k, byte pr.l]) 128
  let rho := g.take 32
  let rho' := slice 32 64 g
  let key := g.drop 96
  let s1 := (List.range pr.l).map (bounded pr.eta rho')
  let s2 := (List.range pr.k).map (fun i => bounded pr.eta rho' (pr.l + i))
  let s1h := s1.map toNtt
  let t := (List.range pr.k).map (fun i =>
    add q (ofNtt (dot ((List.range pr.l).map (matrix rho i)) s1h)) (nth zero s2 i))
  let t1 := t.map (fun p => mk (fun i => (power2Round (co p i)).1))
  let t0 := t.map (fun p => mk (fun i => (power2Round (co p i)).2))
  let pk := rho ++ t1.flatMap (packPoly 10)
  let tr := Hash.xof .shake256 pk 64
  (pk, rho ++ key ++ tr ++ s1.flatMap (packTop (etaBits pr) pr.eta) ++ s2.flatMap (packTop (etaBits pr) pr.eta) ++
    t0.flatMap (packTop dBits (2 ^ (dBits - 1))))

/-- The hint of one coefficient: whether adding z changes the high bits of r. -/
def makeHint (g2 z r : Nat) : Bool := (decompose g2 r).1 ≠ (decompose g2 ((r + z) % q)).1

/-- HintBitPack: the places of the ones of each polynomial, then the running counts. -/
def hintPack (pr : Params) (h : List (List Nat)) : Bytes :=
  let places := h.flatten
  let counts := (List.range pr.k).map (fun i => sumBy List.length (h.take (i + 1)))
  places.map byte ++ zeros (pr.omega - places.length) ++ counts.map byte

/-- HintBitUnpack: none where the encoding is invalid. -/
def hintUnpack (pr : Params) (y : Bytes) : Option (List (List Nat)) :=
  let places := (y.take pr.omega).map (·.toNat)
  let counts := (y.drop pr.omega).map (·.toNat)
  let step (acc : Option (Nat × List (List Nat))) (c : Nat) : Option (Nat × List (List Nat)) :=
    acc.bind (fun (from_, hs) =>
      if c < from_ ∨ c > pr.omega then none else
        let part := (places.drop from_).take (c - from_)
        if (List.zipWith (fun a b => decide (a < b)) part (part.drop 1)).all id then some (c, hs ++ [part]) else none)
  match counts.foldl step (some (0, [])) with
  | none => none
  | some (n, hs) => if (places.drop n).all (· = 0) then some hs else none

/-- The message representative of a message with its context string (FIPS 204 ML-DSA.Sign). -/
def mu (tr ctx m : Bytes) : Bytes := Hash.xof .shake256 (tr ++ [0, byte ctx.length] ++ ctx ++ m) 64

/-- What signing takes from a private key. -/
structure SignKey where
  rho : Bytes
  key : Bytes
  tr : Bytes
  s1 : List Poly
  s2 : List Poly
  t0 : List Poly

/-- skDecode. -/
def skDecode (pr : Params) (sk : Bytes) : SignKey :=
  let eb := 32 * etaBits pr
  let body := sk.drop 128
  ⟨sk.take 32, slice 32 32 sk, slice 64 64 sk,
   (chunks eb (body.take (eb * pr.l))).map (unpackTop (etaBits pr) pr.eta),
   (chunks eb (slice (eb * pr.l) (eb * pr.k) body)).map (unpackTop (etaBits pr) pr.eta),
   (chunks (32 * dBits) (body.drop (eb * (pr.l + pr.k)))).map (unpackTop dBits (2 ^ (dBits - 1)))⟩

/-- Whether every coefficient of s1 and s2 of a private key lies within -eta and eta (09 R202). -/
def skValid (pr : Params) (sk : Bytes) : Bool :=
  (unpack (etaBits pr) (slice 128 (32 * etaBits pr * (pr.l + pr.k)) sk)).all (· ≤ 2 * pr.eta)

/-- One iteration of the signing loop for the mask nonces from kappa: the signature, or none where it is rejected. -/
def iteration (pr : Params) (sk : SignKey) (s1h s2h t0h : List Poly) (mu rho2 : Bytes) (a : List (List Poly))
    (kappa : Nat) : Option Bytes :=
  let y := (List.range pr.l).map (fun i => maskPoly pr rho2 (kappa + i))
  let yh := y.map toNtt
  let w := a.map (fun row => ofNtt (dot row yh))
  let w1 := w.map (highBits pr.gamma2)
  let ct := Hash.xof .shake256 (mu ++ w1Encode pr w1) (pr.lambda / 4)
  let c := toNtt (ball pr ct)
  let by_ (v : List Poly) := v.map (fun p => ofNtt (mulNtt c p))
  let z := List.zipWith (add q) y (by_ s1h)
  let ws2 := List.zipWith (sub q) w (by_ s2h)
  let beta := pr.tau * pr.eta
  if norm z ≥ 2 ^ pr.gamma1Bits - beta ∨ norm (ws2.map (lowBits pr.gamma2)) ≥ pr.gamma2 - beta then none else
    let ct0 := by_ t0h
    let h := List.zipWith (fun (t : Poly) (r : Poly) =>
      (List.range 256).filter (fun i => makeHint pr.gamma2 ((q - co t i) % q) ((co r i + co t i) % q))) ct0 ws2
    if norm ct0 ≥ pr.gamma2 ∨ sumBy List.length h > pr.omega then none
    else some (ct ++ z.flatMap (packTop (pr.gamma1Bits + 1) (2 ^ pr.gamma1Bits)) ++ hintPack pr h)

/-- The loop: the signature and the iterations it took. `fuel` stands for the descriptor time limit (09 R206). -/
def loop (try_ : Nat → Option Bytes) (l : Nat) : Nat → Nat → Option (Bytes × Nat)
  | 0, _ => none
  | fuel + 1, n =>
    match try_ (l * n) with
    | some s => some (s, n + 1)
    | none => loop try_ l fuel (n + 1)

/-- ML-DSA.Sign: signature and iteration count; none where `fuel` iterations do not suffice. -/
def sign (pr : Params) (sk m ctx rnd : Bytes) (fuel : Nat) : Option (Bytes × Nat) :=
  let k := skDecode pr sk
  let mu := mu k.tr ctx m
  let rho2 := Hash.xof .shake256 (k.key ++ rnd ++ mu) 64
  let a := (List.range pr.k).map (fun r => (List.range pr.l).map (matrix k.rho r))
  loop (iteration pr k (k.s1.map toNtt) (k.s2.map toNtt) (k.t0.map toNtt) mu rho2 a) pr.l fuel 0

/-- ML-DSA.Verify; an invalid hint encoding rejects (09 R203). -/
def verify (pr : Params) (pk m sig ctx : Bytes) : Bool :=
  let rho := pk.take 32
  let t1 := (chunks 320 (pk.drop 32)).map (unpackPoly 10)
  let ct := sig.take (pr.lambda / 4)
  let zb := 32 * (pr.gamma1Bits + 1)
  let z := (chunks zb (slice (pr.lambda / 4) (zb * pr.l) sig)).map (unpackTop (pr.gamma1Bits + 1) (2 ^ pr.gamma1Bits))
  match hintUnpack pr (sig.drop (pr.lambda / 4 + zb * pr.l)) with
  | none => false
  | some h =>
    let mu := mu (Hash.xof .shake256 pk 64) ctx m
    let c := toNtt (ball pr ct)
    let zh := z.map toNtt
    let w := (List.range pr.k).map (fun r =>
      let az := dot ((List.range pr.l).map (matrix rho r)) zh
      let t := toNtt (mk (fun i => co (nth zero t1 r) i * 2 ^ dBits % q))
      ofNtt (sub q az (mulNtt c t)))
    let w1 := (List.range pr.k).map (fun r =>
      mk (fun i => useHint pr.gamma2 ((nth [] h r).contains i) (co (nth zero w r) i)))
    decide (norm z < 2 ^ pr.gamma1Bits - pr.tau * pr.eta) && Hash.xof .shake256 (mu ++ w1Encode pr w1) (pr.lambda / 4) = ct

end Sys2Proof.Dsa
end

