-- ==== Sys2Proof/Machine/Ec.lean ====
section
/-! DEFINITION. Short-Weierstrass curves of the OX units (08 R171, R176, R178, R180): the named curves P-256, P-384
and P-521 and a generic curve with given parameters, ECDSA with the hedged nonce, cofactor Diffie-Hellman. Points
are affine; none is the point at infinity. -/

namespace Sys2Proof.Ec

open Sys2Proof BigNum

/-- The parameters of a curve y^2 = x^3 + ax + b modulo p, with a generator of order n and cofactor h, the bytes of
a field element and of a scalar. -/
structure Curve where
  p : Nat
  a : Nat
  b : Nat
  gx : Nat
  gy : Nat
  n : Nat
  h : Nat
  f : Nat
  g : Nat
  deriving DecidableEq, Repr

/-- A point; none is the point at infinity. -/
abbrev Point := Option (Nat × Nat)

/-- NIST P-256. -/
def p256 : Curve where
  p := 0xFFFFFFFF00000001000000000000000000000000FFFFFFFFFFFFFFFFFFFFFFFF
  a := 0xFFFFFFFF00000001000000000000000000000000FFFFFFFFFFFFFFFFFFFFFFFC
  b := 0x5AC635D8AA3A93E7B3EBBD55769886BC651D06B0CC53B0F63BCE3C3E27D2604B
  gx := 0x6B17D1F2E12C4247F8BCE6E563A440F277037D812DEB33A0F4A13945D898C296
  gy := 0x4FE342E2FE1A7F9B8EE7EB4A7C0F9E162BCE33576B315ECECBB6406837BF51F5
  n := 0xFFFFFFFF00000000FFFFFFFFFFFFFFFFBCE6FAADA7179E84F3B9CAC2FC632551
  h := 1
  f := 32
  g := 32

/-- NIST P-384. -/
def p384 : Curve where
  p := 2 ^ 384 - 2 ^ 128 - 2 ^ 96 + 2 ^ 32 - 1
  a := 2 ^ 384 - 2 ^ 128 - 2 ^ 96 + 2 ^ 32 - 4
  b := 0xB3312FA7E23EE7E4988E056BE3F82D19181D9C6EFE8141120314088F5013875AC656398D8A2ED19D2A85C8EDD3EC2AEF
  gx := 0xAA87CA22BE8B05378EB1C71EF320AD746E1D3B628BA79B9859F741E082542A385502F25DBF55296C3A545E3872760AB7
  gy := 0x3617DE4A96262C6F5D9E98BF9292DC29F8F41DBD289A147CE9DA3113B5F0B8C00A60B1CE1D7E819D7A431D7C90EA0E5F
  n := 0xFFFFFFFFFFFFFFFFFFFFFFFFFFFFFFFFFFFFFFFFFFFFFFFFC7634D81F4372DDF581A0DB248B0A77AECEC196ACCC52973
  h := 1
  f := 48
  g := 48

/-- NIST P-521. -/
def p521 : Curve where
  p := 2 ^ 521 - 1
  a := 2 ^ 521 - 4
  b := 0x51953EB9618E1C9A1F929A21A0B68540EEA2DA725B99B315F3B8B489918EF109E156193951EC7E937B1652C0BD3BB1BF073573DF883D2C34F1EF451FD46B503F00
  gx := 0xC6858E06B70404E9CD9E3ECB662395B4429C648139053FB521F828AF606B4D3DBAA14B5E77EFE75928FE1DC127A2FFA8DE3348B3C1856A429BF97E7E31C2E5BD66
  gy := 0x11839296A789A3BC0045C8A5FB42C7D1BD998F54449579B446817AFBD17273E662C97EE72995EF42640C550B9013FAD0761353C7086A272C24088BE94769FD16650
  n := 0x1FFFFFFFFFFFFFFFFFFFFFFFFFFFFFFFFFFFFFFFFFFFFFFFFFFFFFFFFFFFFFFFFFa51868783BF2F966B7FCC0148F709A5D03BB5C9B8899C47AEBB6FB71E91386409
  h := 1
  f := 66
  g := 66

/-- The generic curve of a parameter block of seven numbers of w words each (R171). -/
def generic (w : Nat) (aux : Bytes) : Curve :=
  let k := 4 * w
  let part (i : Nat) := ofBE (slice (i * k) k aux)
  ⟨part 0, part 1, part 2, part 3, part 4, part 5, part 6, k, k⟩

/-- Whether a pair lies on the curve. -/
def onCurve (c : Curve) (x y : Nat) : Bool := y * y % c.p = (x * x * x + c.a * x + c.b) % c.p

/-- Addition of points. -/
def add (c : Curve) : Point → Point → Point
  | none, q => q
  | p, none => p
  | some (x1, y1), some (x2, y2) =>
    if x1 = x2 ∧ (y1 + y2) % c.p = 0 then none else
      let l := if x1 = x2 then (3 * x1 * x1 + c.a) * inv (2 * y1 % c.p) c.p % c.p
               else subMod y2 y1 c.p * inv (subMod x2 x1 c.p) c.p % c.p
      let x3 := subMod (subMod (l * l % c.p) x1 c.p) x2 c.p
      some (x3, subMod (l * subMod x1 x3 c.p % c.p) y1 c.p)

/-- Multiplication of a point by the low `fuel` bits of a number, the highest bit first. -/
def mulAux (c : Curve) (pt : Point) (k : Nat) : Nat → Point → Point
  | 0, acc => acc
  | i + 1, acc =>
    let d := add c acc acc
    mulAux c pt k i (if k.testBit i then add c d pt else d)

/-- Multiplication of a point by a number. -/
def mul (c : Curve) (k : Nat) (pt : Point) : Point := mulAux c pt k (bitLen k) none

/-- The generator. -/
def gen (c : Curve) : Point := some (c.gx, c.gy)

/-- A point as x ‖ y. -/
def encode (c : Curve) : Point → Bytes
  | none => zeros (2 * c.f)
  | some (x, y) => toBE c.f x ++ toBE c.f y

/-- The number of the leftmost bits of a digest, as many as n has (FIPS 186-5). -/
def truncate (c : Curve) (digest : Bytes) : Nat :=
  let bits := bitLen c.n
  if 8 * digest.length > bits then ofBE digest / 2 ^ (8 * digest.length - bits) else ofBE digest

/-! ## The hedged nonce of ECDSA_SIGN

FIPS 186-5 and RFC 6979 section 3.6: HMAC_DRBG over the private key, the digest and additional input. -/

/-- Candidate bits from HMAC outputs until as many bits as n has are there. -/
def nonceBits (h : Hash.Fn) (k : Bytes) : Nat → Bytes → Bytes → Bytes × Bytes
  | 0, v, t => (v, t)
  | fuel + 1, v, t => let v := Hash.hmac h k v; nonceBits h k fuel v (t ++ v)

/-- Nonces in order until one is in range and accepted. -/
def nonceLoop (c : Curve) (h : Hash.Fn) (ok : Nat → Option α) : Nat → Bytes → Bytes → Option α
  | 0, _, _ => none
  | fuel + 1, k, v =>
    let bits := bitLen c.n
    let (v, t) := nonceBits h k (ceilDiv bits (8 * Hash.digestLen h)) v []
    let x := if 8 * t.length > bits then ofBE t / 2 ^ (8 * t.length - bits) else ofBE t
    match (if 0 < x ∧ x < c.n then ok x else none) with
    | some r => some r
    | none =>
      let k := Hash.hmac h k (v ++ [0])
      nonceLoop c h ok fuel k (Hash.hmac h k v)

/-- The first nonce that `ok` accepts; 64 nonces are tried, more than any run meets. -/
def nonce (c : Curve) (h : Hash.Fn) (d : Nat) (digest extra : Bytes) (ok : Nat → Option α) : Option α :=
  let n := ceilDiv (bitLen c.n) 8
  let seed := toBE n d ++ toBE n (truncate c digest % c.n) ++ extra
  let v := List.replicate (Hash.digestLen h) (1 : Byte)
  let k := Hash.hmac h (zeros (Hash.digestLen h)) (v ++ [0] ++ seed)
  let v := Hash.hmac h k v
  let k := Hash.hmac h k (v ++ [1] ++ seed)
  nonceLoop c h ok 64 k (Hash.hmac h k v)

/-- The signature under one nonce; none where r or s is 0. -/
def signWith (c : Curve) (d z k : Nat) : Option (Nat × Nat) :=
  match mul c k (gen c) with
  | none => none
  | some (x, _) =>
    let r := x % c.n
    let s := inv k c.n * (z + r * d) % c.n
    if r = 0 ∨ s = 0 then none else some (r, s)

/-- ECDSA_SIGN: r ‖ s. -/
def sign (c : Curve) (h : Hash.Fn) (d : Nat) (digest extra : Bytes) : Bytes :=
  match nonce c h d digest extra (signWith c d (truncate c digest)) with
  | some (r, s) => toBE c.g r ++ toBE c.g s
  | none => zeros (2 * c.g)

/-- ECDSA_VERIFY's equation. -/
def verify (c : Curve) (q : Point) (digest : Bytes) (r s : Nat) : Bool :=
  let w := inv s c.n
  match add c (mul c (truncate c digest * w % c.n) (gen c)) (mul c (r * w % c.n) q) with
  | none => false
  | some (x, _) => x % c.n = r

/-- The private scalar of EC_KEYGEN from a drawn candidate, by testing candidates: none where it is not in the range
0 to n - 2; the scalar is the candidate plus one (FIPS 186-5 A.2.2). -/
def scalarOf (c : Curve) (draw : Bytes) : Option Nat :=
  let x := ofBE draw % 2 ^ bitLen c.n
  if x ≤ c.n - 2 then some (x + 1) else none

end Sys2Proof.Ec
end

