-- ==== Sys2Proof/Machine/Aes.lean ====
section
/-! DEFINITION. The AES block cipher of FIPS 197, in both directions (07 R146). The S-box is computed from its
definition: the inverse in GF(2^8), then the affine map. -/

namespace Sys2Proof.Aes

open Sys2Proof

/-- Multiplication by x in GF(2^8) modulo x^8 + x^4 + x^3 + x + 1. -/
def xtime (a : Byte) : Byte := if a.toNat ≥ 128 then (a <<< 1) ^^^ 0x1B else a <<< 1

/-- Multiplication in GF(2^8), over the low n bits of b. -/
def mulAux : Nat → Byte → Nat → Byte
  | 0, _, _ => 0
  | n + 1, a, b => (if b % 2 = 1 then a else 0) ^^^ mulAux n (xtime a) (b / 2)

/-- Multiplication in GF(2^8). -/
def mul (a b : Byte) : Byte := mulAux 8 a b.toNat

/-- The inverse in GF(2^8), a to the power 254; 0 for 0. -/
def inv (a : Byte) : Byte :=
  let a2 := mul a a
  let a4 := mul a2 a2
  let a8 := mul a4 a4
  let a16 := mul a8 a8
  let a32 := mul a16 a16
  let a64 := mul a32 a32
  let a128 := mul a64 a64
  mul a2 (mul a4 (mul a8 (mul a16 (mul a32 (mul a64 a128)))))

/-- The S-box by its definition. -/
def sboxDef (a : Byte) : Byte :=
  let b := inv a
  b ^^^ b.rotateLeft 1 ^^^ b.rotateLeft 2 ^^^ b.rotateLeft 3 ^^^ b.rotateLeft 4 ^^^ 0x63

/-- The S-box as a table. -/
def sboxTable : Array Byte := ((List.range 256).map (fun i => sboxDef (byte i))).toArray

/-- The inverse S-box as a table. -/
def invTable : Array Byte :=
  (List.range 256).foldl (fun (t : Array Byte) i => t.setIfInBounds (sboxTable.getD i 0).toNat (byte i)) (Array.replicate 256 0)

/-- SubBytes of one byte. -/
def sbox (a : Byte) : Byte := sboxTable.getD a.toNat 0

/-- InvSubBytes of one byte. -/
def invSbox (a : Byte) : Byte := invTable.getD a.toNat 0

/-- The key expansion: `prev` holds the words made so far, newest first. -/
def expandAux (nk : Nat) : Nat → Nat → Byte → List Bytes → List Bytes
  | 0, _, _, prev => prev
  | n + 1, i, rcon, prev =>
    let last := prev.headD []
    let back := prev.getD (nk - 1) []
    if i % nk = 0 then
      let rot := (last.drop 1 ++ last.take 1).map sbox
      expandAux nk n (i + 1) (xtime rcon) (xorB back (xorB rot [rcon, 0, 0, 0]) :: prev)
    else if nk > 6 ∧ i % nk = 4 then
      expandAux nk n (i + 1) rcon (xorB back (last.map sbox) :: prev)
    else
      expandAux nk n (i + 1) rcon (xorB back last :: prev)

/-- The round keys, 16 bytes each, for a key of 16, 24 or 32 bytes. -/
def roundKeys (key : Bytes) : List Bytes :=
  let nk := key.length / 4
  let ws := (expandAux nk (4 * (nk + 7) - nk) nk 1 ((chunks 4 key).reverse)).reverse
  Sys2Proof.chunks 16 ws.flatten

/-- ShiftRows: byte i of the state comes from byte 5i modulo 16. -/
def shiftRows (s : Bytes) : Bytes := (List.range 16).map (fun i => s.getD (5 * i % 16) 0)

/-- The inverse of ShiftRows. -/
def invShiftRows (s : Bytes) : Bytes := (List.range 16).map (fun i => s.getD (13 * i % 16) 0)

/-- One column times the circulant matrix with first row c0 c1 c2 c3. -/
def column (m0 m1 m2 m3 : Byte → Byte) : Bytes → Bytes
  | [a, b, c, d] =>
    [m0 a ^^^ m1 b ^^^ m2 c ^^^ m3 d, m3 a ^^^ m0 b ^^^ m1 c ^^^ m2 d,
     m2 a ^^^ m3 b ^^^ m0 c ^^^ m1 d, m1 a ^^^ m2 b ^^^ m3 c ^^^ m0 d]
  | s => s

/-- MixColumns. -/
def mixColumns (s : Bytes) : Bytes :=
  (Sys2Proof.chunks 4 s).flatMap (column xtime (fun a => xtime a ^^^ a) id id)

/-- The inverse of MixColumns. -/
def invMixColumns (s : Bytes) : Bytes :=
  (Sys2Proof.chunks 4 s).flatMap (column (mul 14) (mul 11) (mul 13) (mul 9))

/-- The rounds of the cipher after the first key addition. -/
def encRounds : List Bytes → Bytes → Bytes
  | [], s => s
  | [k], s => xorB (shiftRows (s.map sbox)) k
  | k :: ks, s => encRounds ks (xorB (mixColumns (shiftRows (s.map sbox))) k)

/-- The rounds of the inverse cipher; the keys in reverse order after the last. -/
def decRounds : List Bytes → Bytes → Bytes
  | [], s => s
  | [k], s => xorB ((invShiftRows s).map invSbox) k
  | k :: ks, s => decRounds ks (invMixColumns (xorB ((invShiftRows s).map invSbox) k))

/-- Encryption of one block under expanded round keys. -/
def encWith (rks : List Bytes) (blk : Bytes) : Bytes :=
  match rks with
  | [] => blk
  | k :: ks => encRounds ks (xorB blk k)

/-- Decryption of one block under expanded round keys, given in reverse order. -/
def decWith (rrks : List Bytes) (blk : Bytes) : Bytes :=
  match rrks with
  | [] => blk
  | k :: ks => decRounds ks (xorB blk k)

/-- AES encryption of one 16-byte block. -/
def enc (key blk : Bytes) : Bytes := encWith (roundKeys key) blk

/-- AES decryption of one 16-byte block. -/
def dec (key blk : Bytes) : Bytes := decWith (roundKeys key).reverse blk

end Sys2Proof.Aes
end

