-- ==== Sys2Proof/Machine/Flags.lean ====
section
/-! DEFINITION. Status codes (05 R118), the codes that registers and records use for modes, roles and states, and
the status word of a completion (05 R113). -/

namespace Sys2Proof.Machine

open Sys2Proof

/-! ## Status codes (05 R118) -/

namespace St
def ok : Nat := 0x00
def aborted : Nat := 0x01
def chainAborted : Nat := 0x02
def timeout : Nat := 0x03
def malformed : Nat := 0x10
def length : Nat := 0x11
def sgFault : Nat := 0x12
def keyAbsent : Nat := 0x20
def keyStale : Nat := 0x21
def keyUsage : Nat := 0x22
def keyblockAuth : Nat := 0x23
def tagMismatch : Nat := 0x30
def verifyFail : Nat := 0x31
def operandRange : Nat := 0x40
def notOnCurve : Nat := 0x41
def lengthUnsupported : Nat := 0x42
def entropy : Nat := 0x50
def faultDetected : Nat := 0x60
def pinFormat : Nat := 0x70
def pinCheck : Nat := 0x71
def dukptExhausted : Nat := 0x72
def locked : Nat := 0x80
def firmwareTrap : Nat := 0xF0
end St

/-- AV_MODE.MODE (03 R57). -/
def Mode.code : Mode → Nat
  | .factory => 1
  | .configure => 2
  | .operational => 3
  | .maintenance => 4
  | .locked => 5
  | .zeroized => 6

/-- AV_RING_STATUS.STATE (04 R69). -/
def RingSt.code : RingSt → Nat
  | .disabled => 0
  | .running => 1
  | .stopping => 2
  | .halted => 3
  | .fault => 4

/-- AV_TWIN_VIEW.ROLE (14 R311). -/
def Role.code : Role → Nat
  | .unpaired => 0
  | .home => 1
  | .shadow => 2
  | .solo => 3
  | .standby => 4
  | .syncSource => 5
  | .syncTarget => 6
  | .handing => 7

/-- The roles in which a block executes a partition (14 R311). -/
def Role.executes : Role → Bool
  | .unpaired | .home | .solo | .syncSource | .handing => true
  | .shadow | .standby | .syncTarget => false

/-- AV_UNIT_STATE (03). -/
def UnitState.code : UnitState → Nat
  | .spare => 0
  | .inService => 1
  | .quarantined => 2
  | .retired => 3

/-- The phase of index i in a ring of 2^log2 entries (04 R74). -/
def phaseOf (log2 : Nat) (i : Index) : Nat := 1 - (i.toNat >>> log2) % 2

/-- The STATUS word of a completion (05 R113). -/
def statusWord (status detail phase side engine : Nat) : Nat :=
  status % 256 + at_ 8 (detail % 256) + at_ 16 (phase % 2) + at_ 17 (side % 2) + at_ 24 (engine % 256)

/-- The 32 bytes of a completion (05 R113). -/
def completionBytes (tag : BitVec 64) (status outLen sub tick : Nat) (result : BitVec 64) : Bytes :=
  toLE 8 tag.toNat ++ toLE 4 status ++ toLE 4 outLen ++ toLE 4 sub ++ toLE 4 tick ++ toLE 8 result.toNat

/-- The detail of a key refusal: reference 0 K1, 1 K2, 2 K3 in [7:6] (05 R119). -/
def keyDetail (ref cause : Nat) : Nat := at_ 6 ref + cause

/-- The detail of an ST_SG_FAULT from a request: cause, port in [6], timeout in [7] (05 R119). -/
def sgDetail (cause port : Nat) (timedOut : Bool) : Nat := cause + at_ 6 (port % 2) + at_ 7 (flag timedOut)

end Sys2Proof.Machine
end

