-- ==== Sys2Proof/Machine/Ops.lean ====
section
/-! DEFINITION. The named operations that the meanings share: reading and changing records, issuing requests on the
master ports, recorder occurrences, interrupt messages, staging, completions and commits, and cutting work off. -/

namespace Sys2Proof.Machine

open Sys2Proof

/-! ## Records -/

/-- The interval clock. -/
def Block.now (b : Block) : Nat := b.time.interval

/-- Ring pair k. -/
def Block.ring (b : Block) (k : Nat) : RingRec := Table.get {} b.rings k

/-- Ring pair k changed. -/
def Block.modRing (b : Block) (k : Nat) (f : RingRec → RingRec) : Block :=
  { b with rings := Table.modify {} b.rings k f }

/-- Partition p. -/
def Block.part (b : Block) (p : Nat) : PartRec := Table.get {} b.parts p

/-- Partition p changed. -/
def Block.modPart (b : Block) (p : Nat) (f : PartRec → PartRec) : Block :=
  { b with parts := Table.modify {} b.parts p f }

/-- The key-management lock of partition p is released (10 R230, R231). -/
def Block.freeLock (b : Block) (p : Nat) : Block :=
  b.modPart p fun q => { q with lock := { q.lock with held := false, holder := 0 } }

/-- Vector v. -/
def Block.vec (b : Block) (v : Nat) : IrqVec := Table.get {} b.irq v

/-- Vector v changed. -/
def Block.modVec (b : Block) (v : Nat) (f : IrqVec → IrqVec) : Block :=
  { b with irq := Table.modify {} b.irq v f }

/-- Key slot i. -/
def Block.slot (b : Block) (i : Nat) : SlotRec := Table.get {} b.keys.slots i

/-- Key slot i changed. -/
def Block.modSlot (b : Block) (i : Nat) (f : SlotRec → SlotRec) : Block :=
  { b with keys := { b.keys with slots := Table.modify {} b.keys.slots i f } }

/-- Context i. -/
def Block.ctx (b : Block) (i : Nat) : CtxSlot := Table.get {} b.ctxs i

/-- Context i changed. -/
def Block.modCtx (b : Block) (i : Nat) (f : CtxSlot → CtxSlot) : Block :=
  { b with ctxs := Table.modify {} b.ctxs i f }

/-- Raw channel k. -/
def Block.chan (b : Block) (k : Nat) : Channel := Table.get {} b.mule k

/-- Raw channel k changed. -/
def Block.modChan (b : Block) (k : Nat) (f : Channel → Channel) : Block :=
  { b with mule := Table.modify {} b.mule k f }

/-- The health manager's record of unit u. -/
def Block.unit (b : Block) (u : Nat) : UnitRec := Table.get {} b.health.units u

/-- The record of unit u changed. -/
def Block.modUnit (b : Block) (u : Nat) (f : UnitRec → UnitRec) : Block :=
  { b with health := { b.health with units := Table.modify {} b.health.units u f } }

/-- Whether unit u is in service. -/
def Block.inService (b : Block) (u : Nat) : Bool := (b.unit u).st == .inService

/-- Cipher lane l. -/
def Block.lane (b : Block) (l : Nat) : LaneRec := Table.get {} b.lanes.units l

/-- Cipher lane l changed. -/
def Block.modLane (b : Block) (l : Nat) (f : LaneRec → LaneRec) : Block :=
  { b with lanes := { b.lanes with units := Table.modify {} b.lanes.units l f } }

/-- OX unit u. -/
def Block.oxUnit (b : Block) (u : Nat) : MathUnit := Table.get {} b.ox.units u

/-- OX unit u changed. -/
def Block.modOx (b : Block) (u : Nat) (f : MathUnit → MathUnit) : Block :=
  { b with ox := { b.ox with units := Table.modify {} b.ox.units u f } }

/-- Lattice unit u. -/
def Block.latUnit (b : Block) (u : Nat) : MathUnit := Table.get {} b.lat.units u

/-- Lattice unit u changed. -/
def Block.modLat (b : Block) (u : Nat) (f : MathUnit → MathUnit) : Block :=
  { b with lat := { b.lat with units := Table.modify {} b.lat.units u f } }

/-- DRAKE core u. -/
def Block.core (b : Block) (u : Nat) : Core14 := Table.get {} b.pay.cores u

/-- DRAKE core u changed. -/
def Block.modCore (b : Block) (u : Nat) (f : Core14 → Core14) : Block :=
  { b with pay := { b.pay with cores := Table.modify {} b.pay.cores u f } }

/-- Context c of core u. -/
def Block.cx (b : Block) (u : Nat) (c : Fin 8) : Ctx14 := (b.core u).ctxs[c]

/-- Context c of core u changed. -/
def Block.modCx (b : Block) (u : Nat) (c : Fin 8) (f : Ctx14 → Ctx14) : Block :=
  b.modCore u fun k => { k with ctxs := k.ctxs.set c (f k.ctxs[c]) }

/-- The entry of ring pair k and submission index i that is fetched and not completed. -/
def Block.entry? (b : Block) (k : Nat) (i : Index) : Option Entry :=
  b.entries.find? fun e => e.ring == k && e.sub == i

/-- That entry changed. -/
def Block.modEntry (b : Block) (k : Nat) (i : Index) (f : Entry → Entry) : Block :=
  { b with entries := b.entries.map fun e => if e.ring == k && e.sub == i then f e else e }

/-- That entry taken out. -/
def Block.dropEntry (b : Block) (k : Nat) (i : Index) : Block :=
  { b with entries := eraseFirst (fun e => e.ring == k && e.sub == i) b.entries }

/-- A counter value of free choices used up (log entry 5). -/
def Block.tick (b : Block) : Block := { b with free := b.free + 1 }

/-- A periodic governor may act: none that comes after it in the order of 01 R26 has acted in this tick. Places: 1 health
manager, 2 thermal, 3 DVFS, 4 balancer, 5 QoS. -/
def Block.governorFree (b : Block) (place : Nat) : Bool :=
  !(b.sched.governor.1 == b.now && decide (place < b.sched.governor.2))

/-- A periodic governor acts in this tick. -/
def Block.governs (b : Block) (place : Nat) : Block := { b with sched := { b.sched with governor := (b.now, place) } }

/-! ## Ownership (13 R289) -/

/-- The partition-table entry of partition p in the image in force. -/
def Block.cfg (b : Block) (p : Nat) : PartCfg := Table.get {} b.img.inForce.parts p

/-- The ring-table entry of ring pair k in the image in force. -/
def Block.ringCfg (b : Block) (k : Nat) : RingCfg := Table.get {} b.img.inForce.rings k

/-- Whether partition p is enabled. -/
def Block.enabled (b : Block) (p : Nat) : Bool := (b.cfg p).enabled

/-- The enabled partitions, in ascending order. -/
def Block.partitions (b : Block) : List Nat :=
  (b.img.inForce.parts.filter fun e => e.2.enabled).map (·.1)

/-- The enabled partition that owns ring pair k. -/
def Block.owner (b : Block) (k : Nat) : Option Nat :=
  (b.img.inForce.parts.find? fun e =>
    e.2.enabled && decide (e.2.ringFirst ≤ k) && decide (k < e.2.ringFirst + e.2.ringCount)).map (·.1)

/-- The owner of ring pair k; 0 where there is none. -/
def Block.ownerD (b : Block) (k : Nat) : Nat := (b.owner k).getD 0

/-- The enabled partition that owns vector v (13 R299). -/
def Block.vecOwner (b : Block) (v : Nat) : Option Nat :=
  (b.img.inForce.parts.find? fun e =>
    e.2.enabled && decide (e.2.vecFirst ≤ v) && decide (v < e.2.vecFirst + e.2.vecCount)).map (·.1)

/-- The ring pairs of partition p. -/
def Block.ringsOf (b : Block) (p : Nat) : List Nat :=
  (List.range (b.cfg p).ringCount).map (· + (b.cfg p).ringFirst)

/-- The ring pairs of partition p that differ from a DISABLED ring at reset. -/
def Block.liveRings (b : Block) (p : Nat) : List Nat :=
  (b.rings.filter fun e => b.owner e.1 == some p).map (·.1)

/-- Whether slot i lies in partition p's range (10 R219). -/
def Block.slotIn (b : Block) (p i : Nat) : Bool :=
  decide ((b.cfg p).slotFirst ≤ i) && decide (i < (b.cfg p).slotFirst + (b.cfg p).slotCount)

/-- Whether partition p is paired on this block (14 R310). -/
def Block.paired (b : Block) (p : Nat) : Bool := p != 0 && (b.cfg p).paired && (b.cfg p).enabled && b.twin.record

/-- The role of partition p (14 R311). -/
def Block.role (b : Block) (p : Nat) : Role :=
  let t := (b.part p).tw
  if b.paired p then t.role
  else if p != 0 && (b.cfg p).paired && (b.cfg p).enabled && t.detached then .standby
  else .unpaired

/-- Whether this block executes partition p (13 R290, 14 R311). -/
def Block.executes (b : Block) (p : Nat) : Bool := b.enabled p && (b.role p).executes

/-- Whether completions of partition p wait for the twin's acknowledgement (14 R311). -/
def Block.commits (b : Block) (p : Nat) : Bool :=
  match b.role p with
  | .home => true
  | .handing => b.twin.session.isSome
  | _ => false

/-! ## Recorder occurrences (17 R373 to R377) -/

/-- The working copy changed. -/
def Block.modRec (b : Block) (f : RecCopy → RecCopy) : Block :=
  { b with recorder := { b.recorder with copy := f b.recorder.copy } }

/-- A commit starts, or follows the one in progress (R377). -/
def Block.startCommit (b : Block) : Block :=
  match b.recorder.committing with
  | some _ => { b with recorder := { b.recorder with queued := true } }
  | none =>
    let c := { b.recorder.copy with seq := b.recorder.copy.seq + 1 }
    let toB := if b.recorder.bankA.isNone && b.recorder.bankB.isNone then false else !b.recorder.bank
    { b with recorder := { b.recorder with committing := some (c, toB) } }

/-- The commit in progress takes the working copy as it now stands: a second trigger of the same tick (R381). -/
def Block.joinCommit (b : Block) : Block :=
  { b with recorder := { b.recorder with
      committing := b.recorder.committing.map fun x => ({ b.recorder.copy with seq := x.1.seq }, x.2) } }

/-- A severity-2 or archive trigger: at once, but no sooner than 1,000,000 ticks after the last commit that such a
trigger started (R377); one commit with an hour boundary of the same tick (R381). -/
def Block.spacedCommit (b : Block) : Block :=
  let free := match b.recorder.spacedAt with
    | none => true
    | some t => decide (t + 1000000 ≤ b.now)
  if free then
    let b := if b.recorder.hourAt == some b.now && b.recorder.committing.isSome then b.joinCommit else b.startCommit
    { b with recorder := { b.recorder with spacedAt := some b.now, deferred := false } }
  else { b with recorder := { b.recorder with deferred := true } }

/-- Whether an occurrence joins record r: same kind, subject and severity, same operating hour and power cycle (R373). -/
def RecCopy.joins (c : RecCopy) (kind sev subject : Nat) (r : Rec) : Bool :=
  r.kind == kind && r.subject == subject && r.sev == sev && r.first / 60 == c.opMinutes / 60 && r.cycle == c.powerCycles

/-- The lowest free slot of the general area (log entry 13). -/
def RecCopy.freeSlot (c : RecCopy) : Option Nat :=
  if c.general.length < 1152 then (List.range 1152).find? fun i => !(c.general.any fun e => e.1 == i) else none

/-- A new record in the general area (R375): a free slot, or the record of lowest ID among those of its severity or
lower, or none. -/
def RecCopy.place (c : RecCopy) (r : Rec) : Option RecCopy :=
  match c.freeSlot with
  | some i => some { c with general := (i, r) :: c.general, nextId := (c.nextId + 1) % 2 ^ 32 }
  | none =>
    match argMin (fun e => (e.2.id : Int)) (c.general.filter fun e => decide (e.2.sev ≤ r.sev)) with
    | none => none
    | some v => some { c with
        general := (v.1, r) :: c.general.filter (fun e => e.1 != v.1)
        nextId := (c.nextId + 1) % 2 ^ 32 }

/-- The tamper and mismatch counts that an occurrence steps (R374). -/
def RecCopy.counted (c : RecCopy) (kind subject : Nat) : RecCopy :=
  if kind = 0x0001 then { c with tamper := modNth (fun n => satAdd 32 n 1) subject c.tamper }
  else if kind = 0x0031 then { c with mismatch := modNth (fun n => satAdd 16 n 1) subject c.mismatch }
  else c

/-- An occurrence of severity 0 to 2 joins a record or creates one (R373, R375). -/
def Block.noteLow (b : Block) (kind sev subject detail : Nat) : Block :=
  let c := b.recorder.copy.counted kind subject
  let b := { b with recorder := { b.recorder with copy := c } }
  match argMax (fun e => (e.2.id : Int)) (c.general.filter fun e => c.joins kind sev subject e.2) with
  | some v => b.modRec fun c => { c with general := c.general.map fun e =>
      if e.1 == v.1 then (e.1, { e.2 with count := satAdd 32 e.2.count 1, last := c.opMinutes, detail := detail }) else e }
  | none =>
    let r : Rec := { kind, sev, subject, first := c.opMinutes, last := c.opMinutes, cycle := c.powerCycles, detail, id := c.nextId }
    match c.place r with
    | some c => { b with recorder := { b.recorder with copy := c } }
    | none => { b with recorder := { b.recorder with dropped := satAdd 32 b.recorder.dropped 1 } }

/-- A LOCK or ERASE is applied: LOCK_SEQ counts it, in flash too on main power; the challenge and the ceremony end with it
(16 R356, R360, R362, R365). -/
def Gander.countLock (g : Gander) : Gander :=
  { g with lockSeq := g.lockSeq + 1, lockSeqFlash := if g.vencPresent then g.lockSeq + 1 else g.lockSeqFlash
           nonce := none, ceremony := none }

/-- An occurrence of severity 3 always creates a record; the record that fills the reserve sets RESERVE_LOCK, the LOCK
latch and LOCK_SEQ, and commits; one that finds it full is lost (R373, R376). The mode change of R376 follows in
`Block.note`. -/
def Block.noteHigh (b : Block) (kind subject detail : Nat) : Block :=
  let c := b.recorder.copy.counted kind subject
  if 640 ≤ c.sev3.length then
    Block.startCommit { b with recorder := { b.recorder with copy := { c with sev3Lost := satAdd 16 c.sev3Lost 1 } } }
  else
    let r : Rec := { kind, sev := 3, subject, first := c.opMinutes, last := c.opMinutes, cycle := c.powerCycles, detail, id := c.nextId }
    let full := c.sev3.length + 1 == 640
    let c := { c with sev3 := c.sev3 ++ [r], nextId := (c.nextId + 1) % 2 ^ 32, reserveLock := c.reserveLock || full }
    let b := { b with recorder := { b.recorder with copy := c } }
    let b := if full then { b with gander := { b.gander.countLock with lockLatch := true } } else b
    b.startCommit

/-- One occurrence in the recorder, without the mode change that a full reserve makes. -/
def Block.noteRec (b : Block) (kind sev subject detail : Nat) : Block :=
  if sev < 3 then
    let b := b.noteLow kind sev subject detail
    if sev = 2 then b.spacedCommit else b
  else b.noteHigh kind subject detail

/-! ## Master ports (02 R37 to R41) -/

/-- The pieces of a range: one masked line where it starts or ends inside a line, whole lines between, none crossing a
4 KiB boundary (02 R37, 06 R128). -/
def piecesAux : Nat → Nat → Nat → List (Nat × Nat)
  | 0, _, _ => []
  | fuel + 1, addr, len =>
    if len = 0 then [] else
    let n :=
      if addr % 64 ≠ 0 then min len (64 - addr % 64)
      else if len < 64 then len
      else min (len / 64 * 64) (4096 - addr % 4096)
    (addr, n) :: piecesAux fuel (addr + n) (len - n)

/-- The pieces of a range. -/
def pieces (addr len : Nat) : List (Nat × Nat) := piecesAux (len / 4096 + 4) addr len

/-- A request stands outstanding. -/
def Block.await (b : Block) (port : Nat) (kind : ReqKind) (pur : Purpose) (part addr len : Nat) (data : Bytes)
    (again : Bool) : Block :=
  { b with mport := { b.mport with
      nextId := b.mport.nextId + 1
      outst := b.mport.outst ++ [{ id := b.mport.nextId, port, kind, purpose := pur, part, addr, len, issued := b.now, data, again }] } }

/-- Something goes out on the block's boundary (log entry 4). -/
def Block.put (b : Block) (m : Sent) : Block := { b with bus := b.bus ++ [m] }

/-- Reads of a range; like every request but a completion, a shadow word and an interrupt message they are relaxed (R38). -/
def Block.issueRead (b : Block) (port part ring addr len : Nat) (pur : Purpose) : Block :=
  (pieces addr len).foldl (fun b pc =>
    (b.put (.read port part ring false pc.1 pc.2)).await port .read pur part pc.1 pc.2 [] false) b

/-- One ordered write: a completion, a shadow word or an interrupt message (R38). -/
def Block.issueOrdered (b : Block) (port part ring addr : Nat) (data : Bytes) (pur : Purpose) (again : Bool) : Block :=
  (b.put (.write port part ring addr true data)).await port .write pur part addr data.length data again

/-- Relaxed writes of bytes to a range, split as R37 and R128 state. -/
def Block.issueWrite (b : Block) (port part ring addr : Nat) (data : Bytes) (pur : Purpose) : Block :=
  (pieces addr data.length).foldl (fun b pc =>
    (b.put (.write port part ring pc.1 false (slice (pc.1 - addr) pc.2 data))).await port .write pur part pc.1 pc.2 [] false) b

/-- A compare-and-swap of a lease word: relaxed, with ring pair index 0xFFFF (R38). Lease traffic goes over M0, since no rule
chooses its port (DESIGN CHOICE, log entry 97). -/
def Block.issueCas (b : Block) (part addr : Nat) (expected new : BitVec 64) (pur : Purpose) : Block :=
  (b.put (.cas 0 part 0xFFFF false addr expected new)).await 0 .cas pur part addr 8 [] false

/-- Write bytes queued on a port (R39): those of every write issued on it whose response has not come (DESIGN CHOICE, log entry
98: the rule does not say which writes it counts). -/
def Block.queuedOn (b : Block) (port : Nat) : Nat :=
  sumBy (fun r => if r.port == port && r.kind == .write then r.len else 0) b.mport.outst

/-- The port with fewer write bytes queued, M0 when equal (R39). -/
def Block.pickPort (b : Block) : Nat := if b.queuedOn 1 < b.queuedOn 0 then 1 else 0

/-- Whether a request for a purpose is outstanding. -/
def Block.awaits (b : Block) (pur : Purpose) : Bool := b.mport.outst.any fun r => r.purpose == pur

/-- The responses for a purpose have come: its requests are outstanding no more. -/
def Block.arrived (b : Block) (pur : Purpose) : Block :=
  { b with mport := { b.mport with outst := b.mport.outst.filter fun r => r.purpose != pur } }

/-- One request is outstanding no more. -/
def Block.retireReq (b : Block) (r : Request) : Block :=
  { b with mport := { b.mport with outst := b.mport.outst.filter fun x => x.id != r.id } }

/-- The requests of work that is cut off run on, and their responses are discarded (02 R42). -/
def Block.disown (b : Block) (mine : Purpose → Bool) : Block :=
  { b with mport := { b.mport with
      outst := b.mport.outst.map fun r => if mine r.purpose then { r with purpose := .discarded r.purpose } else r } }

/-- The responses to reads of work that has been cut off have come: they are discarded (02 R42). -/
def Block.discard (b : Block) (mine : Purpose → Bool) : Block :=
  { b with mport := { b.mport with
      outst := b.mport.outst.filter fun r => match r.purpose with | .discarded w => !mine w | _ => true } }

/-- A request reads or writes for an entry. -/
def Purpose.ofEntry (k : Nat) (i : Index) : Purpose → Bool
  | .srcList j x | .dstList j x | .gather j x | .aux j x | .output j x | .readback j x => j == k && x == i
  | _ => false

/-- A request reads submission entries of ring k. -/
def Purpose.ofFetch (k : Nat) : Purpose → Bool
  | .fetch j | .poll j => j == k
  | _ => false

/-- A request writes a completion or a shadow word of ring k. -/
def Purpose.ofWrites (k : Nat) : Purpose → Bool
  | .completion j _ | .shadow j => j == k
  | _ => false

/-- A request is one of raw channel ch. -/
def Purpose.ofChan (ch : Nat) : Purpose → Bool
  | .chanSrcList k | .chanDstList k | .chanReadback k => k == ch
  | .chanRead k _ | .chanWrite k _ => k == ch
  | _ => false

/-- Whether a request is for the work of a partition, and not for its lease or the block's image. -/
def Purpose.isWork : Purpose → Bool
  | .leaseRenew _ | .leaseRead _ | .leaseTake _ | .leaseGive _ | .image => false
  | .discarded w => w.isWork
  | _ => true

/-- One error or timed-out response counted on a port (AV_MPORT_ERR_COUNT). -/
def Block.countPort (b : Block) (port : Nat) : Block :=
  if port = 0 then { b with mport := { b.mport with count0 := satAdd 32 b.mport.count0 1 } }
  else { b with mport := { b.mport with count1 := satAdd 32 b.mport.count1 1 } }

/-! ## Interrupt messages (02 R43, 13 R299 to R303) -/

/-- Whether a partition sleeps. -/
def Block.asleep (b : Block) (p : Nat) : Bool := (b.part p).asleep

/-- The vector control word masks the vector. -/
def IrqVec.masked (v : IrqVec) : Bool := v.ctl.getLsbD 0

/-- The message address is not 4-byte aligned (R43). -/
def IrqVec.misaligned (v : IrqVec) : Bool := v.addr.toNat % 4 != 0

/-- An attempt to send the message of vector v: issued, or held where the address is misaligned, the attempt counted and
noted (R43). `woke` marks a wake message of R303. -/
def Block.sendIrq (b : Block) (v : Nat) (woke : Bool) : Block :=
  let x := b.vec v
  let p := (b.vecOwner v).getD 0
  if x.misaligned then
    ((b.modVec v fun x => { x with due := true }).countPort x.port).noteRec 0x0061 0 x.port 4
  else
    let b := b.issueOrdered x.port p 0xFFFF x.addr.toNat (toLE 4 x.data.toNat) (.irq v) false
    b.modVec v fun x => { x with pending := 0, due := false, woke := x.woke || woke }

/-- The wake rule of R303 applies to vector v: its partition sleeps, it may wake it and has not in this sleep. -/
def Block.mayWake (b : Block) (v : Nat) : Bool :=
  let x := b.vec v
  b.asleep ((b.vecOwner v).getD 0) && x.wake && !x.woke && decide (0 < x.pending)

/-- The partition of vector v has no output until a renewal of its lease succeeds (14 R324). -/
def Block.muted (b : Block) (v : Nat) : Bool := (b.part ((b.vecOwner v).getD 0)).tw.stopped

/-- The message of vector v falls due: sent at once unless masked, muted or asleep, where it is held (R301 to R303). -/
def Block.fallDue (b : Block) (v : Nat) : Block :=
  let x := b.vec v
  if x.masked || b.muted v || b.asleep ((b.vecOwner v).getD 0) then b.modVec v fun x => { x with due := true }
  else b.sendIrq v false

/-- Whether the thresholds make the message of a vector due (R301; a count threshold of 0 acts as 1). -/
def IrqVec.reached (x : IrqVec) (now : Nat) : Bool :=
  decide (0 < x.pending) && (decide (max x.countThresh 1 ≤ x.pending) || decide (x.firstAt + x.timeThresh ≤ now))

/-- A message of vector v falls due by its thresholds, where none is due already. -/
def Block.examineVec (b : Block) (v : Nat) : Block :=
  let x := b.vec v
  if !x.due && x.reached b.now then b.fallDue v else b

/-- A completion raises vector v on a port (R86, R301); in its partition's sleep the first one that may wake it sends the
wake message (R303), unless one is held already for its misaligned address. -/
def Block.raise (b : Block) (v port : Nat) : Block :=
  match b.vecOwner v with
  | none => b
  | some _ =>
    let b := b.modVec v fun x => { x with
      pending := satAdd 16 x.pending 1
      firstAt := if x.pending = 0 then b.now else x.firstAt
      port := port }
    let x := b.vec v
    if b.mayWake v && !x.masked && !b.muted v && !(x.due && x.misaligned) then b.sendIrq v true else b.examineVec v

/-- What holds vector v has gone: its mask, its misaligned address or its partition's sleep (R43, R302, R303). A due
message is sent; a partition that still sleeps takes the wake message. -/
def Block.releaseVec (b : Block) (v : Nat) : Block :=
  let x := b.vec v
  if x.masked || b.muted v then b
  else if b.asleep ((b.vecOwner v).getD 0) then (if b.mayWake v then b.sendIrq v true else b)
  else if x.due then b.sendIrq v false
  else b

/-! ## Staging (06 R121 to R125) -/

/-- Allocatable staging A in KiB (R121); 0 with no image in force. -/
def Block.allocKib (b : Block) : Nat :=
  match b.img.inForce.storeMap with
  | (_, size) :: _ => size - 1024 - 768 * b.store.reduced
  | [] => 0

/-- The staging quota in force of a partition (R121). -/
def Block.quotaKib (b : Block) (p : Nat) : Nat := min (b.cfg p).stagingKib b.allocKib

/-- The staging floor of a partition (R123). -/
def Block.floorKib (b : Block) (p : Nat) : Nat := min (b.quotaKib p) (b.allocKib * (b.cfg p).minShare / 32768)

/-- Staging lines a partition holds: its entries' and its rings' kept outputs. -/
def Block.reserved (b : Block) (p : Nat) : Nat :=
  sumBy (fun e => if e.part == p then e.lines else 0) b.entries +
  sumBy (fun e => if b.owner e.1 == some p then sumBy (fun x => x.2.2) e.2.kept else 0) b.rings

/-- Lines of the pool (R123). -/
def Block.poolLines (b : Block) : Nat := 16 * (b.allocKib - sumBy b.floorKib b.partitions)

/-- Pool lines that are reserved. -/
def Block.poolUsed (b : Block) : Nat := sumBy (fun p => b.reserved p - 16 * b.floorKib p) b.partitions

/-- Pool lines that a partition's reservation of n more lines takes (R123). -/
def Block.poolNeed (b : Block) (p n : Nat) : Nat :=
  (b.reserved p + n - 16 * b.floorKib p) - (b.reserved p - 16 * b.floorKib p)

/-- The entry of a partition that waits for staging lines (R124). -/
def Block.stagingWait (b : Block) (p : Nat) : Option Entry :=
  b.entries.find? fun e => e.part == p && e.stage == .staging

/-- The entry of a partition that waits for check 2 and class credit: the first in the order of admission (01 R13, 13 R294). -/
def Block.creditWait (b : Block) (p : Nat) : Option Entry :=
  argMin (fun e => (e.order : Int)) (b.entries.filter fun e => e.part == p && e.stage == .credit)

/-- That entry, where no burst that was admitted before it is still being read: entries are charged in the order of admission
(13 R294). -/
def Block.creditNext (b : Block) (p : Nat) : Option Entry :=
  (b.creditWait p).filter fun e => !(b.liveRings p).any fun k =>
    match (b.ring k).burst with | some u => decide (u.order < e.order) | none => false

/-! ## Rings -/

/-- Entries of ring k that are fetched and not completed, a burst whose reads are outstanding included (04 R83). -/
def Block.inFlight (b : Block) (k : Nat) : Nat :=
  let r := b.ring k
  (b.entries.filter fun e => e.ring == k).length
    + (match r.burst with | some u => if u.poll then 0 else u.count | none => 0)

/-- Overrun completions of ring k that wait with a completion index of their own. -/
def Block.overrunSlots (b : Block) (k : Nat) : Nat := ((b.ring k).held.filter fun c => c.overrun && c.slot.isSome).length

/-- Completion slots of ring k that are neither occupied nor reserved (04 R83). -/
def Block.room (b : Block) (k : Nat) : Nat :=
  let r := b.ring k
  2 ^ r.cmpLog2 - (dist r.q r.d + b.inFlight k + b.overrunSlots k)

/-- Pushed entries of ring k that are fetched and wait for the entries before them (04 R78; log entry 15). -/
def Block.aheadOf (b : Block) (k : Nat) : List Entry := b.entries.filter fun e => e.ring == k && e.stage == .ahead

/-- F of 04 R72: one past the last entry fetched, entries pushed ahead included. -/
def Block.fetchedTo (b : Block) (k : Nat) : Index :=
  let r := b.ring k
  (b.aheadOf k).foldl (fun f e => if dist f r.c ≤ dist e.sub r.c then e.sub + 1 else f) r.f

/-- Entries of ring k that are submitted and not fetched. -/
def Block.unfetched (b : Block) (k : Nat) : Nat := dist (b.ring k).p (b.ring k).f - (b.aheadOf k).length

/-- STALLED of ring k: entries wait between F and P, and the completion reservation allows no fetch (04 R83). -/
def Block.stalled (b : Block) (k : Nat) : Bool :=
  (b.ring k).st == .running && b.unfetched k != 0 && b.room k == 0

/-- A stall of ring k may end now; the tick counts all the same (04 R83). -/
def Block.markStall (b : Block) (k : Nat) : Block :=
  if b.stalled k then b.modRing k fun r => { r with stallMark := true } else b

/-- C: the lowest index whose entry has not completed, else F (04 R72). -/
def Block.release (b : Block) (k : Nat) : Index :=
  let r := b.ring k
  let subs := (b.entries.filter fun e => e.ring == k).map (·.sub)
    ++ (match r.burst with | some u => if u.poll then [] else [u.first] | none => [])
  match argMin (fun i => (dist i r.c : Int)) subs with
  | some i => if dist i r.c < dist r.f r.c then i else r.f
  | none => r.f

/-- Push slots discarded; PUSH_DROPPED set when any word was discarded (04 R79). -/
def RingRec.discardPush (r : RingRec) : RingRec :=
  { r with push := List.replicate 4 {}, pushDropped := r.pushDropped || r.push.any (fun s => s.mask != 0) }

/-- Submitted entries of ring k that are not fetched are withdrawn, and P becomes F (04 R90, 13 R306). -/
def Block.withdraw (b : Block) (k : Nat) : Block :=
  let f := b.fetchedTo k
  let n := b.unfetched k
  b.modRing k fun r => { r with p := f, f := f, retracted := n, retractP := f }

/-- The default values of a ring that becomes DISABLED, its error flags and counters kept. -/
def RingRec.disabled (r : RingRec) : RingRec :=
  { r with st := .disabled, setup := List.replicate 8 0, setupMask := 0, chain := none, kept := [],
           burst := none, failedF := none, failedW := [], sig := [], stopAfter := false, pollDue := false }

/-! ## Unit time (01 R16, 13 R291) -/

/-- The frequency domain of a unit number (01 R16, 18 R396); 138 for what has no unit. -/
def domainOf (u : Nat) : Nat :=
  if u < 112 then u / 4 else if u < 168 then 28 + (u - 112) / 2 else if u < 188 then 56 + (u - 168)
  else if u < 206 then 76 + (u - 188) else 138

/-- A unit's domain frequency in 100 MHz; 0 while its PLL has lost lock (18 R391). -/
def Block.freqOf (b : Block) (u : Nat) : Nat :=
  if b.power.stopped.contains (domainOf u) then 0 else nth 0 b.power.freq (domainOf u)

/-- Unit time that an entry has used, scaled to 1.6 GHz, in 1/12800 ns: what its engine reported, otherwise the interval
since its dispatch (13 R291). -/
def Block.usedBy (b : Block) (e : Entry) : Nat :=
  match e.used, e.dispatchedAt with
  | some n, _ => n
  | none, some t => (b.now - t) * 12800000 * (if e.engine < 206 then b.freqOf e.engine else 16) / 16
  | none, none => 0

/-- The estimate of an entry's cost is replaced by the time used, when it completes or is cut off: charged entries both ways,
borrowed ones where the time exceeds the estimate (13 R291, R308). -/
def Block.settle (b : Block) (e : Entry) : Block :=
  let used := b.usedBy e
  let back : Int := if e.charged then (e.cost : Int) - used else if e.borrowed then -((used - e.cost : Nat) : Int) else 0
  let b := b.modPart e.part fun q => { q with balance := modNth (· + back) e.cls q.balance }
  b.modEntry e.ring e.sub fun e => { e with charged := false, borrowed := false }

/-! ## Completions (04 R82 to R86, 05 R113) -/

/-- Latency bin of R371. -/
def latBin (us : Nat) : Nat := if us < 2 then 0 else min us.log2 15

/-- Depth bin of R371. -/
def depthBin (n : Nat) : Nat := if n = 0 then 0 else min (n.log2 / 2 + 1) 7

/-- The latency of a completed descriptor enters the histograms of its partition and of the block (17 R371, R372). -/
def Block.countLatency (b : Block) (p us : Nat) : Block :=
  let b := b.modPart p fun q => { q with stats := { q.stats with
    lat := modNth (fun n => satAdd 32 n 1) (latBin us) q.stats.lat, maxLat := min (max q.stats.maxLat us) (2 ^ 32 - 1) } }
  b.modRec fun c => { c with lat := modNth (fun n => satAdd 64 n 1) (latBin us) c.lat }

/-- The completion counters of a status that the payment registers keep (11 R259). -/
def Pay.counted (y : Pay) (status : Nat) : Pay :=
  if status = St.pinFormat then { y with formatRefused := satAdd 16 y.formatRefused 1 }
  else if status = St.pinCheck then { y with pinMismatch := satAdd 16 y.pinMismatch 1 }
  else if status = St.dukptExhausted then { y with dukptExhausted := satAdd 16 y.dukptExhausted 1 }
  else if status = St.firmwareTrap then { y with traps := satAdd 8 y.traps 1 }
  else y

/-- The bytes of a completion at completion index q, written now. -/
def Block.bytesOf (b : Block) (c : Completion) (q : Index) : Bytes :=
  completionBytes c.tag (statusWord c.status c.detail (phaseOf (b.ring c.ring).cmpLog2 q) b.twin.side c.engine) c.outLen
    c.sub.toNat (b.time.sched.toNat % 2 ^ 32) c.result

/-- The shadow word of ring k is written: Q and C (04 R84). -/
def Block.writeShadow (b : Block) (k port : Nat) (q : Index) : Block :=
  let r := b.ring k
  b.issueOrdered port (b.ownerD k) k r.shadow.toNat (toLE 4 q.toNat ++ toLE 4 r.c.toNat) (.shadow k) false

/-- Completions of ring k that have been accepted, none before them being outstanding: the shadow word follows them, and then
their vector is raised (04 R84, R86). While the partition may have no output they wait (14 R324). -/
def Block.signal (b : Block) (k : Nat) : Block :=
  let done := (b.ring k).sig.takeWhile (·.accepted)
  match done.getLast? with
  | none => b
  | some x =>
    if (b.part (b.ownerD k)).tw.stopped then b else
    let b := b.modRing k fun r => { r with sig := r.sig.drop done.length }
    let b := b.writeShadow k x.port (x.q + 1)
    done.foldl (fun b s => if s.raises then b.raise (b.ring k).vector s.port else b) b

/-- The completion of ring k at index q has been accepted. -/
def Block.completionAccepted (b : Block) (k : Nat) (q : Index) : Block :=
  (b.modRing k fun r => { r with sig := r.sig.map fun s => if s.q == q then { s with accepted := true } else s }).signal k

/-- Whether a completion makes its vector pending (04 R86). -/
def Completion.raises (c : Completion) : Bool :=
  c.irq || c.overrun || c.status == St.aborted || c.status == St.chainAborted

/-- Completion or shadow writes of ring k are outstanding. -/
def Block.writing (b : Block) (k : Nat) : Bool := b.mport.outst.any fun r => Purpose.ofWrites k r.purpose

/-- What a ring becomes once it has no entry and no completion or shadow write left: STOPPING ends in DISABLED (04 R90, R95). -/
def Block.settleRing (b : Block) (k : Nat) : Block :=
  let r := b.ring k
  if r.st == .stopping && b.inFlight k == 0 && r.held.isEmpty && r.failedF.isNone && r.failedW.isEmpty && r.sig.isEmpty
      && !b.writing k then
    let b := b.modRing k RingRec.disabled
    let l := (b.part (b.ownerD k)).lock
    if l.held && l.holder == k then b.freeLock (b.ownerD k) else b
  else b

/-- A completion is written at Q, its entry ends, its cost is settled, and C follows. -/
def Block.writeCompletion (b : Block) (c : Completion) : Block :=
  let r := b.ring c.ring
  let p := b.ownerD c.ring
  let addr := r.cmpBase.toNat + 32 * (r.q.toNat % 2 ^ r.cmpLog2)
  let b := b.issueOrdered c.port p c.ring addr (c.bytes.getD (b.bytesOf c r.q)) (.completion c.ring r.q) false
  let b := if c.overrun then b else
    match b.entry? c.ring c.sub with
    | some e => ((b.settle e).countLatency e.part (b.now - e.fetchedAt)).dropEntry c.ring c.sub
    | none => b
  let b := b.modRing c.ring fun r => { r with
    q := r.q + 1, sig := r.sig ++ [{ q := r.q, raises := c.raises, port := c.port }] }
  let b := b.modRing c.ring fun r => { r with c := b.release c.ring }
  { b with pay := b.pay.counted c.status }

/-- Completions of ring k that have been formed and not written, and have an index: commit entries, and overruns that
follow them. The next completion takes the index after theirs. -/
def Block.uncommitted (b : Block) (k : Nat) : Nat :=
  (b.entries.filter fun e => e.ring == k && e.stage == .commit).length + b.overrunSlots k

/-- An overrun completion that waits takes its index once a slot is free, where completions formed before it have theirs
(14 R318). -/
def Block.placeOverrun (b : Block) (k : Nat) : Block :=
  if b.uncommitted k = 0 ∨ b.room k = 0 then b else
  let q := (b.ring k).q + BitVec.ofNat 32 (b.uncommitted k)
  b.modRing k fun r => { r with
    held := match r.held.findIdx? fun c => c.overrun && c.slot.isNone with
      | some i => modNth (fun c => { c with slot := some q }) i r.held
      | none => r.held }

/-- A held completion may be written: its index is Q where a commit fixed it, and an overrun finds a free slot (04 R83). -/
def Block.writable (b : Block) (k : Nat) (c : Completion) : Bool :=
  match c.slot with
  | some q => q == (b.ring k).q
  | none => !c.overrun || (b.uncommitted k == 0 && decide (0 < b.room k))

/-- Held completions of ring k are written in order, those passed over that may not be written yet; none while a write of it
has failed and its repeat has not been accepted (04 R83, R91). `fuel` bounds their number. -/
def Block.flushHeldAux (k : Nat) : Nat → Block → Block
  | 0, b => b
  | fuel + 1, b =>
    let b := b.placeOverrun k
    let r := b.ring k
    if !r.failedW.isEmpty || (b.part (b.ownerD k)).tw.stopped then b else
    match r.held.findIdx? (b.writable k) with
    | none => b
    | some i =>
      match r.held[i]? with
      | none => b
      | some c => Block.flushHeldAux k fuel ((b.modRing k fun r => { r with held := r.held.eraseIdx i }).writeCompletion c)

/-- Held completions of ring k are written as far as they can be. -/
def Block.flushHeld (b : Block) (k : Nat) : Block :=
  (Block.flushHeldAux k ((b.ring k).held.length + 1) b).settleRing k

/-- A completion reaches the Completed stage: written, or held behind what holds it. -/
def Block.emit (b : Block) (c : Completion) : Block :=
  (b.modRing c.ring fun r => { r with held := r.held ++ [c] }).flushHeld c.ring

/-! ## Commits (14 R317 to R319) -/

/-- A frame goes out in a session: it takes the next SEQ and stands in the replay buffer until acknowledged. -/
def Block.sendFrame (b : Block) (words : Nat) (mk : Nat → Sent) : Block :=
  match b.twin.session with
  | none => b
  | some s =>
    let s' := { s with seqOut := s.seqOut + 1, frames := s.frames + 1, replay := s.replay ++ [(s.seqOut, words)],
                       ackAt := if s.replay.isEmpty then b.now else s.ackAt }
    { b.put (mk s.seqOut) with twin := { b.twin with session := some s' } }

/-- The words of a KEEP delta of n bytes (R317). -/
def keepWords (n : Nat) : Nat := 1 + ceilDiv n 64

/-- The words of a delta (R317). -/
def Delta.words : Delta → Nat
  | .ctx _ _ => 9
  | .slots _ recs => 1 + 2 * sumBy (fun r => max r.chain 1) recs
  | .emptied _ _ => 1
  | .keep d => keepWords d.length
  | .keepUsed => 0

/-- A commit item whose deltas do not fit in one frame is split over frames: 1,020 delta words a part, the KEEP delta
cut into the pieces that the parts hold (R319). -/
def splitKeep (i : CommitItem) : Nat → List Delta → Bytes → Bool → List CommitItem
  | 0, ds, _, first => [{ i with deltas := ds, continuation := !first }]
  | fuel + 1, ds, rest, first =>
    let used := sumBy Delta.words ds
    let here := 64 * (1020 - used - 1)
    if rest.length ≤ here then
      [{ i with split := false, continuation := !first, deltas := ds ++ [.keep rest], deltaWords := used + keepWords rest.length
                completion := if first then i.completion else zeros 32, digest := if first then i.digest else zeros 32 }]
    else
      { i with split := true, continuation := !first, deltas := ds ++ [.keep (rest.take here)], deltaWords := 1020
               completion := if first then i.completion else zeros 32, digest := if first then i.digest else zeros 32 }
        :: splitKeep i fuel [] (rest.drop here) false

/-- The parts of a commit item: itself where it fits in a frame of 1,022 payload words. -/
def commitParts (i : CommitItem) : List CommitItem :=
  if i.deltaWords ≤ 1020 then [i]
  else
    let keep := (i.deltas.filterMap fun d => match d with | .keep x => some x | _ => none).flatten
    let others := i.deltas.filter fun d => match d with | .keep _ => false | _ => true
    splitKeep i 40 others keep true

/-- The COMMIT frame being filled is sent (R318). -/
def Block.flushCommit (b : Block) : Block :=
  if b.twin.fill.isEmpty then b
  else if b.twin.session.isNone then { b with twin := { b.twin with fill := [] } }
  else
  let items := b.twin.fill
  let words := 2 + sumBy (fun i : CommitItem => 2 + i.deltaWords) items
  let seq := match b.twin.session with | some s => s.seqOut | none => 0
  let done := (items.filter fun i => !i.split).map fun i => (i.ring, i.subIndex)
  let b := b.sendFrame words (fun s => .commit s items)
  { b with twin := { b.twin with fill := [], unacked := b.twin.unacked ++ [(seq, b.now, done, false)] } }

/-- A part is added to the frame: first the frame is sent where the part does not fit, and afterwards where it holds
64 entries or the entry goes on in the next frame (R318, R319). -/
def Block.addPart (b : Block) (i : CommitItem) : Block :=
  let used := sumBy (fun j : CommitItem => 2 + j.deltaWords) b.twin.fill
  let b := if i.continuation || i.split || decide (1022 < used + 2 + i.deltaWords) then b.flushCommit else b
  let b := { b with twin := { b.twin with
    fillAt := if b.twin.fill.isEmpty then b.now else b.twin.fillAt
    fill := b.twin.fill ++ [i] } }
  if i.split || decide (64 ≤ b.twin.fill.length) then b.flushCommit else b

/-- The deltas of an executed entry (R317). -/
def Entry.deltas (e : Entry) (status : Nat) : List Delta :=
  let r := e.res.getD {}
  (match r.ctx with | some c => [.ctx e.d.ctx c] | none => []) ++
  (match r.key with
    | some (head, c) => [if c.st = .empty then .emptied head c.chain else .slots head [c]]
    | none => []) ++
  (if e.d.dstKeep && status == St.ok then [.keep r.out] else []) ++
  (if e.d.srcPrev then [.keepUsed] else [])

/-- An entry of a HOME partition whose completion is formed becomes a commit entry (R318). -/
def Block.commitEntry (b : Block) (e : Entry) (c : Completion) : Block :=
  let q := (b.ring e.ring).q + BitVec.ofNat 32 (b.uncommitted e.ring)
  let bytes := b.bytesOf c q
  let ds := e.deltas c.status
  let i : CommitItem := { ring := e.ring, abortReplace := c.status == St.aborted, split := false, continuation := false
                          subIndex := e.sub, q, deltaWords := sumBy Delta.words ds, completion := bytes
                          digest := Hash.hash .sha256 e.raw, deltas := ds }
  let b := b.modEntry e.ring e.sub fun e => { e with stage := .commit, done := some { c with bytes := some bytes, slot := some q } }
  (commitParts i).foldl Block.addPart b

/-! ## Ending an entry -/

/-- A reference on a slot chain is released: the head counts, across rewrites (10 R221). -/
def Block.releaseRef (b : Block) (k : KeyCopy) : Block := b.modSlot k.slot fun s => { s with refs := s.refs - 1 }

/-- The references of an entry are released (01 R13). -/
def Block.releaseRefs (b : Block) (e : Entry) : Block :=
  if e.refsHeld then (e.keys.foldl Block.releaseRef b).modEntry e.ring e.sub fun e => { e with refsHeld := false } else b

/-- The job of an entry. -/
def Entry.job (e : Entry) : Job := .entry e.ring e.sub

/-- A job leaves every queue. -/
def Block.unqueue (b : Block) (j : Job) : Block :=
  { b with
    lanes := { b.lanes with pers := b.lanes.pers.map fun s => { s with queue := s.queue.filter fun i => i.job != j } }
    ox := { b.ox with queue := b.ox.queue.filter fun i => i.job != j }
    lat := { b.lat with queue := b.lat.queue.filter fun i => i.job != j }
    keys := { b.keys with queue := b.keys.queue.filter fun i => i.job != j }
    pay := { b.pay with queue := b.pay.queue.filter fun i => i.job != j } }

/-- An OX or lattice unit loses job j and wipes before it takes another (08 R188, 09 R210). -/
def MathUnit.lose (now : Nat) (j : Job) (x : MathUnit) : MathUnit :=
  if x.job == some j then
    { x with job := none, jobRetry := [], jobMism := none, wiping := true, checked := false, fatal := none, idleSince := now }
  else x

/-- A unit whose job is cut off at a tick. -/
def MathUnit.cut (now : Nat) (j : Job) (x : MathUnit) : MathUnit := if x.job == some j then { x with cutAt := some now } else x

/-- The OX or lattice unit that runs a job remembers that it is cut off: a mismatch of the same tick is still counted (08 R193, 09
R212). -/
def Block.markCut (b : Block) (j : Job) : Block :=
  let os := b.ox.units.map fun x => (x.1, x.2.cut b.now j)
  let ts := b.lat.units.map fun x => (x.1, x.2.cut b.now j)
  { b with ox := { b.ox with units := os }, lat := { b.lat with units := ts } }

/-- A lane begins to load a personality, 64 the key-management configuration: 2 µs (01 R25); the lane is wiped and keeps
its generator (07 R162). -/
def LaneRec.load (x : LaneRec) (dest now : Nat) : LaneRec :=
  { x with role := if dest = 64 then .keyLoading else .loading dest, switchTo := none, loadAt := now + 2, job := none, jobRetry := [] }

/-- A lane has no more work: it is idle, or loads what it was selected for (01 R25). -/
def LaneRec.freed (x : LaneRec) (now : Nat) : LaneRec :=
  let x := { x with job := none, jobRetry := [], jobMism := none, idleSince := now }
  match x.switchTo with
  | some p => x.load p now
  | none => x

/-- Lane time that a lane has spent on its job, at most what the job takes (07 R142). -/
def LaneRec.spent (x : LaneRec) (now : Nat) : Nat := if x.job.isNone then 0 else min x.cost ((now - x.startedAt) * 12800000)

/-- Generator blocks that a lane's job has still to take: spread evenly over its time (log entry 55). -/
def LaneRec.toTake (x : LaneRec) (now : Nat) : Nat :=
  if x.job.isNone ∨ x.cost = 0 then 0 else x.need * (x.cost - x.spent now) / x.cost

/-- A lane loses job j; what the job had not yet taken of the generator's blocks is not counted. -/
def LaneRec.lose (now : Nat) (j : Job) (x : LaneRec) : LaneRec :=
  if x.job == some j then { x with blocks := x.blocks - x.toTake now }.freed now else x

/-- The time that a lane has spent on its job counts as its personality's (07 R142). -/
def Block.countLane (b : Block) (l : Nat) : Block :=
  let x := b.lane l
  let n := x.spent b.now
  match x.role with
  | .data p =>
    let b := b.modLane l fun x => { x with counted := n }
    { b with lanes := { b.lanes with pers := modNth (fun s => { s with busy := s.busy + (n - x.counted) }) p b.lanes.pers } }
  | _ => b

/-- A job leaves the unit that runs it. -/
def Block.freeUnit (b : Block) (j : Job) : Block :=
  let b := ((b.lanes.units.filter fun x => x.2.job == some j).map (·.1)).foldl Block.countLane b
  let ls := b.lanes.units.map fun x => (x.1, x.2.lose b.now j)
  let os := b.ox.units.map fun x => (x.1, x.2.lose b.now j)
  let ts := b.lat.units.map fun x => (x.1, x.2.lose b.now j)
  { b with lanes := { b.lanes with units := ls }, ox := { b.ox with units := os }, lat := { b.lat with units := ts } }

/-- The rank of a waiting request: those that have waited 100 ticks first, then priority, then age (15 R341). -/
def HenReq.rank (r : HenReq) (now : Nat) : Nat :=
  (if r.asked + 100 ≤ now then 0 else 8) + r.prio

/-- The request that an instance takes. -/
def Block.nextDraw (b : Block) (inst : Nat) : Option HenReq :=
  argMin (fun r => (r.rank b.now * 2 ^ 64 + r.asked : Nat)) (b.hen.waiting.filter fun r => r.inst.isNone || r.inst == some inst)

/-- The requests of an entry or call to HEN are withdrawn; one that its instance is serving is abandoned, and counts toward the
instance's reseed (15 R348). -/
def Block.unask (b : Block) (w : Consumer) : Block :=
  let served := (List.range 16).filter fun i =>
    match b.nextDraw i with | some r => r.who == w && r.inst == some i | none => false
  let insts := served.foldl (fun l i => modNth (fun d => { d with requests := d.requests + 1 }) i l) b.hen.insts
  { b with hen := { b.hen with insts := insts, waiting := b.hen.waiting.filter fun r => r.who != w } }

/-- A raw channel stops as by DISABLE (06 R134): nothing more is issued, DISABLED sets; it stays busy while responses
are outstanding. SRC, DST and COUNT then read undefined values. -/
def Block.stopChan (b : Block) (k : Nat) : Block :=
  match (b.chan k).run with
  | none => b
  | some _ =>
    let busy := b.mport.outst.any fun r => Purpose.ofChan k r.purpose
    let n := b.free
    let b := { b with free := b.free + 1 }
    b.modChan k fun c => { c with
      disabled := true
      src := Config.undefinedReg n 0
      dst := Config.undefinedReg n 1
      count := (Config.undefinedReg n 2).setWidth 32
      run := if busy then c.run.map (fun r => { r with stopped := true }) else none }

/-- Logical position of a core, by index (12 R275): the one it took when it entered service, which a promoted spare takes over. -/
def Block.position (b : Block) (u : Nat) : Nat := (b.unit (188 + u)).pos

/-- The raw channel of a core (12 R281). -/
def Block.fwChan (b : Block) (u : Nat) : Nat := 48 + b.position u

/-- A context that waits for the channel window issues its MCH again (12 R282). -/
def Ctx14.windowFree (x : Ctx14) : Ctx14 :=
  match x.st with
  | .waitWindow _ => { x with st := .ready }
  | _ => x

/-- A core no longer holds the channel window for context c: zeroed and released (12 R282). -/
def Core14.releaseWindow (k : Core14) (c : Fin 8) : Core14 :=
  if k.holder = some c then { k with holder := none, window := [], ctxs := k.ctxs.map Ctx14.windowFree } else k

/-- The function of a context ends: its outstanding call leaves its target and its channel block ends, its window is
released, bank, bay and registers are zeroed (11 R235, R237, 12 R282). In LOCKED and ZEROIZED the transfer in progress runs on
(06 R136), and the window goes with its end. -/
def Block.endFunction (b : Block) (u : Nat) (c : Fin 8) : Block :=
  let x := b.cx u c
  let b := if x.call.isSome then ((b.unqueue (.call u c)).freeUnit (.call u c)).unask (.call u c) else b
  let inProgress := (b.core u).busy && (match (b.core u).blocks with | (d, _) :: _ => d == c | [] => false)
  let runsOn := inProgress && (b.mode.mode == .locked || b.mode.mode == .zeroized)
  let b := if inProgress && !runsOn then b.stopChan (b.fwChan u) else b
  let b := if runsOn then b else b.modCore u fun k => k.releaseWindow c
  let b := b.modCore u fun k => { k with
    blocks := (if runsOn then k.blocks.take 1 else []) ++ (k.blocks.drop (if runsOn then 1 else 0)).filter fun e => e.1 != c
    busy := k.busy && (!inProgress || runsOn)
    jumped := k.jumped.filter (· != c)
    running := if k.running = some c then none else k.running }
  b.modCx u c fun _ => {}

/-- The context that runs an entry's function. -/
def Block.contextOf (b : Block) (e : Entry) : Option (Nat × Fin 8) :=
  b.pay.cores.findSome? fun k =>
    ((List.finRange 8).find? fun c => k.2.ctxs[c].fn == some (e.ring, e.sub)).map fun c => (k.1, c)

/-- The unit time that an entry has used is fixed: its work has ended (13 R291). -/
def Block.stopClock (b : Block) (e : Entry) : Block :=
  b.modEntry e.ring e.sub fun x => { x with used := some (b.usedBy x) }

/-- The work of an entry stops wherever it is: queues, unit, core context, HEN. Engine-local keys and operand memory go
with it (04 R90, 07 R161, 08 R189, 09 R210, 11 R237). -/
def Block.cutWork (b : Block) (e : Entry) : Block :=
  let b := (((b.markCut e.job).unqueue e.job).freeUnit e.job).unask (.entry e.ring e.sub)
  let b := match b.contextOf e with
    | some (u, c) => (b.markCut (.call u c.val)).endFunction u c
    | none => b
  let b := (b.releaseRefs e).stopClock e
  let id := (e.ring, e.sub)
  let noAttach := (match b.twin.attach with | some (_, k, i) => (k, i) == id | none => false)
  let noDetach := b.twin.detachEntry == some id
  let b : Block := { b with
    keys := { b.keys with drains := b.keys.drains.filter fun d => d.2 != id }
    twin := { b.twin with
      attach := if noAttach then none else b.twin.attach
      hs := if noAttach && !b.twin.record then none else b.twin.hs
      detachEntry := if noDetach then none else b.twin.detachEntry } }
  b.disown (Purpose.ofEntry e.ring e.sub)

/-- An entry completes now, outside any chain order: committed first where the twin mirrors it; committed and written at
once while its state is being copied to the twin (14 R311, R332). -/
def Block.completeNow (b : Block) (e : Entry) (c : Completion) : Block :=
  if b.commits e.part then b.commitEntry e c
  else if b.role e.part == .syncSource && b.twin.session.isSome then
    let b := b.commitEntry e c
    match b.entry? e.ring e.sub with
    | some x => b.emit (x.done.getD c)
    | none => b
  else b.emit c

/-- The first member of an entry's chain. -/
def Entry.chainFirst (e : Entry) : Index := e.sub - BitVec.ofNat 32 e.member

/-- Whether an earlier member of an entry's chain has not completed (04 R87). -/
def Block.chainAhead (b : Block) (e : Entry) : Bool :=
  e.chained && b.entries.any fun x => x.ring == e.ring && x.chained && x.chainFirst == e.chainFirst
    && decide (x.member < e.member) && x.stage != .commit

/-- Entries of ring k that are scattered and wait for an earlier chain member complete, in order. -/
def Block.drainChainAux (k : Nat) : Nat → Block → Block
  | 0, b => b
  | fuel + 1, b =>
    match b.entries.find? fun e => e.ring == k && e.stage == .scattered && !b.chainAhead e with
    | some e =>
      match e.done with
      | some c => Block.drainChainAux k fuel (b.completeNow e c)
      | none => b
    | none => b

/-- The completion of an entry with a status. -/
def Entry.completion (e : Entry) (status detail engine outLen : Nat) (result : BitVec 64) : Completion :=
  { ring := e.ring, tag := e.d.tag, status, detail, engine, outLen, sub := e.sub, result, irq := e.d.irq }

/-- The completion of a scattered entry gives way to ST_CHAIN_ABORTED when an earlier member of its chain fails (04 R88). -/
def Completion.yields (c : Completion) : Bool :=
  !([St.aborted, St.chainAborted, St.malformed, St.locked].contains c.status)

/-- The later members of an entry's chain that are fetched and have not completed (04 R88); what has already been aborted
keeps its status. -/
def Block.laterMembers (b : Block) (e : Entry) : List Entry :=
  if e.chained then
    b.entries.filter fun x => x.ring == e.ring && x.chained && x.chainFirst == e.chainFirst && decide (e.member < x.member)
      && (match x.done with | some c => x.stage == .scattered && c.yields | none => true)
  else []

/-- An entry's work is over: its completion is formed. It goes over the port chosen when the descriptor was executed (02 R39),
and over the one with less to write now where nothing was (DESIGN CHOICE, log entry 99). Its staging lines stay reserved until
it completes (06 R125). -/
def Block.conclude (b : Block) (e : Entry) (c : Completion) : Block :=
  let b := b.cutWork e
  let free := b.pickPort
  b.modEntry e.ring e.sub fun x => { x with
    stage := .scattered, port := some (x.port.getD free), done := some { c with port := x.port.getD free } }

/-- Kept outputs of an entry's chain are discarded (04 R88). -/
def Block.dropKept (b : Block) (e : Entry) : Block :=
  b.modRing e.ring fun r => { r with kept := r.kept.filter fun x => decide (64 ≤ dist x.1 e.chainFirst) }

/-- The open chain of an entry's ring notes that this member of it failed (04 R88). -/
def Block.failChain (b : Block) (e : Entry) (status : Nat) : Block :=
  b.modRing e.ring fun r => { r with chain := r.chain.map fun c =>
    if c.first == e.chainFirst && c.failed.isNone then { c with failed := some (e.sub, status) } else c }

/-- An entry completes with a status (04 R82, R88): its completion is formed; where it is not ST_OK, the chain's later
members complete ST_CHAIN_ABORTED; members not yet fetched do so as they are fetched. -/
def Block.finish (b : Block) (e : Entry) (status detail engine outLen : Nat) (result : BitVec 64) : Block :=
  let b := b.conclude e (e.completion status detail engine outLen result)
  let b := if status != St.ok && status != St.malformed && e.chained then
      let later := b.laterMembers e
      let b := later.foldl (fun b x =>
        b.conclude x (x.completion St.chainAborted status 0xFF 0 (BitVec.ofNat 64 e.sub.toNat))) b
      (b.dropKept e).failChain e status
    else b
  Block.drainChainAux e.ring (b.entries.length + 1) b

/-- An entry is refused before any engine takes it (05 R114: engine index 0xFF). -/
def Block.refuse (b : Block) (e : Entry) (status detail : Nat) (result : BitVec 64 := 0) : Block :=
  b.finish e status detail 0xFF 0 result

/-- An entry that is cut off gives up its staging at once, and its cost is settled (06 R125, 13 R291). -/
def Block.forfeit (b : Block) (e : Entry) : Block :=
  match b.entry? e.ring e.sub with
  | some x => (b.settle x).modEntry e.ring e.sub fun x => { x with lines := 0 }
  | none => b

/-- An entry ends without completion (14 R324, R327, R329). -/
def Block.abandon (b : Block) (e : Entry) : Block := ((b.cutWork e).forfeit e).dropEntry e.ring e.sub

/-- Where an entry stands between scattered and completed: its own status is kept under a cut-off. -/
def Entry.isScattered (e : Entry) : Bool :=
  e.stage == .scattered || e.stage == .commit || e.stage == .keyWrite

/-- Entries of a partition or ring are cut off together: each that is not scattered takes the status itself, members of
one chain included, and they complete in submission order (04 R88, R90). -/
def Block.cutAll (b : Block) (sel : Entry → Bool) (status detail : Nat) : Block :=
  let es := b.entries.filter fun e => sel e && !e.isScattered
  let b := es.foldl (fun b e => (b.conclude e (e.completion status detail 0xFF 0 0)).forfeit e) b
  let b := es.foldl (fun b e => if e.chained then (b.dropKept e).failChain e status else b) b
  es.foldl (fun b e => Block.drainChainAux e.ring (b.entries.length + 1) b) b

/-- Whether an entry has been dispatched (01 R13). -/
def Entry.wasDispatched (e : Entry) : Bool := e.dispatchedAt.isSome

/-! ## Halts (03 R56, 04 R93) -/

/-- The kept outputs of ring k that a member already dispatched takes as its input (04 R93: it runs on). -/
def Block.keptInUse (b : Block) (k : Nat) : List (Index × Bytes × Nat) :=
  (b.ring k).kept.filter fun x => b.entries.any fun e => e.ring == k && e.sub == x.1 + 1 && e.d.srcPrev && e.wasDispatched

/-- Partition p halts because of ring k (04 R93): every ring HALTED, entries not dispatched abort, dispatched ones run on. A
burst whose reads are outstanding keeps them, failed ones included, since its entries are fetched. -/
def Block.haltPartition (b : Block) (p k : Nat) : Block :=
  let b := b.modPart p fun q => if q.halted then q else { q with halted := true, haltRing := k }
  let b := (b.ringsOf p).foldl (fun b j =>
    let kept := b.keptInUse j
    (b.markStall j).modRing j fun r =>
    { r.discardPush with st := .halted, chain := none, kept := kept, failedF := if r.burst.isNone then none else r.failedF }) b
  let b := (b.cutAll (fun e => e.part == p && !e.wasDispatched) St.aborted 2).freeLock p
  b.noteRec 0x0021 1 p k

/-- What a unit type counts: its unit numbers, its advertised count and whether it is a lane type (01 R11). -/
structure UnitType where
  first : Nat
  count : Nat
  inServiceCount : Nat
  deriving DecidableEq, Repr

def laneType : UnitType := ⟨0, 112, 98⟩
def oxType : UnitType := ⟨112, 56, 48⟩
def latType : UnitType := ⟨168, 20, 16⟩
def drakeType : UnitType := ⟨188, 18, 16⟩
def bankType : UnitType := ⟨206, 68, 64⟩

/-- The unit type of a unit number. -/
def typeOf (u : Nat) : UnitType :=
  if u < 112 then laneType else if u < 168 then oxType else if u < 188 then latType else if u < 206 then drakeType else bankType

/-- The unit numbers of a type. -/
def UnitType.units (t : UnitType) : List Nat := (List.range t.count).map (· + t.first)

/-- Units of a type in a state. -/
def Block.countUnits (b : Block) (t : UnitType) (st : UnitState) : Nat :=
  (t.units.filter fun u => (b.unit u).st == st).length

/-- Whether a lane is a key lane. -/
def LaneRole.isKey : LaneRole → Bool
  | .key | .keyLoading => true
  | _ => false

/-- Data lanes in service. -/
def Block.dataLanes (b : Block) : List Nat := laneType.units.filter fun l =>
  b.inService l && !(b.lane l).role.isKey && (b.lane l).switchTo != some 64

/-- Key lanes in service. -/
def Block.keyLanes (b : Block) : List Nat := laneType.units.filter fun l => b.inService l && (b.lane l).role.isKey

/-- A lane of the key pair, or a data lane selected for it (03 R64). -/
def LaneRec.keyBound (x : LaneRec) : Bool := x.role.isKey || x.switchTo == some 64

/-- Lanes in service that are of the key pair or selected for it. -/
def Block.keyPair (b : Block) : List Nat := laneType.units.filter fun l => b.inService l && (b.lane l).keyBound

/-- The six counts of AV_AVAIL: data lanes, OX, lattice, DRAKE, banks, key lanes (03). -/
def Block.avail (b : Block) : List Nat :=
  [b.dataLanes.length, b.countUnits oxType .inService, b.countUnits latType .inService, b.countUnits drakeType .inService,
   b.countUnits bankType .inService, b.keyPair.length]

/-- The advertised counts. -/
def advertised : List Nat := [96, 48, 16, 16, 64, 2]

/-- AV_GLOBAL_STATUS.DEGRADED (03 R57, R67): an availability count below its advertised value, from the BIST on. -/
def Block.degraded (b : Block) : Bool :=
  b.mode.bistDone && (List.zipWith (fun a c => decide (a < c)) b.avail advertised).any id

end Sys2Proof.Machine
end

