-- ==== Sys2Proof/Machine/Operands.lean ====
section
/-! DEFINITION. Operand forms: the descriptor taken apart (05 R97, R99), the operations of the families with what each
names (05 R103 to R112, 14 R330, 16 R361), the malformed checks (04 R92, 05 R98, R102), and scatter-gather lists (05 R100,
R101). -/

namespace Sys2Proof.Machine

open Sys2Proof

/-! ## The descriptor -/

/-- A key reference in KEYREF format: slot, GEN_CHECK, GEN (R97). -/
structure KeyRef where
  slot : Nat
  check : Bool
  gen : Nat
  deriving DecidableEq, Repr

/-- A 32-bit word as a key reference. -/
def keyRef (w : Nat) : KeyRef := ⟨field w 14 0, bit w 15, field w 31 16⟩

/-- A 32-bit word of a descriptor. -/
def word32 (raw : Bytes) (off : Nat) : Nat := ofLE (slice off 4 raw)

/-- A 64-bit word of a descriptor. -/
def word64 (raw : Bytes) (off : Nat) : Nat := ofLE (slice off 8 raw)

/-- The 64 bytes taken apart. -/
def Desc.ofBytes (raw : Bytes) : Desc :=
  let ctrl := word32 raw 0x00
  let cref := word32 raw 0x08
  let aux := word32 raw 0x2C
  { phase := bit ctrl 31, chain := bit ctrl 30, irq := bit ctrl 29, fence := bit ctrl 28
    family := field ctrl 27 24, op := field ctrl 23 16, var := field ctrl 15 8
    key1 := word32 raw 0x04, ctx := field cref 13 0, ctxUse := bit cref 15
    srcLen := word32 raw 0x0C, srcAddr := word64 raw 0x10, dstAddr := word64 raw 0x18, auxAddr := word64 raw 0x20
    dstLen := word32 raw 0x28, auxLen := field aux 15 0
    srcSg := bit aux 16, dstSg := bit aux 17, srcPrev := bit aux 18, dstKeep := bit aux 19
    param := word64 raw 0x30, tag := BitVec.ofNat 64 (word64 raw 0x38) }

/-- K1, K2 and K3 of a descriptor. -/
def Desc.k1 (d : Desc) : KeyRef := keyRef d.key1
def Desc.k2 (d : Desc) : KeyRef := keyRef (field d.param 31 0)
def Desc.k3 (d : Desc) : KeyRef := keyRef (field d.param 63 32)

/-- STAGE of a streaming descriptor (R105, R107). -/
def Desc.stage (d : Desc) : Nat := field d.param 63 62

/-! ## Family codes -/

namespace Fam
def nop : Nat := 0x0
def sym : Nat := 0x1
def hash : Nat := 0x2
def pk : Nat := 0x3
def lat : Nat := 0x4
def pay : Nat := 0x5
def key : Nat := 0x6
def rng : Nat := 0x7
def move : Nat := 0x8
end Fam

/-! ## Operations -/

/-- What an operation names: its VARIANT values, the keys, a streaming context, input, output and auxiliary input, and the
PARAM fields it assigns. -/
structure OpForm where
  variants : Nat → Bool
  k1 : Bool := false
  k2 : Bool := false
  k3 : Bool := false
  stream : Bool := false
  src : Bool := false
  dst : Bool := false
  aux : Bool := false
  params : List (Nat × Nat) := []

/-- VARIANT values from a to b. -/
def upTo (a b : Nat) (v : Nat) : Bool := decide (a ≤ v) && decide (v ≤ b)

/-- SYM (R104 to R106): PARAM by mode. -/
def symForm (v : Nat) : OpForm :=
  { variants := upTo 0 7, k1 := true, stream := decide (v ≤ 5), src := true, dst := true, aux := true
    params := if v ≤ 4 then [(62, 63)] else if v = 5 then [(0, 7), (62, 63)] else [(0, 7), (8, 15), (16, 47)] }

/-- HASH/MAC (R107). -/
def hashForm (op v : Nat) : Option OpForm :=
  let mac := fun x => upTo 0x11 0x18 x || upTo 0x20 0x22 x
  let macParams := if v = 0x21 ∨ v = 0x22 then [(0, 7), (8, 9), (62, 63)] else [(0, 7), (62, 63)]
  match op with
  | 0x01 => some { variants := upTo 1 8, stream := true, src := true, dst := true, params := [(62, 63)] }
  | 0x02 => some { variants := fun x => upTo 1 8 x || x == 0xF, stream := true, src := true, aux := true, params := [(62, 63)] }
  | 0x03 => some { variants := mac, k1 := true, stream := true, src := true, dst := true, params := macParams }
  | 0x04 => some { variants := fun x => mac x || x == 0x1F, k1 := true, stream := true, src := true, aux := true, params := macParams }
  | 0x05 => some { variants := upTo 0x09 0x0A, stream := true, src := true, dst := true, params := [(62, 63)] }
  | _ => none

/-- PK (R108): WORDS, HASH and SALT_LEN are assigned in every operation. -/
def pkForm (op : Nat) : Option OpForm :=
  let ps := [(0, 9), (16, 19), (32, 47)]
  let rsaEnc := fun v => v == 0 || v == 3 || v == 4
  let rsaSig := upTo 0 2
  match op with
  | 0x01 | 0x02 | 0x03 | 0x04 | 0x05 => some { variants := upTo 0 0, src := true, aux := true, dst := true, params := ps }
  | 0x10 => some { variants := rsaEnc, src := true, aux := true, dst := true, params := ps }
  | 0x11 => some { variants := rsaSig, src := true, aux := true, params := ps }
  | 0x12 => some { variants := rsaEnc, k1 := true, src := true, aux := true, dst := true, params := ps }
  | 0x13 => some { variants := rsaSig, k1 := true, src := true, dst := true, params := ps }
  | 0x14 => some { variants := upTo 0 0, k1 := true, aux := true, dst := true, params := ps }
  | 0x20 => some { variants := upTo 1 4, k1 := true, src := true, aux := true, dst := true, params := ps }
  | 0x21 => some { variants := upTo 1 4, src := true, aux := true, params := ps }
  | 0x22 => some { variants := upTo 1 4, k1 := true, aux := true, dst := true, params := ps }
  | 0x23 => some { variants := upTo 1 4, k1 := true, aux := true, dst := true, params := ps }
  | 0x30 => some { variants := upTo 0x10 0x11, k1 := true, src := true, dst := true, params := ps }
  | 0x31 => some { variants := upTo 0x10 0x11, src := true, aux := true, params := ps }
  | 0x32 => some { variants := upTo 0x12 0x13, k1 := true, aux := true, dst := true, params := ps }
  | 0x33 => some { variants := upTo 0x10 0x13, k1 := true, dst := true, params := ps }
  | _ => none

/-- LAT (R109). -/
def latForm (op : Nat) : Option OpForm :=
  match op with
  | 0x01 => some { variants := upTo 1 3, k1 := true, dst := true }
  | 0x02 => some { variants := upTo 1 3, aux := true, dst := true }
  | 0x03 => some { variants := upTo 1 3, k1 := true, src := true, dst := true }
  | 0x11 => some { variants := upTo 0x11 0x13, k1 := true, dst := true }
  | 0x12 => some { variants := upTo 0x11 0x13, k1 := true, src := true, aux := true, dst := true, params := [(0, 7), (8, 8)] }
  | 0x13 => some { variants := upTo 0x11 0x13, src := true, aux := true, params := [(0, 7)] }
  | _ => none

/-- PAY (R110, 11 R241, R253, R256). The PVV method uses no K3 (11 R242). -/
def payForm (op v : Nat) : Option OpForm :=
  let k23 := [(0, 31), (32, 63)]
  match op with
  | 0x01 => some { variants := fun v => decide (v % 16 ≤ 4) && decide (v / 16 ≤ 4), k1 := true, k2 := true, src := true, aux := true, dst := true, params := [(0, 31)] }
  | 0x02 => some { variants := fun v => decide (v % 16 ≤ 4) && decide (v / 16 ≤ 1), k1 := true, k2 := true, k3 := v / 16 == 0, src := true, aux := true, params := if v / 16 = 0 then k23 else [(0, 31)] }
  | 0x10 => some { variants := upTo 0 1, k1 := true, src := true, aux := true, dst := true }
  | 0x11 => some { variants := fun v => decide (v % 16 ≤ 1) && decide (v / 16 ≤ 4), k1 := true, k2 := true, src := true, aux := true, dst := true, params := [(0, 31)] }
  | 0x12 => some { variants := upTo 0 1, k1 := true, src := true, aux := true }
  | 0x20 => some { variants := upTo 0 2, k1 := true, src := true, aux := true }
  | 0x21 => some { variants := fun v => decide (v % 16 ≤ 2) && decide (v / 16 ≤ 1), k1 := true, src := true, aux := true, dst := true }
  | 0x22 => some { variants := upTo 0 2, k1 := true, src := true, aux := true, dst := true }
  | 0x23 => some { variants := upTo 0 2, k1 := true, k2 := true, aux := true, params := [(0, 31)] }
  | 0x30 => some { variants := upTo 0 1, k1 := true }
  | 0x40 => some { variants := upTo 1 12, src := true, aux := true }
  | _ => none

/-- KEY (R111), with the administrative operations of ring pair 0 (14 R330, 16 R361). -/
def keyForm (op ring : Nat) : Option OpForm :=
  let admin := fun (f : OpForm) => if ring = 0 then some f else none
  match op with
  | 0x01 => some { variants := upTo 0 0, k1 := true, src := true }
  | 0x02 => some { variants := upTo 0 0, k1 := true, k2 := true, aux := true, dst := true, params := [(0, 31), (32, 32)] }
  | 0x03 => some { variants := upTo 0 0, k1 := true, aux := true }
  | 0x04 => some { variants := upTo 0 3, k1 := true, k2 := true, src := true, aux := true, params := [(0, 31)] }
  | 0x05 => some { variants := upTo 0 0, k1 := true }
  | 0x06 => some { variants := upTo 0 0, k1 := true, dst := true }
  | 0x20 => admin { variants := upTo 0 0, params := [(15, 63)] }
  | 0x21 => admin { variants := upTo 0 0 }
  | 0x30 => admin { variants := upTo 0 0, dst := true }
  | 0x31 | 0x35 => admin { variants := upTo 0 0, src := true }
  | 0x32 | 0x33 => admin { variants := upTo 0 0, src := true, aux := true }
  | 0x34 => admin { variants := upTo 0 0, dst := true, aux := true, params := [(0, 3)] }
  | _ => none

/-- The operation that FAMILY, OP and VARIANT name, none where OP is reserved. -/
def opForm (family op v ring : Nat) : Option OpForm :=
  match family with
  | 0 => if op = 0 then some { variants := upTo 0 0, params := [(0, 63)] } else none
  | 1 => if op = 1 ∨ op = 2 then some (symForm v) else none
  | 2 => hashForm op v
  | 3 => pkForm op
  | 4 => latForm op
  | 5 => payForm op v
  | 6 => keyForm op ring
  | 7 => if op = 1 ∨ op = 2 then some { variants := upTo 0 0, dst := true } else none
  | 8 => if op = 1 then some { variants := upTo 0 4, src := true, dst := true }
         else if op = 2 then some { variants := upTo 0 4, dst := true, params := [(0, 63)] } else none
  | _ => none

/-- The lengths a family uses: SRC, DST, AUX (R102); TWIN_ATTACH and TWIN_DETACH use none (14 R330). -/
def usesLengths (family op : Nat) : Bool × Bool × Bool :=
  if family = Fam.nop then (false, false, false)
  else if family = Fam.rng then (false, true, false)
  else if family = Fam.move then (true, true, false)
  else if family = Fam.key ∧ (op = 0x20 ∨ op = 0x21) then (false, false, false)
  else (true, true, true)

/-- Length limits: SRC, DST, AUX (R102). -/
def limits (family op : Nat) : Nat × Nat × Nat :=
  match family with
  | 1 => (0x100000, 0x100010, 80)
  | 2 => (0x100000, if op = 5 then 0x100000 else 64, 64)
  | 3 => (if op = 0x30 ∨ op = 0x31 then 0x100000 else 8192, 8192, 8192)
  | 4 => (0x100000, 8192, 8192)
  | 5 => (4096, 4096, 1024)
  | 6 => (16384, 32768, 4096)
  | 7 => (0, 0x100000, 0)
  | 8 => (0x100000, 0x100000, 0)
  | _ => (0, 0, 0)

/-- Alignment of SRC and DST (R102). -/
def dataAlign (family : Nat) : Nat := if family = Fam.pk ∨ family = Fam.lat ∨ family = Fam.key then 8 else 1

/-! ## Malformed descriptors (04 R92) -/

/-- A finding: the detail code of R92 and the byte offset of the field. -/
abbrev Finding := Nat × Nat

/-- A finding where a condition holds. -/
def when_ (c : Bool) (detail off : Nat) : List Finding := if c then [(detail, off)] else []

/-- Findings about one range of a descriptor: length, address, list flag. A length that the family does not use is
reserved, and so are an address and a list flag whose length is zero; the alignment is looked at where the operation uses
the range (R98, R102). -/
def rangeFindings (famUses opUses : Bool) (len addr : Nat) (sg : Bool) (limit align lenOff addrOff : Nat) : List Finding :=
  if !famUses then when_ (len != 0) 3 lenOff ++ when_ (addr != 0) 3 addrOff ++ when_ sg 3 0x2E
  else if len = 0 then when_ (addr != 0) 3 addrOff ++ when_ sg 3 0x2E
  else when_ (decide (limit < len)) 4 lenOff ++
    when_ (opUses && addr % (if sg then 16 else align) != 0) 6 addrOff

/-- A key reference demands no generation with GEN_CHECK 0 (R97). -/
def genLoose (w : Nat) : Bool := !(keyRef w).check && (keyRef w).gen != 0

/-- The PARAM fields that a family's operations name (R105, R107 to R111). -/
def familyFields (family : Nat) : List (Nat × Nat) :=
  match family with
  | 1 => [(0, 7), (8, 15), (16, 47), (62, 63)]
  | 2 => [(0, 7), (8, 9), (62, 63)]
  | 3 => [(0, 9), (16, 19), (32, 47)]
  | 4 => [(0, 7), (8, 8)]
  | 5 => [(0, 31), (32, 63)]
  | 6 => [(0, 31), (32, 32)]
  | _ => []

/-- The lowest PARAM byte of the field that bit i belongs to: a field that the operation or its family names, or the reserved
field between two of them (R115). -/
def paramStart (fields : List (Nat × Nat)) (i : Nat) : Nat :=
  match fields.find? fun f => decide (f.1 ≤ i) && decide (i ≤ f.2) with
  | some f => f.1 / 8
  | none => (fields.map fun f => f.2 + 1).foldl (fun acc x => if x ≤ i ∧ acc < x then x else acc) 0 / 8

/-- The first unassigned PARAM bit that is set. -/
def paramStray (ps : List (Nat × Nat)) (param : Nat) : Option Nat :=
  (List.range 64).find? fun i => param.testBit i && !(ps.any fun f => decide (f.1 ≤ i) && decide (i ≤ f.2))

/-- The operation's rules give AUX a use: where they require its length to be zero, the address is not examined (R98, R104, R106,
R107, 08 R172, 09 R199, 11 R241). -/
def Desc.usesAux (d : Desc) (f : OpForm) : Bool :=
  f.aux && match d.family with
    | 1 => d.var != 0 && !(decide (d.var ≤ 5) && decide (2 ≤ d.stage))
    | 2 => d.stage == 0 || d.stage == 3
    | 3 => if d.op = 0x12 then d.var == 4 else if d.op = 0x20 ∨ d.op = 0x23 then d.var == 4 else true
    | 4 => d.op != 0x12 || field d.param 7 0 != 0
    | 5 => d.op != 0x01 || [d.var % 16, d.var / 16].any fun x => x == 0 || x == 3 || x == 4
    | _ => true

/-- Reserved fields of a descriptor that are not zero, lengths over a limit and addresses out of alignment (R92 details
0x03, 0x04, 0x06). `pos` is the number of chain members before it, `prevKeep` whether the last of them keeps its output. -/
def findings (raw : Bytes) (d : Desc) (f : OpForm) (pos : Nat) (prevKeep : Bool) : List Finding :=
  let cref := word32 raw 0x08
  let (fs, fd, fa) := usesLengths d.family d.op
  let (ls, ld, la) := limits d.family d.op
  let al := dataAlign d.family
  when_ (field (word32 raw 0) 7 0 != 0) 3 0x00 ++
  when_ (d.chain && decide (63 ≤ pos)) 3 0x03 ++
  (if f.k1 then when_ (genLoose d.key1) 3 0x06 else when_ (d.key1 != 0) 3 0x04) ++
  (if f.stream then
      when_ (d.ctx != 0 && !d.ctxUse) 3 0x08 ++ when_ (bit cref 14) 3 0x09 ++ when_ (field cref 31 16 != 0) 3 0x0A ++
      when_ (d.stage == 0 && d.ctxUse) 3 0x09 ++ when_ (d.stage != 0 && !d.ctxUse) 3 0x37
    else when_ (cref != 0) 3 0x08) ++
  when_ (decide (0x100000 < d.srcLen)) 4 0x0C ++
  when_ (field (word32 raw 0x2C) 31 20 != 0) 3 0x2E ++
  (if d.srcPrev then
      when_ (!f.src || pos == 0 || !prevKeep) 3 0x2E ++ when_ (d.srcLen != 0) 3 0x0C ++ when_ (d.srcAddr != 0) 3 0x10 ++ when_ d.srcSg 3 0x2E
    else rangeFindings fs f.src d.srcLen d.srcAddr d.srcSg ls al 0x0C 0x10) ++
  (if d.dstKeep then
      when_ (!d.chain || !f.dst || d.family == Fam.rng) 3 0x2E ++ when_ (d.dstAddr != 0) 3 0x18 ++ when_ d.dstSg 3 0x2E ++
      when_ (decide (ld < d.dstLen)) 4 0x28
    else rangeFindings fd f.dst d.dstLen d.dstAddr d.dstSg ld al 0x28 0x18) ++
  rangeFindings fa (d.usesAux f) d.auxLen d.auxAddr false la 8 0x2C 0x20 ++
  (match paramStray f.params d.param with
    | some i => [(3, 0x30 + paramStart (f.params ++ familyFields d.family) i)]
    | none => []) ++
  when_ (f.k2 && genLoose (field d.param 31 0)) 3 0x30 ++
  when_ (f.k3 && genLoose (field d.param 63 32)) 3 0x34 ++
  when_ (d.family == Fam.key && d.op == 0x02 && !bit d.param 32 && field d.param 31 0 != 0) 3 0x30

/-- The finding that R92 reports: the case first in the order of its table, there the field of lowest offset. -/
def firstFinding (l : List Finding) : Option Finding := argMin (fun x => ((x.1 * 64 + x.2 : Nat) : Int)) l

/-- Check 1 of R116: whether a descriptor of a ring is malformed, with the detail and the field's offset. -/
def malformed (raw : Bytes) (ring pos : Nat) (prevKeep : Bool) : Option Finding :=
  let d := Desc.ofBytes raw
  if 8 < d.family then some (1, 0x03)
  else match opForm d.family d.op d.var ring with
    | none => some (2, 0x02)
    | some f => if !f.variants d.var then some (2, 0x01) else firstFinding (findings raw d f pos prevKeep)

/-- RESULT of a malformed descriptor: offset in [7:0], 0xFFFF in [31:16] (R115). -/
def malformedResult (off : Nat) : BitVec 64 := BitVec.ofNat 64 (off + at_ 16 0xFFFF)

/-! ## Scatter-gather lists (R100, R101) -/

/-- A failure of a list: status, detail, entry index. -/
structure ListFault where
  status : Nat
  detail : Nat
  index : Nat
  deriving DecidableEq, Repr

/-- The entries of a list up to END, or the first failing test. -/
def readListAux : Nat → Nat → Bytes → Except ListFault (List (Nat × Nat))
  | 0, _, _ => .error ⟨St.malformed, 0x05, 255⟩
  | fuel + 1, i, bs =>
    let addr := ofLE (slice 0 8 bs)
    let len := ofLE (slice 8 4 bs)
    let fl := ofLE (slice 12 4 bs)
    if fl / 2 ≠ 0 then .error ⟨St.malformed, 0x03, i⟩
    else if len = 0 then .error ⟨St.sgFault, 0x08, i⟩
    else if 2 ^ 64 < addr + len then .error ⟨St.sgFault, 0x09, i⟩
    else if fl = 1 then .ok [(addr, len)]
    else match readListAux fuel (i + 1) (bs.drop 16) with
      | .ok l => .ok ((addr, len) :: l)
      | .error e => .error e

/-- A list of at most 256 entries. -/
def readList (bs : Bytes) : Except ListFault (List (Nat × Nat)) := readListAux 256 0 bs

/-- RESULT of a list failure: the address of the entry, or offset and index for ST_MALFORMED (R115). -/
def listResult (e : ListFault) (listAddr off : Nat) : BitVec 64 :=
  if e.status = St.malformed then BitVec.ofNat 64 (off + at_ 16 e.index) else BitVec.ofNat 64 (listAddr + 16 * e.index)

/-- A contiguous range that passes 2^64 − 1 (R101). -/
def rangePasses (addr len : Nat) : Bool := decide (0 < len) && decide (2 ^ 64 < addr + len)

/-- The address of the first of SRC, DST and AUX that passes 2^64 − 1. -/
def Desc.rangeFault (d : Desc) : Option Nat :=
  if !d.srcSg && !d.srcPrev && rangePasses d.srcAddr d.srcLen then some d.srcAddr
  else if !d.dstSg && !d.dstKeep && rangePasses d.dstAddr d.dstLen then some d.dstAddr
  else if rangePasses d.auxAddr d.auxLen then some d.auxAddr
  else none

/-- The ranges into which output is laid: list entries or the one contiguous range, cut to the output's length (R101). -/
def layOut : List (Nat × Nat) → Bytes → List (Nat × Bytes)
  | [], _ => []
  | (a, n) :: r, out => if out.isEmpty then [] else (a, out.take n) :: layOut r (out.drop n)

/-! ## Staging requirement (06 R122) -/

/-- Whether an operation writes output. -/
def Desc.hasOutput (d : Desc) : Bool :=
  match opForm d.family d.op d.var 0 with
  | some f => f.dst
  | none => false

/-- Lines of the staging requirement. -/
def Desc.stagingLines (d : Desc) : Nat :=
  (if d.srcPrev then 0 else ceilDiv d.srcLen 64) + (if d.hasOutput then ceilDiv d.dstLen 64 else 0)
    + (if d.auxLen ≤ 128 then 0 else ceilDiv d.auxLen 64) + (if d.srcSg then 64 else 0) + (if d.dstSg then 64 else 0)

/-- The engine class of R291; 7 for NOP, which is never charged. -/
def Desc.engineClass (d : Desc) : Nat :=
  match d.family with
  | 1 | 2 => 0
  | 3 => 1
  | 4 => 2
  | 5 => 3
  | 6 => 4
  | 8 => 5
  | 7 => 6
  | _ => 7

end Sys2Proof.Machine
end

