-- ==== Sys2Proof/Machine/Lengths.lean ====
section
/-! DEFINITION. Check 2 of R116 for lane work, RNG and MOVE: the personality and cipher that a descriptor needs (07 R138,
R140), its lengths and parameters (05 R104 to R107, R112, 07 R147, R151). -/

namespace Sys2Proof.Machine

open Sys2Proof

/-- A length fault: the detail of ST_LENGTH, and the output length for detail 0x01. -/
abbrev LenFault := Option (Nat × Nat)

/-- A fault where a condition holds, otherwise the next test. -/
def LenFault.orElse (c : Bool) (detail need : Nat) (rest : LenFault) : LenFault := if c then some (detail, need) else rest

/-- Whether an algorithm code is AES or TDEA. -/
def algAes (alg : Nat) : Bool := upTo 3 5 alg
def algTdea (alg : Nat) : Bool := upTo 1 2 alg

/-- The personality ID that a SYM or HASH/MAC descriptor needs, by the algorithm of K1, and whether the algorithm matches
it; the default otherwise (R140). -/
def Desc.personality (d : Desc) (alg : Nat) : Nat × Bool :=
  if d.family = Fam.sym then
    if d.var = 6 ∨ d.var = 7 then (0x12, algAes alg)
    else if algTdea alg then (0x21, true) else (0x11, algAes alg)
  else if d.op = 3 ∨ d.op = 4 then
    if d.var = 0x22 then (0x21, algTdea alg)
    else if d.var = 0x20 ∨ d.var = 0x21 then (if algTdea alg then (0x21, true) else (0x11, algAes alg))
    else if d.var = 0x1F ∨ d.var ≤ 0x14 then (0x31, alg == d.var) else (0x32, alg == d.var)
  else if d.var = 0xF ∨ d.var ≤ 4 then (0x31, true)
  else (0x32, true)

/-- The block size that check 2 uses. -/
def Desc.blockSize (d : Desc) (alg : Nat) : Nat := if (d.personality alg).1 = 0x21 then 8 else 16

/-- AAD_LEN and TAG_LEN of GCM and CCM. -/
def Desc.aadLen (d : Desc) : Nat := field d.param 47 16
def Desc.tagLen (d : Desc) : Nat := field d.param 15 8

/-- Output bytes of a SYM descriptor with n input bytes. -/
def Desc.symOut (d : Desc) (n : Nat) : Nat :=
  if d.var = 6 ∨ d.var = 7 then n - d.aadLen + (if d.op = 1 then d.tagLen else 0) else n

/-- A test of the input length, passed over while a chain member's input is not known. -/
def ofLen (n : Option Nat) (f : Nat → Bool) : Bool := match n with | some n => f n | none => false

/-- Tests of a SYM descriptor (R104, R105, R151). -/
def Desc.symLengths (d : Desc) (alg : Nat) (n : Option Nat) : LenFault :=
  let b := d.blockSize alg
  let aead := d.var == 6 || d.var == 7
  let p := field d.param 7 0
  let q := 15 - p
  let late := d.stage == 2 || d.stage == 3
  let aux := if aead then p + (if d.op = 2 then d.tagLen else 0) else if d.var = 0 ∨ late then 0 else b
  let badParam :=
    if d.var = 6 then !(upTo 1 64 p && ([4, 8, 12, 13, 14, 15, 16].contains d.tagLen))
    else if d.var = 7 then !(upTo 7 13 p && ([4, 6, 8, 10, 12, 14, 16].contains d.tagLen)) || ofLen n fun n => decide (2 ^ (8 * q) ≤ n - d.aadLen)
    else if d.var = 5 then !(p == 32 || p == 64 || (p == 128 && b == 16))
    else false
  .orElse (ofLen n fun n => decide (d.dstLen < d.symOut n)) 1 (d.symOut (n.getD 0)) <|
  .orElse (decide (d.var ≤ 1) && ofLen n fun n => n % b != 0) 2 0 <|
  .orElse badParam 4 0 <|
  .orElse (aead && ofLen n fun n => decide (n < d.aadLen)) 6 0 <|
  .orElse (d.auxLen != aux) 7 0 <|
  .orElse (upTo 3 5 d.var && upTo 1 2 d.stage && ofLen n fun n => n % b != 0) 8 0 none

/-- Full MAC or digest length of a HASH/MAC descriptor (R147). -/
def Desc.fullLen (d : Desc) (alg : Nat) : Nat :=
  if d.op = 3 ∨ d.op = 4 then
    if d.var = 0x20 ∨ d.var = 0x21 then d.blockSize alg
    else if d.var = 0x22 then 8
    else match Hash.ofCode (d.var % 16) with | some h => Hash.digestLen h | none => 0
  else match Hash.ofCode d.var with | some h => Hash.digestLen h | none => 0

/-- The length that TRUNC leaves; the full length elsewhere. -/
def Desc.macLen (d : Desc) (alg : Nat) : Nat :=
  let t := field d.param 7 0
  if (d.op = 3 ∨ d.op = 4) ∧ t ≠ 0 then t else d.fullLen alg

/-- The input block of a HASH/MAC algorithm (R107). -/
def Desc.inputBlock (d : Desc) (alg : Nat) : Nat :=
  if (d.op = 3 ∨ d.op = 4) ∧ 0x20 ≤ d.var then (if d.var = 0x22 then 8 else d.blockSize alg)
  else match Hash.ofCode (d.var % 16) with | some h => Hash.blockLen h | none => 1

/-- Tests of a HASH/MAC descriptor (R107, R147, R151). HASH, MAC_GENERATE and XOF write no output at STAGE 1 and 2, and the rules
give no refusal for a capacity there: it is accepted (DESIGN CHOICE, log entry 112). -/
def Desc.hashLengths (d : Desc) (alg : Nat) (n : Option Nat) : LenFault :=
  let verify := d.op == 2 || d.op == 4
  let final := d.stage == 0 || d.stage == 3
  let t := field d.param 7 0
  let pad := field d.param 9 8
  let iso := (d.op == 3 || d.op == 4) && (d.var == 0x21 || d.var == 0x22)
  let mac := d.op == 3 || d.op == 4
  let out := if d.op = 5 then 1 else if verify || !final then 0 else d.macLen alg
  .orElse (decide (d.dstLen < out) && !(d.op == 5 && !final)) 1 out <|
  .orElse ((mac && t != 0 && (decide (t < 4) || decide (d.fullLen alg < t))) || (iso && pad == 0) || (iso && pad == 3 && d.stage != 0)) 4 0 <|
  .orElse (d.auxLen != (if verify && final then d.macLen alg else 0)) 7 0 <|
  .orElse (!final && ofLen n fun n => n % d.inputBlock alg != 0) 8 0 <|
  .orElse (verify && d.dstLen != 0) 0xB 0 none

/-- Swap unit of MOVE (R112). -/
def swapUnit (v : Nat) : Nat := if v = 0 then 1 else if v = 1 then 2 else if v = 4 then 8 else 4

/-- Tests of a MOVE descriptor (R112): FILL uses no source (R98). -/
def Desc.moveLengths (d : Desc) (n : Option Nat) : LenFault :=
  .orElse (d.dstLen % swapUnit d.var != 0) 2 0 <|
  .orElse (d.op == 2 && ofLen n fun n => n != 0) 9 0 <|
  .orElse (d.op == 1 && ofLen n fun n => d.dstLen != n) 0xA 0 none

/-! ## PK (08 R171, R172) -/

/-- Digest length of a HASH code that some PK operation permits. -/
def pkHashLen (code : Nat) : Option Nat :=
  if upTo 1 8 code ∨ code = 15 then (Hash.ofCode code).map Hash.digestLen else none

/-- WORDS, HASH and SALT_LEN (05 R108). -/
def Desc.words (d : Desc) : Nat := field d.param 9 0
def Desc.hashCode (d : Desc) : Nat := field d.param 19 16
def Desc.saltLen (d : Desc) : Nat := field d.param 47 32

/-- Field length f and order length g of a curve VARIANT. -/
def Desc.curveLen (d : Desc) : Nat :=
  match d.var with
  | 1 => 32
  | 2 => 48
  | 3 => 66
  | _ => 4 * d.words

/-- Permitted SRC_LEN and AUX_LEN as lowest and highest values, and the output length; `none` where a length is not
known before the operation runs. -/
structure PkLens where
  src : Option (Nat × Nat)
  aux : Nat × Option Nat
  out : Nat

/-- The table of R172; a modulus shorter than its padding permits no message length. -/
def Desc.pkLens (d : Desc) : PkLens :=
  let k := 4 * d.words
  let h := pkHashLen d.hashCode
  let g := d.curveLen
  let params := if d.var = 4 then 28 * d.words else 0
  let exact := fun n => some (n, n)
  let hash := h.map fun n => (n, n)
  let below := fun n => if k < n then (1, 0) else (0, k - n)
  match d.op with
  | 0x01 | 0x02 | 0x03 | 0x04 => ⟨exact (2 * k), (k, some k), k⟩
  | 0x05 => ⟨exact k, (k, some k), k⟩
  | 0x10 =>
    ⟨if d.var = 0 then exact k else if d.var = 3 then some (below 11) else h.map fun n => below (2 * n + 2),
      (k + 8, if d.var = 4 then none else some (k + 8)), k⟩
  | 0x11 => ⟨if d.var = 0 then exact k else hash, (2 * k + 8, some (2 * k + 8)), 0⟩
  | 0x12 => ⟨exact k, (0, if d.var = 4 then none else some 0), if d.var = 0 then k else 0⟩
  | 0x13 => ⟨if d.var = 0 then exact k else hash, (0, some 0), k⟩
  | 0x14 => ⟨exact 0, (8, some 8), k⟩
  | 0x20 => ⟨hash, (params, some params), 2 * g⟩
  | 0x21 => ⟨hash, (params + 4 * g, some (params + 4 * g)), 0⟩
  | 0x22 => ⟨exact 0, (params + 2 * g, some (params + 2 * g)), g⟩
  | 0x23 => ⟨exact 0, (params, some params), 2 * g⟩
  | 0x30 => ⟨none, (0, some 0), if d.var = 0x10 then 64 else 114⟩
  | 0x31 => let n := if d.var = 0x10 then 96 else 171; ⟨none, (n, some n), 0⟩
  | 0x32 => let n := if d.var = 0x12 then 32 else 56; ⟨exact 0, (n, some n), n⟩
  | 0x33 => ⟨exact 0, (0, some 0), if d.var = 0x11 then 57 else if d.var = 0x13 then 56 else 32⟩
  | _ => ⟨none, (0, none), 0⟩

/-- Whether a PK operation writes no output. -/
def Desc.pkVerify (d : Desc) : Bool := d.op == 0x11 || d.op == 0x21 || d.op == 0x31

/-- Tests of a PK descriptor (R172, R180, 05 R108); n is the input length, none where a chain member's input is not known
yet. -/
def Desc.pkLengths (d : Desc) (n : Option Nat) : LenFault :=
  let l := d.pkLens
  let badSrc := match l.src, n with | some (a, z), some n => decide (n < a) || decide (z < n) | _, _ => false
  let badAux := decide (d.auxLen < l.aux.1) || (match l.aux.2 with | some z => decide (z < d.auxLen) | none => false)
  let pss := (d.op == 0x11 || d.op == 0x13) && d.var == 2
  let badSalt := if pss then (match pkHashLen d.hashCode with | some h => decide (4 * d.words < d.saltLen + h + 2) | none => false)
    else d.saltLen != 0
  .orElse badSrc 9 0 <|
  .orElse badAux 7 0 <|
  .orElse (decide (d.dstLen < l.out)) 1 l.out <|
  .orElse badSalt 4 0 <|
  .orElse (d.pkVerify && d.dstLen != 0) 0xB 0 none

/-! ## LAT (09 R198, R199) -/

/-- Lengths of a parameter set: public key, private key, ciphertext or signature. -/
def latLens (v : Nat) : Nat × Nat × Nat :=
  match v with
  | 0x01 => (800, 1632, 768)
  | 0x02 => (1184, 2400, 1088)
  | 0x03 => (1568, 3168, 1568)
  | 0x11 => (1312, 2560, 2420)
  | 0x12 => (1952, 4032, 3309)
  | 0x13 => (2592, 4896, 4627)
  | _ => (0, 0, 0)

/-- Required SRC_LEN, where one is, AUX_LEN and output length (R199). -/
def Desc.latNeeds (d : Desc) : Option Nat × Nat × Nat :=
  let (e, _, c) := latLens d.var
  let cl := field d.param 7 0
  match d.op with
  | 0x01 | 0x11 => (some 0, 0, e)
  | 0x02 => (some 0, e, c + 32)
  | 0x03 => (some c, 0, 32)
  | 0x12 => (none, cl, c)
  | _ => (none, e + c + cl, 0)

/-- The tests that several families share: SRC_LEN, AUX_LEN, DST_LEN, and DST_LEN of an operation without output. -/
def needsFault (d : Desc) (n : Option Nat) (src : Option Nat) (aux out : Nat) (verify : Bool) : LenFault :=
  .orElse (match src, n with | some a, some n => n != a | _, _ => false) 9 0 <|
  .orElse (d.auxLen != aux) 7 0 <|
  .orElse (decide (d.dstLen < out)) 1 out <|
  .orElse (verify && d.dstLen != 0) 0xB 0 none

/-- Tests of a LAT descriptor. -/
def Desc.latLengths (d : Desc) (n : Option Nat) : LenFault :=
  let (src, aux, out) := d.latNeeds
  needsFault d n src aux out (d.op == 0x13)

/-! ## PAY (11 R241) -/

/-- PIN block bytes of a format. -/
def pinBytes (f : Nat) : Nat := if f = 4 then 16 else 8

/-- n of an SLH-DSA set. -/
def slhN (v : Nat) : Nat := if v ≤ 4 then 16 else if v ≤ 8 then 24 else 32

/-- Tests of a PAY descriptor (R241). -/
def Desc.payLengths (d : Desc) (n : Option Nat) : LenFault :=
  let lo := d.var % 16
  let hi := d.var / 16
  let n' := n.getD 1
  let range := fun (a z : Nat) => n.isSome && (decide (n' < a) || decide (z < n'))
  match d.op with
  | 0x01 =>
    let pan := [lo, hi].any fun f => f == 0 || f == 3 || f == 4
    needsFault d n (some (pinBytes lo)) (if pan then 16 else 0) (pinBytes hi) false
  | 0x02 => needsFault d n (some (pinBytes lo)) 32 0 true
  | 0x10 =>
    let b := if d.var = 0 then 8 else 16
    .orElse (range b 4096) 9 0 <| .orElse (n.isSome && n' % b != 0) 2 0 <| needsFault d n none 32 (n.getD 0) false
  | 0x11 => needsFault d n (some (if d.var % 2 = 0 then 8 else 16)) 48 (pinBytes hi) false
  | 0x12 => .orElse (range 0 4096) 9 0 <| needsFault d n none 64 0 true
  | 0x20 => .orElse (range 1 4096) 9 0 <| needsFault d n none 48 0 true
  | 0x21 => .orElse (range 1 4096) 9 0 <| needsFault d n none 48 (if hi = 0 then 8 else 4) false
  | 0x22 => .orElse (range 0 4096) 9 0 <| needsFault d n none 48 8 false
  | 0x23 => needsFault d n (some 0) 48 0 true
  | 0x30 => needsFault d n (some 0) 0 0 true
  | 0x40 =>
    .orElse (range 0 4096) 9 0 <|
    .orElse (!(upTo (16 + 2 * slhN d.var) (271 + 2 * slhN d.var) d.auxLen)) 7 0 <|
    .orElse (d.dstLen != 0) 0xB 0 none
  | _ => none

/-! ## KEY (05 R111, 10 R225, R226, R228, 16 R361) -/

/-- Tests of a KEY descriptor; `boot` is whether enrolment is a bootstrap. -/
def Desc.keyLengths (d : Desc) (n : Option Nat) (boot : Bool) : LenFault :=
  match d.op with
  | 0x01 => needsFault d n none 0 0 true
  | 0x02 => .orElse (match n with | some n => n != 0 | none => false) 9 0 none
  | 0x03 => .orElse (match n with | some n => n != 0 | none => false) 9 0 <| .orElse (decide (d.auxLen < 16)) 7 0 <| .orElse (d.dstLen != 0) 0xB 0 none
  | 0x04 => .orElse (decide (d.auxLen < 16)) 7 0 <| .orElse (d.dstLen != 0) 0xB 0 none
  | 0x05 => needsFault d n (some 0) 0 0 true
  | 0x06 => needsFault d n (some 0) 0 32 false
  | 0x30 => needsFault d n (some 0) 0 48 false
  | 0x31 => needsFault d n (some 9472) 0 0 true
  | 0x32 => needsFault d n (some (if boot then 4736 else 14208)) 2696 0 true
  | 0x33 => needsFault d n (some 9472) 8 0 true
  | 0x34 => needsFault d n (some 0) 8 1328 false
  | 0x35 => needsFault d n (some 5969) 0 0 true
  | _ => none

/-- The length rules of a descriptor's operation. n is the input length, none while a chain member's input is not known;
tests that need it are then made when it is (at dispatch). -/
def Desc.lengthFault (d : Desc) (alg : Nat) (n : Option Nat) (boot : Bool) : LenFault :=
  match d.family with
  | 1 => d.symLengths alg n
  | 2 => d.hashLengths alg n
  | 3 => d.pkLengths n
  | 4 => d.latLengths n
  | 5 => d.payLengths n
  | 6 => d.keyLengths n boot
  | 8 => d.moveLengths n
  | _ => none

end Sys2Proof.Machine
end

