-- ==== Sys2Proof/Machine/Rsa.lean ====
section
/-! DEFINITION. RSA of the OX units: the primitives and paddings of RFC 8017, and key generation (08 R180, R191).
Integers are big-endian of k bytes. -/

namespace Sys2Proof.Rsa

open Sys2Proof BigNum

/-- A private key as the slot holds it (10 R216): p ‖ q ‖ dp ‖ dq ‖ qinv, each half the modulus length, and n ‖ e. -/
structure Private where
  p : Nat
  q : Nat
  dp : Nat
  dq : Nat
  qinv : Nat
  n : Nat
  e : Nat

/-- The private key that a slot's two parts spell. -/
def parse (secret pub : Bytes) : Private :=
  let h := secret.length / 5
  let part (i : Nat) := ofBE (slice (i * h) h secret)
  ⟨part 0, part 1, part 2, part 3, part 4, ofBE (pub.take (2 * h)), ofBE (pub.drop (2 * h))⟩

/-- The private operation by CRT with Garner recombination. -/
def crt (k : Private) (x : Nat) : Nat :=
  let m1 := powMod x k.dp k.p
  let m2 := powMod x k.dq k.q
  m2 + k.q * (k.qinv * subMod m1 m2 k.p % k.p)

/-- The mask generation function MGF1. -/
def mgf1 (h : Hash.Fn) (seed : Bytes) (n : Nat) : Bytes :=
  ((List.range (ceilDiv n (Hash.digestLen h))).flatMap (fun i => Hash.hash h (seed ++ toBE 4 i))).take n

/-- The DigestInfo prefix of a hash: the DER bytes before the digest. -/
def digestInfo (h : Hash.Fn) : Bytes :=
  let sha2 (x l : Nat) : Bytes :=
    [0x30, byte (17 + l), 0x30, 0x0d, 0x06, 0x09, 0x60, 0x86, 0x48, 0x01, 0x65, 0x03, 0x04, 0x02, byte x, 0x05, 0x00, 0x04, byte l]
  match h with
  | .sha1 => [0x30, 0x21, 0x30, 0x09, 0x06, 0x05, 0x2b, 0x0e, 0x03, 0x02, 0x1a, 0x05, 0x00, 0x04, 0x14]
  | .sha256 => sha2 1 32
  | .sha384 => sha2 2 48
  | .sha512 => sha2 3 64
  | .sha224 => sha2 4 28
  | .sha3_224 => sha2 7 28
  | .sha3_256 => sha2 8 32
  | .sha3_384 => sha2 9 48
  | .sha3_512 => sha2 10 64
  | _ => []

/-- EMSA-PKCS1-v1_5 of k bytes; none where the digest does not fit. -/
def emsaPkcs1 (h : Hash.Fn) (digest : Bytes) (k : Nat) : Option Bytes :=
  let t := digestInfo h ++ digest
  if k < t.length + 11 then none
  else some ([0, 1] ++ List.replicate (k - t.length - 3) 0xFF ++ [0] ++ t)

/-- EMSA-PSS with a salt, for an encoded message of `bits` bits. -/
def emsaPss (h : Hash.Fn) (digest salt : Bytes) (bits : Nat) : Option Bytes :=
  let n := ceilDiv bits 8
  let hl := Hash.digestLen h
  if n < hl + salt.length + 2 then none else
    let hh := Hash.hash h (zeros 8 ++ digest ++ salt)
    let db := zeros (n - salt.length - hl - 2) ++ [1] ++ salt
    let masked := xorB db (mgf1 h hh (n - hl - 1))
    let x := toBE masked.length (ofBE masked % 2 ^ (8 * masked.length - (8 * n - bits)))
    some (x ++ hh ++ [0xBC])

/-- EMSA-PSS verification with a salt of sLen bytes. -/
def pssVerify (h : Hash.Fn) (digest em : Bytes) (bits sLen : Nat) : Bool :=
  let n := ceilDiv bits 8
  let hl := Hash.digestLen h
  if n < hl + sLen + 2 ∨ em.length ≠ n ∨ em.getLast? ≠ some 0xBC then false else
    let masked := em.take (n - hl - 1)
    let hh := slice (n - hl - 1) hl em
    let top := 8 * masked.length - (8 * n - bits)
    if ofBE masked ≥ 2 ^ top then false else
      let db0 := xorB masked (mgf1 h hh (n - hl - 1))
      let db := toBE db0.length (ofBE db0 % 2 ^ top)
      let pad := n - hl - sLen - 2
      db.take pad = zeros pad && (db.drop pad).take 1 = [1] &&
        Hash.hash h (zeros 8 ++ digest ++ db.drop (pad + 1)) = hh

/-- EME-PKCS1-v1_5: the padding string is drawn as bytes, zeros left out. -/
def emePkcs1 (m ps : Bytes) : Bytes := [0, 2] ++ ps ++ [0] ++ m

/-- EME-PKCS1-v1_5 decoding; none where the padding is invalid. -/
def unpadPkcs1 (em : Bytes) : Option Bytes :=
  match em with
  | 0 :: 2 :: r =>
    let ps := r.takeWhile (· ≠ 0)
    if ps.length < 8 ∨ ps.length = r.length then none else some (r.drop (ps.length + 1))
  | _ => none

/-- EME-OAEP of k bytes with a seed. -/
def emeOaep (h : Hash.Fn) (label m seed : Bytes) (k : Nat) : Bytes :=
  let hl := Hash.digestLen h
  let db := Hash.hash h label ++ zeros (k - m.length - 2 * hl - 2) ++ [1] ++ m
  let maskedDb := xorB db (mgf1 h seed (k - hl - 1))
  [0] ++ xorB seed (mgf1 h maskedDb hl) ++ maskedDb

/-- EME-OAEP decoding; none where the padding is invalid. -/
def unpadOaep (h : Hash.Fn) (label em : Bytes) : Option Bytes :=
  let hl := Hash.digestLen h
  let k := em.length
  if k < 2 * hl + 2 then none else
    let maskedDb := em.drop (hl + 1)
    let seed := xorB (slice 1 hl em) (mgf1 h maskedDb hl)
    let db := xorB maskedDb (mgf1 h seed (k - hl - 1))
    let r := (db.drop hl).dropWhile (· = 0)
    if em.head? = some 0 ∧ db.take hl = Hash.hash h label ∧ r.head? = some 1 then some r.tail else none

/-- What a candidate becomes: its two top bits and its lowest bit set (R191). -/
def candidate (bits : Nat) (draw : Bytes) : Nat :=
  (ofBE draw % 2 ^ bits) ||| (3 <<< (bits - 2)) ||| 1

/-- Whether a candidate passes everything R191 demands of one prime, besides the distance from the other. -/
def accept (bits e c : Nat) : Bool := !sieved c && probablyPrime (mrRounds bits) c && Nat.gcd e (c - 1) = 1

/-- The key of two primes: p ‖ q ‖ dp ‖ dq ‖ qinv and n ‖ e (10 R216). -/
def keyOf (p q e k : Nat) : Bytes × Bytes :=
  let lam := (p - 1) * (q - 1) / Nat.gcd (p - 1) (q - 1)
  let d := (inverse e lam).getD 0
  let h := k / 2
  (toBE h p ++ toBE h q ++ toBE h (d % (p - 1)) ++ toBE h (d % (q - 1)) ++ toBE h ((inverse q p).getD 0),
   toBE k (p * q) ++ toBE 8 e)

end Sys2Proof.Rsa
end

