-- ==== Sys2Proof/Machine/Cost.lean ====
section
/-! DEFINITION. Unit times (07 R165, 08 R174, R183 to R185, 09 R208, 11 R257) and the costs that the scheduler takes from
them (13 R291), in units of 1/12800 ns: a cycle at 1.6 GHz is 8,000, a byte at 102.4 B/ns is 125, a byte at 25 B/ns is 512. -/

namespace Sys2Proof.Machine

open Sys2Proof

namespace Cost

/-- Units of a cycle at 1.6 GHz, and of a nanosecond. -/
def cycle : Nat := 8000
def ns : Nat := 12800

/-! ## Lanes (07 R165) -/

/-- Cycles of one serial AES block by the algorithm code. -/
def aesSerial (alg : Nat) : Nat := if alg = 5 then 16 else if alg = 4 then 14 else 12

/-- Whether an algorithm code is a TDEA key. -/
def isTdea (alg : Nat) : Bool := alg == 1 || alg == 2

/-- Data time and finish cycles of a SYM descriptor: op 1 encrypts, 2 decrypts. -/
def sym (op var alg n : Nat) : Nat × Nat :=
  let parallel := var == 5 || (var == 0 && op == 1)
  let inverse := op == 2 && (var == 0 || var == 1)
  if isTdea alg then
    if var = 2 then (n * 52 * cycle, 8)
    else if parallel then (ceilDiv n 8 * 25600, 8)
    else if inverse then (ceilDiv n 8 * 51200, 8)
    else (ceilDiv n 8 * 52 * cycle, 8)
  else
    if var = 2 then (n * aesSerial alg * cycle, 8)
    else if var = 6 then (ceilDiv n 16 * 16384, 32)
    else if var = 7 then (ceilDiv n 16 * aesSerial alg * cycle, 32)
    else if parallel then (ceilDiv n 16 * 16384, 8)
    else if inverse then (ceilDiv n 16 * 32768, 8)
    else (ceilDiv n 16 * aesSerial alg * cycle, 8)

/-- Cycles of one compression or permutation. -/
def hashCall (h : Hash.Fn) : Nat :=
  match h with
  | .sha224 | .sha256 => 66
  | .sha384 | .sha512 | .sha1 => 82
  | _ => 26

/-- Calls that hash n bytes: whole blocks only before the last stage, the padded message in it. -/
def hashCalls (h : Hash.Fn) (n : Nat) (last : Bool) : Nat :=
  let b := Hash.blockLen h
  if !last then n / b
  else if Hash.isSponge h then n / b + 1
  else ceilDiv (n + 1 + (if b = 128 then 16 else 8)) b

/-- Further permutations that squeeze n bytes out of a sponge. -/
def squeezes (h : Hash.Fn) (n : Nat) : Nat := ceilDiv n (Hash.blockLen h) - 1

/-- Hash calls of a HASH/MAC descriptor: the message, the key block and the two outer calls of HMAC, the squeezes of XOF (07
R165). -/
def hashWork (d : Desc) (h : Hash.Fn) : Nat :=
  let last := d.stage == 0 || d.stage == 3
  let first := d.stage == 0 || d.stage == 1
  let outer := if d.op == 3 || d.op == 4 then (if first then 1 else 0) + (if last then 2 else 0) else 0
  hashCalls h d.srcLen last + (if d.op = 5 && last then squeezes h d.dstLen else 0) + outer

/-- Blocks of n bytes under an ISO/IEC 9797-1 padding method; only a last stage pads. -/
def paddedBlocks (bl pad n : Nat) (last : Bool) : Nat :=
  if !last then ceilDiv n bl
  else if pad = 2 then n / bl + 1
  else max 1 (ceilDiv n bl) + (if pad = 3 then 1 else 0)

/-- Data time and finish cycles of a HASH/MAC descriptor. -/
def hashMac (d : Desc) (alg : Nat) : Nat × Nat :=
  let n := d.srcLen
  let last := d.stage == 0 || d.stage == 3
  let pad := field d.param 9 8
  let bl := if isTdea alg then 8 else 16
  let serial := if isTdea alg then 52 else aesSerial alg
  if d.var = 0x20 then ((if last then max 1 (ceilDiv n bl) else ceilDiv n bl) * serial * cycle, if isTdea alg then 8 else 16)
  else if d.var = 0x21 then (paddedBlocks bl pad n last * serial * cycle, 8)
  else if d.var = 0x22 then (paddedBlocks 8 pad n last * 20 * cycle, 60)
  else match Hash.ofCode (d.var % 16) with
    | none => (0, 8)
    | some h => (hashWork d h * hashCall h * cycle, 8)

/-- Cipher invocations, or hash calls, that a SYM or HASH/MAC descriptor makes (07 R155): a decryption step that is checked by
re-encryption counts twice; `keyLen` is the length of an HMAC key, which is hashed first where it exceeds a block. -/
def invocations (d : Desc) (alg keyLen : Nat) : Nat :=
  let bl := if isTdea alg then 8 else 16
  let n := d.srcLen
  let last := d.stage == 0 || d.stage == 3
  let pad := field d.param 9 8
  let aad := d.aadLen
  if d.family = Fam.sym then
    match d.var with
    | 2 => n
    | 6 => ceilDiv (n - aad) 16 + 2
    | 7 => 2 + 2 * ceilDiv (n - aad) 16 + (if aad = 0 then 0 else ceilDiv (aad + if aad < 0xFF00 then 2 else 6) 16)
    | v => ceilDiv n bl * (if d.op = 2 ∧ (v = 0 ∨ v = 1) then 2 else 1)
  else match d.var with
    | 0x20 => if last then max 1 (ceilDiv n bl) + 1 else ceilDiv n bl
    | 0x21 => paddedBlocks bl pad n last
    | 0x22 => paddedBlocks 8 pad n last + (if last then 3 else 0)
    | v => match Hash.ofCode (v % 16) with
      | some h =>
        let mac := d.op == 3 || d.op == 4
        hashWork d h + (if mac && d.stage < 2 && decide (Hash.blockLen h < keyLen) then hashCalls h keyLen true else 0)
      | none => 0

/-- Invocations, data cycles and finish cycles of the pseudorandom function of a KDF kernel, by VARIANT, on `n` bytes of fixed
input and `z` of key, for `len` bytes of output (07 R149, R165). -/
def kdf (var alg z n len : Nat) : Nat × Nat × Nat :=
  let sha := fun (m : Nat) => hashCalls .sha256 m true
  match var with
  | 0 =>
    let k := ceilDiv len 16
    let bs := ceilDiv (n + 8) 16
    (k * (bs + 1), k * bs * aesSerial alg, 8 * k)
  | 1 =>
    let k := ceilDiv len 32
    (k * (sha (n + 8) + 3), k * (sha (n + 8) + 3) * 66, 8 * k)
  | 2 =>
    let k := ceilDiv len 32
    (k * sha (4 + z + n), k * sha (4 + z + n) * 66, 8 * k)
  | _ =>
    let k := ceilDiv len 32
    let calls := k * (sha (n + 8) + 3) + sha z + 3
    (calls, calls * 66, 8 * (k + 1))

/-- Invocations, data cycles and finish cycles of a lane call (07 R155, R165, 12 R280): a block operation takes 8 cycles and the
serial cycles of each invocation, re-encryption included. -/
def call (r : CallRec) : Nat × Nat × Nat :=
  let alg := (r.input.map (·.code)).getD 3
  let tdea := r.target == 2 || (r.target == 5 && isTdea alg)
  let bl := if tdea then 8 else 16
  let serial := if tdea then 52 else aesSerial alg
  let n := r.src.length
  let pad := field r.param 9 8
  let blocks := fun (k : Nat) => (k, k * serial, 8)
  match r.target, r.op with
  | 1, 2 | 2, 2 | 1, 4 | 2, 4 | 1, 8 => blocks (2 * ceilDiv n bl)
  | 1, 5 | 2, 5 => (max 1 (ceilDiv n bl) + 1, max 1 (ceilDiv n bl) * serial, if tdea then 8 else 16)
  | 1, 6 | 2, 6 => blocks (paddedBlocks bl pad n true)
  | 2, 7 => (paddedBlocks 8 pad n true + 3, paddedBlocks 8 pad n true * 20, 60)
  | 1, _ | 2, _ => blocks (ceilDiv n bl)
  | 3, op | 4, op =>
    match Hash.ofCode (r.param % 16) with
    | some h =>
      let k := hashCalls h n true + (if op = 2 then squeezes h r.dstLen else if op = 3 then 3 else 0)
      (k, k * hashCall h, 8)
    | none => (0, 0, 8)
  | 5, 1 => kdf 0 alg 0 n r.dstLen
  | 5, 2 => kdf 1 alg 0 n r.dstLen
  | 5, 3 | 5, 4 => (2, 2 * 52, 8)
  | 5, _ => if tdea then blocks 2 else blocks (ceilDiv r.dstLen 16)
  | _, _ => (0, 0, 0)

/-- A lane's time; a second-order personality takes 1.5 times the data time. -/
def lane (d : Desc) (alg : Nat) (order2 : Bool) : Nat :=
  let t := if d.family = Fam.sym then sym d.op d.var alg d.srcLen else hashMac d alg
  (if order2 then t.1 * 3 / 2 else t.1) + t.2 * cycle

/-! ## OX units (08 R174, R176, R183 to R185) -/

/-- Montgomery multiplication and modular addition. -/
def mm (l : Nat) : Nat := ceilDiv l 2 * ceilDiv l 32 + 20
def ma (l : Nat) : Nat := ceilDiv l 32 + 7

/-- Montgomery set-up. -/
def setup (l : Nat) : Nat := 16 * mm l

/-- Window width. -/
def window (l : Nat) : Nat := if l ≤ 64 then 5 else if l ≤ 128 then 4 else if l ≤ 256 then 3 else 2

/-- Multiplications of an exponentiation with a b-bit exponent. -/
def expMuls (l b : Nat) : Nat := b + ceilDiv b (window l) + 2 ^ window l

/-- Cycles of a hash block in a padding. -/
def hashBlock (h : Hash.Fn) : Nat :=
  match h with
  | .sha1 | .sha224 | .sha256 => 64
  | .sha384 | .sha512 => 80
  | _ => 24

/-- Padding cycles: PSS and OAEP by the hash, others 16. -/
def padding (d : Desc) (words : Nat) : Nat :=
  let masked := d.var == 2 || d.var == 4
  match Hash.ofCode (field d.param 19 16) with
  | some h =>
    if masked && Hash.digestLen h != 0 then
      (ceilDiv (4 * words - Hash.digestLen h - 1) (Hash.digestLen h) + 2) * hashBlock h + 16
    else 16
  | none => 16

/-- Load, range validation, unload and wipe of a modular or RSA job. -/
def phases (words inBytes outBytes : Nat) : Nat :=
  48 + ceilDiv inBytes 64 + (2 * words + 40) + 48 + ceilDiv outBytes 64 + 256

/-- The curve tables of R185: keygen, sign, verify and ECDH or XDH cycles. -/
def curve (var words : Nat) : Nat × Nat × Nat × Nat :=
  match var with
  | 1 => (28800, 30720, 64000, 51200)
  | 2 => (46800, 49920, 104000, 83200)
  | 3 => (70800, 75500, 157400, 125900)
  | 4 => (240 * words * mm words, 250 * words * mm words, 500 * words * mm words, 400 * words * mm words)
  | _ => (0, 0, 0, 0)

/-- Edwards signing and verification of an m-byte message. -/
def edwards (var m : Nat) : Nat × Nat :=
  if var = 0x10 then (24000 + 160 * ceilDiv (m + 81) 128, 56000 + 80 * ceilDiv (m + 81) 128)
  else (60000 + 48 * ceilDiv (m + 125) 136, 140000 + 24 * ceilDiv (m + 125) 136)

/-- Cycles of an OX job; `bw` is bits plus weight of the public exponent, `shares` the bytes of the key's shares and public
part, `out` those of the output. -/
def ox (d : Desc) (bw shares out : Nat) : Nat :=
  let w := field d.param 9 0
  let ph := phases w (d.srcLen + d.auxLen + shares) out
  match d.op with
  | 0x01 | 0x02 => ph + ma w
  | 0x03 => ph + setup w + 2 * mm w
  | 0x04 => ph + setup w + expMuls w (32 * w) * mm w
  | 0x05 => ph + (64 * w + 64) * ma w
  | 0x10 | 0x11 => ph + setup w + bw * mm w + padding d w
  | 0x12 | 0x13 =>
    ph + 2 * setup (w / 2) + 2 * expMuls (w / 2) (16 * w + 64) * mm (w / 2) + mm (w / 2) + mm w + 2 * ma w
      + setup w + bw * mm w + padding d w
  | 0x20 => (curve d.var w).2.1
  | 0x21 => (curve d.var w).2.2.1
  | 0x22 => (curve d.var w).2.2.2
  | 0x23 => (curve d.var w).1
  | 0x30 => (edwards d.var d.srcLen).1
  | 0x31 => (edwards d.var d.srcLen).2
  | 0x32 => if d.var = 0x12 then 22000 else 55000
  | 0x33 => if d.var = 0x10 || d.var = 0x12 then 16000 else 40000
  | _ => 0

/-! ## Lattice units (09 R208) -/

/-- Cycles of a lattice job; DSA_SIGN with a loop cost for k iterations in place of the mean where k is known. -/
def lat (d : Desc) (k : Option Nat) : Nat :=
  let m := d.srcLen
  let blocks := 24 * ceilDiv (m + field d.param 7 0 + 67) 136 + ceilDiv m 64
  let sign (base loop mean : Nat) := (match k with | some k => base + loop * k | none => mean) + blocks
  match d.op, d.var with
  | 0x01, 1 => 41000
  | 0x01, 2 => 62700
  | 0x01, 3 => 92000
  | 0x02, 1 => 13800
  | 0x02, 2 => 21300
  | 0x02, 3 => 31500
  | 0x03, 1 => 16600
  | 0x03, 2 => 25400
  | 0x03, 3 => 37200
  | 0x11, 0x11 => 100925
  | 0x11, 0x12 => 152665
  | 0x11, 0x13 => 182175
  | 0x12, 0x11 => sign 26000 11600 75300
  | 0x12, 0x12 => sign 36000 15400 114540
  | 0x12, 0x13 => sign 49000 21000 129850
  | 0x13, 0x11 => 17575 + blocks
  | 0x13, 0x12 => 25575 + blocks
  | 0x13, 0x13 => 34775 + blocks
  | _, _ => 0

/-! ## Payment functions (11 R257) -/

/-- Hash calls of SLH_VERIFY by VARIANT (11 R256). -/
def slhCalls (v : Nat) : Nat :=
  nth 0 [0, 3929, 3929, 11871, 11871, 5682, 5682, 17217, 17217, 8444, 8444, 17522, 17522] v

/-- Core cycles of a PAY function; `x` is the count n of the key serial number. MAC-input blocks count after padding: a whole
block is added by padding method 2, and an empty input takes one. -/
def pay (d : Desc) (x : Nat) : Nat :=
  let din := fun f => if f = 4 then 64 else 40
  let eout := fun f => if f = 0 ∨ f = 2 then 40 else if f = 4 then 84 else 48
  let aes := d.var % 2 == 1
  let blk := if aes then ceilDiv d.srcLen 16 else ceilDiv d.srcLen 8
  let emvBlk := if d.var % 16 = 2 then max 1 (ceilDiv d.srcLen 16) else d.srcLen / 8 + 1
  match d.op with
  | 0x01 => 300 + din (d.var % 16) + eout (d.var / 16)
  | 0x02 => (if d.var / 16 = 0 then 420 else 460) + din (d.var % 16)
  | 0x10 => (if aes then 508 else 380) + 8 * x + 4 * blk
  | 0x11 => (if aes then 480 else 420) + 8 * x + eout (d.var / 16)
  | 0x12 => (if aes then 520 else 400) + 8 * x + 2 * max 1 blk
  | 0x20 => 520 + 2 * emvBlk
  | 0x21 => 640 + 2 * emvBlk
  | 0x22 => 500 + 2 * emvBlk
  | 0x23 => 460
  | 0x30 => 120
  | 0x40 => 2000 + 6 * slhCalls d.var
  | _ => 0

end Cost

/-- Bits plus weight of a public exponent (08 R184). -/
def expWork (e : Nat) : Nat := BigNum.bitLen e + BigNum.weight (BigNum.bitLen e) e

/-- Those of the key in a slot. -/
def slotExponent (s : SlotRec) : Nat := expWork (Rsa.parse s.secret s.pub).e

/-- The estimated cost of a descriptor (13 R291), with the slot of K1 as it stands and the personality's mask order. What
depends on operands that have not been gathered is open. -/
def Desc.cost (d : Desc) (alg : Nat) (order2 : Bool) (k1 : SlotRec) : Nat :=
  let x := Config.openCost d.family d.op d.var d.srcLen d.auxLen
  match d.family with
  | 1 | 2 => Cost.lane d alg order2
  | 3 =>
    if d.op = 0x14 then 3100000000 * Cost.ns * field d.param 9 0 ^ 3 / 512 ^ 3
    else
      let priv := d.op == 0x12 || d.op == 0x13
      let bw := if priv then slotExponent k1 else x
      let out := if d.op = 0x12 ∧ d.var ≠ 0 then d.dstLen else d.pkLens.out
      Cost.ox d bw (if priv then 2 * k1.secret.length + k1.pub.length else 0) out * Cost.cycle
  | 4 => Cost.lat d none * Cost.cycle
  | 5 => Cost.pay d x * Cost.cycle
  | 6 => 2000 * Cost.ns
  | 7 => d.dstLen * 512
  | 8 => max d.srcLen d.dstLen * 125
  | _ => 0

end Sys2Proof.Machine
end

