-- ==== Sys2Proof/Machine/Time.lean ====
section
/-! DEFINITION. The time base (01 R17 to R22, 02 R44, R45): time samples, holdover, steps of the schedule tick, and what
one microsecond changes. -/

namespace Sys2Proof.Machine

open Sys2Proof

/-- A meaning that changes the block alone. -/
def State.run (s : State) (f : Block → Block) : Host.Outcome State Fault Refusal := .next { s with blk := f s.blk }

/-- A meaning that reads the fuses and changes the block. -/
def State.runF (s : State) (f : Fuses → Block → Block) : Host.Outcome State Fault Refusal :=
  .next { s with blk := f s.fuses s.blk }

/-- External time minus the schedule tick. -/
def TimeBase.diff (t : TimeBase) : Int := (t.ext.toNat : Int) - t.sched.toNat

/-- AV_TIME_LAG (R22). -/
def TimeBase.lag (t : TimeBase) : Nat :=
  if t.hold then min (-t.diff).toNat (2 ^ 32 - 1)
  else if t.slew then min t.diff.toNat (2 ^ 32 - 1)
  else 0

/-- A flag of AV_TIME_STATUS is set and noted: the KIND 0x0060 record of its bit with LAG (R22, 17 R374). -/
def Block.noteTime (b : Block) (bit : Nat) : Block := b.noteRec 0x0060 0 bit b.time.lag

/-- The time base changed. -/
def Block.modTime (b : Block) (f : TimeBase → TimeBase) : Block := { b with time := f b.time }

/-- Entry to holdover: hold and slew end, no part of the lag is kept (R19). -/
def Block.enterHoldover (b : Block) : Block :=
  if b.time.holdover then b.modTime fun t => { t with timeValid := false }
  else
    Block.noteTime (b.modTime fun t => { t with
      timeValid := false, holdover := true, hold := false, slew := false, absorb := 0, absorbLeft := 0
      slewPhase := 0, holdoverSeen := true }) 8

/-- A hold begins (R20). -/
def Block.beginHold (b : Block) : Block :=
  Block.noteTime (b.modTime fun t => { t with hold := true, slew := false, absorb := 0, absorbLeft := 0, backSeen := true }) 9

/-- Ticks from one 32-bit tick to a target, modulo 2^32. -/
def ticksTo (from_ target : BitVec 32) : Nat := (target - from_).toNat

/-- The schedule tick jumps by n: each timed wait whose target lies within the jumped range is reached at once, and on each core
the contexts resume in order of target (R20). -/
def Core14.jump (now : BitVec 32) (n : Nat) (k : Core14) : Core14 :=
  let hit := (List.finRange 8).filterMap fun c =>
    match k.ctxs[c].st with
    | .waitTime t => if 0 < ticksTo now t ∧ ticksTo now t ≤ n then some (ticksTo now t, c) else none
    | _ => none
  { k with jumped := k.jumped ++ (hit.mergeSort fun x y => decide (x.1 ≤ y.1)).map (·.2) }

/-- The step that a difference of external time and schedule tick makes, with no hold or slew in progress (R20). -/
def Block.applyStep (b : Block) : Block :=
  let d := b.time.diff
  if d ≤ -2 then b.beginHold
  else if d ≤ 1 then
    b.modTime fun t => if t.absorbLeft ≠ 0 ∧ t.absorb = d then t else { t with absorb := d, absorbLeft := if d = 0 then 0 else 1000 }
  else if d ≤ 1000 then
    let cores := b.pay.cores.map fun k => (k.1, k.2.jump (b.time.sched.setWidth 32) d.toNat)
    let b : Block := { b with pay := { b.pay with cores } }
    Block.noteTime (b.modTime fun t => { t with sched := t.ext, absorb := 0, absorbLeft := 0, jumpSeen := true }) 10
  else Block.noteTime (b.modTime fun t => { t with slew := true, slewPhase := 0, absorb := 0, absorbLeft := 0, slewSeen := true }) 11

/-- An update of external time acts on the schedule tick (R20, R21): the first valid time sets the tick where it is
ahead; a step that arrives during a hold or a slew is combined with it. -/
def Block.updateTick (b : Block) : Block :=
  let d := b.time.diff
  if !b.time.synced then
    let b := b.modTime fun t => { t with synced := true }
    if 0 ≤ d then b.modTime fun t => { t with sched := t.ext } else b.beginHold
  else if b.time.hold then
    if d < 0 then b else Block.applyStep (b.modTime fun t => { t with hold := false })
  else if b.time.slew then
    if d < 0 then b.beginHold
    else if d = 0 then b.modTime fun t => { t with slew := false, slewPhase := 0 }
    else b
  else b.applyStep

/-- TIME_SAMPLE (R44): a sample with TIME_VALID 1 and nanoseconds out of range is discarded and counted; one with
TIME_VALID 0 is accepted and puts the block in holdover; another sets external time. While PORST_N is low the compute die is in
reset and takes none (R47). -/
def Block.timeSample (b : Block) (sec ns : Nat) (valid : Bool) : Block :=
  if b.mode.porstLow then b
  else if valid then
    if 1000000000 ≤ ns then b.modTime fun t => { t with badNs := satAdd 16 t.badNs 1 }
    else
      let b := b.modTime fun t => { t with
        ext := BitVec.ofNat 64 (sec * 1000000 + ns / 1000), timeValid := true, holdover := false, sinceSample := 0 }
      b.updateTick
  else (b.enterHoldover).modTime fun t => { t with sinceSample := 0 }

/-- TIME_SAMPLE. -/
def execTimeSample (sec ns : Nat) (valid : Bool) (s : State) : Host.Outcome State Fault Refusal :=
  s.run fun b => b.timeSample sec ns valid

/-- STB_TIMEOUT (R45): due when 20 µs have passed without an accepted sample. -/
def Block.stbTimeout (b : Block) : Block :=
  if b.time.timeValid && decide (20 ≤ b.time.sinceSample) then
    (b.enterHoldover).modTime fun t => { t with stbTimeouts := satAdd 16 t.stbTimeouts 1 }
  else b

/-- STB_TIMEOUT. -/
def execStbTimeout (s : State) : Host.Outcome State Fault Refusal := s.run Block.stbTimeout

/-! ## One microsecond -/

/-- One microsecond of the time base: the interval clock always advances; the schedule tick stands in a hold, takes 101
per 100 in a slew, and absorbs a difference of one over 1,000 ticks (R17, R20). -/
def TimeBase.advance (t : TimeBase) : TimeBase :=
  let t := { t with interval := t.interval + 1, sinceSample := t.sinceSample + 1 }
  if t.holdover then { t with sched := t.sched + 1 }
  else
    let t := { t with ext := t.ext + 1 }
    if t.hold then (if t.diff < 0 then t else { t with hold := false })
    else if t.slew then
      let extra := t.slewPhase == 99
      let t := { t with sched := t.sched + 1 + (if extra then 1 else 0), slewPhase := if extra then 0 else t.slewPhase + 1 }
      if t.diff ≤ 0 then { t with slew := false, slewPhase := 0 } else t
    else if t.absorbLeft = 1 then
      { t with sched := t.sched + 1 + BitVec.ofInt 64 t.absorb, absorb := 0, absorbLeft := 0 }
    else { t with sched := t.sched + 1, absorbLeft := t.absorbLeft - 1 }

/-- Bytes of the replay buffer in use (14 R315). -/
def Block.replayBytes (b : Block) : Nat :=
  match b.twin.session with
  | some s => 64 * sumBy (·.2) s.replay
  | none => 0

/-- The frequency domains in which a unit works (01 R16, R23). -/
def Block.busyDomains (b : Block) : List Nat :=
  ((b.lanes.units.filter fun x => x.2.job.isSome).map fun x => domainOf x.1) ++
  ((b.ox.units.filter fun x => x.2.job.isSome).map fun x => domainOf (112 + x.1)) ++
  ((b.lat.units.filter fun x => x.2.job.isSome).map fun x => domainOf (168 + x.1)) ++
  ((b.pay.cores.filter fun x => x.2.running.isSome).map fun x => domainOf (188 + x.1))

/-- One tick of the stall counters (04 R83, 06 R124, 17 R371): the rings that are stalled or have been in this tick, and the
partitions of these rings or with an entry that waits for staging. -/
def Block.countStalls (b : Block) : Block :=
  let stalled := (b.rings.map (·.1)).filter fun k => (b.ring k).stallMark || b.stalled k
  let waiting := b.partitions.filter fun p =>
    stalled.any (fun k => b.owner k == some p) || (b.stagingWait p).isSome
  let b := stalled.foldl (fun b k =>
    let still := b.stalled k
    b.modRing k fun r => { r with stallTicks := satAdd 24 r.stallTicks 1, stallMark := still }) b
  waiting.foldl (fun b p => Block.modRec (b.modPart p fun q => { q with stats := { q.stats with
    stallUs := satAdd 64 q.stats.stallUs 1 } }) fun c => { c with stallUs := satAdd 64 c.stallUs 1 }) b

/-- One microsecond of the whole block: the clocks, the tick counters of stalled rings and waiting partitions, the load of each
frequency domain, heartbeat age and commit back-pressure (01 R23, 04 R83, 06 R124, 14 R320, R335). While PORST_N is low only
the interval clock runs. -/
def Block.microsecond (b : Block) : Block :=
  if b.mode.porstLow then b.modTime fun t => { t with interval := t.interval + 1 } else
  let b := b.countStalls
  let load := b.busyDomains.eraseDups.foldl (fun l d => modNth (· + 1) d l) b.power.load
  let bp := decide (3 * 2 ^ 20 < b.replayBytes)
  { b with
    power := { b.power with load := load }
    twin := { b.twin with
      hbAge := satAdd 16 b.twin.hbAge 1
      bpTicks := if bp then satAdd 32 b.twin.bpTicks 1 else b.twin.bpTicks }
    time := b.time.advance }

end Sys2Proof.Machine
end

