-- ==== Sys2Proof/Machine/TwinOps.lean ====
section
/-! DEFINITION. Shared twin operations (14): lease words, loss of the twin, fencing, adoption, handover and release. -/

namespace Sys2Proof.Machine

open Sys2Proof

/-! ## Lease words (R323) -/

/-- RENEWALS, EPOCH, HOLDER, VALID and RELEASED of a lease word. -/
def leaseRenewals (w : BitVec 64) : Nat := field w.toNat 31 0
def leaseEpoch (w : BitVec 64) : Nat := field w.toNat 47 32
def leaseHolder (w : BitVec 64) : Nat := field w.toNat 48 48
def leaseValid (w : BitVec 64) : Bool := w.getLsbD 49
def leaseReleased (w : BitVec 64) : Bool := w.getLsbD 50

/-- A lease word from its fields. -/
def leaseWord (renewals epoch holder : Nat) (valid released : Bool) : BitVec 64 :=
  BitVec.ofNat 64 (renewals % 2 ^ 32 + at_ 32 (epoch % 2 ^ 16) + at_ 48 (holder % 2) + at_ 49 (flag valid) + at_ 50 (flag released))

/-- A renewal: RENEWALS one higher. -/
def leaseRenewed (w : BitVec 64) : BitVec 64 :=
  leaseWord (leaseRenewals w + 1) (leaseEpoch w) (leaseHolder w) (leaseValid w) (leaseReleased w)

/-- Address of the lease word of partition p: LEASE_BASE + 8 × p. -/
def Block.leaseAddr (b : Block) (p : Nat) : Nat := b.twin.leaseBase.toNat * 32768 + 8 * p

/-- Twin state of partition p changed. -/
def Block.modTw (b : Block) (p : Nat) (f : PartTwin → PartTwin) : Block := b.modPart p fun q => { q with tw := f q.tw }

/-- The role of partition p set. -/
def Block.setRole (b : Block) (p : Nat) (r : Role) : Block := b.modTw p fun t => { t with role := r }

/-- Paired partitions, in ascending order. -/
def Block.pairedParts (b : Block) : List Nat := b.partitions.filter b.paired

/-- A compare-and-swap of the lease of partition p from the word last seen to a new one. -/
def Block.swapLease (b : Block) (p : Nat) (new : BitVec 64) (pur : Purpose) : Block :=
  (b.issueCas p (b.leaseAddr p) (b.part p).tw.lease new pur).modTw p fun t => { t with offered := some new }

/-- The lease of partition p is read. -/
def Block.readLease (b : Block) (p : Nat) : Block := b.issueRead 0 p 0xFFFF (b.leaseAddr p) 8 (.leaseRead p)

/-- The watch of R325 step 2 begins. -/
def Block.startWatch (b : Block) (p : Nat) : Block :=
  (b.modTw p fun t => { t with watching := true, watch := none }).readLease p

/-- A renewal of the lease of partition p (R324). -/
def Block.renewLease (b : Block) (p : Nat) (atLoss : Bool) : Block :=
  (b.swapLease p (leaseRenewed (b.part p).tw.lease) (.leaseRenew p)).modTw p fun t => { t with
    renewDue := b.now + 500, retryAt := none, atLoss := t.atLoss || atLoss }

/-- A record of KIND 0x0050 (17 R374); event codes: 1 loss, 2 takeover, 3 fence, 4 release, 5 authentication failure. -/
def Block.noteTwin (b : Block) (subject code : Nat) : Block := b.noteRec 0x0050 2 subject code

/-! ## Entries given up -/

/-- Every entry of partition p that satisfies a test ends without completion. -/
def Block.abandonAll (b : Block) (p : Nat) (sel : Entry → Bool) : Block :=
  (b.entries.filter fun e => e.part == p && sel e).foldl (fun b e => b.abandon e) b

/-- The partition's rings as a block that no longer executes it keeps them: what is fetched and not completed counts
as submitted again, push slots, chains and bursts are gone. -/
def Block.rewindRings (b : Block) (p : Nat) : Block :=
  (b.liveRings p).foldl (fun b k => ((b.markStall k).disown (Purpose.ofFetch k)).modRing k fun r => { r with
    push := List.replicate 4 {}, chain := none, burst := none, f := r.c, kept := [], held := [], failedF := none, failedW := []
    sig := [], tw := { r.tw with doorbell := r.p } }) b

/-- A holder that has lost its lease is fenced (R324): it stops at once, abandons every entry, and stands by. -/
def Block.fence (b : Block) (p : Nat) : Block :=
  let b := (b.abandonAll p fun _ => true).rewindRings p
  let b := b.modTw p fun t => { t with role := .standby, stopped := false, offered := none, atLoss := false, retryAt := none, handover := none }
  let b := { b with twin := { b.twin with fencedSeen := true, fences := satAdd 16 b.twin.fences 1 } }
  b.noteTwin p 3

/-! ## Adoption (R325 steps 4 and 5) -/

/-- Step 4 for ring k: every committed completion from D up to the last committed Q is written again with identical
bytes, then the shadow word; the ring's vector gains a message where a completion was rewritten. The rewrites go over M0, since
no descriptor executed here chooses their port (DESIGN CHOICE, log entry 101). -/
def Block.rewriteRing (b : Block) (k : Nat) : Block :=
  let r := b.ring k
  let p := b.ownerD k
  let todo := sortBy (fun c => dist c.1 r.d)
    (r.tw.committed.filter fun c => !c.2.1.isEmpty && decide (dist c.1 r.d < dist r.q r.d))
  todo.foldl (fun b c =>
    (b.issueOrdered 0 p k (r.cmpBase.toNat + 32 * (c.1.toNat % 2 ^ r.cmpLog2)) c.2.1 (.completion k c.1) false).modRing k fun r =>
      { r with sig := r.sig ++ [{ q := c.1, raises := todo.getLast?.map (·.1) == some c.1, port := 0 }] }) b

/-- Step 5 for ring k: the recorded doorbell value is applied under R76 and every index from C is fetched again; kept
output comes from the applied frames. -/
def Block.refetchRing (b : Block) (k : Nat) : Block :=
  b.modRing k fun r =>
    let s := dist r.tw.doorbell r.c
    let p := if r.poll then r.c else if s ≤ 2 ^ r.subLog2 then r.tw.doorbell else r.c
    { r with f := r.c, p := p, pollDue := r.poll
             kept := r.tw.keep.map (fun x => (x.1, x.2, ceilDiv x.2.length 64))
             chain := if r.tw.keep.any (fun x => x.1 + 1 == r.c) then some { first := r.c - 1, fetched := 1, lastKeep := true } else none }

/-- Steps 4 and 5 of R325 for every ring of partition p. -/
def Block.adopt (b : Block) (p : Nat) : Block :=
  let ks := b.liveRings p
  let b := ks.foldl Block.rewriteRing b
  ks.foldl Block.refetchRing b

/-! ## Loss of the twin (R316, R325) -/

/-- Step 1 or step 2 of R325 for partition p. -/
def Block.loseTwinOf (b : Block) (p : Nat) : Block :=
  match (b.part p).tw.role with
  | .home | .syncSource | .handing =>
    (b.modTw p fun t => { t with handover := none, syncDone := none }).renewLease p true
  | .shadow | .syncTarget =>
    Block.startWatch (b.modTw p fun t => { t with wasShadow := t.role == .shadow }) p
  | .standby => b.startWatch p
  | _ => b

/-- The completions that wait for an acknowledgement are written without a commit (R325 step 1). -/
def Block.writeUncommitted (b : Block) (p : Nat) : Block :=
  let es := b.entries.filter fun e => e.part == p && e.stage == .commit
  let place := fun (e : Entry) => match e.done.bind (·.slot) with | some q => dist q (b.ring e.ring).q | none => 0
  (sortBy place es).foldl (fun b e =>
    match e.done with
    | some c => if (b.ring e.ring).held.any (fun h => h.sub == e.sub && !h.overrun) then b else b.emit c
    | none => b) b

/-- The twin is declared lost: LOST and LOSS_SEEN set, the session ends, every paired partition moves (R316). Slot writes
of partition 0 that waited for the twin (R322) complete. -/
def Block.loseTwin (b : Block) : Block :=
  let b := { b with twin := { b.twin with
    lost := true, lossSeen := true, session := none, hs := none, peer := none, fill := [], unacked := [], parts := [] } }
  let b := (b.noteTwin 0xFFFF 1).writeUncommitted 0
  b.pairedParts.foldl Block.loseTwinOf b

/-! ## Handover and release (R327 to R329) -/

/-- Whether the twin meets the handover condition of R327: OPERATIONAL, HEN running, every count advertised. -/
def Twin.qualifies (t : Twin) : Bool :=
  t.session.isSome && (match t.peer with
    | some m => m.mode == 3 && !m.henStopped && (List.zipWith (fun a c => decide (c ≤ a)) m.avail advertised).all id
    | none => false)

/-- A handover of partition p begins (R327 step 1). -/
def Block.startHandover (b : Block) (p : Nat) : Block :=
  let b := (b.liveRings p).foldl (fun b k => b.modRing k fun r => { r with push := List.replicate 4 {} }) b
  let b := b.abandonAll p fun e => !e.wasDispatched && !e.isScattered
  b.modTw p fun t => { t with role := .handing, handover := some (b.now, false, false) }

/-- Step 3 of R327 as far as it can go: HANDOVER_BEGIN, and once every entry has committed and completed, the lease goes
to the other side by compare-and-swap. -/
def Block.moveHandover (b : Block) (p : Nat) : Block :=
  match (b.part p).tw.handover with
  | some (t, begun, moved) =>
    let b := if begun then b else b.sendFrame 3 (fun _ => .handoverBegin p)
    let b := b.modTw p fun q => { q with handover := some (t, true, moved) }
    if moved || b.awaits (.leaseRenew p) || b.entries.any (fun e => e.part == p) then b
    else
      let w := (b.part p).tw.lease
      let b := b.swapLease p (leaseWord 0 (leaseEpoch w + 1) (1 - b.twin.side) true false) (.leaseGive p)
      b.modTw p fun q => { q with handover := some (t, true, true) }
  | none => b

/-- Partitions that are being handed over. -/
def Block.handing (b : Block) : List Nat := b.pairedParts.filter fun p => (b.part p).tw.handover.isSome

/-- A trigger of R327 concerns partition p: HEN stopped, a count below advertised, a warm reset with handover, a detach, or
handback to the preferred home, at most 16 at a time (R332). -/
def Block.wantsHandover (b : Block) (p : Nat) : Bool :=
  let away := !(b.cfg p).home
  let warmHand := match b.mode.warm with | some (h, _) => h | none => false
  b.role p == .home && (b.hen.phase == .stopped || b.degraded || warmHand || (b.twin.detaching && away) ||
    (away && b.mode.mode == .operational && decide (b.handing.length < 16)))

/-- Handovers that a trigger asks for start as soon as the twin qualifies (R327, R328). -/
def Block.examineHandovers (b : Block) : Block :=
  b.pairedParts.foldl (fun b p =>
    if b.wantsHandover p && b.twin.qualifies then (b.startHandover p).moveHandover p else b) b

/-- The lease of partition p is set RELEASED by compare-and-swap (R329). -/
def Block.setReleased (b : Block) (p : Nat) : Block :=
  let w := (b.part p).tw.lease
  b.swapLease p (leaseWord (leaseRenewals w) (leaseEpoch w) (leaseHolder w) (leaseValid w) true) (.leaseGive p)

/-- A release of partition p begins (R329): fetching stops, work not scattered is cut off without completion, scattered
entries wait for their acknowledgement, and the lease is set RELEASED. -/
def Block.releasePart (b : Block) (p : Nat) : Block :=
  if !(b.role p).executes || !b.paired p || (b.part p).tw.releaseAt.isSome then b else
  let b := (b.liveRings p).foldl (fun b k => ((b.markStall k).disown (Purpose.ofFetch k)).modRing k fun r => { r with
    push := List.replicate 4 {}, burst := none, failedF := none }) b
  let b := b.abandonAll p fun e => !e.isScattered
  let b := if b.awaits (.leaseRenew p) then b else b.setReleased p
  let b := b.modTw p fun t => { t with role := .handing, releaseAt := some b.now, handover := none }
  let b := { b with twin := { b.twin with releases := satAdd 16 b.twin.releases 1 } }
  (b.modRec fun c => { c with failovers := satAdd 32 c.failovers 1 }).noteTwin p 4

/-- Several partitions are released and the twin is told (R314 FAULT_NOTICE; causes: 1 halt, 2 LOCK, 3 ERASE, 4 warm
reset, 5 port fault). -/
def Block.releaseAll (b : Block) (ps : List Nat) (cause : Nat) : Block :=
  let ps := ps.filter fun p => b.paired p && (b.role p).executes
  let b := ps.foldl Block.releasePart b
  if b.twin.session.isSome then b.sendFrame 10 (fun _ => .faultNotice cause ps) else b

/-- The wait of a release ends for partition p: scattered entries whose acknowledgement has not come are abandoned. -/
def Block.endRelease (b : Block) (p : Nat) : Block :=
  let b := (b.abandonAll p fun _ => true).rewindRings p
  b.modTw p fun t => { t with role := .standby, releaseAt := none }

/-- A block halt (03 R56): fetching stops, entries not dispatched abort, paired partitions that are home here are
released with a fault notice, and the recorder notes the halt. -/
def Block.haltBlock (b : Block) (cause reason : Nat) : Block :=
  let b := { b with mode := { b.mode with halted := true, haltCause := cause } }
  let b := b.releaseAll b.pairedParts 1
  let b := b.cutAll (fun e => !e.wasDispatched && !(b.paired e.part)) St.aborted 4
  b.noteRec 0x0020 2 cause reason

end Sys2Proof.Machine
end

