-- ==== Sys2Proof/Machine/Rings.lean ====
section
/-! DEFINITION. Ring pairs (04): set-up, doorbells, pushes, retraction, polling, turns, fetch bursts, validation,
completion consumption, stop, and the repeats of failed requests. -/

namespace Sys2Proof.Machine

open Sys2Proof

/-! ## Page accesses (00 R6, 02 R28, R35) -/

/-- A write before READY: discarded, and counted by the tag it carries (R6, R35). -/
def Block.countEarly (b : Block) (tag : Nat) : Block :=
  let n := satAdd 32 (Table.get 0 b.earlyWrites tag) 1
  let b := { b with earlyWrites := Table.set 0 b.earlyWrites tag n }
  (b.modRec fun c => { c with earlyWrites := satAdd 32 c.earlyWrites 1 }).noteRec 0x0062 0 tag n

/-- The slave port's error bits are all clear. -/
def SlavePort.clear (p : SlavePort) : Bool := !p.sizeErr && !p.alignErr && !p.ownerErr

/-- An access refused under R28: OWNER_ERR set, counted, an OK response and a read value of zero. -/
def Block.refuseOwner (b : Block) (addr tag : Nat) (write : Bool) : Block :=
  let p := b.sport
  let b := { b with sport := { p with
    firstAddr := if p.clear then addr else p.firstAddr, firstTag := if p.clear then tag else p.firstTag
    ownerErr := true, count := satAdd 32 p.count 1, lastRead := 0, lastOk := true, taken := true } }
  if write then { b with ownerWrites := Table.set 0 b.ownerWrites tag (satAdd 32 (Table.get 0 b.ownerWrites tag) 1) } else b

/-- The page of ring pair k. -/
def ringPage (k : Nat) : Nat := 0x10000000 + 0x1000 * k

/-- The page of partition p. -/
def partPage (p : Nat) : Nat := 0x01000000 + 0x1000 * p

/-- A write is accepted: an OK response. -/
def Block.okWrite (b : Block) : Block := { b with sport := { b.sport with lastOk := true, lastRead := 0, taken := true } }

/-- An access is not accepted yet: nothing changes, and the response channel stays as it is (R31; log entry 102). -/
def Block.notTaken (b : Block) : Block := { b with sport := { b.sport with taken := false } }

/-- SIZE_ERR or ALIGN_ERR sets, with address and tag where all bits were clear; the access is counted and noted (R29). -/
def Block.badAccess (b : Block) (addr tag : Nat) (align : Bool) : Block :=
  let p := b.sport
  let b : Block := { b with sport := { p with
    firstAddr := if p.clear then addr else p.firstAddr, firstTag := if p.clear then tag else p.firstTag
    sizeErr := p.sizeErr || !align, alignErr := p.alignErr || align, count := satAdd 32 p.count 1, lastRead := 0, taken := true } }
  b.noteRec 0x0061 0 tag (if align then 17 else 16)

/-- The access receives an ERROR response. -/
def Block.errorResponse (b : Block) : Block := { b with sport := { b.sport with lastOk := false } }

/-- An address of the recorder window, which takes 64-bit reads only (17 R380). -/
def inRecorder (addr : Nat) : Bool := decide (0x200000 ≤ addr) && decide (addr < 0x300000)

/-- The size is unsupported: neither 4 nor 8 bytes, or a 32-bit read of the recorder window. -/
def badSize (addr size : Nat) (write : Bool) : Bool :=
  (size != 4 && size != 8) || (size == 4 && !write && inRecorder addr)

/-- An access of the slave port: nothing while PORST_N is low; one of an unsupported size or a misaligned one is refused with an
ERROR response (R29). -/
def Block.access (b : Block) (addr size tag : Nat) (write : Bool) (f : Block → Block) : Block :=
  if b.mode.porstLow then b
  else if badSize addr size write then (b.badAccess addr tag false).errorResponse
  else if addr % size ≠ 0 then (b.badAccess addr tag true).errorResponse
  else f b

/-- A write with a tag to the page of ring pair k: before READY counted as early, with a foreign tag refused (R6, R28). -/
def Block.ringWrite (b : Block) (k tag off : Nat) (f : Block → Block) : Block :=
  if b.mode.porstLow then b
  else if !b.mode.ready then b.okWrite.countEarly tag
  else if tag = 0 ∨ b.owner k = some tag then f b.okWrite
  else b.refuseOwner (ringPage k + off) tag true

/-- A write with a tag to the page of partition p. -/
def Block.partWrite (b : Block) (p tag off : Nat) (f : Block → Block) : Block :=
  if b.mode.porstLow then b
  else if !b.mode.ready then b.okWrite.countEarly tag
  else if tag = 0 ∨ (tag = p ∧ b.enabled p) then f b.okWrite
  else b.refuseOwner (partPage p + off) tag true

/-- A write of the global window: with another tag than 0 refused (R28). -/
def Block.globalWrite (b : Block) (tag addr : Nat) (f : Block → Block) : Block :=
  if b.mode.porstLow then b
  else if tag = 0 then f b.okWrite else b.refuseOwner addr tag true

/-! ## Forwarded writes (14 R321) -/

/-- Where a STOP, retraction, partition reset or lock outcome of a paired partition goes: applied here; forwarded first,
to be applied on acknowledgement; or ignored, on a block that does not execute the partition. -/
inductive Route where
  | apply | forward | ignore
  deriving DecidableEq, Repr

/-- The route of such a write for partition p. -/
def Block.route (b : Block) (p : Nat) : Route :=
  match b.role p with
  | .home | .handing | .syncSource => if b.twin.session.isSome then .forward else .apply
  | .unpaired | .solo => .apply
  | .shadow | .standby | .syncTarget => .ignore

/-- A STATE frame goes out; its outcome takes effect when the twin has acknowledged it. -/
def Block.forward (b : Block) (i : StateItem) : Block :=
  let seq := match b.twin.session with | some s => s.seqOut | none => 0
  let b := b.sendFrame 3 (fun s => .state s i)
  { b with twin := { b.twin with forwarded := b.twin.forwarded ++ [(seq, i)] } }

/-- A forwarded outcome for which a test holds has not taken effect yet. -/
def Block.forwarding (b : Block) (is : StateItem → Bool) : Bool := b.twin.forwarded.any fun x => is x.2

/-- A STOP of ring k is on its way to the twin. -/
def StateItem.stops (k : Nat) : StateItem → Bool
  | .stop j => j == k
  | _ => false

/-- A retraction of ring k is on its way to the twin. -/
def StateItem.retracts (k : Nat) : StateItem → Bool
  | .retract j _ => j == k
  | _ => false

/-- A reset of partition p is on its way to the twin. -/
def StateItem.resets (p : Nat) : StateItem → Bool
  | .partReset q => q == p
  | _ => false

/-- An outcome of the lock of partition p is on its way to the twin. -/
def StateItem.locks (p : Nat) : StateItem → Bool
  | .kmLock q _ _ _ => q == p
  | _ => false

/-- An access to a register whose earlier write has not taken effect waits; another goes on (02 R30, R31). -/
def Block.accessUnless (b : Block) (held : Bool) (f : Block → Block) : Block := if held then b.notTaken else f b

/-! ## Set-up (R70, R71) -/

/-- Whether a set-up record is taken for ring k: DISABLED, or STOPPING on a block that does not execute its partition, where
nothing is left to wait for. -/
def Block.takesSetup (b : Block) (k : Nat) : Bool :=
  let r := b.ring k
  r.st == .disabled || (r.st == .stopping && !(b.role (b.ownerD k)).executes)

/-- SETUP_RECORD_WRITE: one word of the set-up record of a DISABLED ring, in push slot 0. -/
def Block.setupWord (b : Block) (k word : Nat) (value : BitVec 64) : Block :=
  let takes := b.takesSetup k
  b.modRing k fun r =>
    if takes ∧ word < 8 then
      { r with setup := r.setup.set word value, setupMask := r.setupMask ||| BitVec.ofNat 8 (2 ^ word) }
    else r

/-- A word of the set-up record. -/
def RingRec.sw (r : RingRec) (i : Nat) : Nat := (nth 0 r.setup i).toNat

/-- The first failed check of a set-up record, as SETUP_CAUSE; 0 where all pass (R71). -/
def Block.setupCause (b : Block) (k : Nat) : Nat :=
  let r := b.ring k
  let sizes := field (r.sw 3) 31 0
  let vector := field (r.sw 3) 63 32
  let subLog2 := field sizes 4 0
  let cmpLog2 := field sizes 12 8
  let poll := bit sizes 16
  let n := field (r.sw 5) 15 0
  let c := b.cfg (b.ownerD k)
  if r.setupMask ≠ 0xFF then 1
  else if subLog2 < 4 ∨ 20 < subLog2 ∨ cmpLog2 < 4 ∨ 20 < cmpLog2 then 2
  else if r.sw 0 % min (64 * 2 ^ subLog2) 4096 ≠ 0 ∨ r.sw 1 % min (32 * 2 ^ cmpLog2) 4096 ≠ 0 ∨ r.sw 2 % 8 ≠ 0 ∨ r.sw 2 = 0 then 3
  else if (b.owner k).isNone ∨ field vector 13 0 < c.vecFirst ∨ c.vecFirst + c.vecCount ≤ field vector 13 0 then 4
  else if poll ∧ !(b.ringCfg k).pollAllowed then 5
  else if poll ∧ n = 0 ∨ ¬poll ∧ n ≠ 0 then 6
  else if field sizes 7 5 ≠ 0 ∨ field sizes 15 13 ≠ 0 ∨ field sizes 31 17 ≠ 0 ∨ field vector 31 14 ≠ 0 ∨
      field (r.sw 5) 63 16 ≠ 0 ∨ r.sw 6 ≠ 0 ∨ r.sw 7 ≠ 0 then 7
  else 0

/-- A ring whose set-up record is latched: RUNNING, indices at their start values (R71). -/
def RingRec.latched (r : RingRec) (now : Nat) : RingRec :=
  let sizes := field (r.sw 3) 31 0
  let start := BitVec.ofNat 32 (field (r.sw 4) 31 0)
  let cmp := BitVec.ofNat 32 (field (r.sw 4) 63 32)
  { r with
    st := .running, subBase := nth 0 r.setup 0, cmpBase := nth 0 r.setup 1, shadow := nth 0 r.setup 2
    subLog2 := field sizes 4 0, cmpLog2 := field sizes 12 8, vector := field (r.sw 3) 45 32, poll := bit sizes 16
    pollN := field (r.sw 5) 15 0, p := start, f := start, c := start, q := cmp, d := cmp
    push := List.replicate 4 {}, chain := none, kept := [], burst := none, failedF := none, failedW := [], sig := []
    stopAfter := false, stallMark := false
    pollDue := bit sizes 16, pollAt := now, tw := { doorbell := start } }

/-- ENABLE (R71): the record is checked and latched, or SETUP_ERR and SETUP_CAUSE are set; its words clear in both cases. -/
def Block.enableRing (b : Block) (k : Nat) : Block :=
  if b.takesSetup k then
    let cause := b.setupCause k
    let b := b.modRing k fun r => if cause = 0 then r.latched b.now else { r with setupErr := true, setupCause := cause }
    b.modRing k fun r => { r with setup := List.replicate 8 0, setupMask := 0 }
  else b.modRing k fun r => { r.discardPush with setupErr := true, setupCause := 8 }

/-- ENABLE. -/
def execEnable (ring tag : Nat) (s : State) : Host.Outcome State Fault Refusal :=
  s.run fun b => b.accessUnless (b.forwarding (StateItem.stops ring)) fun b => b.ringWrite ring tag 0x20 fun b => b.enableRing ring

/-- SETUP_RECORD_WRITE. -/
def execSetupRecordWrite (ring tag word : Nat) (value : BitVec 64) (s : State) : Host.Outcome State Fault Refusal :=
  s.run fun b => b.ringWrite ring tag (0x100 + 8 * word) fun b => b.setupWord ring word value

/-! ## Stop (R90) -/

/-- A STOP that takes effect: STOPPING, unfetched entries withdrawn, fetched ones aborted, DISABLED when none is left. A burst
whose reads are outstanding is fetched, and a read of it that has failed is still repeated (R77, R91). -/
def Block.stopRing (b : Block) (k : Nat) : Block :=
  let r := b.ring k
  if r.st = .running ∨ r.st = .fault then
    let b := ((b.markStall k).modRing k RingRec.discardPush).withdraw k
    let b := b.modRing k fun r => { r with
      st := .stopping, chain := none, kept := [], pollDue := false
      failedF := if r.burst.isSome then r.failedF else none }
    let b := b.cutAll (fun e => e.ring == k) St.aborted 1
    b.settleRing k
  else b.modRing k RingRec.discardPush

/-- A write of 1 to STOP, by the route of 14 R321; the push slots are discarded at once (R79). -/
def Block.stopWrite (b : Block) (k : Nat) : Block :=
  let b := b.modRing k RingRec.discardPush
  match b.route (b.ownerD k) with
  | .apply => b.stopRing k
  | .forward => b.forward (.stop k)
  | .ignore => b

/-- STOP. -/
def execStop (ring tag : Nat) (s : State) : Host.Outcome State Fault Refusal :=
  s.run fun b => b.accessUnless (b.forwarding (StateItem.stops ring)) fun b => b.ringWrite ring tag 0x20 fun b => b.stopWrite ring

/-! ## Malformed entries (R93, R94) -/

/-- What a malformed entry or a doorbell overrun halts: the block on ring pair 0, the partition otherwise. -/
def Block.haltFor (b : Block) (k : Nat) : Block :=
  if k = 0 then b.haltBlock 2 0 else b.haltPartition (b.ownerD k) k

/-- A doorbell overrun (R76, R93): one completion with TAG 0 and SUB_INDEX the rejected value, then the halt. No executed
descriptor chose its port: it goes over M0 (DESIGN CHOICE, log entry 99). -/
def Block.overrun (b : Block) (k : Nat) (v : Index) : Block :=
  let c : Completion := { ring := k, tag := 0, status := St.malformed, detail := 7, engine := 0xFF, outLen := 0, sub := v,
                          result := malformedResult 0, irq := true, overrun := true }
  (b.emit c).haltFor k

/-! ## Doorbells (R76) -/

/-- A doorbell value v on the executing block. -/
def Block.ringDoorbell (b : Block) (k : Nat) (v : Index) : Block :=
  let b := b.modRing k RingRec.discardPush
  let r := b.ring k
  let s := dist v r.c
  let p := dist r.p r.c
  match r.st with
  | .running | .fault =>
    if r.poll then b.modRing k fun r => { r with dbIgnored := true }
    else if 2 ^ r.subLog2 < s then b.overrun k v
    else if s < p then b.modRing k fun r => { r with dbStale := true }
    else b.modRing k fun r => { r with p := v }
  | .disabled | .stopping | .halted => b.modRing k fun r => { r with dbIgnored := true }

/-- A doorbell write; a block that does not execute a paired partition records the value (14 R321). -/
def Block.doorbellWrite (b : Block) (k : Nat) (v : Index) : Block :=
  if (b.role (b.ownerD k)).executes then b.ringDoorbell k v
  else b.modRing k fun r => { r with tw := { r.tw with doorbell := v } }

/-- DOORBELL. -/
def execDoorbell (ring tag : Nat) (value : BitVec 64) (s : State) : Host.Outcome State Fault Refusal :=
  s.run fun b => b.ringWrite ring tag 0x00 fun b => b.doorbellWrite ring (value.setWidth 32)

/-! ## Validation (R92 to R94, 05 R116, R117) -/

/-- A change to MAINTENANCE waits until what partition p has fetched has completed (03 R59). -/
def Block.draining (b : Block) (p : Nat) : Bool :=
  b.mode.mode == .operational && b.mode.transition.isSome && p != 0

/-- Whether the mode and the partition's state give partition p turns (00 R6, 03 R56, R59, 13 R296, 14 R311). -/
def Block.turnsAllowed (b : Block) (p : Nat) : Bool :=
  let modeOk := match b.mode.mode with
    | .operational => true
    | .maintenance => p == 0
    | .locked | .zeroized => true
    | .factory | .configure => false
  let warmCut := match b.mode.warm with | some (first, _) => !first | none => false
  b.enabled p && b.mode.ready && !b.mode.halted && !warmCut && !b.mode.porstLow && modeOk &&
    !(b.part p).halted && (b.part p).resetting.isNone && (b.role p).executes && b.role p != .handing &&
    !(b.part p).tw.stopped && !(b.paired p && b.role p == .home && decide (3 * 2 ^ 20 < b.replayBytes))

/-- Whether entries of partition p may be fetched: none while a change to MAINTENANCE drains it (03 R59). -/
def Block.fetchAllowed (b : Block) (p : Nat) : Bool := b.turnsAllowed p && !b.draining p

/-- The abort that meets an entry as it arrives, by what has happened to its ring, partition or block. -/
def Block.arrivalAbort (b : Block) (k p : Nat) : Option Nat :=
  if (match b.mode.warm with | some (first, _) => !first | none => false) then some 5
  else if b.mode.halted then some 4
  else if (b.part p).resetting.isSome then some 3
  else if (b.part p).halted then some 2
  else match (b.ring k).st with
    | .running | .fault => none
    | .disabled | .stopping => some 1
    | .halted => some 2

/-- Fewer than two custodians are enrolled and BOOTSTRAP reads 1 (16 R361). -/
def Gander.mayBootstrap (g : Gander) : Bool := g.bootstrap && decide ((g.cust.filter (·.enrolled)).length < 2)

/-- What LOCKED and ZEROIZED leave to the administrative ring (00 R6, 16 R361). -/
def lockedAllows (m : Mode) (boot : Bool) (d : Desc) : Bool :=
  d.family == Fam.key && match m with
    | .locked => d.op == 0x30 || d.op == 0x31
    | .zeroized => d.op == 0x30 || d.op == 0x34 || d.op == 0x35 || (d.op == 0x32 && boot)
    | _ => true

/-- The detail of the ST_KEY_USAGE with which the other modes refuse administrative operations before every check but the
first: 0x0A for attach and detach (14 R330), 0x0B for the dual-control operations (16 R361). -/
def modeRefuses (m : Mode) (d : Desc) : Option Nat :=
  if d.family != Fam.key then none
  else match m with
    | .operational => if upTo 0x20 0x21 d.op then some 0xA else if upTo 0x30 0x35 d.op then some 0xB else none
    | .maintenance => if d.op = 0x31 ∨ d.op = 0x34 ∨ d.op = 0x35 then some 0xB else none
    | _ => none

/-- The LOCKED or ZEROIZED answer to an entry fetched in that mode: its detail (05 R117, R119). -/
def Mode.lockDetail : Mode → Option Nat
  | .locked => some 1
  | .zeroized => some 2
  | _ => none

/-- An entry's bytes are inside the block: it is validated and waits for its turn (`pushed`) or for credit; what makes it
malformed, refused or aborted completes it at once. `at_` is the tick of its fetch and `order` its place among the turns. -/
def Block.accept (b : Block) (k : Nat) (sub : Index) (raw : Bytes) (pushed : Bool) (at_ order : Nat) : Block :=
  let p := b.ownerD k
  let r := b.ring k
  let d := Desc.ofBytes raw
  let pos := match r.chain with | some c => c.fetched | none => 0
  let keep := match r.chain with | some c => c.lastKeep | none => false
  let failed := match r.chain with | some c => c.failed | none => none
  let chained := d.chain || r.chain.isSome
  let e : Entry := { ring := k, sub, part := p, raw, d, stage := if pushed then .pushed else .credit, member := pos, chained
                     fetchedAt := at_, order }
  let b := { b with entries := b.entries ++ [e] }
  match b.arrivalAbort k p with
  | some n => b.refuse e St.aborted n
  | none =>
    match (if k = 0 then none else b.mode.mode.lockDetail) with
    | some n => b.refuse e St.locked n
    | none =>
      match malformed raw k pos keep with
      | some (detail, off) => (b.refuse e St.malformed detail (malformedResult off)).haltFor k
      | none =>
        let b := b.modRing k fun r => { r with
          chain := if d.chain then some { first := sub - BitVec.ofNat 32 pos, fetched := pos + 1, lastKeep := d.dstKeep, failed } else none }
        match failed with
        | some (i, st) => b.refuse e St.chainAborted st (BitVec.ofNat 64 i.toNat)
        | none =>
          if !lockedAllows b.mode.mode b.gander.mayBootstrap d && b.mode.mode.lockDetail.isSome then
            b.refuse e St.locked (b.mode.mode.lockDetail.getD 0)
          else match modeRefuses b.mode.mode d with
            | some n => b.refuse e St.keyUsage n
            | none => if d.family = Fam.nop then b.modEntry k sub fun e => { e with stage := if pushed then .pushed else .queued }
              else b

/-- An entry whose burst was outstanding when LOCKED was entered: cut off (03 R60). -/
def Block.acceptLocked (b : Block) (k : Nat) (sub : Index) (raw : Bytes) (u : Burst) : Block :=
  let e : Entry := { ring := k, sub, part := b.ownerD k, raw, d := Desc.ofBytes raw, fetchedAt := u.at_, order := u.order }
  Block.refuse { b with entries := b.entries ++ [e] } e St.locked 3

/-- Pushed entries of ring k that F has reached are examined in their turn: with no burst outstanding, since its entries come
first (R87, R92; log entry 15). `fuel` bounds their number. -/
def Block.absorbAux (k : Nat) : Nat → Block → Block
  | 0, b => b
  | fuel + 1, b =>
    let r := b.ring k
    if r.burst.isSome then b else
    match b.entries.find? fun e => e.ring == k && e.stage == .ahead && e.sub == r.f with
    | none => b
    | some e =>
      let b := (b.dropEntry k e.sub).modRing k fun r => { r with f := e.sub + 1 }
      Block.absorbAux k fuel (b.accept k e.sub e.raw true e.fetchedAt e.order)

/-- Pushed entries of ring k are examined as far as F has come. -/
def Block.absorb (b : Block) (k : Nat) : Block := Block.absorbAux k (b.entries.length + 1) b

/-! ## Direct push (R78) -/

/-- A push slot commits: index P is taken by the doorbell rule, and the entry is fetched where the slot, the mode and the
reservation allow it; otherwise its bytes are dropped (R78). Where entries before it are not yet in the block it waits for them
before it is examined (log entry 15). -/
def Block.commitPush (b : Block) (k slot : Nat) (words : List (BitVec 64)) : Block :=
  let r := b.ring k
  let idx := r.p
  if 2 ^ r.subLog2 < dist (idx + 1) r.c then
    (b.modRing k fun r => { r with pushDropped := true }).overrun k (idx + 1)
  else
    let b := b.modRing k fun r => { r with p := idx + 1 }
    if slot = idx.toNat % 4 ∧ b.fetchAllowed (b.ownerD k) ∧ 1 ≤ b.room k then
      let raw := words.flatMap fun w => toLE 8 w.toNat
      let e : Entry := { ring := k, sub := idx, part := b.ownerD k, raw, d := Desc.ofBytes raw, stage := .ahead, fetchedAt := b.now }
      Block.absorb { b with entries := b.entries ++ [e] } k
    else b.modRing k fun r => { r with pushDropped := true }

/-- PUSH_WRITE on the executing block: one word of a push slot; the eighth commits it. -/
def Block.pushWord (b : Block) (k slot word : Nat) (value : BitVec 64) : Block :=
  let r := b.ring k
  match r.st with
  | .disabled => if slot = 0 then b.setupWord k word value else b
  | .running =>
    if r.poll then b.modRing k fun r => { r with pushDropped := true }
    else
      let s := nth {} r.push slot
      let s : PushSlot := { words := s.words.set word value, mask := s.mask ||| BitVec.ofNat 8 (2 ^ word) }
      if s.mask = 0xFF then (b.modRing k fun r => { r with push := r.push.set slot {} }).commitPush k slot s.words
      else b.modRing k fun r => { r with push := r.push.set slot s }
  | .stopping | .halted | .fault => b.modRing k fun r => { r with pushDropped := true }

/-- A 64-bit write to the push window; a block that does not execute a paired partition discards it (14 R321). -/
def Block.windowWrite (b : Block) (k slot word : Nat) (value : BitVec 64) : Block :=
  if (b.role (b.ownerD k)).executes then b.pushWord k slot word value
  else if slot = 0 then b.setupWord k word value else b

/-- PUSH_WRITE. -/
def execPushWrite (ring tag slot word : Nat) (value : BitVec 64) (s : State) : Host.Outcome State Fault Refusal :=
  s.run fun b => b.ringWrite ring tag (0x100 + 0x40 * slot + 8 * word) fun b => b.windowWrite ring slot word value

/-! ## Retraction (R81) and consumption (R85) -/

/-- A retraction to R: P falls to C + max(r, f) where R lies behind it; the read fields report what was withdrawn. -/
def Block.retractRing (b : Block) (k : Nat) (target : Index) : Block :=
  let b := (b.markStall k).modRing k RingRec.discardPush
  let end_ := b.fetchedTo k
  b.modRing k fun r =>
    let x := dist target r.c
    let f := dist end_ r.c
    let p := dist r.p r.c
    if (r.st = .running ∨ r.st = .fault) ∧ !r.poll ∧ x < p then
      let newP := r.c + BitVec.ofNat 32 (max x f)
      { r with p := newP, retracted := p - max x f, retractP := newP }
    else { r with retracted := 0, retractP := r.p }

/-- A write to AV_RING_RETRACT, by the route of 14 R321; the push slots are discarded at once (R79). -/
def Block.retractWrite (b : Block) (k : Nat) (v : Index) : Block :=
  let b := b.modRing k RingRec.discardPush
  match b.route (b.ownerD k) with
  | .apply => b.retractRing k v
  | .forward => b.forward (.retract k ((b.retractRing k v).ring k).p)
  | .ignore => b

/-- RETRACT. -/
def execRetract (ring tag : Nat) (value : BitVec 64) (s : State) : Host.Outcome State Fault Refusal :=
  s.run fun b => b.accessUnless (b.forwarding (StateItem.retracts ring)) fun b =>
    b.ringWrite ring tag 0x30 fun b => b.retractWrite ring (value.setWidth 32)

/-- A write of v to CMP_CONSUMER: D advances to v, or CMP_BAD sets; completions that wait for room follow. -/
def Block.consumeRing (b : Block) (k : Nat) (v : Index) : Block :=
  let r := b.ring k
  if b.role (b.ownerD k) = .standby ∨ dist v r.d ≤ dist r.q r.d then
    ((b.markStall k).modRing k fun r => { r with d := v }).flushHeld k
  else b.modRing k fun r => { r with cmpBad := true }

/-- CONSUME. -/
def execConsume (ring tag : Nat) (value : BitVec 64) (s : State) : Host.Outcome State Fault Refusal :=
  s.run fun b => b.ringWrite ring tag 0x10 fun b => b.consumeRing ring (value.setWidth 32)

/-! ## Moderation through the ring page (13 R299, R301) -/

/-- The vector of ring k, where the ring's owner owns it. -/
def Block.ringVector (b : Block) (k : Nat) : Option Nat :=
  let v := (b.ring k).vector
  if (b.owner k).isSome ∧ b.vecOwner v = b.owner k then some v else none

/-- A write to MOD_COUNT of ring k. -/
def Block.modCount (b : Block) (k n : Nat) : Block :=
  match b.ringVector k with
  | some v => (b.modVec v fun x => { x with countThresh := field n 15 0 }).examineVec v
  | none => b

/-- A write to MOD_TIME of ring k. -/
def Block.modTicks (b : Block) (k n : Nat) : Block :=
  match b.ringVector k with
  | some v => (b.modVec v fun x => { x with timeThresh := field n 31 0 }).examineVec v
  | none => b

/-- MOD_COUNT_WRITE. -/
def execModCountWrite (ring tag : Nat) (value : BitVec 64) (s : State) : Host.Outcome State Fault Refusal :=
  s.run fun b => b.ringWrite ring tag 0x40 fun b => b.modCount ring value.toNat

/-- MOD_TIME_WRITE. -/
def execModTimeWrite (ring tag : Nat) (value : BitVec 64) (s : State) : Host.Outcome State Fault Refusal :=
  s.run fun b => b.ringWrite ring tag 0x48 fun b => b.modTicks ring value.toNat

/-! ## Turns (R77, 13 R296, R297) -/

/-- Entries that the open chain of a ring may still have (R77). -/
def RingRec.chainLeft (r : RingRec) : Nat := match r.chain with | some c => 64 - c.fetched | none => 64

/-- Pushed entries of ring k that wait for a turn. -/
def Block.waitingPushes (b : Block) (k : Nat) : List Entry := b.entries.filter fun e => e.ring == k && e.stage == .pushed

/-- Whether ring k is eligible for a turn (13 R297). While its partition drains, it is so for what it has fetched by push: to
admit it, and to fetch the entries that must come before it (03 R59; log entry 15). -/
def Block.ringEligible (b : Block) (k : Nat) : Bool :=
  let r := b.ring k
  r.st == .running && r.burst.isNone && r.failedF.isNone &&
    (!b.draining (b.ownerD k) || !(b.waitingPushes k).isEmpty || !(b.aheadOf k).isEmpty) && ((!r.poll && r.f != r.p) || (r.poll && r.pollDue) || !(b.waitingPushes k).isEmpty)

/-- Whether partition p is eligible for turns (13 R296). -/
def Block.partEligible (b : Block) (p : Nat) : Bool :=
  b.turnsAllowed p && (b.creditWait p).isNone && (b.stagingWait p).isNone && (b.liveRings p).any b.ringEligible

/-- The turns of partition p in a round: 1 + ⌊W ÷ 2,048⌋, W the largest allocation share, at least MIN_SHARE (13 R296). -/
def Block.turnsOf (b : Block) (p : Nat) : Nat :=
  let shares := List.zipWith (fun a c => if c = 0 then 0 else a * 32768 / c) (b.part p).alloc b.sched.caps
  1 + (shares.foldl max (b.cfg p).minShare) / 2048

/-- One member of a round: its number, whether it has joined the round, whether it has forfeited it, turns left or full. -/
structure Rider where
  id : Nat
  turns : Nat
  deriving DecidableEq, Repr

/-- The next member after a pointer in ascending order, else the first (13 R296). -/
def nextRider (ptr : Nat) (l : List Rider) : Option Rider :=
  match l.find? fun x => decide (ptr < x.id) with
  | some x => some x
  | none => l.head?

/-- Addresses of `count` submission entries from an index, split at the ring's end (R77). -/
def Block.issueBurst (b : Block) (k : Nat) (first : Index) (count : Nat) (pur : Purpose) : Block :=
  let r := b.ring k
  let size := 2 ^ r.subLog2
  let slot := first.toNat % size
  let n1 := min count (size - slot)
  let p := b.ownerD k
  let port := b.pickPort
  let b := b.issueRead port p k (r.subBase.toNat + 64 * slot) (64 * n1) pur
  if n1 < count then b.issueRead port p k r.subBase.toNat (64 * (count - n1)) pur else b

/-- The fetch burst that ring k forms (R77): it ends before an entry that has been fetched by push. -/
def Block.burstCount (b : Block) (k : Nat) : Nat :=
  let r := b.ring k
  let gap := (b.aheadOf k).foldl (fun n e => min n (dist e.sub r.f)) (dist r.p r.f)
  min (min gap (b.ringCfg k).burst) (min (b.room k) r.chainLeft)

/-- The next place in the order of admission (01 R13, 13 R294). -/
def Block.nextTurn (b : Block) : Block := { b with sched := { b.sched with admitted := b.sched.admitted + 1 } }

/-- A fetch burst starts: its first read is issued, and F advances past it (R77). -/
def Block.startBurst (b : Block) (k : Nat) : Block :=
  let r := b.ring k
  let n := b.burstCount k
  if n = 0 then b else
  let order := b.sched.admitted
  let b := (b.issueBurst k r.f n (.fetch k)).nextTurn
  b.modRing k fun r => { r with
    burst := some { first := r.f, count := n, poll := false, at_ := b.now, order }, f := r.f + BitVec.ofNat 32 n }

/-- A poll burst: BURST entries from F, limited by the completion reservation (R80). -/
def Block.startPoll (b : Block) (k : Nat) : Block :=
  let r := b.ring k
  let n := min (b.ringCfg k).burst (min (b.room k) r.chainLeft)
  if n = 0 then b else
  let order := b.sched.admitted
  let b := (b.issueBurst k r.f n (.poll k)).nextTurn
  b.modRing k fun r => { r with burst := some { first := r.f, count := n, poll := true, at_ := b.now, order }, pollDue := false }

/-- What ring k does with its turn: pushed entries are admitted; a poll that is due reads; otherwise a fetch burst starts.
A stalled ring forfeits the turn (R83). -/
def Block.takeTurn (b : Block) (k : Nat) : Block :=
  let pushes := (b.waitingPushes k).take (b.ringCfg k).burst
  if !pushes.isEmpty then
    let order := b.sched.admitted
    pushes.foldl (fun b e => b.modEntry e.ring e.sub fun e => { e with
      order, stage := if e.d.family = Fam.nop then .queued else .credit }) b.nextTurn
  else if (b.ring k).poll then b.startPoll k
  else b.startBurst k

/-- The rings of partition p that may take its turn, with turns left. -/
def Block.ringRiders (b : Block) (p : Nat) (fresh : Bool) : List Rider :=
  ((b.liveRings p).filter b.ringEligible).filterMap fun k =>
    let r := b.ring k
    if fresh || !r.inRound then some ⟨k, (b.ringCfg k).weight⟩
    else if r.forfeited || r.turns = 0 then none
    else some ⟨k, r.turns⟩

/-- The partition's turn goes to one of its rings by the round rule with the rings' weights (13 R297). -/
def Block.turnOf (b : Block) (p : Nat) : Block :=
  let b := (b.liveRings p).foldl (fun b k =>
    if (b.ring k).inRound && !b.ringEligible k then b.modRing k fun r => { r with forfeited := true, turns := 0 } else b) b
  let go := fun (b : Block) (x : Rider) =>
    let b := b.modRing x.id fun r => { r with inRound := true, turns := x.turns - 1 }
    (b.modPart p fun q => { q with ringPtr := x.id }).takeTurn x.id
  match nextRider (b.part p).ringPtr (b.ringRiders p false) with
  | some x => go b x
  | none =>
    let b := (b.liveRings p).foldl (fun b k => b.modRing k fun r => { r with inRound := false, forfeited := false, turns := 0 }) b
    match (b.ringRiders p true).head? with
    | some x => go b x
    | none => b

/-- The partitions that may take a turn, with turns left. -/
def Block.partRiders (b : Block) (fresh : Bool) : List Rider :=
  (b.partitions.filter b.partEligible).filterMap fun p =>
    let q := b.part p
    if fresh || !q.inRound then some ⟨p, b.turnsOf p⟩
    else if q.forfeited || q.turns = 0 then none
    else some ⟨p, q.turns⟩

/-- TURN_GRANT (13 R296): the next eligible partition of the round takes one turn; with none left, a new round begins. -/
def Block.grantTurn (b : Block) : Block :=
  let b := b.partitions.foldl (fun b p =>
    if (b.part p).inRound && !b.partEligible p then b.modPart p fun q => { q with forfeited := true, turns := 0 } else b) b
  let go := fun (b : Block) (x : Rider) =>
    let b := b.modPart x.id fun q => { q with inRound := true, turns := x.turns - 1 }
    ({ b with sched := { b.sched with partPtr := x.id } }).turnOf x.id
  match nextRider b.sched.partPtr (b.partRiders false) with
  | some x => go b x
  | none =>
    let b := b.partitions.foldl (fun b p => b.modPart p fun q => { q with inRound := false, forfeited := false, turns := 0 }) b
    match (b.partRiders true).head? with
    | some x => go b x
    | none => b

/-- TURN_GRANT. -/
def execTurnGrant (s : State) : Host.Outcome State Fault Refusal := s.run Block.grantTurn

/-- POLL_DUE (R80): N ticks after a poll that did not accept its whole burst. -/
def Block.duePoll (b : Block) (k : Nat) : Block :=
  let r := b.ring k
  if r.st = .running ∧ r.poll ∧ !r.pollDue ∧ r.burst.isNone ∧ r.pollAt ≤ b.now then b.modRing k fun r => { r with pollDue := true }
  else b

/-- POLL_DUE. -/
def execPollDue (ring : Nat) (s : State) : Host.Outcome State Fault Refusal := s.run fun b => b.duePoll ring

/-! ## Fetched data (R77, R80, R91) -/

/-- An entry whose outcome the shadow holds is not executed again; a chain that it belongs to goes on (14 R325). -/
def Block.skipCommitted (b : Block) (k : Nat) (sub : Index) (raw : Bytes) : Block :=
  let d := Desc.ofBytes raw
  b.modRing k fun r =>
    let pos := match r.chain with | some c => c.fetched | none => 0
    { r with chain := if d.chain then some { first := sub - BitVec.ofNat 32 pos, fetched := pos + 1, lastKeep := d.dstKeep } else none }

/-- A read of a burst of ring k has failed and its repeat is not outstanding: its data cannot be complete. -/
def RingRec.burstWaits (r : RingRec) : Bool := match r.failedF with | some x => !x.out | none => false

/-- The faults of ring k are over: it returns to RUNNING, or a waiting STOP goes on (R91, R95). -/
def Block.resumeRing (b : Block) (k : Nat) : Block :=
  b.modRing k fun r =>
    if r.st = .fault ∧ r.failedF.isNone ∧ r.failedW.all (!·.twice) then
      { r with st := if r.stopAfter then .stopping else .running, stopAfter := false } else r

/-- A burst's data has come: its entries are validated in order. On a ring in FAULT the success of the repeat returns it
to RUNNING, or lets a waiting STOP go on (R91, R95). Entries that the shadow had committed are not executed again (14
R325). The reads of a burst that is no more are discarded (02 R42). -/
def Block.fetchReturn (b : Block) (k : Nat) (data : Bytes) : Block :=
  match (b.ring k).burst with
  | some u =>
    if u.poll || (b.ring k).burstWaits || data.length != 64 * u.count then b else
    let b := b.arrived (.fetch k)
    let b := (b.modRing k fun r => { r with burst := none, failedF := none }).resumeRing k
    let b := (List.range u.count).foldl (fun b i =>
      let sub := u.first + BitVec.ofNat 32 i
      if (b.ring k).tw.committed.any (fun c => c.2.2 == sub) then b.skipCommitted k sub (slice (64 * i) 64 data)
      else if u.locked then b.acceptLocked k sub (slice (64 * i) 64 data) u
      else b.accept k sub (slice (64 * i) 64 data) false u.at_ u.order) b
    let b := b.absorb k
    (b.modRing k fun r => { r with c := b.release k }).settleRing k
  | none => b.discard (· == .fetch k)

/-- FETCH_DATA_RETURN. -/
def execFetchDataReturn (ring : Nat) (data : Bytes) (s : State) : Host.Outcome State Fault Refusal :=
  s.run fun b => b.fetchReturn ring data

/-- Entries of a poll burst are accepted while their PHASE is that of their index; the first that has another ends acceptance
(R80). -/
def Block.pollAccept (k : Nat) (u : Burst) : Nat → Bytes → Block → Nat → Block × Nat
  | 0, _, b, n => (b, n)
  | fuel + 1, data, b, n =>
    let r := b.ring k
    let raw := data.take 64
    if raw.length = 64 ∧ flag (bit (word32 raw 0) 31) = phaseOf r.subLog2 r.f then
      let idx := r.f
      let b := b.modRing k fun r => { r with f := idx + 1, p := idx + 1 }
      Block.pollAccept k u fuel (data.drop 64) (b.accept k idx raw false u.at_ u.order) (n + 1)
    else (b, n)

/-- A poll burst's data has come (R80). -/
def Block.pollReturn (b : Block) (k : Nat) (data : Bytes) : Block :=
  match (b.ring k).burst with
  | some u =>
    if !u.poll || (b.ring k).burstWaits || data.length != 64 * u.count then b else
    let b := b.arrived (.poll k)
    let b := (b.modRing k fun r => { r with burst := none, failedF := none }).resumeRing k
    if (b.ring k).st != .running then b.settleRing k else
    if u.locked then b.modRing k fun r => { r with pollAt := u.at_ + r.pollN } else
    let (b, n) := Block.pollAccept k u u.count data b 0
    b.modRing k fun r => { r with pollDue := n == u.count && r.st == .running, pollAt := u.at_ + r.pollN }
  | none => b.discard (· == .poll k)

/-- POLL_BURST_RETURN. -/
def execPollBurstReturn (ring : Nat) (data : Bytes) (s : State) : Host.Outcome State Fault Refusal :=
  s.run fun b => b.pollReturn ring data

/-! ## Failed requests (R91) -/

/-- The outstanding requests for a purpose are repeats. -/
def Block.markAgain (b : Block) (pur : Purpose) : Block :=
  let os := b.mport.outst.map fun r => if r.purpose == pur then { r with again := true } else r
  { b with mport := { b.mport with outst := os } }

/-- One failed write of ring k that is due, and no repeat of it outstanding, is repeated; not while its partition may have no
output (14 R324). -/
def Block.repeatWrite (k : Nat) (b : Block) (i : Nat) : Block :=
  match (b.ring k).failedW[i]? with
  | some x =>
    if x.out || decide (b.now < x.due) || (b.part (b.ownerD k)).tw.stopped then b else
    let id := b.mport.nextId
    let b := b.issueOrdered x.port (b.ownerD k) k x.addr x.data x.purpose true
    b.modRing k fun r => { r with failedW := modNth (fun x => { x with out := true, req := id }) i r.failedW }
  | none => b

/-- The failed writes of ring k that are due are repeated, in the order of their issue; `twice` tells those whose repeat has
failed too. -/
def Block.repeatWrites (b : Block) (k : Nat) (twice : Bool) : Block :=
  (List.range (b.ring k).failedW.length).foldl (fun b i =>
    match (b.ring k).failedW[i]? with
    | some x => if x.twice = twice then Block.repeatWrite k b i else b
    | none => b) b

/-- The failed reads of a burst of ring k are issued again, as repeats. -/
def Block.repeatReads (b : Block) (k : Nat) (x : Failed) : Block :=
  x.reads.foldl (fun b q =>
    (b.put (.read q.1 (b.ownerD k) k false q.2.1 q.2.2)).await q.1 .read x.purpose (b.ownerD k) q.2.1 q.2.2 [] true) b

/-- FETCH_REPEAT: one tick after the failure. -/
def Block.fetchRepeat (b : Block) (k : Nat) : Block :=
  let b := b.repeatWrites k false
  match (b.ring k).failedF with
  | some x =>
    if !x.twice && !x.out && decide (x.due ≤ b.now) then
      (b.modRing k fun r => { r with failedF := some { x with out := true, reads := [] } }).repeatReads k x
    else b
  | none => b

/-- FETCH_REPEAT. -/
def execFetchRepeat (ring : Nat) (s : State) : Host.Outcome State Fault Refusal := s.run fun b => b.fetchRepeat ring

/-- A fetch of ring k that has failed twice is repeated as a new burst from F under R77, where the block may fetch for the
ring's partition; with nothing left to fetch the fault is over. -/
def Block.faultFetch (b : Block) (k : Nat) (x : Failed) : Block :=
  if !x.twice || x.out || decide (b.now < x.due) || (b.ring k).burst.isSome || !b.fetchAllowed (b.ownerD k) then b else
  let b := if (b.ring k).poll then b.startPoll k else b.startBurst k
  match (b.ring k).burst with
  | some _ => ((b.markAgain (.fetch k)).markAgain (.poll k)).modRing k fun r => { r with
      failedF := some { x with due := b.now + 1000, out := true, reads := [] } }
  | none => (b.modRing k fun r => { r with failedF := none }).resumeRing k

/-- FAULT_REPEAT: every 1,000 ticks in FAULT. A completion or shadow write of a ring that has left RUNNING in another way is
repeated as well (DESIGN CHOICE, log entry 100: the rule does not say which state such a ring has; it keeps its own). -/
def Block.faultRepeat (b : Block) (k : Nat) : Block :=
  let b := b.repeatWrites k true
  match (b.ring k).failedF with
  | some x => if (b.ring k).st = .fault then b.faultFetch k x else b
  | none => b

/-- FAULT_REPEAT. -/
def execFaultRepeat (ring : Nat) (s : State) : Host.Outcome State Fault Refusal := s.run fun b => b.faultRepeat ring

/-- The ring enters FAULT, where it was RUNNING or STOPPING; a STOP then waits (R91, R95). A ring that is HALTED or DISABLED
keeps its state (DESIGN CHOICE, log entry 100). -/
def Block.enterFault (b : Block) (k : Nat) (fetch : Bool) : Block :=
  let b := (b.markStall k).modRing k fun r => { r with
    fetchErr := r.fetchErr || fetch, cmpErr := r.cmpErr || !fetch
    stopAfter := r.stopAfter || r.st == .stopping
    st := if r.st = .halted ∨ r.st = .disabled then r.st else .fault }
  b.noteRec 0x0022 2 k (if fetch then 1 else 2)

/-- A completion or shadow write of ring k has failed: it is held, repeated after a tick, or, being the repeat, puts the ring
in FAULT (R91). -/
def Block.writeFailed (b : Block) (k : Nat) (q : Request) : Block :=
  if q.again then
    let b := b.modRing k fun r => { r with failedW := r.failedW.map fun x =>
      if x.out && x.req == q.id then { x with out := false, twice := true, due := b.now + 1000 } else x }
    b.enterFault k false
  else
    let x : Failed := { due := b.now + 1, orig := q.id, req := q.id, purpose := q.purpose, port := q.port, addr := q.addr, data := q.data }
    b.modRing k fun r => { r with failedW := insertBy (fun x => x.orig) x r.failedW }

/-- A read of a burst of ring k has failed: it is repeated after a tick, or, being the repeat, returns the burst's entries to
those submitted and puts the ring in FAULT; on a ring that stops they are withdrawn (R90, R91). -/
def Block.fetchFailed (b : Block) (k : Nat) (q : Request) : Block :=
  let read := (q.port, q.addr, q.len)
  if !q.again then
    b.modRing k fun r => { r with failedF := some (match r.failedF with
      | some y => { y with out := false, due := b.now + 1, reads := y.reads ++ [read] }
      | none => { due := b.now + 1, purpose := q.purpose, reads := [read] }) }
  else
    let b := b.disown (Purpose.ofFetch k)
    let b := b.modRing k fun r => { r with
      f := match r.burst with | some u => if u.poll then r.f else u.first | none => r.f
      burst := none, failedF := some { due := b.now + 1000, twice := true, purpose := q.purpose } }
    if (b.ring k).st = .running ∨ (b.ring k).st = .fault then b.enterFault k true
    else
      let b := (b.modRing k fun r => { r with failedF := none, fetchErr := true }).withdraw k
      ((b.modRing k fun r => { r with c := b.release k }).settleRing k).noteRec 0x0022 2 k 1

/-- A completion or shadow write of ring k has been accepted (R84, R91): what the shadow word may show now follows, a repeat that
succeeds ends its part of the fault, and completions that were held are written. -/
def Block.orderedAccepted (b : Block) (k : Nat) (q : Request) : Block :=
  let b := b.modRing k fun r => { r with failedW := r.failedW.filter fun x => !(x.out && x.req == q.id) }
  let b := match q.purpose with
    | .completion _ i => b.completionAccepted k i
    | _ => b
  (b.resumeRing k).flushHeld k

end Sys2Proof.Machine
end

