-- ==== Sys2Proof/Machine/Units.lean ====
section
/-! DEFINITION. Shared operations on units and their queues: the dispatch queues and what may leave them (04 R87, R89, 07
R152, R163), refusals for want of a unit (03 R68), entry to LOCKED (03 R60), requests to HEN, and quarantine, promotion and
retirement (03 R64 to R67, 07 R141 to R145). -/

namespace Sys2Proof.Machine

open Sys2Proof

/-! ## Entry to LOCKED (03 R59, R60) -/

/-- An unlock in progress (03 R60). -/
def Entry.isUnlock (e : Entry) : Bool := e.ring == 0 && e.d.family == 6 && e.d.op == 0x31

/-- A LOCKED block stops mirroring (14 R329). -/
def Block.stopMirroring (b : Block) (p : Nat) : Block :=
  match (b.part p).tw.role with
  | .shadow | .syncTarget => b.modTw p fun t => { t with role := .standby, watching := false, watch := none }
  | _ => b

/-- Entries of an outstanding burst are fetched (04 R77): on entry to LOCKED they are cut off like the rest (R60), as their data
returns. A poll burst's are not (04 R80). -/
def Block.lockBursts (b : Block) : Block :=
  (b.rings.map (·.1)).foldl (fun b k => if b.paired (b.ownerD k) then b else b.modRing k fun r => { r with
    burst := r.burst.map fun u => { u with locked := u.locked || !u.poll } }) b

/-- Entry to LOCKED from a mode that the table of R59 names; causes 1 LOCK, 2 ERASE, 3 reserve full. Paired partitions that
are home here are released to the twin (14 R329). -/
def Block.enterLocked (b : Block) (cause : Nat) : Block :=
  match b.mode.mode with
  | .operational | .maintenance | .zeroized =>
    let b := { b with mode := { b.mode with mode := .locked, transition := none, lockCause := cause } }
    let b := b.releaseAll b.pairedParts (if cause = 2 then 3 else 2)
    let b := b.pairedParts.foldl Block.stopMirroring b
    let b := b.lockBursts
    let b := b.cutAll (fun e => !(b.paired e.part) && !e.isUnlock) St.locked 3
    b.partitions.foldl Block.freeLock b
  | _ => b

/-- An occurrence in the recorder; the record that fills the reserve makes the mode LOCKED (17 R376). -/
def Block.note (b : Block) (kind sev subject detail : Nat) : Block :=
  let was := b.recorder.copy.reserveLock
  let b := b.noteRec kind sev subject detail
  if !was && b.recorder.copy.reserveLock then b.enterLocked 3 else b

/-! ## Personalities (07 R138, R140, R141) -/

/-- The index of a personality in the set. -/
def Block.persIndex (b : Block) (id : Nat) : Option Nat := b.img.inForce.pers.findIdx? fun x => x.id == id

/-- The personality configuration at an index. -/
def Block.persCfg? (b : Block) (p : Nat) : Option PersCfg := b.img.inForce.pers[p]?

/-- Working state of the personality at an index. -/
def Block.persState (b : Block) (p : Nat) : PersState := nth {} b.lanes.pers p

/-- That working state changed. -/
def Block.modPers (b : Block) (p : Nat) (f : PersState → PersState) : Block :=
  { b with lanes := { b.lanes with pers := modNth f p b.lanes.pers } }

/-- The personality a lane counts for: the one it carries, loads or is to be switched to. -/
def LaneRec.countsFor (x : LaneRec) : Option Nat :=
  match x.switchTo with
  | some q => if q = 64 then none else some q
  | none => match x.role with
    | .data q | .loading q => some q
    | _ => none

/-- Lanes in service that count for a personality. -/
def Block.persLanes (b : Block) (p : Nat) : List Nat := b.dataLanes.filter fun l => (b.lane l).countsFor == some p

/-- Lanes that carry a personality and are not selected for a switch. -/
def Block.carriers (b : Block) (p : Nat) : List Nat :=
  b.dataLanes.filter fun l => (b.lane l).role == .data p && (b.lane l).switchTo.isNone

/-- Another personality than p holds more lanes than its minimum in force. -/
def Block.hasDonor (b : Block) (p : Nat) : Bool :=
  (List.range b.lanes.pers.length).any fun q => q != p && decide ((b.persState q).minNow < (b.persLanes q).length)

/-- R141: the personality at index p is unservable; an index beyond the set is one that is absent. -/
def Block.unservable (b : Block) (p : Nat) : Bool :=
  match b.persCfg? p with
  | none => true
  | some c => c.maxLanes == 0 || ((b.persLanes p).isEmpty && !b.hasDonor p)

/-- The donor of a switch to personality p: largest excess of current count over the minimum in force, lower index first. -/
def Block.minDonor (b : Block) (p : Nat) : Option Nat :=
  argMax (fun q => ((b.persLanes q).length : Int) - (b.persState q).minNow)
    ((List.range b.lanes.pers.length).filter fun q => q != p && decide ((b.persState q).minNow < (b.persLanes q).length))

/-- The lane of donor personality q that is switched: the idle lane of lowest number, else the lane whose work was
dispatched first (07 R143). -/
def Block.donorLane (b : Block) (q : Nat) : Option Nat :=
  let ls := b.carriers q
  match ls.find? fun l => (b.lane l).job.isNone with
  | some l => some l
  | none => argMin (fun l => ((b.lane l).startedAt : Int)) ls

/-- A lane is selected for a switch (01 R25): it loads at once when idle, otherwise after its dispatched work. -/
def Block.switchLane (b : Block) (l dest : Nat) : Block :=
  b.modLane l fun x => if x.job.isNone then x.load dest b.now else { x with switchTo := some dest }

/-- R145: minimums in force. They start from the image's values and are reduced one lane at a time, from the largest, lower
index first, until they fit the lanes available. -/
def reduceMins : Nat → Nat → List Nat → List Nat
  | 0, _, l => l
  | fuel + 1, avail, l =>
    if l.sum ≤ avail then l
    else match argMax (fun i => (nth 0 l i : Int)) (List.range l.length) with
      | some i => reduceMins fuel avail (modNth (· - 1) i l)
      | none => l

/-- The minimums in force follow the lanes in service. -/
def Block.adjustMins (b : Block) : Block :=
  let mins := reduceMins 100 b.dataLanes.length (b.img.inForce.pers.map (·.minLanes))
  { b with lanes := { b.lanes with pers := List.zipWith (fun s m => { s with minNow := m }) b.lanes.pers mins } }

/-! ## Queues -/

/-- Where a job waits for its engine: a personality's queue, the OX, lattice, PAY or key queue, or none. -/
inductive Queue where
  | pers (p : Nat) | ox | lat | pay | key | none
  deriving DecidableEq, Repr

/-- The personality ID of a DRAKE call target (07 R138, 12 R280). -/
def targetPers (target : Nat) : Nat :=
  if target = 1 then 0x11 else if target = 2 then 0x21 else if target = 3 then 0x31 else if target = 4 then 0x32 else 0x41

/-- The context number as an index. -/
def ctxIx (c : Nat) : Fin 8 := Fin.ofNat 8 c

/-- The call of a context. -/
def Block.call? (b : Block) (u c : Nat) : Option CallRec := (b.cx u (ctxIx c)).call

/-- The queue of a job. -/
def Block.queueOf (b : Block) (j : Job) : Queue :=
  match j with
  | .entry k i =>
    match b.entry? k i with
    | some e =>
      if e.stage = .keyWrite then .key else
      match e.d.family with
      | 1 | 2 => .pers e.pers
      | 3 => .ox
      | 4 => .lat
      | 5 => .pay
      | 6 => .key
      | _ => .none
    | none => .none
  | .call u c =>
    match b.call? u c with
    | some r => if r.target ≤ 5 then .pers ((b.persIndex (targetPers r.target)).getD 255)
                else if r.target = 6 then .ox else if r.target = 7 then .key else .none
    | none => .none

/-- A queue changed. -/
def Block.modQueue (b : Block) (q : Queue) (f : List QItem → List QItem) : Block :=
  match q with
  | .pers p => b.modPers p fun s => { s with queue := f s.queue }
  | .ox => { b with ox := { b.ox with queue := f b.ox.queue } }
  | .lat => { b with lat := { b.lat with queue := f b.lat.queue } }
  | .pay => { b with pay := { b.pay with queue := f b.pay.queue } }
  | .key => { b with keys := { b.keys with queue := f b.keys.queue } }
  | .none => b

/-- The entries of a queue. -/
def Block.queueItems (b : Block) (q : Queue) : List QItem :=
  match q with
  | .pers p => (b.persState p).queue
  | .ox => b.ox.queue
  | .lat => b.lat.queue
  | .pay => b.pay.queue
  | .key => b.keys.queue
  | .none => []

/-- A call ends with a status other than ST_OK; its function ends with it when the call completes (11 R236). -/
def Block.failCall (b : Block) (u c status detail engine : Nat) : Block :=
  b.modCx u (ctxIx c) fun x => { x with call := x.call.map fun r => { r with failed := some (status, detail), served := true, engine } }

/-- A job ends with a status. -/
def Block.failJob (b : Block) (j : Job) (status detail engine : Nat) (result : BitVec 64 := 0) : Block :=
  match j with
  | .entry k i =>
    match b.entry? k i with
    | some e => b.finish e status detail engine 0 result
    | none => b
  | .call u c => b.failCall u c status detail engine

/-- No unit of the type that serves a queue is in service (03 R68). -/
def Block.noUnit (b : Block) (q : Queue) : Bool :=
  match q with
  | .ox => b.countUnits oxType .inService == 0
  | .lat => b.countUnits latType .inService == 0
  | .pay => b.countUnits drakeType .inService == 0
  | .key => b.keyPair.isEmpty
  | _ => false

/-- A job reaches its queue, at the end or, a retry, at the head; where no unit of the type is in service it is refused
with ST_FAULT_DETECTED 0x09 (03 R68), and where its personality is absent from the set with ST_KEY_USAGE 0x07 (07 R141). -/
def Block.enqueue (b : Block) (item : QItem) : Block :=
  let q := b.queueOf item.job
  let absent := match q with | .pers p => decide (b.lanes.pers.length ≤ p) | _ => false
  if absent then b.failJob item.job St.keyUsage 7 0xFF
  else if b.noUnit q then b.failJob item.job St.faultDetected 9 0xFF
  else b.modQueue q fun l => if item.retry then item :: l else l ++ [item]

/-- Every entry of a queue is refused because its last unit has left service (03 R68). -/
def Block.refuseQueue (b : Block) (q : Queue) : Block :=
  if b.noUnit q then (b.queueItems q).foldl (fun b i => (b.unqueue i.job).failJob i.job St.faultDetected 9 0xFF) b else b

/-- A staged entry enters its queue (01 R13): RNG, MOVE and NOP have none. -/
def Block.queueEntry (b : Block) (k : Nat) (i : Index) : Block :=
  let b := b.modEntry k i fun e => { e with stage := .queued }
  b.enqueue { job := .entry k i }

/-! ## What may be dispatched -/

/-- Whether an entry has executed (04 R87). -/
def Entry.executed (e : Entry) : Bool :=
  match e.stage with
  | .writing | .readback | .keyWrite | .scattered | .commit => true
  | _ => false

/-- An entry comes before another of its ring. -/
def Block.before (b : Block) (x e : Entry) : Bool :=
  x.ring == e.ring && decide (dist x.sub (b.ring e.ring).c < dist e.sub (b.ring e.ring).c)

/-- An entry has been cut off, or aborted with its chain: it holds no context any more (07 R163, R166). -/
def Entry.cutOff (e : Entry) : Bool :=
  match e.done with
  | some c => [St.aborted, St.chainAborted, St.locked].contains c.status
  | none => false

/-- The order rules of chains, fences and contexts let an entry be dispatched (04 R87, R89, 07 R163): its chain predecessor
has executed; no fence stands between it and an earlier entry; its context is not held, by an entry dispatched and neither
completed nor cut off, and no earlier entry of its ring that names it waits. -/
def Block.ordered (b : Block) (e : Entry) : Bool :=
  b.entries.all fun x =>
    let holds := !x.cutOff && (x.wasDispatched || b.before x e)
    !(x.chained && e.chained && x.ring == e.ring && x.chainFirst == e.chainFirst && x.member + 1 == e.member && !x.executed) &&
    !(b.before x e && (e.d.fence || x.d.fence)) &&
    !(e.d.ctxUse && x.d.ctxUse && x.d.ctx == e.d.ctx && (x.ring != e.ring || x.sub != e.sub) && holds)

/-- Entries of the ring that wait in memory or in an outstanding burst before an entry: none, since entries are fetched in
order. The entry is staged and may be dispatched. -/
def Block.mayDispatch (b : Block) (j : Job) : Bool :=
  match j with
  | .entry k i =>
    match b.entry? k i with
    | some e => e.stage == .queued && b.ordered e
    | none => false
  | .call u c => (b.call? u c).isSome

/-- The first item of a queue that a unit may take, `excl` naming the unit's number for the exclusion of R152. -/
def Block.firstFor (b : Block) (q : Queue) (u : Nat) : Option QItem :=
  (b.queueItems q).find? fun i => !(i.excluded.contains u) && b.mayDispatch i.job

/-! ## Requests to HEN (15 R341) -/

/-- A request waits at HEN. -/
def Block.ask (b : Block) (prio bytes : Nat) (who : Consumer) (pr : Bool := false) (inst : Option Nat := none) (more : Nat := 0) : Block :=
  { b with hen := { b.hen with waiting := b.hen.waiting ++ [{ prio, bytes, asked := b.now, who, pr, inst, more }] } }

/-- HEN serves requests. -/
def Block.henRuns (b : Block) : Bool := b.hen.phase == .running

/-- A lane that has no seed asks for one, at the first priority (07 R156). -/
def Block.seedLane (b : Block) (l : Nat) : Block :=
  let x := b.lane l
  if x.seeded || x.seedAsked then b else (b.ask 1 32 (.lane l)).modLane l fun x => { x with seedAsked := true }

/-! ## Dispatch bookkeeping -/

/-- A reference is taken on a slot chain (07 R153, 10 R216). -/
def Block.takeRef (b : Block) (k : KeyCopy) : Block := b.modSlot k.slot fun s => { s with refs := s.refs + 1 }

/-- A job is given to a unit: an entry becomes dispatched with the keys it copied and its context; a retry keeps the first
copy (07 R153). The time limit of R18 runs from the first dispatch. -/
def Block.startEntry (b : Block) (k : Nat) (i : Index) (unit : Nat) (keys : List KeyCopy) (ctx : Option CtxRec) : Block :=
  match b.entry? k i with
  | some e =>
    let b := if e.refsHeld then b else keys.foldl Block.takeRef b
    b.modEntry k i fun e => { e with
      stage := .dispatched, engine := unit, dispatchedAt := some (e.dispatchedAt.getD b.now), res := none
      keys := if e.refsHeld then e.keys else keys, refsHeld := true
      ctx := if e.dispatchedAt.isSome then e.ctx else ctx }
  | none => b

/-- A job that a unit drops goes back to the head of its queue as a retry that excludes units (07 R158, 08 R187, 09 R209,
11 R238). -/
def Block.retryJob (b : Block) (j : Job) (excluded : List Nat) (mism : Option Nat) : Block :=
  let b : Block := match j with
    | .entry k i => b.modEntry k i fun e =>
      if e.stage = .keyWrite then e else { e with stage := .queued, res := none, rnd := [], asked := false, excluded, tested := 0, primes := [] }
    | .call u c => b.modCx u (ctxIx c) fun x => { x with call := x.call.map fun r => { r with rnd := [], asked := false, served := false } }
  (match j with
    | .entry k i => b.unask (.entry k i)
    | .call u c => b.unask (.call u c)).enqueue { job := j, retry := true, excluded, mism }

/-! ## Quarantine and promotion (03 R64, R67) -/

/-- Operating minutes in 24 operating hours. -/
def dayMinutes : Nat := 24 * 60

/-- Spares of a type, lowest number first. -/
def Block.spares (b : Block) (t : UnitType) : List Nat := t.units.filter fun u => (b.unit u).st == .spare

/-- A context that starts: every register zero, BK its own bank (12 R263, R287). -/
def Ctx14.fresh : Ctx14 := { st := .ready }

/-- A DRAKE core starts its service context after firmware is loaded (12 R287). -/
def Core14.started : Core14 :=
  let k : Core14 := {}
  { k with ctxs := k.ctxs.set 0 Ctx14.fresh }

/-- A core takes the firmware and starts: its common bank holds the image's initial data. -/
def Block.startCore (b : Block) (u : Nat) : Block :=
  b.modCore u fun _ => { Core14.started with
    common := ((b.img.inForce.common.zipIdx.filter fun x => x.1 != 0).map fun x => (x.2, x.1)) }

/-- What a lane was in service for: its personality index, 64 for a key lane, 65 where nothing is loaded yet (03 R61). -/
def LaneRec.was (x : LaneRec) : Nat :=
  match x.role with
  | .data p | .loading p => p
  | .key | .keyLoading => 64
  | .none => 65

/-- A data lane is taken to fill a key-lane vacancy (R64); before any personality is loaded, the highest one (log entry 28). -/
def Block.fillKeyLane (b : Block) : Block :=
  if b.lanes.pers.isEmpty then
    match b.dataLanes.getLast? with
    | some l => b.modLane l fun x => { x with role := .keyLoading }
    | none => b
  else
    match argMax (fun q => ((b.persLanes q).length : Int) - (b.persState q).minNow)
        ((List.range b.lanes.pers.length).filter fun q => !(b.carriers q).isEmpty) with
    | some q => match b.donorLane q with
      | some l => b.switchLane l 64
      | none => b
    | none => b

/-- A lane enters service for a purpose: a personality index or 64 for the key pair, which it loads in 2 µs (01 R25), or nothing
where none is loaded before the end of boot. -/
def Block.placeLane (b : Block) (l dest : Nat) : Block :=
  if b.lanes.pers.isEmpty then
    b.modLane l fun x => { x with role := if dest = 64 then .keyLoading else .none, switchTo := none, job := none, jobRetry := [] }
  else (b.modLane l fun x => x.load dest b.now).seedLane l

/-- A spare enters service in place of unit u: a lane for a purpose, a core in u's logical position with the firmware. -/
def Block.promote (b : Block) (s u dest : Nat) : Block :=
  let pos := (b.unit u).pos
  let b := b.modUnit s fun r => { r with st := .inService, pos }
  let b := { b with health := { b.health with promotions := satAdd 16 b.health.promotions 1 } }
  if u < 112 then b.placeLane s dest
  else if u < 168 then b.modOx (s - 112) fun _ => { idleSince := b.now }
  else if u < 188 then b.modLat (s - 168) fun _ => { idleSince := b.now }
  else if u < 206 then (if b.mode.ready then b.startCore (s - 188) else b)
  else b

/-- The queue that a unit's type serves. -/
def queueOfUnit (u : Nat) : Queue :=
  if u < 112 then .key else if u < 168 then .ox else if u < 188 then .lat else if u < 206 then .pay else .none

/-- The job that unit u runs, as it would wait for a retry. -/
def Block.jobOf (b : Block) (u : Nat) : Option QItem :=
  let item := fun (j : Option Job) (x : List Nat) (m : Option Nat) => j.map fun j => ({ job := j, retry := true, excluded := x, mism := m } : QItem)
  if u < 112 then item (b.lane u).job (b.lane u).jobRetry (b.lane u).jobMism
  else if u < 168 then item (b.oxUnit (u - 112)).job (b.oxUnit (u - 112)).jobRetry (b.oxUnit (u - 112)).jobMism
  else if u < 188 then item (b.latUnit (u - 168)).job (b.latUnit (u - 168)).jobRetry (b.latUnit (u - 168)).jobMism
  else none

/-- Unit u enters the quarantine (R64, R65): counted, its time kept with those of the last 24 operating hours, and noted. -/
def Block.countQuarantine (b : Block) (u before : Nat) : Block :=
  let now := b.recorder.copy.opMinutes
  let b := b.modUnit u fun r => { r with
    st := .quarantined, quarantinedAt := b.now, before
    quarantines := now :: r.quarantines.filter fun m => decide (now < m + dayMinutes) }
  let b : Block := { b with health := { b.health with quarantines := satAdd 16 b.health.quarantines 1 } }
  b.note 0x0030 1 u 1

/-- A count of AV_AVAIL that has fallen to zero since it read `was` is noted, and the queue of the type is refused (R68). -/
def Block.lastUnit (b : Block) (was : List Nat) (u : Nat) : Block :=
  let gone := (List.zipWith (fun x y => decide (0 < x) && y == 0) was b.avail).zipIdx.filter fun x => x.1 && x.2 != 4
  if gone.isEmpty then b else (b.note 0x0030 2 u 3).refuseQueue (queueOfUnit u)

/-- Unit u is quarantined (R64): counted and noted, its work goes to a retry on another unit, a spare takes its place; a key
lane without a spare is replaced from the data lanes; without a spare the count falls, which the recorder notes (00 R4), and
the type's queue is refused when none is left (R68). A transfer of its core's channel stops as by DISABLE. -/
def Block.quarantine (b : Block) (u : Nat) : Block :=
  if !b.inService u then b else
  let avail := b.avail
  let was := (b.lane u).was
  let isKey := decide (u < 112) && (b.lane u).keyBound
  let b := match b.jobOf u with
    | some i => (b.freeUnit i.job).retryJob i.job (u :: i.excluded) i.mism
    | none => b
  let b := b.countQuarantine u was
  let b := if u < 112 then b.modLane u fun x => { x with role := .none, switchTo := none, job := none, jobRetry := [] }
    else if u < 168 then b.modOx (u - 112) fun _ => {}
    else if u < 188 then b.modLat (u - 168) fun _ => {}
    else if u < 206 then (b.stopChan (b.fwChan (u - 188))).modCore (u - 188) fun _ => {}
    else b
  let b := match (b.spares (typeOf u)).head? with
    | some s => b.promote s u (if isKey then 64 else was)
    | none => ((if isKey then b.fillKeyLane else b).note 0x0030 0 u 3).lastUnit avail u
  (b.adjustMins).examineHandovers

/-- The personality that a lane returning to service loads (R67): a key vacancy first; the one it carried, if present and
below its MAX_LANES; the largest deficit below target; the lowest index below MAX_LANES. -/
def Block.assignLane (b : Block) (u : Nat) : Option Nat :=
  let below := fun p => match b.persCfg? p with | some c => decide ((b.persLanes p).length < c.maxLanes) | none => false
  let was := (b.unit u).before
  let idx := List.range b.lanes.pers.length
  if b.keyPair.length < 2 then some 64
  else if was < 64 && below was then some was
  else
    match argMax (fun p => ((b.persState p).target : Int) - (b.persLanes p).length)
        (idx.filter fun p => decide ((b.persLanes p).length < (b.persState p).target)) with
    | some p => some p
    | none => idx.find? below

/-- The lowest logical position that no core in service holds (12 R275). -/
def Block.freePosition (b : Block) : Nat :=
  ((List.range 18).find? fun n => !(drakeType.units.any fun u => b.inService u && (b.unit u).pos == n)).getD 0

/-- A quarantined unit that passed its retest while its type had no spare returns to service (R67). -/
def Block.returnUnit (b : Block) (u : Nat) : Block :=
  let dest := (b.assignLane u).getD 65
  let pos := b.freePosition
  let b := b.modUnit u fun r => { r with st := .inService, pos }
  let b :=
    if u < 112 then (if dest < 65 || b.lanes.pers.isEmpty then b.placeLane u dest else b)
    else if u < 168 then b.modOx (u - 112) fun _ => { idleSince := b.now }
    else if u < 188 then b.modLat (u - 168) fun _ => { idleSince := b.now }
    else if u < 206 then (if b.mode.ready then b.startCore (u - 188) else b)
    else b
  b.adjustMins

/-- Unit u is retired for the life of the part (R65). -/
def Block.retire (b : Block) (u : Nat) : Block :=
  let b := b.modUnit u fun r => { r with st := .retired }
  let b := { b with health := { b.health with retirements := satAdd 16 b.health.retirements 1 } }
  (b.modRec fun c => { c with retirements := satAdd 32 c.retirements 1 }).note 0x0030 2 u 2

end Sys2Proof.Machine
end

