-- ==== Sys2Proof/Machine/Flow.lean ====
section
/-! DEFINITION. The path of a descriptor from validation to completion: class credit (13 R291 to R295, R298), staging (06
R122 to R126), lists and gather (05 R101), scatter and read-back (02 R40), and the work that needs no engine (05 R103,
R112). -/

namespace Sys2Proof.Machine

open Sys2Proof

/-! ## Check 2 (05 R116) -/

/-- The algorithm code that K1 supplies at check 2; 0 where it supplies none (07 R140). -/
def Block.codeOf (b : Block) (p : Nat) (k : KeyRef) : Nat :=
  let s := b.slot k.slot
  if b.slotIn p k.slot && s.st == .live then s.code else 0

/-- The kept output that an entry with SRC_PREV takes. -/
def Block.keptFor (b : Block) (e : Entry) : Option Bytes :=
  ((b.ring e.ring).kept.find? fun x => x.1 + 1 == e.sub).map fun x => x.2.1

/-- The input length of an entry, where it is known. -/
def Block.inputLen (b : Block) (e : Entry) : Option Nat :=
  if e.d.srcPrev then (b.keptFor e).map (·.length) else some e.d.srcLen

/-- The personality index of an entry, 255 where the set lacks it. -/
def Block.persOf (b : Block) (e : Entry) (alg : Nat) : Nat :=
  if e.d.family = Fam.sym ∨ e.d.family = Fam.hash then (b.persIndex (e.d.personality alg).1).getD 255 else 255

/-- The quota test of check 2 (06 R122). -/
def Block.overQuota (b : Block) (e : Entry) : Bool := decide (16 * b.quotaKib e.part < e.d.stagingLines)

/-- Check 2 of an entry: the detail of ST_LENGTH and the RESULT. -/
def Block.check2 (b : Block) (e : Entry) (alg : Nat) : LenFault :=
  match e.d.lengthFault alg (b.inputLen e) b.gander.mayBootstrap with
  | some f => some f
  | none => if b.overQuota e then some (3, 0) else none

/-! ## Class credit (13 R291 to R295) -/

/-- Units counted for a class (R291). -/
def Block.classUnits (b : Block) (c : Nat) : Nat :=
  match c with
  | 0 => b.dataLanes.length
  | 1 => b.countUnits oxType .inService
  | 2 => b.countUnits latType .inService
  | 3 => 7 * b.countUnits drakeType .inService
  | 5 => 2
  | _ => 1

/-- Capacity of a unit for one frame: 50,000 ns × f ÷ 1.6 GHz. -/
def Block.unitCap (b : Block) (u : Nat) : Nat := 50000 * Cost.ns * b.freqOf u / 16

/-- Capacity of a class for one frame (R292); the key lane pair is one unit, at the frequency of its first lane. -/
def Block.capacity (b : Block) (c : Nat) : Nat :=
  let sum := fun (t : UnitType) => sumBy b.unitCap (t.units.filter b.inService)
  match c with
  | 0 => sumBy b.unitCap b.dataLanes
  | 1 => sum oxType
  | 2 => sum latType
  | 3 => 7 * sum drakeType
  | 4 => match b.keyLanes.head? with | some l => b.unitCap l | none => 0
  | 5 => 100000 * Cost.ns
  | _ => 50000 * Cost.ns

/-- Estimated cost of the entries of a class that have been charged or borrowed and not yet dispatched (R295). -/
def Block.queuedCost (b : Block) (c : Nat) : Nat :=
  sumBy (fun e => if (e.charged || e.borrowed) && e.cls == c && !e.wasDispatched then e.cost else 0) b.entries

/-- The class is lendable, and the partition's charges in the frame are below its MAX_SHARE (R295). -/
def Block.mayBorrow (b : Block) (p c : Nat) : Bool :=
  decide (b.queuedCost c < b.classUnits c * 1000 * Cost.ns) &&
  decide (nth 0 (b.part p).spent c < nth 0 b.sched.caps c / Cost.ns * (b.cfg p).maxShare / 32768 * Cost.ns)

/-- An entry waits for staging lines after its charge. -/
def Block.admitEntry (b : Block) (e : Entry) (cost alg pers : Nat) (borrowed : Bool) : Block :=
  let c := e.d.engineClass
  let b := b.modPart e.part fun q => { q with
    balance := if borrowed then q.balance else modNth (· - (cost : Int)) c q.balance
    spent := modNth (· + cost) c q.spent }
  b.modEntry e.ring e.sub fun e => { e with
    stage := .staging, cost, cls := c, charged := !borrowed, borrowed, waitSince := b.now, alg, pers }

/-- The slot that K1 names, where the partition owns it; a foreign slot gives an empty record, so that no cost shows its
contents (00 R5, 10 R219). -/
def Block.ownSlot (b : Block) (p : Nat) (k : KeyRef) : SlotRec := if b.slotIn p k.slot then b.slot k.slot else {}

/-- A call of DRAKE firmware is charged at its actual time to the balance, and the frame total, of its partition (R291). -/
def Block.chargeCall (b : Block) (u c cls used : Nat) : Block :=
  b.modPart (b.cx u (ctxIx c)).part fun q => { q with
    balance := modNth (· - (used : Int)) cls q.balance, spent := modNth (· + used) cls q.spent }

/-- CREDIT_ADMIT (R294): the entry of a partition that waits is put to check 2 and charged or borrowed; while an entry of
the partition waits for staging, none is charged. -/
def Block.creditAdmit (b : Block) (p : Nat) : Block :=
  match b.stagingWait p, b.creditNext p with
  | none, some e =>
    let alg := b.codeOf p e.d.k1
    match b.check2 e alg with
    | some (detail, need) => b.refuse e St.length detail (BitVec.ofNat 64 need)
    | none =>
      let pers := b.persOf e alg
      let order2 := match b.persCfg? pers with | some c => c.maskOrder == 2 | none => false
      let cost := e.d.cost alg order2 (b.ownSlot p e.d.k1)
      let c := e.d.engineClass
      if 0 < nth 0 (b.part p).balance c then b.admitEntry e cost alg pers false
      else if b.mayBorrow p c then b.admitEntry e cost alg pers true
      else b
  | _, _ => b

/-- CREDIT_ADMIT. -/
def execCreditAdmit (part : Nat) (s : State) : Host.Outcome State Fault Refusal := s.run fun b => b.creditAdmit part

/-! ## Staging (06 R122 to R124, R128) -/

/-- The partitions whose waiting entry needs pool lines, the longest waiting first. -/
def Block.poolFirst (b : Block) : Option Nat :=
  argMin (fun p => match b.stagingWait p with | some e => (e.waitSince : Int) | none => 0)
    (b.partitions.filter fun p => match b.stagingWait p with
      | some e => decide (0 < b.poolNeed p e.d.stagingLines)
      | none => false)

/-- Whether a partition's waiting entry can be reserved now. -/
def Block.mayReserve (b : Block) (p n : Nat) : Bool :=
  let need := b.poolNeed p n
  decide (b.reserved p + n ≤ 16 * b.quotaKib p) &&
  (need == 0 || (decide (b.poolUsed + need ≤ b.poolLines) && b.poolFirst == some p))

/-- A range passes 2^64 − 1 (05 R101): no request has failed and no list entry names it, and RESULT is the address where the
range starts (DESIGN CHOICE, log entry 103). -/
def Block.badRange (b : Block) (e : Entry) (addr : Nat) : Block := b.refuse e St.sgFault 9 (BitVec.ofNat 64 addr)

/-- Every input byte has arrived: a counter that would wrap is refused (07 R151), and the entry is queued; MULE's and HEN's
work waits for its own row. -/
def Block.staged (b : Block) (e : Entry) : Block :=
  if e.d.family = Fam.rng ∨ e.d.family = Fam.move then b.modEntry e.ring e.sub fun e => { e with stage := .queued }
  else
    let bits := field e.d.param 7 0
    let bl := e.d.blockSize e.alg
    let wraps := e.d.family == Fam.sym && e.d.var == 5 && decide (e.d.stage ≤ 1) &&
      decide (2 ^ bits < ofBE e.aux % 2 ^ bits + ceilDiv e.d.srcLen bl)
    if wraps then b.refuse e St.length 5 else b.queueEntry e.ring e.sub

/-- Gather reads of an entry are issued, over the port with less to write (06 R128); with nothing to read it is staged. -/
def Block.startGather (b : Block) (e : Entry) : Block :=
  match e.d.rangeFault with
  | some a => b.badRange e a
  | none =>
    let src := if e.d.srcPrev then [] else if e.d.srcSg then e.srcList else if e.d.srcLen = 0 then [] else [(e.d.srcAddr, e.d.srcLen)]
    let b := src.foldl (fun b x => b.issueRead b.pickPort e.part e.ring x.1 x.2 (.gather e.ring e.sub)) b
    let b := if e.d.auxLen = 0 then b else b.issueRead b.pickPort e.part e.ring e.d.auxAddr e.d.auxLen (.aux e.ring e.sub)
    let b := b.modEntry e.ring e.sub fun e => { e with stage := .gather }
    if src.isEmpty && e.d.auxLen == 0 then b.staged e else b

/-- STAGING_GRANT (R124): the waiting entry's requirement is reserved from the floor and the pool, and its lists or its
input are read. -/
def Block.stagingGrant (b : Block) (p : Nat) : Block :=
  match b.stagingWait p with
  | none => b
  | some e =>
    if !b.mayReserve p e.d.stagingLines then b else
    let b := b.modEntry e.ring e.sub fun e => { e with lines := e.d.stagingLines }
    if e.d.srcSg || e.d.dstSg then
      let b := if e.d.srcSg then b.issueRead b.pickPort p e.ring e.d.srcAddr 4096 (.srcList e.ring e.sub) else b
      let b := if e.d.dstSg then b.issueRead b.pickPort p e.ring e.d.dstAddr 4096 (.dstList e.ring e.sub) else b
      b.modEntry e.ring e.sub fun e => { e with stage := .lists }
    else b.startGather e

/-- STAGING_GRANT. -/
def execStagingGrant (part : Nat) (s : State) : Host.Outcome State Fault Refusal := s.run fun b => b.stagingGrant part

/-- The two lists of a descriptor, or the first failing test: the fault, the list's address and the offset of its field. -/
def Desc.readLists (d : Desc) (srcL dstL : Bytes) : Except (ListFault × Nat × Nat) (List (Nat × Nat) × List (Nat × Nat)) := do
  let one := fun (sg : Bool) (bs : Bytes) (addr off : Nat) => if sg then (readList bs).mapError (fun f => (f, addr, off)) else .ok []
  let s ← one d.srcSg srcL d.srcAddr 0x10
  let t ← one d.dstSg dstL d.dstAddr 0x18
  let total := fun (sg : Bool) (l : List (Nat × Nat)) (len addr off : Nat) =>
    if sg && sumBy (·.2) l != len then .error ((⟨St.sgFault, 7, l.length - 1⟩ : ListFault), addr, off) else .ok ()
  total d.srcSg s d.srcLen d.srcAddr 0x10
  total d.dstSg t d.dstLen d.dstAddr 0x18
  return (s, t)

/-- SG_LIST_READ_RETURN (05 R101): the lists are checked, the lines beyond their END entries released, and gathering
begins. -/
def Block.listsReturn (b : Block) (k : Nat) (sub : Index) (srcL dstL : Bytes) : Block :=
  let late := fun (b : Block) => b.discard fun w => w == .srcList k sub || w == .dstList k sub
  match b.entry? k sub with
  | none => late b
  | some e =>
    if e.stage != .lists then late b else
    let b := (b.arrived (.srcList k sub)).arrived (.dstList k sub)
    match e.d.readLists srcL dstL with
    | .error (f, addr, off) =>
      let b := b.refuse e f.status f.detail (listResult f addr off)
      if f.status = St.malformed then b.haltFor k else b
    | .ok (s, t) =>
      let spare := fun (sg : Bool) (l : List (Nat × Nat)) => if sg then 64 - ceilDiv (16 * l.length) 64 else 0
      let e' := { e with srcList := s, dstList := t, lines := e.lines - spare e.d.srcSg s - spare e.d.dstSg t }
      (b.modEntry k sub fun _ => e').startGather e'

/-- SG_LIST_READ_RETURN. -/
def execSgListReadReturn (ring : Nat) (sub : Index) (srcList dstList : Bytes) (s : State) : Host.Outcome State Fault Refusal :=
  s.run fun b => b.listsReturn ring sub srcList dstList

/-- GATHER_READ_RETURN: the input is in staging; what returns for an entry that has been cut off is discarded (02 R42). -/
def Block.gatherReturn (b : Block) (k : Nat) (sub : Index) (src aux : Bytes) : Block :=
  let late := fun (b : Block) => b.discard fun w => w == .gather k sub || w == .aux k sub
  match b.entry? k sub with
  | none => late b
  | some e =>
    let n := if e.d.srcPrev then 0 else e.d.srcLen
    if e.stage != .gather then late b
    else if src.length != n || aux.length != e.d.auxLen then b else
    let b := (b.arrived (.gather k sub)).arrived (.aux k sub)
    let e' := { e with src, aux }
    (b.modEntry k sub fun _ => e').staged e'

/-- GATHER_READ_RETURN. -/
def execGatherReadReturn (ring : Nat) (sub : Index) (src aux : Bytes) (s : State) : Host.Outcome State Fault Refusal :=
  s.run fun b => b.gatherReturn ring sub src aux

/-! ## Executed and scattered (01 R13, R14, 02 R40, 07 R163) -/

/-- The input of an entry: gathered, or the kept output of its predecessor. -/
def Block.input (b : Block) (e : Entry) : Bytes := if e.d.srcPrev then (b.keptFor e).getD [] else e.src

/-- The context of an executed entry is written back (07 R163). -/
def Block.writeBack (b : Block) (e : Entry) : Block :=
  match (e.res.getD {}).ctx with
  | some c => b.modCtx e.d.ctx fun _ => { c }
  | none => b

/-- An entry whose output has been scattered, or that has none: its context is written back, a generated key goes to the key
lane pair (07 R154, 10 R190), and what has none completes ST_OK. -/
def Block.scattered (b : Block) (e : Entry) : Block :=
  let r := e.res.getD {}
  let b := b.writeBack e
  if r.key.isSome && !r.written then
    (b.modEntry e.ring e.sub fun e => { e with stage := .keyWrite }).enqueue { job := .entry e.ring e.sub }
  else b.finish e r.status r.detail e.engine r.out.length r.result

/-- The port over which an entry's output, read-back, completion, shadow word and message go, once it has executed (02 R39). -/
def Entry.outPort (e : Entry) : Nat := e.port.getD 0

/-- The ranges of the destination. -/
def Entry.destination (e : Entry) : List (Nat × Nat) := if e.d.dstSg then e.dstList else [(e.d.dstAddr, e.d.dstLen)]

/-- The output of an entry is written to host memory (06 R128); while its partition may have no output it waits (14 R324). -/
def Block.scatter (b : Block) (e : Entry) (out : Bytes) : Block :=
  let b := b.modEntry e.ring e.sub fun e => { e with stage := .writing }
  if (b.part e.part).tw.stopped then b else
  (layOut e.destination out).foldl (fun b x => b.issueWrite e.outPort e.part e.ring x.1 x.2 (.output e.ring e.sub)) b

/-- The output of a chain member with DST_KEEP stays in staging, and the lines reserved for it pass to it. It keeps them until
the member that consumes it has executed (04 R87); where none does, until the chain's failure, a stop, a halt or a reset
discards it (DESIGN CHOICE, log entry 104: the rule names no other end). -/
def Block.keep (b : Block) (e : Entry) (out : Bytes) : Block :=
  let n := ceilDiv e.d.dstLen 64
  (b.modEntry e.ring e.sub fun e => { e with lines := e.lines - n }).modRing e.ring fun r => { r with kept := r.kept ++ [(e.sub, out, n)] }

/-- An entry leaves its engine: its references go, the unit time that it used is fixed, and the kept input it consumed is given
up. -/
def Block.leaveEngine (b : Block) (e : Entry) (used : Nat) : Block :=
  let b := (b.releaseRefs e).modEntry e.ring e.sub fun e => { e with used := some used }
  if e.d.srcPrev then b.modRing e.ring fun x => { x with kept := x.kept.filter fun y => y.1 + 1 != e.sub } else b

/-- An engine has released its result (the Executed stage): the port of all that follows is chosen (02 R39); a status other than
ST_OK completes the entry without output, otherwise the output is kept, scattered or absent. -/
def Block.executed (b : Block) (e : Entry) (used : Nat) : Block :=
  match e.res with
  | none => b
  | some r =>
    let port := b.pickPort
    let b := (b.leaveEngine e used).modEntry e.ring e.sub fun e => { e with port := some port }
    let e := { e with port := some port }
    if r.status != St.ok then b.finish e r.status r.detail e.engine 0 r.result
    else if e.d.dstKeep then (b.keep e r.out).scattered e
    else if r.out.isEmpty then b.scattered e
    else b.scatter e r.out

/-- A write of an entry's output has been accepted (02 R40): with none outstanding, the line of the last byte written is read
back. -/
def Block.outputAccepted (b : Block) (k : Nat) (sub : Index) : Block :=
  match b.entry? k sub with
  | none => b
  | some e =>
    if e.stage != .writing || b.awaits (.output k sub) then b else
    let b := b.modEntry k sub fun e => { e with stage := .readback }
    match (layOut e.destination (e.res.getD {}).out).getLast? with
    | some x => b.issueRead e.outPort e.part k ((x.1 + x.2.length - 1) / 64 * 64) 64 (.readback k sub)
    | none => b

/-- READBACK_RETURN (02 R40): the descriptor is scattered. -/
def Block.readbackReturn (b : Block) (k : Nat) (sub : Index) : Block :=
  match b.entry? k sub with
  | none => b.discard (· == .readback k sub)
  | some e =>
    if e.stage != .readback then b.discard (· == .readback k sub) else (b.arrived (.readback k sub)).scattered e

/-- READBACK_RETURN. -/
def execReadbackReturn (ring : Nat) (sub : Index) (s : State) : Host.Outcome State Fault Refusal :=
  s.run fun b => b.readbackReturn ring sub

/-- An OX or lattice job whose result stands, which its unit has yet to report. -/
def Entry.resultStands (e : Entry) : Bool := (e.d.family == Fam.pk || e.d.family == Fam.lat) && e.stage == .dispatched && e.res.isSome

/-- DESCRIPTOR_TIME_LIMIT (01 R18): 20,000,000 ticks after dispatch a descriptor still running completes ST_TIMEOUT; a result that
is reported in the tick of the limit stands (08 R193, 09 R212). -/
def Block.timeLimit (b : Block) (k : Nat) (sub : Index) : Block :=
  match b.entry? k sub with
  | none => b
  | some e =>
    match e.dispatchedAt with
    | some t =>
      if t + 20000000 ≤ b.now ∧ (e.stage = .dispatched ∨ e.stage = .queued) ∧ !(e.resultStands && t + 20000000 == b.now) then
        let b := match e.d.family with
          | 3 => { b with ox := { b.ox with timeouts := satAdd 16 b.ox.timeouts 1 } }
          | 4 => { b with lat := { b.lat with timeouts := satAdd 16 b.lat.timeouts 1 } }
          | _ => b
        b.finish e St.timeout 1 e.engine 0 0
      else b
    | none => b

/-- DESCRIPTOR_TIME_LIMIT. -/
def execDescriptorTimeLimit (ring : Nat) (sub : Index) (s : State) : Host.Outcome State Fault Refusal :=
  s.run fun b => b.timeLimit ring sub

/-! ## Work without an engine (05 R103, R112) -/

/-- An entry is dispatched to the ring engine or MULE, with its result. -/
def Block.runHere (b : Block) (e : Entry) (engine used : Nat) (r : Result) : Block :=
  let e' := { e with stage := .dispatched, engine, dispatchedAt := some b.now, res := some r }
  (b.modEntry e.ring e.sub fun _ => e').executed e' used

/-- NOP: ST_OK with RESULT equal to PARAM, in the order that fences and chains give. -/
def Block.nop (b : Block) (k : Nat) (sub : Index) : Block :=
  match b.entry? k sub with
  | none => b
  | some e =>
    if e.d.family = Fam.nop ∧ e.stage = .queued ∧ b.ordered e then b.runHere e 0xF1 0 { result := BitVec.ofNat 64 e.d.param } else b

/-- NOP. -/
def execNop (ring : Nat) (sub : Index) (s : State) : Host.Outcome State Fault Refusal := s.run fun b => b.nop ring sub

/-- The swap of MOVE over whole units (05 R112). -/
def swapUnits (v : Nat) (bs : Bytes) : Bytes :=
  match v with
  | 1 => (chunks 2 bs).flatMap List.reverse
  | 2 => (chunks 4 bs).flatMap List.reverse
  | 3 => (chunks 4 bs).flatMap fun u => u.drop 2 ++ u.take 2
  | 4 => (chunks 8 bs).flatMap List.reverse
  | _ => bs

/-- A MOVE entry runs on MULE: a chain member's length rules are judged here when its input was not known before. -/
def Block.move (b : Block) (k : Nat) (sub : Index) (op : Nat) : Block :=
  match b.entry? k sub with
  | none => b
  | some e =>
    if e.d.family = Fam.move ∧ e.d.op = op ∧ e.stage = .queued ∧ b.ordered e then
      let src := b.input e
      match e.d.moveLengths (some (if op = 1 then src.length else 0)) with
      | some (detail, need) => b.refuse e St.length detail (BitVec.ofNat 64 need)
      | none =>
        let data := if op = 1 then src else (List.replicate (ceilDiv e.d.dstLen 8) (toLE 8 e.d.param)).flatten.take e.d.dstLen
        b.runHere e 0xF0 (max e.d.srcLen e.d.dstLen * 125) { out := swapUnits e.d.var data }
    else b

/-- COPY. -/
def execCopy (ring : Nat) (sub : Index) (s : State) : Host.Outcome State Fault Refusal := s.run fun b => b.move ring sub 1

/-- FILL. -/
def execFill (ring : Nat) (sub : Index) (s : State) : Host.Outcome State Fault Refusal := s.run fun b => b.move ring sub 2

/-! ## Service frames (13 R293, R298) -/

/-- The parts whose share of the room exceeds their cap take the cap; entries are (weight, cap, whether it is taken). -/
def capOnce (room : Nat) (l : List (Nat × Nat × Bool)) : List (Nat × Nat × Bool) :=
  let left := room - sumBy (fun x => if x.2.2 then x.2.1 else 0) l
  let weights := sumBy (fun x => if x.2.2 then 0 else x.1) l
  l.map fun x => (x.1, x.2.1, x.2.2 || decide (x.2.1 * weights < left * x.1))

/-- R293 steps 2 to 4: the room is shared in proportion to the weights; what the caps remove is spread over the uncapped until
nothing more can be placed; fractions are discarded, and not placed again. -/
def spread (room : Nat) : Nat → List (Nat × Nat × Bool) → List Nat
  | fuel + 1, l =>
    let l' := capOnce room l
    if l' = l then spread room 0 l else spread room fuel l'
  | 0, l =>
    let left := room - sumBy (fun x => if x.2.2 then x.2.1 else 0) l
    let weights := sumBy (fun x => if x.2.2 then 0 else x.1) l
    l.map fun x => if x.2.2 then x.2.1 else left * x.1 / weights

/-- The allocations of one class, in the order of the partitions, in whole nanoseconds (R293): guarantees first, the remainder
among the backlogged partitions by max(MIN_SHARE, 1), none above its MAX_SHARE. -/
def Block.allocate (b : Block) (c capacity : Nat) : List (Nat × Nat) :=
  let ps := b.partitions
  let cap := capacity / Cost.ns
  let guar := fun p => min (cap * (b.cfg p).minShare / 32768) (cap * (b.cfg p).maxShare / 32768)
  let rest := cap - sumBy guar ps
  let back := ps.filter fun p => nth false (b.part p).backlogged c
  let got := spread rest (back.length + 1) (back.map fun p => (max (b.cfg p).minShare 1, cap * (b.cfg p).maxShare / 32768 - guar p, false))
  let extra := List.zip back got
  ps.map fun p => (p, (guar p + ((extra.find? fun x => x.1 == p).map (·.2)).getD 0) * Cost.ns)

/-- The class whose credit a partition's entry waits for (R294): it has neither balance nor a loan. -/
def Block.waitsFor (b : Block) (p : Nat) : Option Nat :=
  match b.stagingWait p, b.creditNext p with
  | none, some e =>
    let c := e.d.engineClass
    if nth 0 (b.part p).balance c ≤ 0 ∧ !b.mayBorrow p c then some c else none
  | _, _ => none

/-- The end of a frame (R298, 17 R371): who waits for credit, what is saturated, and the queue depths. -/
def Block.endFrame (b : Block) : Block :=
  let waits := b.partitions.map fun p => (p, b.waitsFor p)
  let sat := (List.range 7).map fun c => waits.any fun x => x.2 == some c
  let bits := BitVec.ofNat 7 ((sat.zipIdx.map fun x => if x.1 then 2 ^ x.2 else 0).sum)
  let b := { b with sched := { b.sched with
    satFrame := bits
    satFrames := if bits != 0 then satAdd 32 b.sched.satFrames 1 else b.sched.satFrames
    satCount := List.zipWith (fun n s => if s then n + 1 else n) b.sched.satCount sat
    periodFrames := b.sched.periodFrames + 1 } }
  waits.foldl (fun b x =>
    let depth := (b.entries.filter fun e => e.part == x.1).length
    let lateUs := if x.2.isSome then 50 else 0
    let b := b.modPart x.1 fun q => { q with
      saturated := x.2.isSome
      backlogged := (List.range 7).map fun c => x.2 == some c
      stats := { q.stats with
        depth := modNth (fun n => satAdd 32 n 1) (depthBin depth) q.stats.depth
        maxDepth := min (max q.stats.maxDepth depth) (2 ^ 32 - 1)
        overloadUs := satAdd 64 q.stats.overloadUs lateUs } }
    b.modRec fun r => { r with
      depth := modNth (fun n => satAdd 64 n 1) (depthBin depth) r.depth, overloadUs := satAdd 64 r.overloadUs lateUs }) b

/-- The start of a frame (R292, R293): capacities, allocations, balances, frame totals. -/
def Block.beginFrame (b : Block) : Block :=
  let caps := (List.range 7).map b.capacity
  let allocs := (List.range 7).map fun c => b.allocate c (nth 0 caps c)
  let ofPart := fun p => allocs.map fun l => ((l.find? fun x => x.1 == p).map (·.2)).getD 0
  let b := { b with sched := { b.sched with frames := b.sched.frames + 1, frameAt := b.now, caps } }
  b.partitions.foldl (fun b p =>
    let a := ofPart p
    b.modPart p fun q => { q with
      alloc := a, spent := List.replicate 7 0
      balance := List.zipWith (fun (x : Int) (y : Nat) => min (x + y) y) q.balance a }) b

/-- SERVICE_FRAME: 50 ticks after the last frame began, from the end of boot on. -/
def Block.serviceFrame (b : Block) : Block :=
  if b.mode.ready ∧ b.sched.frameAt + 50 ≤ b.now then ((b.endFrame).beginFrame).governs 5 else b

/-- SERVICE_FRAME. -/
def execServiceFrame (s : State) : Host.Outcome State Fault Refusal := s.run Block.serviceFrame

/-- ADAPTATION_PERIOD (R298): after 1,000 frames, the classes saturated in more than 500 of them. -/
def Block.adaptation (b : Block) : Block :=
  if 1000 ≤ b.sched.periodFrames then
    let bits := (b.sched.satCount.zipIdx.map fun x => if 500 < x.1 then 2 ^ x.2 else 0).sum
    { b with sched := { b.sched with satPeriod := BitVec.ofNat 7 bits, satCount := List.replicate 7 0, periodFrames := 0 } }
  else b

/-- ADAPTATION_PERIOD. -/
def execAdaptationPeriod (s : State) : Host.Outcome State Fault Refusal := s.run Block.adaptation

end Sys2Proof.Machine
end

