-- ==== Sys2Proof/Machine/Checks.lean ====
section
/-! DEFINITION. Check 4 of 05 R116 as every engine makes it: a key reference in range, present, of the demanded generation
(10 R214 to R222), with the usage, algorithm, mode of use and length that an operation needs; and the key-management lock
(10 R229). -/

namespace Sys2Proof.Machine

open Sys2Proof

/-- A refusal: status, detail, RESULT. -/
abbrev Refuse := Option (Nat × Nat × BitVec 64)

/-- The first refusal of two. -/
def Refuse.or (a b : Refuse) : Refuse := match a with | some x => some x | none => b

/-- A refusal where a condition holds. -/
def refuseIf (c : Bool) (status detail : Nat) : Refuse := if c then some (status, detail, 0) else none

/-- What an operation needs of a key: the algorithm codes, the key usages (none listed: any), the modes of use (none listed:
any), and the record's length. -/
structure KeyNeed where
  alg : Nat → Bool
  usages : List String := []
  modes : String := ""
  len : SlotRec → Bool := fun _ => true

/-- Presence of a slot named as a key to use (10 R214, R215, R222): the cause of ST_KEY_ABSENT. -/
def slotAbsent (s : SlotRec) : Option Nat :=
  match s.st with
  | .empty | .reserved => some 1
  | .draining => some 3
  | .continuation => some 4
  | .live => none

/-- A slot's usage is among those named. -/
def usageIn (s : SlotRec) (l : List String) : Bool := l.any fun u => s.usage == ascii u

/-- A slot's mode of use is among the letters. -/
def modeIn (s : SlotRec) (l : String) : Bool := l.toList.any fun c => s.mode == c.toNat

/-- The attributes of a slot against an operation's needs: usage, algorithm, mode of use, length (07 R150, 11 R242). -/
def KeyNeed.fault (n : KeyNeed) (s : SlotRec) : Option Nat :=
  if !n.usages.isEmpty && !usageIn s n.usages then some 1
  else if !n.alg s.code then some 2
  else if n.modes != "" && !modeIn s n.modes then some 3
  else if !n.len s then some 5
  else none

/-- GEN_CHECK fails against a generation: GEN 0 never matches (10 R220). -/
def KeyRef.stale (k : KeyRef) (gen : Nat) : Bool := k.check && (k.gen == 0 || k.gen != gen)

/-- The tests of one key reference up to its generation; `ref` is 0 for K1, 1 for K2, 2 for K3. RESULT of ST_KEY_STALE is the
slot's generation (05 R115). -/
def Block.refFault (b : Block) (p ref : Nat) (k : KeyRef) : Refuse :=
  let s := b.slot k.slot
  if !b.slotIn p k.slot then some (St.keyAbsent, keyDetail ref 2, 0)
  else match slotAbsent s with
    | some c => some (St.keyAbsent, keyDetail ref c, 0)
    | none => if k.stale s.gen then some (St.keyStale, keyDetail ref 1, BitVec.ofNat 64 s.gen) else none

/-- All tests of one key reference. -/
def Block.keyFault (b : Block) (p ref : Nat) (k : KeyRef) (n : KeyNeed) : Refuse :=
  (b.refFault p ref k).or (match n.fault (b.slot k.slot) with
    | some c => some (St.keyUsage, keyDetail ref c, 0)
    | none => none)

/-- The copy that dispatch takes of a slot (07 R153). -/
def Block.copyKey (b : Block) (k : KeyRef) : KeyCopy := { slot := k.slot, gen := (b.slot k.slot).gen, slotRec := b.slot k.slot }

/-- R229: the entry's ring does not hold its partition's key-management lock. -/
def Block.lockFault (b : Block) (e : Entry) : Refuse :=
  let l := (b.part e.part).lock
  refuseIf (!(l.held && l.holder == e.ring)) St.keyUsage 8

/-- Length rules that could not be judged before the input of a chain member was known (05 R116). -/
def Block.lateLength (b : Block) (e : Entry) : Refuse :=
  if e.d.srcPrev then
    match e.d.lengthFault e.alg (some (b.input e).length) b.gander.mayBootstrap with
    | some (detail, need) => some (St.length, detail, BitVec.ofNat 64 need)
    | none => none
  else none

/-! ## Destinations of generated keys (10 R215, R216, R227) -/

/-- Bytes of the secret and the public part by algorithm code, WORDS and, where the code leaves it open, the key's own length
(10 R216). -/
def partLens (code words keyLen : Nat) : Nat × Nat :=
  match code with
  | 0x20 => (10 * words, 4 * words + 8)
  | 0x21 => (32, 0)
  | 0x22 => (48, 0)
  | 0x23 => (66, 0)
  | 0x24 => (4 * words, 0)
  | 0x30 => (32, 0)
  | 0x31 => (57, 0)
  | 0x32 => (32, 0)
  | 0x33 => (56, 0)
  | 0x41 => (1632, 0)
  | 0x42 => (2400, 0)
  | 0x43 => (3168, 0)
  | 0x51 => (2560, 0)
  | 0x52 => (4032, 0)
  | 0x53 => (4896, 0)
  | 0x60 => (16, 0)
  | _ => (keyLen, 0)

/-- Slots of a chain: ⌈(2s + u) ÷ 112⌉ (10 R216). -/
def chainSlots (l : Nat × Nat) : Nat := ceilDiv (2 * l.1 + l.2) 112

/-- The owner of a slot: the enabled partition whose range contains it (10 R228). -/
def Block.slotOwner (b : Block) (i : Nat) : Option Nat :=
  (b.img.inForce.parts.find? fun e =>
    e.2.enabled && decide (e.2.slotFirst ≤ i) && decide (i < e.2.slotFirst + e.2.slotCount)).map (·.1)

/-- Rows 7 and 8 of 10 R224 for a chain of n slots from a head: the cause of ST_KEY_USAGE. -/
def Block.chainFault (b : Block) (head n : Nat) : Option Nat :=
  let fits := match b.slotOwner head with
    | some p => decide (head + n ≤ (b.cfg p).slotFirst + (b.cfg p).slotCount)
    | none => false
  let clear := (List.range n).all fun i =>
    let s := b.slot (head + i)
    i == 0 || s.st == .empty || (s.st == .continuation && s.head == head)
  if !fits then some 6 else if !clear then some 9 else none

/-- The destination test of a key generation (10 R227): RESERVED or LIVE with the algorithm code, and WORDS, that the
operation implies; no reference is taken. -/
def Block.destFault (b : Block) (p ref : Nat) (k : KeyRef) (code : Nat → Bool) (words : Option Nat) : Refuse :=
  let s := b.slot k.slot
  if !b.slotIn p k.slot then some (St.keyAbsent, keyDetail ref 2, 0)
  else
    let cause := match s.st with
      | .empty => some 1
      | .draining => some 3
      | .continuation => some 4
      | _ => none
    match cause with
    | some c => some (St.keyAbsent, keyDetail ref c, 0)
    | none =>
      if k.stale s.gen then some (St.keyStale, keyDetail ref 1, BitVec.ofNat 64 s.gen)
      else if !code s.code then some (St.keyUsage, keyDetail ref 2, 0)
      else if (match words with | some w => s.words != w | none => false) then some (St.keyUsage, keyDetail ref 5, 0)
      else none

/-- The attribute record of a slot and its owner (10 R228). -/
def slotAttributes (s : SlotRec) (owner : Option Nat) : Bytes :=
  let isHead := s.st == .reserved || s.st == .live || (s.st == .draining && s.chain != 0)
  let two := fun (x : Bytes) => if isHead then fit 2 x else zeros 2
  let one := fun (n : Nat) => toLE 1 (if isHead then n else 0)
  let st := match s.st with | .empty => 0 | .reserved => 1 | .live => 2 | .draining => 3 | .continuation => 4
  toLE 1 st ++ one s.chain ++ toLE 2 s.gen ++ two s.usage ++ one s.algChar ++ one s.mode ++ one s.exportc ++ two s.kvn ++ [0]
    ++ one s.code ++ [0] ++ toLE 2 (owner.getD 0x8000) ++ toLE 2 (if isHead then s.keyBits else 0)
    ++ toLE 2 (if isHead then s.refs else 0) ++ toLE 2 (if isHead then 0 else s.head) ++ zeros 10

/-! ## Slot writes (10 R214, R215, R220, R221) -/

/-- The generation after a write: 0xFFFF is followed by 1 (R220). -/
def nextGen (g : Nat) : Nat := if g % 65536 = 65535 then 1 else g % 65536 + 1

/-- A slot emptied, its generation kept. -/
def emptied (s : SlotRec) : SlotRec := { gen := s.gen }

/-- Slots from a first index on emptied. -/
def Block.emptySlots (b : Block) (first n : Nat) : Block :=
  (List.range n).foldl (fun b i => b.modSlot (first + i) emptied) b

/-- A chain written from its head: the record with the next generation, its references kept; continuations marked; surplus
slots of a longer old chain emptied (R221). Generations of continuations stand. -/
def Block.writeChain (b : Block) (head : Nat) (r : SlotRec) : Block :=
  let old := b.slot head
  let n := r.chain
  let b := b.emptySlots (head + n) ((if old.st = .live ∨ old.st = .reserved then old.chain else 0) - n)
  let b := b.modSlot head fun s => { r with gen := nextGen s.gen, refs := s.refs, head := 0 }
  (List.range (n - 1)).foldl (fun b i => b.modSlot (head + 1 + i) fun s => { st := .continuation, gen := s.gen, head := head }) b

/-- The slot that an entry's key generation, or EMV_SESSION_DERIVE, is to write (08 R190, 10 R227). -/
def Desc.generatesInto (d : Desc) : Option Nat :=
  match d.family, d.op with
  | 3, 0x14 | 3, 0x23 | 3, 0x33 | 4, 0x01 | 4, 0x11 => some d.k1.slot
  | 5, 0x23 => some d.k2.slot
  | _, _ => none

/-- The slot has been erased: a key generation that has been dispatched for it will find so at its write (08 R190). -/
def Block.markErased (b : Block) (head : Nat) : Block :=
  { b with entries := b.entries.map fun e => if e.wasDispatched && e.d.generatesInto == some head then { e with erased := true } else e }

/-- The head of the chain that a draining slot belongs to. -/
def Block.drainHead (b : Block) (i : Nat) : Nat := let s := b.slot i; if s.chain = 0 then s.head else i

/-- A chain goes into DRAINING (10 R222). -/
def Block.drainChainAt (b : Block) (head : Nat) : Block :=
  let n := (b.slot head).chain
  let b := (List.range (n - 1)).foldl (fun b i => b.modSlot (head + 1 + i) fun s => { s with st := .draining, head := head }) b
  (b.modSlot head fun s => { s with st := .draining }).markErased head

/-- KEY_BITS of a record: the modulus length for RSA, otherwise eight times the secret part (R228). -/
def keyBitsOf (code words : Nat) (secretLen : Nat) : Nat := if code = 0x20 then 32 * words else 8 * secretLen

/-- RESULT of a slot write: the generation and the slots of the chain (05 R115). -/
def Block.writeResult (b : Block) (head : Nat) : BitVec 64 := BitVec.ofNat 64 ((b.slot head).gen + at_ 16 ((b.slot head).chain % 256))

end Sys2Proof.Machine
end

