-- ==== Sys2Proof/Machine/Des.lean ====
section
/-! DEFINITION. The DES block cipher and TDEA over it (SP 800-67, 07 R146; single DES for MAC algorithm 3, 07 R147).
Bits are lists, bit 1 of the standard first. -/

namespace Sys2Proof.Des

open Sys2Proof

/-- The bits of a byte string, most significant first. -/
def toBits (bs : Bytes) : List Bool := bs.flatMap (fun b => (List.range 8).map (fun i => b.toNat.testBit (7 - i)))

/-- The number a list of bits spells, first bit most significant. -/
def num (l : List Bool) : Nat := l.foldl (fun n b => 2 * n + flag b) 0

/-- The bytes of a list of bits. -/
def ofBits (l : List Bool) : Bytes := toBE (l.length / 8) (num l)

/-- A permutation or selection by a table of one-based positions. -/
def perm (t : List Nat) (a : Array Bool) : List Bool := t.map (fun i => a.getD (i - 1) false)

/-- The initial permutation IP. -/
def ip : List Nat :=
  [58, 50, 42, 34, 26, 18, 10, 2, 60, 52, 44, 36, 28, 20, 12, 4, 62, 54, 46, 38, 30, 22, 14, 6, 64, 56, 48, 40, 32, 24, 16, 8] ++
  [57, 49, 41, 33, 25, 17, 9, 1, 59, 51, 43, 35, 27, 19, 11, 3, 61, 53, 45, 37, 29, 21, 13, 5, 63, 55, 47, 39, 31, 23, 15, 7]

/-- The final permutation. -/
def fp : List Nat :=
  [40, 8, 48, 16, 56, 24, 64, 32, 39, 7, 47, 15, 55, 23, 63, 31, 38, 6, 46, 14, 54, 22, 62, 30, 37, 5, 45, 13, 53, 21, 61, 29] ++
  [36, 4, 44, 12, 52, 20, 60, 28, 35, 3, 43, 11, 51, 19, 59, 27, 34, 2, 42, 10, 50, 18, 58, 26, 33, 1, 41, 9, 49, 17, 57, 25]

/-- The expansion E. -/
def expansion : List Nat :=
  [32, 1, 2, 3, 4, 5, 4, 5, 6, 7, 8, 9, 8, 9, 10, 11, 12, 13, 12, 13, 14, 15, 16, 17] ++
  [16, 17, 18, 19, 20, 21, 20, 21, 22, 23, 24, 25, 24, 25, 26, 27, 28, 29, 28, 29, 30, 31, 32, 1]

/-- The permutation P. -/
def pPerm : List Nat :=
  [16, 7, 20, 21, 29, 12, 28, 17, 1, 15, 23, 26, 5, 18, 31, 10, 2, 8, 24, 14, 32, 27, 3, 9, 19, 13, 30, 6, 22, 11, 4, 25]

/-- Permuted choice 1. -/
def pc1 : List Nat :=
  [57, 49, 41, 33, 25, 17, 9, 1, 58, 50, 42, 34, 26, 18, 10, 2, 59, 51, 43, 35, 27, 19, 11, 3, 60, 52, 44, 36] ++
  [63, 55, 47, 39, 31, 23, 15, 7, 62, 54, 46, 38, 30, 22, 14, 6, 61, 53, 45, 37, 29, 21, 13, 5, 28, 20, 12, 4]

/-- Permuted choice 2. -/
def pc2 : List Nat :=
  [14, 17, 11, 24, 1, 5, 3, 28, 15, 6, 21, 10, 23, 19, 12, 4, 26, 8, 16, 7, 27, 20, 13, 2] ++
  [41, 52, 31, 37, 47, 55, 30, 40, 51, 45, 33, 48, 44, 49, 39, 56, 34, 53, 46, 42, 50, 36, 29, 32]

/-- The eight S-boxes, four rows of sixteen. -/
def sboxes : Array (Array Nat) :=
  (["E4D12FB83A6C59070F74E2D1A6CB953841E8D62BFC973A50FC8249175B3EA06D",
    "F18E6B34972DC05A3D47F28EC01A69B50E7BA4D158C6932FD8A13F42B67C05E9",
    "A09E63F51DC7B428D709346A285ECBF1D6498F30B12C5AE71AD069874FE3B52C",
    "7DE3069A1285BC4FD8B56F03472C1AE9A690CB7DF13E52843F06A1D8945BC72E",
    "2C417AB6853FD0E9EB2C47D150FA3986421BAD78F9C5630EB8C71E2D6F09A453",
    "C1AF92680D34E75BAF427C9561DE0B389EF528C3704A1DB6432C95FABE17608D",
    "4B2EF08D3C975A61D0B7491AE35C2F8614BDC37EAF680592" ++ "6BD814A7950FE23C",
    "D2846FB1A93E50C71FD8A374C56B0E927B419CE206ADF358" ++ "21E74A8DFC90356B"].map
    (fun t => ((ascii t).map (fun c => (hexVal c).getD 0)).toArray)).toArray

/-- The round function f of one half block under one round key. -/
def f (r : List Bool) (k : List Bool) : List Bool :=
  let x := List.zipWith xor (perm expansion r.toArray) k
  let out := (List.range 8).flatMap (fun i =>
    let six := (x.drop (6 * i)).take 6
    let row := 2 * flag (six.getD 0 false) + flag (six.getD 5 false)
    let col := num ((six.drop 1).take 4)
    let v := (sboxes.getD i #[]).getD (16 * row + col) 0
    (List.range 4).map (fun j => v.testBit (3 - j)))
  perm pPerm out.toArray

/-- Rotations of the key halves before each of the sixteen rounds. -/
def shifts : List Nat := [1, 1, 2, 2, 2, 2, 2, 2, 1, 2, 2, 2, 2, 2, 2, 1]

/-- The sixteen round keys. -/
def schedule (key : Bytes) : List (List Bool) :=
  let cd := perm pc1 (toBits key).toArray
  (shifts.foldl (fun (st : List Bool × List Bool × List (List Bool)) n =>
    let c := st.1.drop n ++ st.1.take n
    let d := st.2.1.drop n ++ st.2.1.take n
    (c, d, st.2.2 ++ [perm pc2 (c ++ d).toArray])) (cd.take 28, cd.drop 28, [])).2.2

/-- The sixteen rounds under round keys in the order given. -/
def run (ks : List (List Bool)) (blk : Bytes) : Bytes :=
  let x := perm ip (toBits blk).toArray
  let lr := ks.foldl (fun (lr : List Bool × List Bool) k => (lr.2, List.zipWith xor lr.1 (f lr.2 k))) (x.take 32, x.drop 32)
  ofBits (perm fp (lr.2 ++ lr.1).toArray)

/-- DES encryption of one 8-byte block. -/
def enc (key blk : Bytes) : Bytes := run (schedule key) blk

/-- DES decryption of one 8-byte block. -/
def dec (key blk : Bytes) : Bytes := run (schedule key).reverse blk

/-- The three DES keys of a TDEA key; a 16-byte key uses its first part as the third (07 R146). -/
def parts (key : Bytes) : Bytes × Bytes × Bytes :=
  let k1 := key.take 8
  (k1, slice 8 8 key, if key.length ≤ 16 then k1 else slice 16 8 key)

/-- TDEA encryption of one block (encrypt, decrypt, encrypt). -/
def enc3 (key blk : Bytes) : Bytes :=
  let (a, b, c) := parts key
  enc c (dec b (enc a blk))

/-- TDEA decryption of one block. -/
def dec3 (key blk : Bytes) : Bytes :=
  let (a, b, c) := parts key
  dec a (enc b (dec c blk))

end Sys2Proof.Des
end

