-- ==== Sys2Proof/Machine/Modes.lean ====
section
/-! DEFINITION. The modes, MACs and key-derivation kernels of the cipher lanes (07 R146, R147, R149), each as a
function from a chaining state and data to output and the next chaining state, so that a stream can stop between
blocks (07 R164). -/

namespace Sys2Proof.Modes

open Sys2Proof

/-- A block cipher under a key: block length and the two directions. -/
structure Cipher where
  b   : Nat
  enc : Bytes → Bytes
  dec : Bytes → Bytes

/-- AES under a key. -/
def aes (key : Bytes) : Cipher :=
  let rks := Aes.roundKeys key
  ⟨16, Aes.encWith rks, Aes.decWith rks.reverse⟩

/-- TDEA under a key. -/
def tdea (key : Bytes) : Cipher := ⟨8, Des.enc3 key, Des.dec3 key⟩

/-- The cipher of a slot's algorithm code (10 R217): TDEA for codes 1 and 2, else AES. -/
def cipherOf (code : Nat) (key : Bytes) : Cipher := if code ≤ 2 then tdea key else aes key

/-- Pieces processed in order with a state threaded through. -/
def scan {σ : Type} (f : σ → Bytes → Bytes × σ) : σ → List Bytes → Bytes × σ
  | s, [] => ([], s)
  | s, c :: cs =>
    let (o, s') := f s c
    let (os, s'') := scan f s' cs
    (o ++ os, s'')

/-- ECB. -/
def ecb (f : Bytes → Bytes) (b : Nat) (data : Bytes) : Bytes := (chunks b data).flatMap f

/-- CBC encryption; the state is the last ciphertext block. -/
def cbcEnc (c : Cipher) (iv data : Bytes) : Bytes × Bytes :=
  scan (fun s x => let y := c.enc (xorB s x); (y, y)) iv (chunks c.b data)

/-- CBC decryption. -/
def cbcDec (c : Cipher) (iv data : Bytes) : Bytes × Bytes :=
  scan (fun s x => (xorB s (c.dec x), x)) iv (chunks c.b data)

/-- CFB with n bytes of feedback; the state is the feedback register. -/
def cfb (c : Cipher) (n : Nat) (decrypt : Bool) (iv data : Bytes) : Bytes × Bytes :=
  scan (fun s x =>
    let y := xorB x (c.enc s)
    (y, (s ++ (if decrypt then x else y)).drop x.length)) iv (chunks n data)

/-- OFB; the state is the feedback register. -/
def ofb (c : Cipher) (iv data : Bytes) : Bytes × Bytes :=
  scan (fun s x => let k := c.enc s; (xorB x k, k)) iv (chunks c.b data)

/-- The counter block with its low `bits` bits incremented as a big-endian number (07 R146). -/
def ctrInc (bits : Nat) (blk : Bytes) : Bytes :=
  let x := ofBE blk
  toBE blk.length (x / 2 ^ bits * 2 ^ bits + (x + 1) % 2 ^ bits)

/-- CTR; the state is the next counter block. -/
def ctr (c : Cipher) (bits : Nat) (blk data : Bytes) : Bytes × Bytes :=
  scan (fun s x => (xorB x (c.enc s), ctrInc bits s)) blk (chunks c.b data)

/-! ## GCM and CCM -/

/-- Multiplication in GF(2^128) of GHASH (SP 800-38D): over the bits of x, highest first. -/
def gmulAux : Nat → Nat → Nat → Nat → Nat
  | 0, _, _, z => z
  | n + 1, x, v, z =>
    gmulAux n x (if v % 2 = 1 then (v / 2) ^^^ (0xE1 <<< 120) else v / 2) (if x.testBit n then z ^^^ v else z)

/-- Multiplication in GF(2^128). -/
def gmul (x v : Nat) : Nat := gmulAux 128 x v 0

/-- GHASH of a string of whole blocks. -/
def ghash (h : Nat) (data : Bytes) : Nat :=
  (chunks 16 data).foldl (fun y blk => gmul (y ^^^ ofBE blk) h) 0

/-- A string filled up with zeros to whole 16-byte blocks. -/
def pad16 (x : Bytes) : Bytes := x ++ zeros ((16 - x.length % 16) % 16)

/-- The block J0 of GCM from the IV. -/
def j0 (h : Nat) (iv : Bytes) : Bytes :=
  if iv.length = 12 then iv ++ [0, 0, 0, 1]
  else toBE 16 (ghash h (pad16 iv ++ zeros 8 ++ toBE 8 (8 * iv.length)))

/-- The full GCM tag over additional data and ciphertext. -/
def gcmTag (c : Cipher) (iv aad ct : Bytes) : Bytes :=
  let h := ofBE (c.enc (zeros 16))
  let s := ghash h (pad16 aad ++ pad16 ct ++ toBE 8 (8 * aad.length) ++ toBE 8 (8 * ct.length))
  xorB (toBE 16 s) (c.enc (j0 h iv))

/-- GCM's counter-mode pass, the same in both directions. -/
def gcmCrypt (c : Cipher) (iv data : Bytes) : Bytes :=
  (ctr c 32 (ctrInc 32 (j0 (ofBE (c.enc (zeros 16))) iv)) data).1

/-- The encoding of the additional data's length in CCM (SP 800-38C, Appendix A). -/
def ccmAadLen (n : Nat) : Bytes :=
  if n = 0 then [] else if n < 0xFF00 then toBE 2 n else [0xFF, 0xFE] ++ toBE 4 n

/-- The full CBC-MAC value of CCM over nonce, additional data and plaintext, for a tag of t bytes. -/
def ccmMac (c : Cipher) (nonce aad pt : Bytes) (t : Nat) : Bytes :=
  let q := 15 - nonce.length
  let b0 := byte (flag (aad.length > 0) * 64 + (t - 2) / 2 * 8 + (q - 1)) :: nonce ++ toBE q pt.length
  let m := b0 ++ pad16 (ccmAadLen aad.length ++ aad) ++ pad16 pt
  ((cbcEnc c (zeros 16) m).2).take t

/-- Counter block i of CCM. -/
def ccmCtr (nonce : Bytes) (i : Nat) : Bytes := byte (14 - nonce.length) :: nonce ++ toBE (15 - nonce.length) i

/-- CCM's counter-mode pass. -/
def ccmCrypt (c : Cipher) (nonce data : Bytes) : Bytes := (ctr c (8 * (15 - nonce.length)) (ccmCtr nonce 1) data).1

/-- The CCM tag as it is sent. -/
def ccmTag (c : Cipher) (nonce aad pt : Bytes) (t : Nat) : Bytes :=
  xorB (ccmMac c nonce aad pt t) (c.enc (ccmCtr nonce 0))

/-! ## MACs -/

/-- CBC chaining over whole blocks. -/
def chain (c : Cipher) (st data : Bytes) : Bytes := (chunks c.b data).foldl (fun s x => c.enc (xorB s x)) st

/-- Doubling in GF(2^b) for the CMAC subkeys (SP 800-38B). -/
def cmacDouble (x : Bytes) : Bytes :=
  let n := 2 * ofBE x
  let r := if x.length = 16 then 0x87 else 0x1B
  toBE x.length (if n ≥ 2 ^ (8 * x.length) then n ^^^ r else n)

/-- The CMAC of the rest of a message from a chaining value; the rest holds the last block. -/
def cmacFinish (c : Cipher) (st rest : Bytes) : Bytes :=
  let whole := (rest.length - 1) / c.b * c.b
  let st := chain c st (rest.take whole)
  let last := rest.drop whole
  let k1 := cmacDouble (c.enc (zeros c.b))
  let x := if last.length = c.b then xorB last k1 else xorB (fit c.b (last ++ [0x80])) (cmacDouble k1)
  c.enc (xorB st x)

/-- CMAC of a whole message. -/
def cmac (c : Cipher) (m : Bytes) : Bytes := cmacFinish c (zeros c.b) m

/-- A message under ISO/IEC 9797-1 padding method 1, 2 or 3, with blocks of b bytes; `total` counts the bytes of the
whole message, of which `rest` is the end. Method 1 gives at least one block for an empty message (log entry 11). -/
def padMac (b method : Nat) (rest : Bytes) (total : Nat) : Bytes :=
  let fill (x : Bytes) : Bytes := x ++ zeros ((b - x.length % b) % b)
  match method with
  | 2 => fill (rest ++ [0x80])
  | 3 => toBE b (8 * total) ++ (if total = 0 then zeros b else fill rest)
  | _ => if total = 0 then zeros b else fill rest

/-- MAC algorithm 1: the chaining value itself. -/
def mac1Finish (c : Cipher) (method : Nat) (st rest : Bytes) (total : Nat) : Bytes :=
  chain c st (padMac c.b method rest total)

/-- Single DES under the left half of the key, the chaining of MAC algorithm 3. -/
def des (key : Bytes) : Cipher := ⟨8, Des.enc key, Des.dec key⟩

/-- MAC algorithm 3: the chaining under the left half, then decryption under the right and encryption under the left. -/
def mac3Finish (key : Bytes) (method : Nat) (st rest : Bytes) (total : Nat) : Bytes :=
  let h := chain (des (key.take 8)) st (padMac 8 method rest total)
  Des.enc (key.take 8) (Des.dec (slice 8 8 key) h)

/-! ## Key derivation (R149) -/

/-- The leftmost `bits` bits of a byte string, unused low bits of the last byte zero. -/
def leftBits (bits : Nat) (x : Bytes) : Bytes :=
  let n := ceilDiv bits 8
  let y := x.take n
  if bits % 8 = 0 then y else toBE n (ofBE y / 2 ^ (8 - bits % 8) * 2 ^ (8 - bits % 8))

/-- SP 800-108 counter mode with a pseudorandom function: [i]32 ‖ fixed ‖ [L]32. -/
def kdfCounter (prf : Bytes → Bytes) (outLen : Nat) (fixed : Bytes) (bits : Nat) : Bytes :=
  leftBits bits ((List.range (ceilDiv bits (8 * outLen))).flatMap (fun i => prf (toBE 4 (i + 1) ++ fixed ++ toBE 4 bits)))

/-- The kernel with AES CMAC. -/
def kdfCmac (key fixed : Bytes) (bits : Nat) : Bytes := kdfCounter (cmac (aes key)) 16 fixed bits

/-- The kernel with HMAC-SHA-256. -/
def kdfHmac (key fixed : Bytes) (bits : Nat) : Bytes := kdfCounter (Hash.hmac .sha256 key) 32 fixed bits

/-- SP 800-56C one-step with SHA-256. -/
def kdfOneStep (z fixed : Bytes) (bits : Nat) : Bytes :=
  leftBits bits ((List.range (ceilDiv bits 256)).flatMap (fun i => Hash.hash .sha256 (toBE 4 (i + 1) ++ z ++ fixed)))

/-- SP 800-56C two-step: extraction with HMAC-SHA-256 under a salt, then the HMAC kernel. -/
def kdfTwoStep (salt z fixed : Bytes) (bits : Nat) : Bytes := kdfHmac (Hash.hmac .sha256 salt z) fixed bits

/-- The kernel that VARIANT selects. -/
def kdf (variant : Nat) (key fixed : Bytes) (bits : Nat) : Bytes :=
  match variant with
  | 0 => kdfCmac key fixed bits
  | 1 => kdfHmac key fixed bits
  | 2 => kdfOneStep key fixed bits
  | _ => kdfTwoStep (zeros 32) key fixed bits

end Sys2Proof.Modes
end

