-- ==== Sys2Proof/Machine/Lanes.lean ====
section
/-! DEFINITION. Cipher lanes (07): dispatch and its checks, the lane operations of SYM and HASH/MAC (05 R104 to R107, 07 R146,
R147), mismatches, the personality balancer, and switches. -/

namespace Sys2Proof.Machine

open Sys2Proof

/-! ## Check 4 (07 R140, R150, R151, R163) -/

/-- The descriptor works under K1. -/
def Desc.keyed (d : Desc) : Bool := d.family == Fam.sym || d.op == 3 || d.op == 4

/-- What a lane operation needs of K1, given its algorithm code (R150). -/
def Desc.laneNeed (d : Desc) (code : Nat) : KeyNeed :=
  if d.family = Fam.sym then
    { alg := fun c => algAes c || (algTdea c && decide (d.var < 6)), usages := ["D0"], modes := if d.op = 1 then "EBN" else "DBN" }
  else
    let modes := if d.op = 3 then "GCN" else "VCN"
    match d.var with
    | 0x20 => { alg := fun c => algAes c || algTdea c, usages := ["M6"], modes }
    | 0x21 => { alg := fun c => algAes c || algTdea c, usages := if algTdea code then ["M0", "M1"] else ["M1"], modes }
    | 0x22 => { alg := fun c => c == 1, usages := ["M3"], modes }
    | v => { alg := fun c => c == v, usages := ["M7"], modes, len := fun s => decide (14 ≤ s.secret.length) }

/-- A context in partition p's range. -/
def Block.ctxIn (b : Block) (p i : Nat) : Bool :=
  decide ((b.cfg p).ctxFirst ≤ i) && decide (i < (b.cfg p).ctxFirst + (b.cfg p).ctxCount)

/-- The descriptor goes on from its context (05 R106). -/
def Desc.continues (d : Desc) : Bool := d.ctxUse && decide (2 ≤ d.stage)

/-- The counter of a continued CTR stream would wrap: the first counter of the stream, found from the context's counter and
byte count, plus all blocks up to the end of this descriptor (R151). -/
def Block.ctxWraps (b : Block) (e : Entry) (n : Nat) : Bool :=
  let c := (b.ctx e.d.ctx).c
  let bl := if algTdea c.alg then 8 else 16
  let m := 2 ^ field c.param 7 0
  let done := c.bytes / bl
  let start := (ofBE c.state + m * (done + 1) - done) % m
  e.d.family == Fam.sym && e.d.var == 5 && e.d.continues && b.ctxIn e.part e.d.ctx && c.kind == 1 && c.var == 5 &&
    decide (m < start + done + ceilDiv n bl)

/-- The state of a context against a stage-2 or stage-3 descriptor (R163). -/
def Desc.ctxMatches (d : Desc) (p code : Nat) (c : CtxRec) : Bool :=
  c.kind == (if d.family = Fam.sym then 1 else 2) && c.op == d.op && c.var == d.var &&
    c.alg == (if d.keyed then code else d.var) && c.slot == (if d.keyed then d.k1.slot else 0x7FFF) &&
    c.param == field d.param 15 0 && c.owner == p

/-- The tests of check 2 that wait for dispatch (05 R116, R151): the length of a chain member's input, the counter that runs from
it, and the counter that runs from a context. They come before every test of check 4. -/
def Block.lateCheck2 (b : Block) (e : Entry) : Refuse :=
  let d := e.d
  let n := (b.input e).length
  let bits := field d.param 7 0
  let wraps := d.srcPrev && d.family == Fam.sym && d.var == 5 && decide (d.stage ≤ 1) &&
    decide (2 ^ bits < ofBE e.aux % 2 ^ bits + ceilDiv n (d.blockSize e.alg))
  (b.lateLength e).or <| refuseIf (wraps || b.ctxWraps e n) St.length 5

/-- Check 4 of a lane entry, after the unservable test: K1, then the context. -/
def Block.laneFault (b : Block) (e : Entry) : Refuse :=
  let d := e.d
  let s := b.slot d.k1.slot
  let c := b.ctx d.ctx
  let inRange := b.ctxIn e.part d.ctx
  let key : Refuse :=
    if !d.keyed then none
    else
      (b.refFault e.part 0 d.k1).or <|
      (if d.continues && inRange && c.c.kind != 0 && c.c.slot == d.k1.slot && c.c.gen != s.gen
        then some (St.keyStale, 2, BitVec.ofNat 64 s.gen) else none).or <|
      (refuseIf (!(d.personality s.code).2 || b.persIndex (d.personality s.code).1 != some e.pers) St.keyUsage 2).or <|
      match (d.laneNeed s.code).fault s with
      | some x => some (St.keyUsage, x, 0)
      | none => none
  let context : Refuse :=
    if !d.ctxUse then none
    else if !inRange then some (St.operandRange, 0x10, 0)
    else if d.continues && c.invalid then some (St.faultDetected, 5, 0)
    else refuseIf (d.continues && !d.ctxMatches e.part s.code c.c) St.operandRange 0x11
  key.or context

/-! ## Lane time and the mask generator (07 R155, R156, R165) -/

/-- The descriptor of an entry with the length of its input as it stands. -/
def Block.sized (b : Block) (e : Entry) : Desc := { e.d with srcLen := (b.input e).length }

/-- Lane time at 1.6 GHz that a job of personality p takes (R165). -/
def Block.laneCost (b : Block) (p : Nat) (j : Job) : Nat :=
  let order2 := match b.persCfg? p with | some c => c.maskOrder == 2 | none => false
  match j with
  | .entry k i =>
    match b.entry? k i with
    | some e => Cost.lane (b.sized e) e.alg order2
    | none => 0
  | .call u c =>
    match b.call? u c with
    | some r =>
      let x := Cost.call r
      ((if order2 then x.2.1 * 3 / 2 else x.2.1) + x.2.2) * Cost.cycle
    | none => 0

/-- A time at 1.6 GHz in the domain of a unit (R165). -/
def Block.scaledTo (b : Block) (u t : Nat) : Nat := if b.freqOf u = 0 then t else t * 16 / b.freqOf u

/-- The secret of an HMAC entry's key: its copy, or the slot that it will be copied from. -/
def Block.laneSecret (b : Block) (e : Entry) : Bytes :=
  if e.refsHeld then (e.keys.head?.map (·.slotRec.secret)).getD [] else (b.ownSlot e.part e.d.k1).secret

/-- Generator blocks of a job: two for each invocation, one in each computation (R155). -/
def Block.maskNeed (b : Block) (j : Job) : Nat :=
  match j with
  | .entry k i =>
    match b.entry? k i with
    | some e => 2 * Cost.invocations (b.sized e) e.alg (b.laneSecret e).length
    | none => 0
  | .call u c =>
    match b.call? u c with
    | some r => 2 * (Cost.call r).1
    | none => 0

/-- Generator blocks that a seed serves. -/
def maskLimit : Nat := 2 ^ 24

/-- The lane can take a job of n generator blocks (R156). -/
def LaneRec.hasMasks (x : LaneRec) (n : Nat) : Bool := x.seeded && decide (x.blocks + n ≤ maskLimit)

/-- Lane l asks for a seed where its count has reached 2^16 (R156). -/
def Block.askSeed (b : Block) (l : Nat) : Block :=
  let x := b.lane l
  if 2 ^ 16 ≤ x.blocks ∧ !x.seedAsked ∧ b.hen.phase ≠ .stopped then
    (b.ask 1 32 (.lane l)).modLane l fun x => { x with seedAsked := true }
  else b

/-- A seed reaches lane l: the count falls to 0, and the job in progress goes on taking blocks (R156). -/
def Block.seeded (b : Block) (l : Nat) : Block :=
  (b.modLane l fun x => { x with blocks := x.toTake b.now, seeded := true, seedAsked := false }).askSeed l

/-! ## Dispatch (07 R141, R152, R153, R157, R159) -/

/-- A job of an OX or lattice unit that ends for want of entropy is counted (08 R194, 09 R213). -/
def Block.countEntropy (b : Block) (j : Job) : Block :=
  match b.queueOf j with
  | .ox => { b with ox := { b.ox with entropy := satAdd 16 b.ox.entropy 1 } }
  | .lat => { b with lat := { b.lat with entropy := satAdd 16 b.lat.entropy 1 } }
  | _ => b

/-- An entry or call that randomness or masks cannot serve: for a partition whose drain handover is in progress the twin takes
it over, otherwise it ends with ST_ENTROPY_UNAVAILABLE (07 R157, 15 R345). -/
def Block.noEntropy (b : Block) (j : Job) (detail engine : Nat) : Block :=
  let go := fun (e : Entry) =>
    if b.role e.part == .handing && (b.part e.part).tw.handover.isSome then (b.abandon e).moveHandover e.part
    else (b.countEntropy j).failJob j St.entropy detail engine
  match j with
  | .entry k i =>
    match b.entry? k i with
    | some e => go e
    | none => b
  | .call u c =>
    match (b.cx u (ctxIx c)).fn with
    | some (k, i) => match b.entry? k i with | some e => go e | none => b
    | none => (b.countEntropy j).failCall u c St.entropy detail engine

/-- What a lane begins to do: an item that takes so much of its time and so many generator blocks. -/
def LaneRec.take (x : LaneRec) (i : QItem) (now cost need : Nat) : LaneRec :=
  { x with job := some i.job, jobRetry := i.excluded, jobMism := i.mism, startedAt := now, cost, counted := 0, need, blocks := x.blocks + need }

/-- Lane l takes an item of its personality's queue: a first dispatch passes check 4; a retry goes on with its copies. -/
def Block.laneTake (b : Block) (p l : Nat) (i : QItem) : Block :=
  let need := b.maskNeed i.job
  let cost := b.scaledTo l (b.laneCost p i.job)
  let start := fun (b : Block) => (b.unqueue i.job).modLane l (LaneRec.take · i b.now cost need)
  match i.job with
  | .call _ _ => (start b).askSeed l
  | .entry k sub =>
    match b.entry? k sub with
    | none => b.unqueue i.job
    | some e =>
      match (if e.refsHeld then none else b.laneFault e) with
      | some (st, det, r) => (b.unqueue i.job).refuse e st det r
      | none =>
        let keys := if e.d.keyed then [b.copyKey e.d.k1] else []
        let ctx := if e.d.continues then some (b.ctx e.d.ctx).c else none
        ((start b).startEntry k sub l keys ctx).askSeed l

/-- The test of check 2 that an item fails at its first dispatch. -/
def Block.itemCheck2 (b : Block) (i : QItem) : Option (Entry × Nat × Nat × BitVec 64) :=
  match i.job with
  | .entry k sub => (b.entry? k sub).bind fun e => if e.refsHeld then none else (b.lateCheck2 e).map fun x => (e, x)
  | .call _ _ => none

/-- What happens to the first item of a queue that something can be done for: `none` where the item waits. An item that no mask
generator can serve ends before any lane has taken it, and its engine index is 0xFF (DESIGN CHOICE, log entry 110: 05 R114 names
the unit that produced the status, and none did). -/
def Block.laneTry (b : Block) (p : Nat) (i : QItem) : Option Block :=
  if !b.mayDispatch i.job then none else
  match b.itemCheck2 i with
  | some (e, st, det, r) => some ((b.unqueue i.job).refuse e st det r)
  | none =>
    let unservable := b.unservable p
    if unservable && !i.retry then some ((b.unqueue i.job).failJob i.job St.keyUsage 7 0xFF) else
    let need := b.maskNeed i.job
    let lanes := (b.carriers p).filter fun l => !(i.excluded.contains l)
    let coming := (b.persLanes p).any fun l => !(i.excluded.contains l)
    if i.retry && !coming && (unservable || !b.hasDonor p) then
      let b := { b with lanes := { b.lanes with double := satAdd 16 b.lanes.double 1 } }
      let b := (b.unqueue i.job).failJob i.job St.faultDetected 7 ((i.excluded.getLast?).getD 0xFF)
      some (match i.excluded.getLast? with | some l => b.quarantine l | none => b)
    else if !lanes.isEmpty && b.hen.phase == .stopped && lanes.all (fun l => !(b.lane l).hasMasks need) then
      some ((b.unqueue i.job).noEntropy i.job 2 0xFF)
    else
      (argMin (fun l => ((b.lane l).idleSince : Int)) (lanes.filter fun l => (b.lane l).job.isNone && (b.lane l).hasMasks need)).map
        fun l => b.laneTake p l i

/-- LANE_DISPATCH (R152): the first entry of a personality's queue that a free lane may serve. -/
def Block.laneDispatch (b : Block) (p : Nat) : Block := ((b.persState p).queue.findSome? (b.laneTry p)).getD b

/-- LANE_DISPATCH. -/
def execLaneDispatch (pers : Nat) (s : State) : Host.Outcome State Fault Refusal := s.run fun b => b.laneDispatch pers

/-! ## What a lane computes (05 R104 to R107) -/

/-- The context that a stage leaves behind (R163, R164). -/
def Entry.nextCtx (e : Entry) (code gen n : Nat) (state : Bytes) : Option CtxRec :=
  let d := e.d
  match d.stage with
  | 0 => none
  | 3 => some {}
  | 1 => some { kind := if d.family = Fam.sym then 1 else 2, op := d.op, var := d.var, alg := if d.keyed then code else d.var
                slot := if d.keyed then d.k1.slot else 0x7FFF, gen := if d.keyed then gen else 0, bytes := n
                param := field d.param 15 0, owner := e.part, state }
  | _ => e.ctx.map fun c => { c with bytes := c.bytes + n, state }

/-- The key that an entry copied from K1. -/
def Entry.key1 (e : Entry) : KeyCopy := (e.keys.head?).getD { slot := 0, gen := 0, slotRec := {} }

/-- A refused result. -/
def Result.bad (status detail : Nat) : Result := { status, detail }

/-- A SYM descriptor on its input. -/
def Entry.symResult (e : Entry) (src : Bytes) : Result :=
  let d := e.d
  let k := e.key1
  let c := Modes.cipherOf k.slotRec.code k.slotRec.secret
  let start := if d.continues then (e.ctx.getD {}).state else e.aux
  let iv := e.aux.take (field d.param 7 0)
  let tag := slice (field d.param 7 0) d.tagLen e.aux
  let aad := src.take d.aadLen
  let data := src.drop d.aadLen
  let stream := fun (x : Bytes × Bytes) =>
    ({ out := x.1, ctx := e.nextCtx k.slotRec.code k.gen src.length x.2 } : Result)
  match d.var, d.op with
  | 0, 1 => stream (Modes.ecb c.enc c.b src, [])
  | 0, _ => stream (Modes.ecb c.dec c.b src, [])
  | 1, 1 => stream (Modes.cbcEnc c start src)
  | 1, _ => stream (Modes.cbcDec c start src)
  | 2, op => stream (Modes.cfb c 1 (op == 2) start src)
  | 3, op => stream (Modes.cfb c c.b (op == 2) start src)
  | 4, _ => stream (Modes.ofb c start src)
  | 5, _ => stream (Modes.ctr c (field d.param 7 0) start src)
  | 6, 1 =>
    let ct := Modes.gcmCrypt c iv data
    { out := ct ++ (Modes.gcmTag c iv aad ct).take d.tagLen }
  | 6, _ =>
    if (Modes.gcmTag c iv aad data).take d.tagLen = tag then { out := Modes.gcmCrypt c iv data } else Result.bad St.tagMismatch 1
  | _, 1 => { out := Modes.ccmCrypt c iv data ++ Modes.ccmTag c iv aad data d.tagLen }
  | _, _ =>
    let pt := Modes.ccmCrypt c iv data
    if Modes.ccmTag c iv aad pt d.tagLen = tag then { out := pt } else Result.bad St.tagMismatch 2

/-- A CMAC stream keeps its chaining value and the last block held back for the final subkey. -/
def cmacUpdate (c : Modes.Cipher) (st src : Bytes) : Bytes :=
  let buf := st.drop c.b ++ src
  if buf.isEmpty then st
  else
    let whole := buf.length - c.b
    Modes.chain c (st.take c.b) (buf.take whole) ++ buf.drop whole

/-- The digest or MAC of a HASH/MAC descriptor at its last stage, or its next chaining state before: chaining state before,
input, count of all bytes. -/
def Entry.digest (e : Entry) (st src : Bytes) (total : Nat) (final : Bool) : Bytes :=
  let d := e.d
  let k := e.key1.slotRec
  let pad := field d.param 9 8
  let mac := d.op == 3 || d.op == 4
  if mac && d.var == 0x20 then
    let c := Modes.cipherOf k.code k.secret
    if final then Modes.cmacFinish c (st.take c.b) (st.drop c.b ++ src) else cmacUpdate c st src
  else if mac && d.var == 0x21 then
    let c := Modes.cipherOf k.code k.secret
    if final then Modes.mac1Finish c pad st src total else Modes.chain c st src
  else if mac && d.var == 0x22 then
    if final then Modes.mac3Finish k.secret pad st src total else Modes.chain (Modes.des (k.secret.take 8)) st src
  else match Hash.ofCode (d.var % 16) with
    | none => []
    | some h =>
      if !final then Hash.update h st src
      else if mac then Hash.hmacFinish h k.secret st src total
      else Hash.finish h st src total d.dstLen

/-- The chaining state before any input. -/
def Entry.digestStart (e : Entry) : Bytes :=
  let d := e.d
  let k := e.key1.slotRec
  let mac := d.op == 3 || d.op == 4
  if mac && decide (0x20 ≤ d.var) then zeros (if algTdea k.code then 8 else 16)
  else match Hash.ofCode (d.var % 16) with
    | none => []
    | some h => if mac then Hash.hmacInit h k.secret else Hash.init h

/-- A HASH/MAC descriptor on its input: only the last stage has an output or a comparison (05 R107). -/
def Entry.hashResult (e : Entry) (src : Bytes) : Result :=
  let d := e.d
  let k := e.key1
  let before := if d.continues then (e.ctx.getD {}) else { state := e.digestStart }
  let final := d.stage == 0 || d.stage == 3
  let x := e.digest before.state src (before.bytes + src.length) final
  let ctx := e.nextCtx k.slotRec.code k.gen src.length x
  let out := x.take (d.macLen k.slotRec.code)
  if !final then { ctx }
  else match d.op with
    | 1 => { out := x, ctx }
    | 5 => { out := x, ctx }
    | 2 => if x = e.aux then { ctx } else Result.bad St.verifyFail 1
    | 3 => { out, ctx }
    | _ => if out = e.aux then { ctx } else Result.bad St.verifyFail 2

/-- The entry that lane l executes, for the operation of a family. -/
def Block.onLane (b : Block) (l family op : Nat) : Option Entry :=
  match (b.lane l).job with
  | some (.entry k i) =>
    match b.entry? k i with
    | some e => if e.stage = .dispatched ∧ e.res.isNone ∧ e.d.family = family ∧ e.d.op = op then some e else none
    | none => none
  | _ => none

/-- The result of an entry is computed; it is released when its engine reports. -/
def Block.setResult (b : Block) (e : Entry) (r : Result) : Block :=
  b.modEntry e.ring e.sub fun e => { e with res := some r }

/-- A SYM operation on lane l. -/
def Block.symOn (b : Block) (l op : Nat) : Block :=
  match b.onLane l Fam.sym op with
  | some e => b.setResult e (e.symResult (b.input e))
  | none => b

/-- A HASH/MAC operation on lane l. -/
def Block.hashOn (b : Block) (l op : Nat) : Block :=
  match b.onLane l Fam.hash op with
  | some e => b.setResult e (e.hashResult (b.input e))
  | none => b

/-- ENCRYPT. -/
def execEncrypt (lane : Nat) (s : State) : Host.Outcome State Fault Refusal := s.run fun b => b.symOn lane 1

/-- DECRYPT. -/
def execDecrypt (lane : Nat) (s : State) : Host.Outcome State Fault Refusal := s.run fun b => b.symOn lane 2

/-- HASH. -/
def execHash (lane : Nat) (s : State) : Host.Outcome State Fault Refusal := s.run fun b => b.hashOn lane 1

/-- HASH_VERIFY. -/
def execHashVerify (lane : Nat) (s : State) : Host.Outcome State Fault Refusal := s.run fun b => b.hashOn lane 2

/-- MAC_GENERATE. -/
def execMacGenerate (lane : Nat) (s : State) : Host.Outcome State Fault Refusal := s.run fun b => b.hashOn lane 3

/-- MAC_VERIFY. -/
def execMacVerify (lane : Nat) (s : State) : Host.Outcome State Fault Refusal := s.run fun b => b.hashOn lane 4

/-- XOF. -/
def execXof (lane : Nat) (s : State) : Host.Outcome State Fault Refusal := s.run fun b => b.hashOn lane 5

/-! ## The balancer (07 R142 to R145) -/

/-- Lane time that a queued job of personality p would take, at the frequency of the personality's first lane (R142, R165; DESIGN
CHOICE, log entry 111: which lane will take it is not known). -/
def Block.queuedTime (b : Block) (p : Nat) (j : Job) : Nat :=
  match (b.persLanes p).head? with
  | some l => b.scaledTo l (b.laneCost p j)
  | none => b.laneCost p j

/-- The demand of each personality over the period: what its lanes have spent executing, and what its queue would take. -/
def Block.demand (b : Block) : List Nat :=
  b.lanes.pers.zipIdx.map fun x => x.1.busy + sumBy (fun i => b.queuedTime x.2 i.job) x.1.queue

/-- A personality's part in the sharing of R142: demand, bounds, and its share once clipping has fixed it. -/
structure Share where
  demand : Nat
  lo : Nat
  hi : Nat
  fixed : Option Nat := none
  deriving DecidableEq, Repr

/-- The numerator and denominator of an unclipped share: the lanes that clipping leaves, in proportion to demand. -/
def shareOf (n : Nat) (l : List Share) (x : Share) : Nat × Nat :=
  let rest := n - sumBy (fun y => y.fixed.getD 0) l
  let total := sumBy (fun y => if y.fixed.isNone then y.demand else 0) l
  match x.fixed with
  | some v => (v, 1)
  | none => if total = 0 then (0, 1) else (rest * x.demand, total)

/-- One repetition of step 3: every unclipped share out of its bounds is clipped. -/
def clipOnce (n : Nat) (l : List Share) : List Share :=
  l.map fun x =>
    let (a, d) := shareOf n l x
    if x.fixed.isSome then x
    else if a < x.lo * d then { x with fixed := some x.lo }
    else if x.hi * d < a then { x with fixed := some x.hi }
    else x

/-- Step 3, repeated until every share lies within its bounds. -/
def clip (n : Nat) : Nat → List Share → List Share
  | 0, l => l
  | fuel + 1, l => let l' := clipOnce n l; if l' = l then l else clip n fuel l'

/-- Steps 2 to 4 of R142. Where no unclipped personality has demand, how the lanes left over are spread is not stated: each
takes an open value, at most its bound. -/
def targets (n : Nat) (l : List Share) : List Nat :=
  let l := clip n (l.length + 1) l
  let open_ := l.all fun x => x.fixed.isSome || x.demand == 0
  let left := n - sumBy (fun y => y.fixed.getD 0) l
  if open_ then
    l.zipIdx.map fun x => match x.1.fixed with
      | some v => v
      | none => min x.1.hi (max x.1.lo (Config.openShare (64 * left + x.2) % (left + 1)))
  else
    let q := l.map (shareOf n l)
    let floors := q.map fun x => x.1 / x.2
    let extra := n - floors.sum
    let rem := q.map fun x => x.1 % x.2
    let order := sortBy (fun i => rem.foldl max 0 - nth 0 rem i) (List.range q.length)
    let up := order.take extra
    floors.zipIdx.map fun x => if up.contains x.2 then x.1 + 1 else x.1

/-- One switch of an evaluation (R143): donor by largest excess, receiver by largest deficit. -/
def Block.oneSwitch (b : Block) : Option Block :=
  let idx := List.range b.lanes.pers.length
  let excess := fun p => ((b.persLanes p).length : Int) - (b.persState p).target
  match argMax (fun p => -excess p) (idx.filter fun p => decide (excess p < 0)),
      argMax excess (idx.filter fun p => decide (0 < excess p) && (b.donorLane p).isSome) with
  | some r, some d => (b.donorLane d).map fun l => b.switchLane l r
  | _, _ => none

/-- Switches of an evaluation, at most n; with their number. -/
def Block.switches : Nat → Block → Nat → Block × Nat
  | 0, b, k => (b, k)
  | n + 1, b, k => match b.oneSwitch with
    | some b => Block.switches n b (k + 1)
    | none => (b, k)

/-- BALANCER_EVALUATION (R142, R143): 50,000 ticks after the last. -/
def Block.evaluate (b : Block) : Block :=
  if !b.mode.ready || !b.governorFree 4 || decide (b.now < b.lanes.evalAt + 50000) then b else
  let b := laneType.units.foldl Block.countLane (b.governs 4)
  let demand := b.demand
  let shares := (List.zip demand (List.zip b.lanes.pers b.img.inForce.pers)).map fun x =>
    ({ demand := x.1, lo := x.2.1.minNow, hi := x.2.2.maxLanes } : Share)
  let goal := if demand.sum = 0 then (List.range b.lanes.pers.length).map fun p => (b.persLanes p).length
    else targets b.dataLanes.length shares
  let pers := List.zipWith (fun (s : PersState) t => { s with target := t, busy := 0 }) b.lanes.pers goal
  let b := { b with lanes := { b.lanes with pers, evalAt := b.now, evaluations := satAdd 24 b.lanes.evaluations 1 } }
  let (b, n) := Block.switches b.img.inForce.switchLimit b 0
  { b with lanes := { b.lanes with lastSwitched := n, switches := satAdd 16 b.lanes.switches n } }

/-- BALANCER_EVALUATION. -/
def execBalancerEvaluation (s : State) : Host.Outcome State Fault Refusal := s.run Block.evaluate

/-- Personality p is starved (R144): it has work and no lane; or a retry for which every lane that carries or loads it is
excluded, while another personality can give one. -/
def Block.starved (b : Block) (p : Nat) : Bool :=
  let q := (b.persState p).queue
  !b.unservable p && b.hasDonor p &&
    ((!q.isEmpty && (b.persLanes p).isEmpty) ||
      q.any fun i => i.retry && (b.persLanes p).all fun l => i.excluded.contains l)

/-- STARVATION_SWITCH (R144). -/
def Block.starveSwitch (b : Block) (p : Nat) : Block :=
  if b.starved p then
    match (b.minDonor p).bind b.donorLane with
    | some l =>
      let b := b.switchLane l p
      { b with lanes := { b.lanes with starve := satAdd 16 b.lanes.starve 1 } }
    | none => b
  else b

/-- STARVATION_SWITCH. -/
def execStarvationSwitch (pers : Nat) (s : State) : Host.Outcome State Fault Refusal := s.run fun b => b.starveSwitch pers

/-- PERSONALITY_LOAD_DONE (01 R25): 2 µs after the load began the lane accepts dispatches. -/
def Block.loadDone (b : Block) (l : Nat) : Block :=
  let x := b.lane l
  if !b.inService l || b.now < x.loadAt then b
  else match x.role with
    | .loading p => b.modLane l fun x => { x with role := .data p, idleSince := b.now }
    | .keyLoading => b.modLane l fun x => { x with role := .key, idleSince := b.now }
    | _ => b

/-- PERSONALITY_LOAD_DONE. -/
def execPersonalityLoadDone (lane : Nat) (s : State) : Host.Outcome State Fault Refusal := s.run fun b => b.loadDone lane

/-! ## Mismatches (07 R158 to R160) -/

/-- Ticks within which a second mismatch quarantines a lane. -/
def mismatchWindow : Nat := 10000000

/-- The work on a lane is checked by re-encryption (R158). -/
def Block.reencrypts (b : Block) (j : Job) : Bool :=
  match j with
  | .entry k i =>
    match b.entry? k i with
    | some e => (e.d.family == Fam.sym && e.d.op == 2 && decide (e.d.var ≤ 1)) || (e.d.family == Fam.hash && e.d.var == 0x22)
        || e.d.family == Fam.key
    | none => false
  | .call u c =>
    match b.call? u c with
    | some r => (upTo 1 2 r.target && (r.op == 2 || r.op == 4)) || (r.target == 2 && r.op == 7) || r.target == 5
    | none => false

/-- LANE_MISMATCH: the first sends the work to a retry that excludes the lane; the retry's own ends it and quarantines both
lanes. -/
def Block.laneMismatch (b : Block) (l : Nat) (reencOnly : Bool) : Block :=
  match (b.lane l).job with
  | none => b
  | some j =>
    let x := b.lane l
    let reenc := reencOnly && b.reencrypts j
    let b := { b with lanes := { b.lanes with lastLane := l, reenc := if reenc then satAdd 16 b.lanes.reenc 1 else b.lanes.reenc } }
    let detail := if reenc then 2 else 1
    let b := b.freeUnit j
    match x.jobMism with
    | none => (b.retryJob j (x.jobRetry ++ [l]) (some b.now)).note 0x0031 1 l detail
    | some _ =>
      let b := { b with lanes := { b.lanes with double := satAdd 16 b.lanes.double 1 } }
      let b := b.failJob j St.faultDetected detail l
      let b := b.note 0x0031 2 l detail
      let b := match x.jobRetry.getLast? with | some f => b.quarantine f | none => b
      b.quarantine l

/-- LANE_MISMATCH. -/
def execLaneMismatch (lane : Nat) (reencOnly : Bool) (s : State) : Host.Outcome State Fault Refusal :=
  s.run fun b => b.laneMismatch lane reencOnly

/-- A retry that follows a mismatch of lane f at tick t has executed: counted; a second such mismatch of the lane within the
window quarantines it (R160). -/
def Block.retried (b : Block) (f t : Nat) : Block :=
  let b := { b with lanes := { b.lanes with single := satAdd 16 b.lanes.single 1 } }
  let second := match (b.unit f).loneMismatch with | some t0 => decide (t ≤ t0 + mismatchWindow) | none => false
  let b := b.modUnit f fun r => { r with loneMismatch := some t }
  if second then b.quarantine f else b

/-- A lane has no more work. -/
def Block.freeLane (b : Block) (l : Nat) : Block := b.modLane l fun x => x.freed b.now

/-- A KEY entry leaves lane l and waits, its unit time fixed; a retry that follows a mismatch is counted. -/
def Block.parkEntry (b : Block) (l : Nat) (e : Entry) : Block :=
  let x := b.lane l
  let b := (b.freeLane l).stopClock e
  match x.jobMism, x.jobRetry.getLast? with
  | some t, some f => b.retried f t
  | _, _ => b

/-- A data lane has computed its job: the result is released, with the lane's time; a call is marked served. -/
def Block.dataLaneDone (b : Block) (l p : Nat) : Block :=
  let x := b.lane l
  match x.job with
  | none => b
  | some j =>
    let used := b.laneCost p j
    let ready := match j with
      | .entry k i => (b.entry? k i).any fun e => e.res.isSome
      | .call u c => (b.call? u c).isSome
    if !ready then b else
    let b := (b.freeLane l).modPers p fun s => { s with busy := s.busy + (x.cost - x.counted) }
    let b : Block := match j with
      | .entry k i => match b.entry? k i with | some e => b.executed e used | none => b
      | .call u c => (b.chargeCall u c 0 used).modCx u (ctxIx c) fun y => { y with call := y.call.map fun r => { r with served := true, engine := l } }
    match x.jobMism, x.jobRetry.getLast? with
    | some t, some f => b.retried f t
    | _, _ => b

end Sys2Proof.Machine
end

