-- ==== Sys2Proof/Machine/Kem.lean ====
section
/-! DEFINITION. ML-KEM of FIPS 203 for the three parameter sets (09 R198, R200, R204). -/

namespace Sys2Proof.Kem

open Sys2Proof Lattice

/-- The parameters of a set: k, eta1, du, dv; eta2 is 2 in every set. -/
structure Params where
  k : Nat
  eta1 : Nat
  du : Nat
  dv : Nat

/-- The set of a VARIANT: 1 ML-KEM-512, 2 ML-KEM-768, else ML-KEM-1024. -/
def params : Nat → Params
  | 1 => ⟨2, 3, 10, 4⟩
  | 2 => ⟨3, 2, 10, 4⟩
  | _ => ⟨4, 2, 11, 5⟩

/-- The modulus. -/
def q : Nat := 3329

/-- The powers of the root of unity 17, in the order of the transform. -/
def zetas : Array Nat := ((List.range 128).map (fun i => BigNum.powMod 17 (bitRev 7 i) q)).toArray

/-- Zeta i. -/
def zeta (i : Nat) : Nat := zetas.getD i 0

/-- The transform. -/
def toNtt (f : Poly) : Poly := ntt q zeta 7 f

/-- The inverse transform. -/
def ofNtt (f : Poly) : Poly := invNtt q zeta 7 3303 f

/-- The 128 moduli of the base multiplication. -/
def gammas : Array Nat := ((List.range 128).map (fun i => BigNum.powMod 17 (2 * bitRev 7 i + 1) q)).toArray

/-- The product of two transforms. -/
def mulNtt (a b : Poly) : Poly :=
  mk (fun i =>
    let j := i / 2 * 2
    if i % 2 = 0 then (co a j * co b j + co a (j + 1) * co b (j + 1) % q * gammas.getD (i / 2) 0) % q
    else (co a j * co b (j + 1) + co a (j + 1) * co b j) % q)

/-- Two values from three bytes, those below q kept. -/
def sampleTake (blk : Bytes) : List Nat :=
  (chunks 3 blk).flatMap (fun c =>
    let n := ofLE c
    [n % 4096, n / 4096].filter (· < q))

/-- SampleNTT. -/
def sampleNtt (seed : Bytes) : Poly := ofList (sample 168 sampleTake 64 (shakeState .shake128 seed) [])

/-- SamplePolyCBD. -/
def sampleCbd (eta : Nat) (bs : Bytes) : Poly :=
  let x := ofLE bs
  let bits (o : Nat) := ((List.range eta).map (fun j => flag (x.testBit (o + j)))).sum
  mk (fun i => (bits (2 * i * eta) + q - bits (2 * i * eta + eta)) % q)

/-- PRF_eta. -/
def prf (eta : Nat) (s : Bytes) (n : Nat) : Bytes := Hash.xof .shake256 (s ++ [byte n]) (64 * eta)

/-- Compression to d bits. -/
def compress (d : Nat) (p : Poly) : Poly := mk (fun i => ((co p i * 2 ^ d * 2 + q) / (2 * q)) % 2 ^ d)

/-- Decompression from d bits. -/
def decompress (d : Nat) (p : Poly) : Poly := mk (fun i => (co p i * q * 2 + 2 ^ d) / 2 ^ (d + 1))

/-- Entry (i, j) of the matrix of a seed. -/
def matrix (rho : Bytes) (i j : Nat) : Poly := sampleNtt (rho ++ [byte j, byte i])

/-- The inner product of two lists of transforms. -/
def dot (a b : List Poly) : Poly := (List.zipWith mulNtt a b).foldl (add q) zero

/-- A list of polynomials that d-bit packed bytes spell. -/
def unpackVec (d : Nat) (bs : Bytes) : List Poly := (chunks (32 * d) bs).map (unpackPoly d)

/-- Byte encoding of a list of polynomials. -/
def packVec (d : Nat) (v : List Poly) : Bytes := v.flatMap (packPoly d)

/-- ML-KEM.KeyGen_internal: encapsulation key and decapsulation key of the two seeds. -/
def keyGen (pr : Params) (d z : Bytes) : Bytes × Bytes :=
  let g := Hash.hash .sha3_512 (d ++ [byte pr.k])
  let rho := g.take 32
  let sigma := g.drop 32
  let idx := List.range pr.k
  let s := idx.map (fun i => toNtt (sampleCbd pr.eta1 (prf pr.eta1 sigma i)))
  let e := idx.map (fun i => toNtt (sampleCbd pr.eta1 (prf pr.eta1 sigma (pr.k + i))))
  let t := idx.map (fun i => add q (dot (idx.map (matrix rho i)) s) (nth zero e i))
  let ek := packVec 12 t ++ rho
  (ek, packVec 12 s ++ ek ++ Hash.hash .sha3_256 ek ++ z)

/-- K-PKE.Encrypt. -/
def encrypt (pr : Params) (ek m r : Bytes) : Bytes :=
  let t := unpackVec 12 (ek.take (384 * pr.k))
  let rho := ek.drop (384 * pr.k)
  let idx := List.range pr.k
  let y := idx.map (fun i => toNtt (sampleCbd pr.eta1 (prf pr.eta1 r i)))
  let e1 := idx.map (fun i => sampleCbd 2 (prf 2 r (pr.k + i)))
  let e2 := sampleCbd 2 (prf 2 r (2 * pr.k))
  let u := idx.map (fun i => add q (ofNtt (dot (idx.map (fun j => matrix rho j i)) y)) (nth zero e1 i))
  let v := add q (add q (ofNtt (dot t y)) e2) (decompress 1 (unpackPoly 1 m))
  packVec pr.du (u.map (compress pr.du)) ++ packPoly pr.dv (compress pr.dv v)

/-- K-PKE.Decrypt. -/
def decrypt (pr : Params) (dk c : Bytes) : Bytes :=
  let u := (unpackVec pr.du (c.take (32 * pr.du * pr.k))).map (decompress pr.du)
  let v := decompress pr.dv (unpackPoly pr.dv (c.drop (32 * pr.du * pr.k)))
  let s := unpackVec 12 (dk.take (384 * pr.k))
  packPoly 1 (compress 1 (sub q v (ofNtt (dot s (u.map toNtt)))))

/-- The modulus check of an encapsulation key (FIPS 203 section 7.2): every coefficient below q. -/
def ekValid (pr : Params) (ek : Bytes) : Bool := (unpack 12 (ek.take (384 * pr.k))).all (· < q)

/-- The hash check of a decapsulation key (section 7.3). -/
def dkValid (pr : Params) (dk : Bytes) : Bool :=
  Hash.hash .sha3_256 (slice (384 * pr.k) (384 * pr.k + 32) dk) = slice (768 * pr.k + 32) 32 dk

/-- ML-KEM.Encaps_internal: ciphertext and shared secret. -/
def encaps (pr : Params) (ek m : Bytes) : Bytes × Bytes :=
  let g := Hash.hash .sha3_512 (m ++ Hash.hash .sha3_256 ek)
  (encrypt pr ek m (g.drop 32), g.take 32)

/-- ML-KEM.Decaps_internal, with implicit rejection (09 R204). -/
def decaps (pr : Params) (dk c : Bytes) : Bytes :=
  let ek := slice (384 * pr.k) (384 * pr.k + 32) dk
  let h := slice (768 * pr.k + 32) 32 dk
  let z := slice (768 * pr.k + 64) 32 dk
  let m := decrypt pr (dk.take (384 * pr.k)) c
  let g := Hash.hash .sha3_512 (m ++ h)
  if encrypt pr ek m (g.drop 32) = c then g.take 32 else Hash.xof .shake256 (z ++ c) 32

end Sys2Proof.Kem
end

