-- ==== Sys2Proof/Machine/TwinKex.lean ====
section
/-! DEFINITION. The twin handshake (14 R331) as far as its draws, key agreement and confirmation go, and what a new
session does to the partitions (R316, R330, R332). -/

namespace Sys2Proof.Machine

open Sys2Proof

/-- The x-coordinate that P-384 key agreement yields; none for a point that is not on the curve. -/
def ecdh384 (scalar : Nat) (point : Bytes) : Option Bytes :=
  let c := Ec.p384
  let x := ofBE (point.take 48)
  let y := ofBE (slice 48 48 point)
  if x < c.p ∧ y < c.p ∧ Ec.onCurve c x y then (Ec.mul c scalar (some (x, y))).map fun p => toBE 48 p.1 else none

/-! ## HELLO (R314, R331 step 1) -/

/-- The bytes of a HELLO payload, in the order of R314 (log entry 26). -/
def helloBytes (m : HelloMsg) : Bytes :=
  toLE 8 m.serial.toNat ++ toLE 8 m.leaseBase.toNat ++ fit 48 m.digest ++ toLE 512 m.home ++ fit 32 m.nonce

/-- The HOME vector of the image in force. -/
def Block.homeVector (b : Block) : Nat :=
  sumBy (fun e => if e.2.home then 2 ^ e.1 else 0) b.img.inForce.parts

/-- LEASE_BASE that a handshake of this block offers: that of a TWIN_ATTACH in progress, else of the pairing record. -/
def Twin.offeredBase (t : Twin) : BitVec 49 := match t.attach with | some (x, _) => x | none => t.leaseBase

/-- The HELLO of this block. -/
def Block.helloOf (b : Block) (serial : BitVec 64) (nonce : Bytes) : HelloMsg :=
  { serial, leaseBase := BitVec.ofNat 64 (b.twin.offeredBase.toNat * 32768), digest := b.img.inForce.tableDigest
    home := b.homeVector, nonce }

/-- The partitions that the image pairs, whether or not a pairing record exists. -/
def Block.imagePaired (b : Block) : List Nat := b.partitions.filter fun p => p != 0 && (b.cfg p).paired

/-- Table digests and LEASE_BASE are equal, and the HOME vectors complementary for every paired partition. -/
def Block.helloAgrees (b : Block) (own twin : HelloMsg) : Bool :=
  own.digest == twin.digest && own.leaseBase == twin.leaseBase &&
    b.imagePaired.all fun p => own.home.testBit p != twin.home.testBit p

/-- A handshake frame goes out: in the clear before a session, inside it otherwise. -/
def Block.sendOpen (b : Block) (words : Nat) (m : Sent) : Block :=
  match b.twin.session with
  | none => b.put m
  | some _ => b.sendFrame words fun _ => m

/-- The handshake changed. -/
def Block.modHs (b : Block) (f : Handshake → Handshake) : Block := { b with twin := { b.twin with hs := b.twin.hs.map f } }

/-- The modes in which a block takes part in a handshake: it executes or mirrors work only there (R329, R330). -/
def Mode.mirrors : Mode → Bool
  | .operational | .maintenance => true
  | .factory | .configure | .locked | .zeroized => false

/-- A block takes part in a handshake only while it holds a record or has a TWIN_ATTACH in progress (R330). -/
def Block.mayShake (b : Block) : Bool :=
  (b.twin.record || b.twin.attach.isSome) && b.twin.linkUp && b.mode.ready && b.mode.mode.mirrors && !b.mode.halted

/-! ## Its beginning and its end -/

/-- A TWIN_ATTACH in progress ends with a status. -/
def Block.endAttach (b : Block) (status detail : Nat) : Block :=
  match b.twin.attach with
  | some (_, k, i) =>
    let b := { b with twin := { b.twin with attach := none } }
    match b.entry? k i with
    | some e => (b.leaveEngine e (b.usedBy e)).finish e status detail e.engine 0 0
    | none => b
  | none => b

/-- HEN has stopped during a handshake: a TWIN_ATTACH ends ST_ENTROPY_UNAVAILABLE (R331). -/
def Block.hsNoEntropy (b : Block) : Block :=
  ({ b with twin := { b.twin with hs := none } }).endAttach St.entropy 1

/-- A handshake begins: the nonce of HELLO is drawn (15 R341). -/
def Block.beginHs (b : Block) (serial : BitVec 64) (rekey : Bool) : Block :=
  let b := b.unask .handshake
  let b := { b with twin := { b.twin with hs := some { started := b.now, serial, rekey, asked := true } } }
  if b.hen.phase = .stopped then b.hsNoEntropy else b.ask 2 32 .handshake

/-- A handshake fails: tables that disagree, detail 0x06; confirmation, 0x05 with AUTH_FAIL and a record at severity 2. -/
def Block.failHs (b : Block) (detail : Nat) : Block :=
  let b := b.unask .handshake
  let b := { b with twin := { b.twin with hs := none, authFail := b.twin.authFail || detail == 5 } }
  let b := if detail = 5 then b.noteTwin 0xFFFF 5 else b
  b.endAttach St.keyblockAuth detail

/-- The copy of partition p to the twin is to begin (R332). -/
def Block.startSync (b : Block) (p : Nat) : Block := b.modTw p fun t => { t with role := .syncSource, syncDone := none }

/-- A partition that the new pairing record pairs stands by, its submitted entries recorded, and watches its lease. -/
def Block.standBy (b : Block) (p : Nat) : Block :=
  Block.startWatch ((b.rewindRings p).modTw p fun _ => { role := .standby }) p

/-- A session is established (R331, R316): LOST clears; a TWIN_ATTACH writes the pairing record, and the partitions it
pairs stand by; a partition that runs alone here is copied to the twin. -/
def Block.newSession (b : Block) (k01 k10 : Bytes) (serial : BitVec 64) : Block :=
  let was := b.pairedParts
  let t := b.twin
  let t := { t with
    session := some { k01, k10, began := b.now, ackAt := b.now }
    hs := none, lost := false, serial := serial, sessions := satAdd 16 t.sessions 1, peer := none, heartbeatDue := b.now
    fill := [], unacked := [], parts := [] }
  let t := match t.attach with
    | some (x, _) => { t with record := true, leaseBase := x, recordSide := t.side, shaken := true, detaching := false }
    | none => t
  let b : Block := { b with twin := t }
  b.pairedParts.foldl (fun b p =>
    if !was.contains p then b.standBy p
    else match (b.part p).tw.role with
      | .solo => b.startSync p
      | .standby => b.startWatch p
      | _ => b) b

/-- New keys for the session in place (R331). -/
def Block.newKeys (b : Block) (k01 k10 : Bytes) : Block :=
  let s := b.twin.session.map fun s => { s with k01, k10, began := b.now, frames := 0 }
  { b with twin := { b.twin with session := s, hs := none } }

/-! ## Key agreement (R331 steps 2 to 6) -/

/-- Draws still wanted for n bytes. -/
def Block.hsDraw (b : Block) (h : Handshake) (n : Nat) : Block :=
  if h.asked then b
  else if b.hen.phase = .stopped then b.hsNoEntropy
  else (b.ask 2 (n - h.rnd.length) .handshake).modHs fun h => { h with asked := true }

/-- The HELLO of this block goes out once its nonce has been drawn. -/
def Block.hsHello (b : Block) (h : Handshake) : Block :=
  if h.rnd.length < 32 then b.hsDraw h 32 else
  let m := b.helloOf h.serial (h.rnd.take 32)
  (b.modHs fun h => { h with ownHello := some m, rnd := h.rnd.drop 32 }).sendOpen 12 (.hello m)

/-- Side 0 draws its ephemerals and sends KEX: an ML-KEM-768 pair and a P-384 scalar. -/
def Block.hsKex0 (b : Block) (h : Handshake) : Block :=
  if h.rnd.length < 112 then b.hsDraw h 112 else
  match Ec.scalarOf Ec.p384 (h.rnd.drop (h.rnd.length - 48)) with
  | none => b.hsDraw h (h.rnd.length + 48)
  | some d =>
    let (ek, dk) := Kem.keyGen (Kem.params 2) (h.rnd.take 32) (slice 32 32 h.rnd)
    let point := (Ec.encode Ec.p384 (Ec.mul Ec.p384 d (Ec.gen Ec.p384)))
    (b.modHs fun h => { h with ownKex := some (ek, point), kemDk := dk, scalar := d }).sendOpen 22 (.kex ek point)

/-- Side 1 answers a KEX: an encapsulation to the key and a P-384 point. -/
def Block.hsKex1 (b : Block) (h : Handshake) (ek : Bytes) : Block :=
  if ek.length ≠ 1184 ∨ !Kem.ekValid (Kem.params 2) ek then b.failHs 5
  else if h.rnd.length < 80 then b.hsDraw h 80 else
  match Ec.scalarOf Ec.p384 (h.rnd.drop (h.rnd.length - 48)) with
  | none => b.hsDraw h (h.rnd.length + 48)
  | some d =>
    let (ct, ss) := Kem.encaps (Kem.params 2) ek (h.rnd.take 32)
    let point := (Ec.encode Ec.p384 (Ec.mul Ec.p384 d (Ec.gen Ec.p384)))
    (b.modHs fun h => { h with ownKex := some (ct, point), shared := ss, scalar := d }).sendOpen 21 (.kex ct point)

/-- SHA-384 of every HELLO and KEX byte, side 0 before side 1. -/
def transcript (side : Nat) (own twin : HelloMsg) (ownKex twinKex : Bytes × Bytes) : Bytes :=
  let kb := fun (x : Bytes × Bytes) => x.1 ++ x.2
  Hash.hash .sha384 (if side = 0 then helloBytes own ++ helloBytes twin ++ kb ownKex ++ kb twinKex
    else helloBytes twin ++ helloBytes own ++ kb twinKex ++ kb ownKex)

/-- K_01, K_10, C_0 and C_1 of a shared secret Z (R331 steps 4 and 5). -/
def twinKeys (master z digest : Bytes) : Bytes × Bytes × Bytes × Bytes :=
  let kPair := Modes.kdfCmac master (ascii "WXTWN" ++ [0]) 256
  let k := Modes.kdfTwoStep kPair z digest 1024
  (slice 0 32 k, slice 32 32 k, slice 64 32 k, slice 96 32 k)

/-- The digest of a handshake whose four frames are known. -/
def Handshake.digest (h : Handshake) (side : Nat) : Option Bytes :=
  match h.ownHello, h.gotHello, h.ownKex, h.gotKex with
  | some a, some c, some x, some y => some (transcript side a c x y)
  | _, _, _, _ => none

/-- Both KEX are known: the keys are derived and CONFIRM goes out. -/
def Block.hsDerive (b : Block) (h : Handshake) (digest : Bytes) : Block :=
  match h.gotKex, b.gander.masterKey with
  | some (kem, point), some master =>
    let ss := if b.twin.side = 0 then Kem.decaps (Kem.params 2) h.kemDk kem else h.shared
    match ecdh384 h.scalar point with
    | none => b.failHs 5
    | some x =>
      if b.twin.side = 0 ∧ kem.length ≠ 1088 then b.failHs 5 else
      let (k01, k10, c0, c1) := twinKeys master (ss ++ x) digest
      let b := b.modHs fun h => { h with keys := some (k01, k10, c0, c1), scalar := 0, kemDk := [], shared := [] }
      b.sendOpen 3 (.confirm (Hash.hmac .sha256 (if b.twin.side = 0 then c0 else c1) digest))
  | _, _ => b

/-- The confirmation of the twin is compared (07 R148): the session, or its new keys, are in place on a match. -/
def Block.hsConfirm (b : Block) (h : Handshake) (digest : Bytes) : Block :=
  match h.keys, h.gotConfirm with
  | some (k01, k10, c0, c1), some v =>
    if Hash.hmac .sha256 (if b.twin.side = 0 then c1 else c0) digest = v then
      if h.rekey then b.newKeys k01 k10 else b.newSession k01 k10 ((h.gotHello.map (·.serial)).getD 0)
    else b.failHs 5
  | _, _ => b

/-- One step of a handshake, as far as what has been drawn and received allows. -/
def Block.hsStep (b : Block) : Block :=
  match b.twin.hs with
  | none => b
  | some h =>
    match h.ownHello, h.gotHello, h.ownKex, h.gotKex with
    | none, _, _, _ => b.hsHello h
    | some own, some got, none, kex =>
      if !b.helloAgrees own got then b.failHs 6
      else if b.twin.side = 0 then b.hsKex0 h
      else match kex with
        | some (ek, _) => b.hsKex1 h ek
        | none => b
    | some _, some _, some _, some _ =>
      match h.digest b.twin.side with
      | some d => if h.keys.isNone then b.hsDerive h d else b.hsConfirm h d
      | none => b
    | _, _, _, _ => b

/-- The handshake goes on as far as it can; three steps take it from a draw or frame to its next wait. -/
def Block.hsRun (b : Block) : Block := b.hsStep.hsStep.hsStep

/-- Random bytes reach the handshake. -/
def Block.hsBytes (b : Block) (out : Bytes) : Block :=
  (b.modHs fun h => { h with rnd := h.rnd ++ out, asked := false }).hsRun

end Sys2Proof.Machine
end

