-- ==== Sys2Proof/Machine/Hen.lean ====
section
/-! DEFINITION. HEN (15): health alarms and the stop, the conditioner and its pool, the CTR_DRBG instances, the order of
service, the RNG family, the register port and the factory test pattern. -/

namespace Sys2Proof.Machine

open Sys2Proof

/-! ## CTR_DRBG with AES-256, no derivation function (R340, SP 800-90A) -/

/-- The n-th counter after V. -/
def drbgCtr (v : Bytes) (n : Nat) : Bytes := toBE 16 ((ofBE v + n) % 2 ^ 128)

/-- n blocks of output after V. -/
def drbgBlocks (key v : Bytes) (n : Nat) : Bytes :=
  let ks := Aes.roundKeys key
  (List.range n).flatMap fun i => Aes.encWith ks (drbgCtr v (i + 1))

/-- The update step with 48 bytes of provided data. -/
def Drbg.update (d : Drbg) (data : Bytes) : Drbg :=
  let t := xorB (drbgBlocks d.key d.v 3) data
  { d with key := t.take 32, v := t.drop 32 }

/-- Instantiation from 48 bytes of entropy and the personalisation string: block serial, instance number, warm-reset count. -/
def Drbg.instantiate (serial inst warm now : Nat) (entropy : Bytes) : Drbg :=
  let pers := fit 48 (toBE 8 serial ++ toBE 1 inst ++ toBE 2 warm)
  let d : Drbg := { seeded := true, key := zeros 32, v := zeros 16, reseedAt := now, idleSince := now }
  d.update (xorB entropy pers)

/-- A reseed with 48 bytes of entropy. -/
def Drbg.reseed (d : Drbg) (entropy : Bytes) (now : Nat) : Drbg :=
  { d.update entropy with requests := 0, reseedAt := now, reseedDue := false, byDeadline := false }

/-- One request of n bytes, with its update step. -/
def Drbg.generate (d : Drbg) (n : Nat) : Bytes × Drbg :=
  let blocks := ceilDiv n 16
  let out := (drbgBlocks d.key d.v blocks).take n
  let d := ({ d with v := drbgCtr d.v blocks }).update (zeros 48)
  (out, { d with requests := d.requests + 1 })

/-! ## GANDER sources (16 R350) -/

/-- Whether a source is disabled by its fuse; BOND cannot be (16 R350). -/
def Fuses.disabled (f : Fuses) (n : Nat) : Bool := n != 17 && f.fusedOff.getLsbD n

/-- A source becomes active: it alarms unless its fuse disables it or it has been inactive for less than 1 ms (16 R350). -/
def Block.sourceActive (f : Fuses) (b : Block) (n : Nat) : Block :=
  let x := nth {} b.gander.sources n
  if x.active || f.disabled n then b else
  let quiet := match x.inactiveAt with | some t => decide (t + 1000 ≤ b.now) | none => true
  let g := b.gander
  { b with gander := { g with
      sources := modNth (fun s => { s with active := true, fired := s.fired || quiet }) n g.sources
      confirmed := if quiet then g.confirmed ++ [n] else g.confirmed } }

/-! ## Stopping (R344, R345) -/

/-- The engine index that a job's completion names. -/
def Block.engineOf (b : Block) (j : Job) : Nat :=
  match j with
  | .entry k i => match b.entry? k i with | some e => e.engine | none => 0xFF
  | .call u _ => 188 + u

/-- What a waiting consumer receives when HEN stops. -/
def Block.refuseDraw (b : Block) (r : HenReq) : Block :=
  match r.who with
  | .entry k i => b.noEntropy (.entry k i) 1 (b.engineOf (.entry k i))
  | .call u c => b.noEntropy (.call u c) 1 (188 + u)
  | .lane l => b.modLane l fun x => { x with seedAsked := false }
  | .unit u => if u < 168 then b.modOx (u - 112) fun x => { x with seedAsked := false }
      else b.modLat (u - 168) fun x => { x with seedAsked := false }
  | .handshake => b.hsNoEntropy
  | .gander | .fifo => b

/-- Every waiting request is refused. -/
def Block.refuseDraws (b : Block) : Block :=
  let rs := b.hen.waiting
  rs.foldl Block.refuseDraw { b with hen := { b.hen with waiting := [] } }

/-- HEN stops: pool and instances zeroed, the ENTROPY source active, the twin offered what needs draws, the rest refused. -/
def Block.stopHen (f : Fuses) (b : Block) (source test : Nat) : Block :=
  let starting := b.hen.phase != .running
  let b := { b with hen := { b.hen with
    phase := .stopped, phaseAt := b.now, startupFail := starting, failSource := source, failTest := test, pool := [], lastOut := []
    insts := List.replicate 16 {} } }
  let b := (Block.sourceActive f b 18).note 0x0040 2 source test
  (b.examineHandovers).refuseDraws

/-! ## Health alarms (R338) -/

/-- Ticks within which four alarms fail a source. -/
def alarmWindow : Nat := 1000

/-- HEN tests raw bits: after warm-up and before a stop. -/
def Hen.tests (h : Hen) : Bool :=
  match h.phase with
  | .testing | .filling | .seeding | .running => true
  | .off | .warmup | .stopped => false

/-- One alarm of a source counted and noted; its last alarms kept. -/
def Block.countAlarm (b : Block) (source test : Nat) : Block :=
  let h := b.hen
  let recent := fun (l : List Nat) => b.now :: l.filter fun t => decide (b.now < t + alarmWindow)
  let h := if source = 0 then
      (if test = 1 then { h with rct0 := satAdd 16 h.rct0 1, alarms0 := recent h.alarms0 }
        else { h with apt0 := satAdd 16 h.apt0 1, alarms0 := recent h.alarms0 })
    else
      (if test = 1 then { h with rct1 := satAdd 16 h.rct1 1, alarms1 := recent h.alarms1 }
        else { h with apt1 := satAdd 16 h.apt1 1, alarms1 := recent h.alarms1 })
  ({ b with hen := h }).note 0x0040 0 source test

/-- An alarm of a source by test 1 RCT or 2 APT: it fails in the start-up test and at the fourth alarm within the window; in
test-pattern mode it fails nothing. An alarm of the tick in which the other source stopped HEN is counted too (R348). -/
def Block.healthAlarm (f : Fuses) (b : Block) (source test : Nat) : Block :=
  if decide (1 < source) || !(upTo 1 2 test) then b
  else if b.hen.phase = .stopped ∧ b.hen.phaseAt = b.now ∧ b.hen.failSource ≠ source ∧ b.hen.failTest ≠ 3 then
    b.countAlarm source test
  else if !b.hen.tests then b else
  let b := b.countAlarm source test
  let n := (if source = 0 then b.hen.alarms0 else b.hen.alarms1).length
  if b.hen.testEn then b
  else if b.hen.phase = .testing ∨ 4 ≤ n then Block.stopHen f b source test
  else b

/-- HEN_HEALTH_ALARM. -/
def execHenHealthAlarm (source test : Nat) (s : State) : Host.Outcome State Fault Refusal :=
  s.runF fun f b => Block.healthAlarm f b source test

/-! ## The conditioner (R339, R347) -/

/-- Bits of a byte string, bit 0 of the first byte first. -/
def bitsOf (bs : Bytes) : List Bool := bs.flatMap fun x => (List.range 8).map fun i => x.getLsbD i

/-- Bytes from bits, the first bit in bit 0. -/
def bytesFrom (bits : List Bool) : Bytes :=
  let n := bits.length / 8
  toLE n ((bits.zipIdx.foldl (fun acc x => if x.1 then acc + 2 ^ x.2 else acc) 0))

/-- Raw bits as the sources deliver them: in test-pattern mode the named sources give the pattern. -/
def Hen.rawBits (h : Hen) (raw : Bytes) : List Bool :=
  (bitsOf raw).zipIdx.map fun x =>
    if h.testEn && h.sources.getLsbD (x.2 % 2) then h.pattern.getLsbD (x.2 / 2 % 64) else x.1

/-- The bits of one source. -/
def oneSource (n : Nat) (bits : List Bool) : List Bool := (bits.zipIdx.filter fun x => x.2 % 2 == n).map (·.1)

/-- CONDITIONER_OUTPUT: 2,048 tested bits give one output of the pool; equal outputs in a row alarm both sources. -/
def Block.condition (f : Fuses) (b : Block) (raw : Bytes) : Block :=
  if raw.length != 256 || !b.hen.tests then b else
  let bits := b.hen.rawBits raw
  let out := Hash.hash .sha3_256 (bytesFrom bits)
  let h := b.hen
  let same := h.lastOut == out
  let h := { h with lastOut := out }
  let h := if h.testEn then
      { h with cond := h.cond ++ out, raw := h.raw ++ bytesFrom (oneSource (if h.rawSel then 1 else 0) bits) }
    else if h.pool.length < 64 then { h with pool := h.pool ++ [out] } else h
  let b := { b with hen := h }
  if same then Block.healthAlarm f (Block.healthAlarm f b 0 2) 1 2 else b

/-- CONDITIONER_OUTPUT. -/
def execConditionerOutput (raw : Bytes) (s : State) : Host.Outcome State Fault Refusal :=
  s.runF fun f b => Block.condition f b raw

/-! ## The order of service (R341) and delivery -/

/-- A seed of zero is replaced by 1 (16 R352). -/
def meshSeed (x : Bytes) : BitVec 31 := let n := BitVec.ofNat 31 (ofLE x); if n = 0 then 1 else n

/-- An RNG descriptor's last bytes have come: its output is complete (R342). -/
def Block.rngDone (b : Block) (k : Nat) (i : Index) : Block :=
  match b.entry? k i with
  | some e =>
    if e.d.family = Fam.rng then (b.setResult e { out := e.rnd }).executed { e with res := some { out := e.rnd } } (e.d.dstLen * 512)
    else b
  | none => b

/-- The bytes of a finished request reach their consumer. -/
def Block.deliver (b : Block) (r : HenReq) (out : Bytes) : Block :=
  match r.who with
  | .lane l =>
    let b := b.seeded l
    { b with lanes := { b.lanes with reseeds := satAdd 32 b.lanes.reseeds 1 } }
  | .unit u =>
    let seed := fun (x : MathUnit) => { x with jobs := 0, seeded := true, seedAsked := false }
    if u < 168 then b.modOx (u - 112) seed else b.modLat (u - 168) seed
  | .gander => { b with gander := { b.gander with seeds := (chunks 4 out).map meshSeed } }
  | .entry k i =>
    let b := b.modEntry k i fun e => { e with rnd := e.rnd ++ out, asked := decide (0 < r.more) }
    if 0 < r.more then b.ask r.prio (min 65536 r.more) (.entry k i) r.pr r.inst (r.more - min 65536 r.more)
    else b.rngDone k i
  | .handshake => b.hsBytes out
  | .call u c => b.modCx u (ctxIx c) fun x => { x with call := x.call.map fun r => { r with rnd := r.rnd ++ out, asked := false } }
  | .fifo => { b with hen := { b.hen with fifo := b.hen.fifo ++ out } }

/-- The register port asks for 32 bytes when its FIFO holds 32 or less and none is on its way (R346). -/
def Block.refill (b : Block) : Block :=
  if b.hen.phase == .running && decide (b.hen.fifo.length ≤ 32) && !(b.hen.waiting.any fun r => r.who == .fifo) then
    b.ask 5 32 .fifo
  else b

/-- A reseed is due before the instance's next request (R340). -/
def Drbg.due (d : Drbg) (now : Nat) : Bool := decide (2 ^ 20 ≤ d.requests) || d.reseedDue || decide (d.reseedAt + 10000 ≤ now)

/-- DRBG_REQUEST_DONE: instance `inst` finishes the request it takes; one that must reseed first waits for two outputs of the
pool. -/
def Block.drawDone (b : Block) (inst : Nat) : Block :=
  match b.nextDraw inst with
  | none => b
  | some r =>
    let d := nth {} b.hen.insts inst
    let late := d.byDeadline || decide (d.reseedAt + 10000 ≤ b.now)
    let reseeds := r.pr || d.due b.now
    if b.hen.phase != .running || !d.seeded || (reseeds && decide (b.hen.pool.length < 2)) then b else
    let h := b.hen
    let h := if reseeds then { h with
        pool := h.pool.drop 2, reseeds := satAdd 32 h.reseeds 1
        prReseeds := if r.pr then satAdd 16 h.prReseeds 1 else h.prReseeds
        deadline := if late then satAdd 16 h.deadline 1 else h.deadline } else h
    let d := if reseeds then d.reseed ((b.hen.pool.take 2).flatten.take 48) b.now else d
    let (out, d) := if r.bytes = 0 then ([], d) else d.generate r.bytes
    let d := { d with idleSince := b.now }
    let h := { h with insts := h.insts.set inst d, waiting := h.waiting.erase r }
    (({ b with hen := h }).deliver r out).refill

/-- DRBG_REQUEST_DONE. -/
def execDrbgRequestDone (inst : Nat) (s : State) : Host.Outcome State Fault Refusal := s.run fun b => b.drawDone inst

/-- DRBG_RESEED_DEADLINE (R340). -/
def Block.reseedDeadline (b : Block) (inst : Nat) : Block :=
  let d := nth {} b.hen.insts inst
  if d.seeded && decide (d.reseedAt + 10000 ≤ b.now) then
    { b with hen := { b.hen with insts := b.hen.insts.set inst { d with reseedDue := true, byDeadline := true } } }
  else b

/-- DRBG_RESEED_DEADLINE. -/
def execDrbgReseedDeadline (inst : Nat) (s : State) : Host.Outcome State Fault Refusal := s.run fun b => b.reseedDeadline inst

/-! ## Start-up (R343) -/

/-- HEN_WARMUP_END. -/
def execHenWarmupEnd (s : State) : Host.Outcome State Fault Refusal :=
  s.run fun b => if b.hen.phase = .warmup then { b with hen := { b.hen with phase := .testing, phaseAt := b.now } } else b

/-- The start-up and known-answer tests have ended: a failure stops HEN; otherwise the conditioned outputs instantiate the
sixteen instances, two each, and fill the pool. -/
def Block.startupTested (f : Fuses) (b : Block) (failTest failSource : Nat) (raw : List Bytes) : Block :=
  if b.hen.phase != .testing then b
  else if failTest ≠ 0 then Block.stopHen f b (failSource % 2) (failTest % 4)
  else if raw.length < 32 ∨ raw.any (fun x => x.length != 256) then b
  else
    let outs := raw.map fun x => Hash.hash .sha3_256 x
    let inst := fun i => Drbg.instantiate f.serial.toNat i b.mode.warmCount b.now ((nth [] outs (2 * i) ++ nth [] outs (2 * i + 1)).take 48)
    { b with hen := { b.hen with
        phase := .seeding, phaseAt := b.now, insts := (List.range 16).map inst, pool := (outs.drop 32).take 64
        lastOut := (outs.getLast?).getD [] } }

/-- HEN_STARTUP_TEST_END. -/
def execHenStartupTestEnd (failTest failSource : Nat) (raw : List Bytes) (s : State) : Host.Outcome State Fault Refusal :=
  s.runF fun f b => Block.startupTested f b failTest failSource raw

/-- One seed of 32 bytes from the instances in turn: the i-th seed. -/
def Block.drawSeed (b : Block) (i : Nat) : Bytes × Block :=
  let (out, d) := (nth {} b.hen.insts (i % 16)).generate 32
  (out, { b with hen := { b.hen with insts := b.hen.insts.set (i % 16) d } })

/-- HEN_SEEDED: every lane, OX unit, lattice unit and GANDER has its seed; HEN runs. -/
def Block.seedAll (b : Block) : Block :=
  if b.hen.phase != .seeding then b else
  let b := (List.range 112).foldl (fun b l => (b.drawSeed l).2.deliver { prio := 1, bytes := 32, asked := b.now, who := .lane l } []) b
  let b := (List.range 76).foldl (fun b u => (b.drawSeed u).2.deliver { prio := 1, bytes := 32, asked := b.now, who := .unit (112 + u) } []) b
  let (seed, b) := b.drawSeed 12
  let b := b.deliver { prio := 1, bytes := 32, asked := b.now, who := .gander } seed
  let b := { b with hen := { b.hen with phase := .running, phaseAt := b.now }, mode := { b.mode with henSeeded := true } }
  b.refill

/-- HEN_SEEDED. -/
def execHenSeeded (s : State) : Host.Outcome State Fault Refusal :=
  s.run fun b => let b' := b.seedAll; { b' with mode := { b'.mode with bootStep := if b'.mode.henSeeded then max 3 b'.mode.bootStep else b'.mode.bootStep } }

/-! ## The RNG family (05 R112, R342) -/

/-- The instance idle longest. -/
def Block.idleInst (b : Block) : Nat :=
  (argMin (fun i => ((nth {} b.hen.insts i).idleSince : Int)) (List.range 16)).getD 0

/-- An RNG descriptor is dispatched to one instance, which serves all its requests; a GENERATE of no bytes ends at once, a
GENERATE_PR of no bytes makes its reseed. -/
def Block.rng (b : Block) (k : Nat) (i : Index) (op : Nat) : Block :=
  match b.entry? k i with
  | none => b
  | some e =>
    if e.d.family ≠ Fam.rng ∨ e.d.op ≠ op ∨ e.stage ≠ .queued ∨ !b.ordered e then b
    else if b.hen.phase = .stopped ∨ b.hen.testEn then b.noEntropy (.entry k i) 1 0xFF
    else
      let inst := b.idleInst
      let e' := { e with stage := .dispatched, engine := 0xE0 + inst, dispatchedAt := some b.now, asked := true }
      let b := b.modEntry k i fun _ => e'
      if e.d.dstLen = 0 ∧ op = 1 then b.rngDone k i
      else
        let n := min 65536 e.d.dstLen
        b.ask 4 n (.entry k i) (op == 2) (some inst) (e.d.dstLen - n)

/-- RNG_GENERATE. -/
def execRngGenerate (ring : Nat) (sub : Index) (s : State) : Host.Outcome State Fault Refusal := s.run fun b => b.rng ring sub 1

/-- GENERATE_PR. -/
def execGeneratePr (ring : Nat) (sub : Index) (s : State) : Host.Outcome State Fault Refusal := s.run fun b => b.rng ring sub 2

/-! ## The register port and the test pattern (R346, R347) -/

/-- A read is answered. -/
def Block.okRead (b : Block) (value : Nat) : Block :=
  { b with sport := { b.sport with lastOk := true, lastRead := BitVec.ofNat 64 value, taken := true } }

/-- A read of AV_RNG_DATA: 4 bytes leave the FIFO, or RNG_EMPTY sets; the high word alone consumes nothing. -/
def Block.readRng (b : Block) (addr size : Nat) : Block :=
  let h := b.hen
  let full := decide (4 ≤ h.fifo.length)
  if addr = 0x300C then b.okRead (flag full)
  else if full then
    let v := ofLE (h.fifo.take 4) + (if size = 8 then 2 ^ 32 else 0)
    (({ b with hen := { h with fifo := h.fifo.drop 4 } }).okRead v).refill
  else (({ b with hen := { h with rngEmpty := true } }).okRead 0).refill

/-- RNG_DATA_READ. -/
def execRngDataRead (addr size tag : Nat) (s : State) : Host.Outcome State Fault Refusal :=
  s.run fun b => b.access addr size tag false fun b => if tag = 0 then b.readRng addr size else b.refuseOwner addr tag false

/-- A write of AV_HEN_TEST: in FACTORY its fields are set, and TEST_EN unseeds every instance; elsewhere it is discarded and
REFUSED set where it carries a 1 in a field. -/
def Block.writeHenTest (b : Block) (data : BitVec 64) : Block :=
  let d := data.toNat
  let h := b.hen
  let set := bit d 0 || field d 2 1 != 0 || bit d 4
  if b.mode.mode = .factory then
    let h := { h with testEn := bit d 0, sources := BitVec.ofNat 2 (field d 2 1), rawSel := bit d 4, testRefused := h.testRefused && !bit d 8 }
    if bit d 0 ∧ !b.hen.testEn then
      ({ b with hen := { h with insts := List.replicate 16 {}, raw := [], cond := [] } }).refuseDraws
    else { b with hen := h }
  else { b with hen := { h with testRefused := set || (h.testRefused && !bit d 8) } }

/-- HEN_TEST_WRITE. -/
def execHenTestWrite (tag : Nat) (data : BitVec 64) (s : State) : Host.Outcome State Fault Refusal :=
  s.run fun b => b.globalWrite tag 0x3028 fun b => b.writeHenTest data

end Sys2Proof.Machine
end

