-- ==== Sys2Proof/Machine/Recorder.lean ====
section
/-! DEFINITION. The event recorder (17): the layout of its banks, stamps, extremes, commits, the archive and the read-out
window. -/

namespace Sys2Proof.Machine

open Sys2Proof

/-! ## Bank layout (R369, R370, R373) -/

/-- Two's complement in 16 bits. -/
def toS16 (x : Int) : Nat := (x % 65536).toNat

/-- The minimum and maximum of an extremes value; a value never sampled reads as given. -/
def extremeBytes (none_ : Nat) : Option (Int × Int) → Bytes
  | some (lo, hi) => toLE 2 (toS16 lo) ++ toLE 2 (toS16 hi)
  | none => toLE 2 none_ ++ toLE 2 none_

/-- The 24 bytes of an extremes entry; one that holds no sample is zero. -/
def Extremes.bytes (e : Extremes) : Bytes :=
  if e = {} then zeros 24 else
  toLE 4 e.hour ++ extremeBytes 0 e.ts ++ extremeBytes 0x8000 e.tj ++ extremeBytes 0 e.venc ++ extremeBytes 0 e.vbat ++ zeros 4

/-- The 32 bytes of a record (R373). -/
def Rec.bytes (r : Rec) : Bytes :=
  toLE 2 r.kind ++ toLE 1 r.sev ++ toLE 1 0 ++ toLE 4 r.subject ++ toLE 4 r.count ++ toLE 4 r.first ++ toLE 4 r.last ++
  toLE 4 r.cycle ++ toLE 4 r.detail ++ toLE 4 r.id

/-- One step of CRC-32C, reflected, for one bit. -/
def crcBit (c : BitVec 32) : BitVec 32 := if c.getLsbD 0 then (c >>> 1) ^^^ 0x82F63B78#32 else c >>> 1

/-- One byte into CRC-32C. -/
def crcByte (c : BitVec 32) (x : Byte) : BitVec 32 :=
  (List.range 8).foldl (fun c _ => crcBit c) (c ^^^ x.setWidth 32)

/-- CRC-32C. -/
def crc32c (bs : Bytes) : BitVec 32 := ~~~(bs.foldl crcByte 0xFFFFFFFF#32)

/-- Pieces at rising offsets laid out from an offset on, zeros between. -/
def laid : Nat → List (Nat × Bytes) → Bytes
  | _, [] => []
  | pos, (off, bs) :: rest => zeros (off - pos) ++ bs ++ laid (max pos off + bs.length) rest

/-- The contents of a copy as pieces, the CRC field as given. -/
def RecCopy.pieces (c : RecCopy) (crc : Nat) : List (Nat × Bytes) :=
  [(0x0000, toLE 4 0x09604543 ++ toLE 4 c.seq ++ toLE 4 c.opMinutes ++ toLE 4 c.powerCycles ++ toLE 4 c.archived
      ++ toLE 4 c.nextId ++ fit 32 c.digest ++ toLE 4 (flag c.reserveLock) ++ toLE 4 crc),
   (0x0040, c.lat.flatMap (toLE 8)), (0x00C0, c.depth.flatMap (toLE 8)),
   (0x0100, toLE 8 c.stallUs ++ toLE 8 c.overloadUs), (0x0110, c.tamper.flatMap (toLE 4)),
   (0x0160, c.mismatch.flatMap (toLE 2)), (0x0300, toLE 4 c.retirements ++ toLE 4 c.failovers ++ toLE 4 c.earlyWrites),
   (0x0310, c.life.bytes)] ++
  (c.hours.map fun h => (0x1000 + 24 * h.1, h.2.bytes)) ++
  ((sortBy (fun x : Nat × Rec => x.1) c.general).map fun x => (0x2000 + 32 * x.1, x.2.bytes)) ++
  (c.sev3.zipIdx.map fun x => (0xB000 + 32 * x.2, x.1.bytes))

/-- The 65,536 bytes of a copy (R369). -/
def RecCopy.bytes (c : RecCopy) : Bytes :=
  let raw := fun crc => fit 65536 (laid 0 (c.pieces crc))
  raw (crc32c (raw 0)).toNat

/-- The 8 bytes of a copy at an offset; the CRC is worked out where they hold it. -/
def RecCopy.word (c : RecCopy) (off : Nat) : Nat :=
  if off = 0x38 then ofLE (slice off 8 c.bytes) else ofLE (slice off 8 (fit 65536 (laid 0 (c.pieces 0))))

/-! ## Commits (R377) -/

/-- REC_COMMIT: AV_REC_CTRL.COMMIT. -/
def execRecCommit (tag : Nat) (s : State) : Host.Outcome State Fault Refusal :=
  s.run fun b => b.globalWrite tag 0x230010 Block.startCommit

/-- DEFERRED_COMMIT: a severity-2 or archive trigger that the spacing of R377 deferred. -/
def Block.deferredCommit (b : Block) : Block := if b.recorder.deferred then b.spacedCommit else b

/-- DEFERRED_COMMIT. -/
def execDeferredCommit (s : State) : Host.Outcome State Fault Refusal := s.run Block.deferredCommit

/-- REC_COMMIT_DONE: the commit ends. A bank that fails program-verify holds no valid commit; the other keeps the last good
one (R377). A trigger that came meanwhile starts one further commit. -/
def Block.commitDone (b : Block) (ok : Bool) : Block :=
  match b.recorder.committing with
  | none => b
  | some (c, toB) =>
    let r := { b.recorder with committing := none, queued := false }
    let r := if toB then { r with commitsB := satAdd 32 r.commitsB 1, bankB := if ok then some c else none }
      else { r with commitsA := satAdd 32 r.commitsA 1, bankA := if ok then some c else none }
    let again := b.recorder.queued
    let b := { b with recorder := r }
    let b : Block :=
      if ok then { b with recorder := { b.recorder with bank := toB, copy := { b.recorder.copy with seq := c.seq } } }
      else Block.note { b with recorder := { b.recorder with commitFail := true } } 0x0071 0 (flag toB) 0
    if again then b.startCommit else b

/-- REC_COMMIT_DONE. -/
def execRecCommitDone (ok : Bool) (s : State) : Host.Outcome State Fault Refusal := s.run fun b => b.commitDone ok

/-! ## Stamps and extremes (R368, R370) -/

/-- OP_MINUTE: a whole minute with PORST_N high; on each hour a commit starts, one with a severity-2 trigger of the same
tick (R368, R377, R381). -/
def Block.opMinute (b : Block) : Block :=
  if b.mode.porstLow || decide (b.now < b.recorder.minuteAt + 60000000) then b else
  let m := satAdd 32 b.recorder.copy.opMinutes 1
  let b := (Block.modRec b fun c => { c with opMinutes := m })
  let b := { b with recorder := { b.recorder with minuteAt := b.recorder.minuteAt + 60000000 } }
  if m % 60 = 0 then
    let b := if b.recorder.spacedAt == some b.now && b.recorder.committing.isSome && !b.recorder.queued then b.joinCommit
      else b.startCommit
    { b with recorder := { b.recorder with hourAt := some b.now } }
  else b

/-- OP_MINUTE. -/
def execOpMinute (s : State) : Host.Outcome State Fault Refusal := s.run Block.opMinute

/-- An extremes value takes a sample. -/
def widen (x : Int) : Option (Int × Int) → Option (Int × Int)
  | some (lo, hi) => some (min lo x, max hi x)
  | none => some (x, x)

/-- An extremes entry takes a sample of all values. -/
def Extremes.sample (e : Extremes) (ts tj venc vbat : Int) : Extremes :=
  { e with ts := widen ts e.ts, tj := widen tj e.tj, venc := widen venc e.venc, vbat := widen vbat e.vbat }

/-- EXTREMES_SAMPLE: once per millisecond with PORST_N high (R370). The measurements of the sentinel die show in
AV_GANDER_MEAS. -/
def Block.extremesSample (b : Block) (ts tj : Int) (venc vbat : Nat) : Block :=
  if b.mode.porstLow || decide (b.now < b.recorder.sampleAt + 1000) then b else
  let b := { b with recorder := { b.recorder with sampleAt := b.now }
                    gander := { b.gander with vencMv := venc, vbatMv := vbat, temp := ts } }
  b.modRec fun c =>
    let h := c.opMinutes / 60
    let old : Extremes := Table.get {} c.hours (h % 168)
    let entry : Extremes := if old.hour = h then old else { hour := h }
    { c with life := c.life.sample ts tj venc vbat
             hours := Table.set {} c.hours (h % 168) (entry.sample ts tj venc vbat) }

/-- EXTREMES_SAMPLE. -/
def execExtremesSample (ts tj : Int) (venc vbat : Nat) (s : State) : Host.Outcome State Fault Refusal :=
  s.run fun b => b.extremesSample ts tj venc vbat

/-! ## Archive (R379) -/

/-- The severity-3 records up to an ID are archived, where every one of them has been read in full. -/
def RecCopy.archiveTo (c : RecCopy) (n : Nat) : Option RecCopy :=
  let gone := sortBy (·.id) (c.sev3.filter fun r => decide (r.id ≤ n))
  let rest := sortBy (·.id) (c.sev3.filter fun r => decide (n < r.id))
  if gone.all fun r => r.read == 0xF then
    some { c with
      digest := Hash.hash .sha3_256 (c.digest ++ gone.flatMap Rec.bytes)
      archived := satAdd 32 c.archived gone.length
      sev3 := rest
      reserveLock := c.reserveLock && decide (512 < rest.length) }
  else none

/-- A write to AV_REC_ARCHIVE: REFUSED is cleared by its bit, then UP_TO archives or is refused (R379). -/
def Block.archiveWrite (b : Block) (w : Nat) : Block :=
  let b := { b with recorder := { b.recorder with refused := b.recorder.refused && !bit w 32 } }
  match b.recorder.copy.archiveTo (field w 31 0) with
  | some c => Block.spacedCommit { b with recorder := { b.recorder with copy := c } }
  | none => { b with recorder := { b.recorder with refused := true } }

/-- ARCHIVE. -/
def execArchive (tag : Nat) (upTo : BitVec 64) (s : State) : Host.Outcome State Fault Refusal :=
  s.run fun b => b.globalWrite tag 0x230018 fun b => b.archiveWrite upTo.toNat

/-! ## Read-out (R379, R380) -/

/-- The word of a record of the severity-3 areas at an offset of the working copy is marked as read. -/
def RecCopy.markRead (c : RecCopy) (off : Nat) : RecCopy :=
  if 0xB000 ≤ off then
    let i := (off - 0xB000) / 32
    { c with sev3 := modNth (fun r => { r with read := r.read ||| BitVec.ofNat 4 (2 ^ (off % 32 / 8)) }) i c.sev3 }
  else c

/-- The 8 bytes of a partition's statistics at an offset of its 128 bytes (R380). -/
def PartStats.word (p : PartStats) (off : Nat) : Nat :=
  ofLE (slice off 8 (p.lat.flatMap (toLE 4) ++ p.depth.flatMap (toLE 4) ++ toLE 8 p.stallUs ++ toLE 8 p.overloadUs
    ++ toLE 4 p.maxLat ++ toLE 4 p.maxDepth ++ zeros 8))

/-- Read data on the response channel, with an OK response. -/
def Block.answer (b : Block) (x : Nat) : Block :=
  { b with sport := { b.sport with lastRead := BitVec.ofNat 64 x, lastOk := true, taken := true } }

/-- A word of a flash bank; one that holds no valid commit reads a free value (log entry 44). -/
def Block.readBank (b : Block) (c : Option RecCopy) (off : Nat) : Block :=
  match c with
  | some c => b.answer (c.word off)
  | none => b.tick.answer (Config.blankFlash b.free).toNat

/-- A 64-bit read below the registers or above them in the recorder window. -/
def Block.recRead (b : Block) (addr : Nat) : Block :=
  let off := addr - 0x200000
  if off < 0x10000 then (b.answer (b.recorder.copy.word off)).modRec fun c => c.markRead off
  else if off < 0x20000 then b.readBank b.recorder.bankA (off - 0x10000)
  else if off < 0x30000 then b.readBank b.recorder.bankB (off - 0x20000)
  else if 0x80000 ≤ off ∧ off < 0x100000 then b.answer ((b.part ((off - 0x80000) / 128)).stats.word (off % 128))
  else b.answer 0

/-- REC_WORD_READ: a read of the working copy, of 64 bits (R29, R380), by partition 0 (R28). -/
def Block.recWordRead (b : Block) (addr size tag : Nat) : Block :=
  if addr < 0x200000 ∨ 0x210000 ≤ addr then b
  else b.access addr size tag false fun b => if tag = 0 then b.recRead addr else b.refuseOwner addr tag false

/-- REC_WORD_READ. -/
def execRecWordRead (addr size tag : Nat) (s : State) : Host.Outcome State Fault Refusal :=
  s.run fun b => b.recWordRead addr size tag

end Sys2Proof.Machine
end

