-- ==== Sys2Proof/Machine/Gander.lean ====
section
/-! DEFINITION. The sentinel (16): sources and their alarms, configuration, fuses, responses, and what main power and the
cell change. Voltages in mV, temperatures in 0.1 °C; a main power-up is the return of VENC. -/

namespace Sys2Proof.Machine

open Sys2Proof

/-! ## Configuration (R350, R354, R355) -/

/-- The default response of a source: 0 NOTE, 1 LOCK, 2 ERASE. -/
def defaultResponse (s : Nat) : Nat :=
  if s < 4 ∨ s = 12 then 1 else if s = 13 ∨ s = 18 then 0 else 2

/-- The floor of a source: its floor fuses; BOND is fixed at ERASE. -/
def Fuses.floorOf (f : Fuses) (s : Nat) : Nat := if s = 17 then 2 else nth 0 f.floor s

/-- The defaults raised to the floors. -/
def defaultCfg (f : Fuses) : List SrcCfg :=
  (List.range 19).map fun s => { response := max (defaultResponse s) (f.floorOf s) }

/-- The configuration in force of a source; where flash holds none, the defaults. -/
def Gander.cfgOf (f : Fuses) (g : Gander) (s : Nat) : SrcCfg := nth {} (if g.cfg.isEmpty then defaultCfg f else g.cfg) s

/-- The configuration that an image's sentinel entries put in force: a listed source takes its listed response and mode, the
higher response and PRBS where it is listed twice; another its default, raised to its floor (R354). -/
def sentinelCfg (f : Fuses) (listed : List (Nat × Nat × Bool)) : List SrcCfg :=
  (List.range 19).map fun s =>
    let mine := listed.filter fun x => x.1 == s
    if mine.isEmpty then { response := max (defaultResponse s) (f.floorOf s) }
    else { response := (mine.map fun x => x.2.1).foldl max 0, prbs := mine.any fun x => x.2.2, fromImage := true }

/-! ## Responses (R356, R357) -/

/-- An unlock that is being checked completes ST_KEY_USAGE 0x0C (R366). -/
def Block.failUnlock (b : Block) : Block :=
  { b with entries := b.entries.map fun e =>
      if e.isUnlock && e.stage == .dispatched && e.res.isNone then { e with res := some { status := St.keyUsage, detail := 0xC } } else e }

/-- Whether the mode takes a LOCK or ERASE only at the end of the next load (R357). -/
def Mode.early : Mode → Bool
  | .factory | .configure => true
  | _ => false

/-- LOCK on main power. -/
def Block.applyLock (b : Block) : Block :=
  let b := Block.failUnlock { b with gander := { b.gander.countLock with lockLatch := true } }
  if b.mode.mode.early then b else b.enterLocked 1

/-- The master key store zeroed. -/
def Gander.zeroStore (g : Gander) : Gander := { g with masterKey := none, mkKcv := [], mkLine := 0 }

/-- Keys in the compute die zeroed: slots, contexts, bays, the copies that engines hold, the session keys (R356). The twin
session ends with its keys. -/
def Block.zeroKeys (b : Block) : Block :=
  { b with
    keys := { b.keys with slots := [] }
    ctxs := []
    entries := b.entries.map fun e => { e with keys := e.keys.map fun k => { k with slotRec := { k.slotRec with secret := [] } } }
    pay := { b.pay with cores := b.pay.cores.map fun k => (k.1, { k.2 with ctxs := k.2.ctxs.map fun x => { x with bay := [] } }) }
    twin := { b.twin with session := none, hs := none } }

/-- ERASE on main power: the store is zeroed, MK_INSTALLED clears with it (log entry 50), the block is LOCKED with cause 2
except in FACTORY and CONFIGURE, and the keys are zeroed after the fault notice. -/
def Block.applyErase (b : Block) : Block :=
  let g := { b.gander.countLock.zeroStore with eraseLatch := true, mkInstalled := false }
  let b := Block.failUnlock { b with gander := g }
  (if b.mode.mode.early then b else b.enterLocked 2).zeroKeys

/-- A response on main power. -/
def Block.respond (b : Block) (r : Nat) : Block :=
  if r = 0 then b else
  let b : Block := { b with gander := { b.gander with applied := r } }
  if r = 1 then b.applyLock else b.applyErase

/-- A response on the cell alone. -/
def Gander.respondCell (g : Gander) (r : Nat) : Gander :=
  if r = 0 then g
  else if r = 1 then { g.countLock with applied := r, lockLatch := true }
  else { g.countLock.zeroStore with applied := r, eraseLatch := true }

/-- An alarm held on the cell: in the buffer of 16, or counted for its source (R356). -/
def Gander.hold (g : Gander) (s r : Nat) : Gander :=
  if g.cellBuf.length < 16 then { g with cellBuf := g.cellBuf ++ [(s, r)] }
  else { g with cellOver := Table.modify 0 g.cellOver s (fun n => n + 1) }

/-- An alarm in the recorder, at the severity of its source's response (R356, 17 R374). -/
def Block.noteAlarm (f : Fuses) (b : Block) (s r : Nat) : Block :=
  if s = 32 then b.note 0x0003 3 13 0 else b.note 0x0001 ((Gander.cfgOf f b.gander s).response + 1) s r

/-- The evaluation of the confirmed alarms (R358): the highest response is applied once, unless as high a one still stands;
every source is recorded, or held on the cell. -/
def Block.evalAlarms (f : Fuses) (b : Block) : Block :=
  let ss := b.gander.confirmed
  if ss.isEmpty then b else
  let r := (ss.map fun s => (Gander.cfgOf f b.gander s).response).foldl max 0
  let r := if b.gander.applied < r then r else 0
  let b := { b with gander := { b.gander with confirmed := [] } }
  if b.gander.vencPresent then ss.foldl (fun b s => Block.noteAlarm f b s r) (b.respond r)
  else { b with gander := ss.foldl (fun g s => g.hold s r) (b.gander.respondCell r) }

/-- A source's condition holds: it becomes active and alarms (R350); on the cell it is evaluated at once (R358). -/
def Block.alarm (f : Fuses) (b : Block) (s : Nat) : Block :=
  let b := Block.sourceActive f b s
  if b.gander.vencPresent then b else Block.evalAlarms f b

/-- GANDER_EVALUATION. -/
def execGanderEvaluation (s : State) : Host.Outcome State Fault Refusal := s.runF Block.evalAlarms

/-! ## Sources (R350, R352) -/

/-- CASE_ALARM. -/
def execCaseAlarm (n : Nat) (s : State) : Host.Outcome State Fault Refusal := s.runF fun f b => Block.alarm f b n

/-- Mismatches of a loop are counted (AV_GANDER_MESH). -/
def Block.countMesh (b : Block) (n k : Nat) : Block :=
  if k = 0 then b else
  { b with gander := { b.gander with lastLoop := n, mismatches := satAdd 32 b.gander.mismatches k } }

/-- MESH_ALARM: 8 mismatches within 64 chips on main power (R352). -/
def execMeshAlarm (n mismatches : Nat) (s : State) : Host.Outcome State Fault Refusal :=
  s.runF fun f b =>
    if !b.gander.vencPresent then b
    else if 8 ≤ mismatches then Block.alarm f (b.countMesh n mismatches) (4 + n)
    else b.countMesh n mismatches

/-- TEMP's condition. -/
def tempOut (t : Int) : Bool := decide (t < -450) || decide (1300 < t)

/-- Cell exhaustion (R351): VBAT below 2.2 V with VENC absent; ERASE, whatever the configuration. -/
def Block.exhaust (b : Block) (mv : Nat) : Block :=
  let x := nth {} b.gander.sources 13
  if b.gander.vencPresent || decide (2200 ≤ mv) || x.active then b else
  let g : Gander := { b.gander with vbatMv := mv, sources := modNth (fun s => { s with active := true, fired := true }) 13 b.gander.sources }
  let r := if g.applied < 2 then 2 else 0
  { b with gander := (g.respondCell r).hold 32 r }

/-- CELL_EXHAUSTION. -/
def execCellExhaustion (mv : Nat) (s : State) : Host.Outcome State Fault Refusal := s.run fun b => b.exhaust mv

/-- MESH_BURST (R352): on the cell, 4 mismatches of a loop within the burst; temperature, bond and cell with it. -/
def execMeshBurst (mismatches : List Nat) (vbatMv : Nat) (temp : Int) (bondOpen : Bool) (s : State) : Host.Outcome State Fault Refusal :=
  s.runF fun f b =>
    if b.gander.vencPresent then b else
    let b : Block := { b with gander := { b.gander with vbatMv := vbatMv, temp := temp } }
    let b := mismatches.zipIdx.foldl (fun b x =>
      let b := Block.countMesh b x.2 x.1
      if 4 ≤ x.1 then Block.alarm f b (4 + x.2) else b) b
    let b := if tempOut temp then Block.alarm f b 14 else b
    let b := if bondOpen then Block.alarm f b 17 else b
    b.exhaust vbatMv

/-- VENC_ALARM: above 65.0 V, or 4.0 to 8.0 V; armed while VENC is present. -/
def execVencAlarm (mv : Nat) (s : State) : Host.Outcome State Fault Refusal :=
  s.runF fun f b =>
    if b.gander.vencPresent && (decide (65000 < mv) || (decide (4000 ≤ mv) && decide (mv ≤ 8000))) then
      Block.alarm f { b with gander := { b.gander with vencMv := mv } } 12
    else b

/-- VBAT_ALARM: outside 2.2 to 3.6 V; armed while VENC is present. -/
def execVbatAlarm (mv : Nat) (s : State) : Host.Outcome State Fault Refusal :=
  s.runF fun f b =>
    if b.gander.vencPresent && (decide (mv < 2200) || decide (3600 < mv)) then
      Block.alarm f { b with gander := { b.gander with vbatMv := mv } } 13
    else b

/-- TEMP_ALARM. -/
def execTempAlarm (temp : Int) (s : State) : Host.Outcome State Fault Refusal :=
  s.runF fun f b =>
    if tempOut temp then Block.alarm f { b with gander := { b.gander with temp := temp } } 14 else b

/-- A glitch of source 15 or 16, armed on main power with PORST_N high; the source counts as active for 1 ms after its last
event. -/
def Block.glitch (f : Fuses) (b : Block) (s : Nat) : Block :=
  if !b.gander.vencPresent || b.mode.porstLow then b else
  let b := Block.alarm f b s
  { b with gander := { b.gander with
      sources := modNth (fun x => if x.active then { x with inactiveAt := some b.now } else x) s b.gander.sources } }

/-- CLK_GLITCH. -/
def execClkGlitch (s : State) : Host.Outcome State Fault Refusal := s.runF fun f b => Block.glitch f b 15

/-- VOLT_GLITCH. -/
def execVoltGlitch (s : State) : Host.Outcome State Fault Refusal := s.runF fun f b => Block.glitch f b 16

/-- BOND_ALARM. -/
def execBondAlarm (s : State) : Host.Outcome State Fault Refusal := s.runF fun f b => Block.alarm f b 17

/-- Sources go inactive; where none configured LOCK or ERASE stays active, an applied response no longer stands. -/
def Gander.quiet (f : Fuses) (g : Gander) (now : Nat) (ss : List Nat) : Gander :=
  let rest : List SrcRec := g.sources.zipIdx.map fun (x, i) =>
    if (ss.contains i && x.active) = true then { x with active := false, inactiveAt := some now } else x
  let lasting := rest.zipIdx.any fun x => x.1.active && decide (0 < (g.cfgOf f x.2).response)
  { g with sources := rest, applied := if lasting then g.applied else 0 }

/-- SOURCE_INACTIVE: a source's condition has ended; a glitch's 1 ms has run out; ENTROPY stays active while HEN is stopped
(R350). -/
def Block.sourceInactive (f : Fuses) (b : Block) (s : Nat) : Block :=
  let x := nth {} b.gander.sources s
  let held := (s == 15 || s == 16) && (match x.inactiveAt with | some t => decide (b.now < t + 1000) | none => false)
  if !x.active || held || (s == 18 && b.hen.phase == .stopped) then b
  else { b with gander := b.gander.quiet f b.now [s] }

/-- SOURCE_INACTIVE. -/
def execSourceInactive (source : Nat) (s : State) : Host.Outcome State Fault Refusal :=
  s.runF fun f b => Block.sourceInactive f b source

/-! ## Supplies (R350, R354, R360, 17 R378) -/

/-- VENC_ABSENT: VENC below 4.0 V; GANDER runs on VBAT. VENC and VBAT are no longer armed. The recorder's working copy is
lost, and a bank being written fails its CRC (17 R381). -/
def Block.vencAbsent (f : Fuses) (b : Block) (mv : Nat) : Block :=
  if !b.gander.vencPresent || decide (4000 ≤ mv) then b else
  let r := b.recorder
  let r := match r.committing with
    | some (_, true) => { r with bankB := none }
    | some (_, false) => { r with bankA := none }
    | none => r
  { b with
    gander := { b.gander.quiet f b.now [12, 13] with vencPresent := false, vencMv := mv }
    recorder := { r with committing := none, queued := false, deferred := false } }

/-- VENC_ABSENT. -/
def execVencAbsent (mv : Nat) (s : State) : Host.Outcome State Fault Refusal := s.runF fun f b => Block.vencAbsent f b mv

/-- SEQ a is higher than SEQ b (17 R378). -/
def seqHigher (a b : Nat) : Bool := decide (0 < (a + 2 ^ 32 - b % 2 ^ 32) % 2 ^ 32) && decide ((a + 2 ^ 32 - b % 2 ^ 32) % 2 ^ 32 < 2 ^ 31)

/-- The recorder at main power-up: the valid bank of higher SEQ becomes the working copy; with none it starts empty (17
R378). -/
def Recorder.powerUp (r : Recorder) (now : Nat) : Recorder :=
  let fresh : Recorder := { bankA := r.bankA, bankB := r.bankB, bank := r.bank, commitsA := r.commitsA, commitsB := r.commitsB
                            minuteAt := now, sampleAt := now }
  match r.bankA, r.bankB with
  | some a, some c => if seqHigher c.seq a.seq then { fresh with copy := c, bank := true } else { fresh with copy := a, bank := false }
  | some a, none => { fresh with copy := a, bank := false }
  | none, some c => { fresh with copy := c, bank := true }
  | none, none => { fresh with noneValidSeen := true }

/-- The check of R360: MK_INSTALLED without a MARKER, no ERASE having zeroed the store. Behind an ERASE on the cell
MK_INSTALLED clears now (log entry 50). -/
def Block.storeCheck (b : Block) : Block :=
  let g := b.gander
  if !g.mkInstalled || g.masterKey.isSome then b
  else if g.eraseLatch then { b with gander := { g with mkInstalled := false } }
  else Block.note { b with gander := { g.countLock with eraseLatch := true, mkInstalled := false } } 0x0003 3 13 0

/-- VENC_UP. -/
def Block.vencUp (f : Fuses) (b : Block) (mv : Nat) (cfgOk cellKept : Bool) : Block :=
  if b.gander.vencPresent || decide (mv < 4000) then b else
  let g := b.gander
  let g := if cellKept then g
    else { g.zeroStore with lockSeq := 0, inverted := false, cellBuf := [], cellOver := [], seeds := List.replicate 8 1 }
  let g : Gander := { g.quiet f b.now [13] with vencPresent := true, vencMv := mv }
  let seq := if g.lockSeq.toNat < g.lockSeqFlash.toNat then g.lockSeqFlash else g.lockSeq
  let held := g.cellBuf
  let counts := g.cellOver
  let b := { b with
    recorder := b.recorder.powerUp b.now
    gander := { g with lockSeq := seq, lockSeqFlash := seq, cellBuf := [], cellOver := [], cfg := if cfgOk then g.cfg else [] } }
  let b := if b.recorder.noneValidSeen then b.note 0x0070 0 0 0 else b
  let b := if cfgOk then b else b.note 0x0004 2 0 0
  let b := b.storeCheck
  let b := held.foldl (fun b x => Block.noteAlarm f b x.1 x.2) b
  counts.foldl (fun b x => Block.note b 0x0002 0 x.1 x.2) b

/-- VENC_UP. -/
def execVencUp (mv : Nat) (cfgOk cellKept : Bool) (s : State) : Host.Outcome State Fault Refusal :=
  s.runF fun f b => Block.vencUp f b mv cfgOk cellKept

/-- STORE_INVERSION: every 24 hours, on either supply; an ERASE that is due goes first and the inversion is not performed
(R359, R366). -/
def Block.storeInversion (f : Fuses) (b : Block) : Block :=
  let g := b.gander
  if b.now < g.invertedAt + 86400000000 then b else
  let erase := g.confirmed.any fun s => (g.cfgOf f s).response == 2
  { b with gander := { g with invertedAt := b.now, inverted := if erase then g.inverted else !g.inverted } }

/-- STORE_INVERSION. -/
def execStoreInversion (s : State) : Host.Outcome State Fault Refusal := s.runF Block.storeInversion

/-! ## Fuses (R355, R367) -/

/-- A write to AV_GANDER_FUSE: the W1C fields, then GO. -/
def Block.fuseWrite (f : Fuses) (b : Block) (w : Nat) : Block :=
  let g := { b.gander with fuseDone := b.gander.fuseDone && !bit w 9, fuseRefused := b.gander.fuseRefused && !bit w 10 }
  let src := field w 4 0
  let act := field w 6 5
  let bad := b.mode.mode != .factory || g.blow.isSome || decide (19 ≤ src) || (act == 3 && src == 17) ||
    (act == 1 && decide (1 < f.floorOf src))
  { b with gander :=
      if !bit w 8 then g
      else if bad then { g with fuseRefused := true }
      else if act = 0 then g
      else { g with blow := some (src, act, b.now + 100) } }

/-- FUSE_BLOW. -/
def execFuseBlow (tag : Nat) (data : BitVec 64) (s : State) : Host.Outcome State Fault Refusal :=
  s.runF fun f b => b.globalWrite tag 0x300200 fun b => Block.fuseWrite f b (data.toNat % 2 ^ 32)

/-- A blown fuse: floors only rise, a disable stays. -/
def Fuses.blow (f : Fuses) (src act : Nat) : Fuses :=
  if act = 3 then { f with fusedOff := f.fusedOff ||| BitVec.ofNat 19 (2 ^ src) }
  else { f with floor := modNth (fun x => max x act) src f.floor }

/-- FUSE_BLOW_DONE: 100 µs after GO. -/
def execFuseBlowDone (s : State) : Host.Outcome State Fault Refusal :=
  match s.blk.gander.blow with
  | some (src, act, t) =>
    if t ≤ s.blk.now then
      .next { s with
        fuses := s.fuses.blow src act
        blk := { s.blk with gander := { s.blk.gander with blow := none, fuseDone := true } } }
    else .next s
  | none => .next s

end Sys2Proof.Machine
end

