-- ==== Sys2Proof/Machine/KeyBlock.lean ====
section
/-! DEFINITION. ANSI X9.143 key blocks (10 R217, R218, R224 to R226): header and optional blocks, algorithm codes, the
permitted attributes, the key-block protection of versions D and B, and the range checks of private keys (08 R186, 09 R202).
What X9.143 itself fixes (field positions, key derivation data, padding block) is PRESUMED from the standard (log entry 17). -/

namespace Sys2Proof.KeyBlock

open Sys2Proof Machine

/-- A header with its optional blocks, each an ID and its data. -/
structure Header where
  version : Nat
  usage : Bytes
  alg : Nat
  mode : Nat
  kvn : Bytes
  exportc : Nat
  blocks : List (Bytes × Bytes)

/-- A failure: status and detail. -/
abbrev Fault := Nat × Nat

/-! ## Characters -/

/-- A character is one of a string's. -/
def among (c : Nat) (t : String) : Bool := t.toList.any fun x => x.toNat == c

/-- A decimal digit. -/
def isDigit (c : Nat) : Bool := decide (0x30 ≤ c) && decide (c ≤ 0x39)

/-- A hexadecimal character, upper case. -/
def isHex (c : Byte) : Bool := among c.toNat "0123456789ABCDEF"

/-- A letter or digit. -/
def isAlnum (c : Nat) : Bool := isDigit c || (decide (0x41 ≤ c) && decide (c ≤ 0x5A)) || (decide (0x61 ≤ c) && decide (c ≤ 0x7A))

/-- Printable ASCII. -/
def isPrintable (c : Byte) : Bool := decide (0x20 ≤ c.toNat) && decide (c.toNat ≤ 0x7E)

/-- The number that hexadecimal characters spell. -/
def hexNum (bs : Bytes) : Option Nat :=
  if !bs.isEmpty && bs.all isHex then
    some (bs.foldl (fun n c => 16 * n + (hexVal c).getD 0) 0)
  else none

/-- The number that decimal characters spell. -/
def decNum (bs : Bytes) : Option Nat := if bs.isEmpty then none else decVal bs

/-- n hexadecimal characters of a number. -/
def hexOf (n x : Nat) : Bytes := (List.range n).map fun i => hexChar (x / 16 ^ (n - 1 - i) % 16)

/-! ## Header (R224 rows 1 and 2, R226 step 1) -/

/-- Key usages that X9.143 defines, the numeric ones being its proprietary range. -/
def usageDefined (u : Bytes) : Bool :=
  let known := ["B0", "B1", "B2", "B3", "C0", "D0", "D1", "D2", "E0", "E1", "E2", "E3", "E4", "E5", "E6", "I0", "K0", "K1", "K2", "K3",
    "K4", "M0", "M1", "M2", "M3", "M4", "M5", "M6", "M7", "M8", "P0", "S0", "S1", "S2", "V0", "V1", "V2", "V3", "V4"]
  (known.any fun k => ascii k == u) || (isDigit (u.headD 0).toNat && u.all fun c => isAlnum c.toNat)

/-- The fields of a 16-byte header after the version ID have values that X9.143 defines. -/
def fieldsDefined (h : Bytes) : Bool :=
  (h.drop 1).all isPrintable && usageDefined (slice 5 2 h) &&
  (let a := (nth 0 h 7).toNat; among a "ADEHRST" || isDigit a) &&
  (let m := (nth 0 h 8).toNat; among m "BCDEGNSTVXY" || isDigit m) &&
  among (nth 0 h 11).toNat "ENS" && (decNum (slice 12 2 h)).isSome && slice 14 2 h == ascii "00"

/-! ## Optional blocks (R224 row 3) -/

/-- One optional block from the front: ID, data, the bytes after it. A length of 00 is followed by the number of
characters of an extended length. -/
def takeBlock (t : Bytes) : Option (Bytes × Bytes × Bytes) := do
  let id := t.take 2
  if id.length < 2 || !(id.all fun c => isAlnum c.toNat) then none
  let n ← hexNum (slice 2 2 t)
  let (total, head) ← if n = 0 then do
      let c ← hexNum (slice 4 2 t)
      let n ← hexNum (slice 6 c t)
      pure (n, 6 + c)
    else pure (n, 4)
  let data := slice head (total - head) t
  if total < head || t.length < total || !(data.all isPrintable) then none
  return (id, data, t.drop total)

/-- The hash code that an HM value names (R107, R217). -/
def hmCode (v : Bytes) : Option Nat :=
  (([("10", 0xF), ("20", 1), ("21", 2), ("22", 3), ("23", 4), ("30", 5), ("31", 6), ("32", 7), ("33", 8)] : List (String × Nat)).find? fun x =>
    ascii x.1 == v).map (·.2)

/-- The HM value of a hash code. -/
def hmValue (h : Nat) : Bytes :=
  (([(0xF, "10"), (1, "20"), (2, "21"), (3, "22"), (4, "23"), (5, "30"), (6, "31"), (7, "32"), (8, "33")] : List (Nat × String)).find? fun x =>
    x.1 == h).elim [] fun x => ascii x.2

/-- The algorithm character of a code (R217); 0 where the code is not of the table. -/
def charOf (code : Nat) : Nat :=
  let c := fun (x : String) => (x.toList.headD '0').toNat
  if code = 1 ∨ code = 2 then c "T"
  else if 3 ≤ code ∧ code ≤ 5 then c "A"
  else if (0x11 ≤ code ∧ code ≤ 0x18) ∨ code = 0x1F then c "H"
  else if code = 0x20 then c "R"
  else if (0x21 ≤ code ∧ code ≤ 0x24) ∨ (0x30 ≤ code ∧ code ≤ 0x33) then c "E"
  else if (0x41 ≤ code ∧ code ≤ 0x43) ∨ (0x51 ≤ code ∧ code ≤ 0x53) ∨ code = 0x60 ∨ code = 0x70 then c "1"
  else 0

/-- A value of 1W: code and size. -/
def oneW (v : Bytes) : Option (Nat × Nat) := do
  if v.length ≠ 6 then none
  let code ← hexNum (v.take 2)
  let size ← hexNum (v.drop 2)
  if charOf code = 0 then none
  return (code, size)

/-- Whether an optional block is acceptable. -/
def blockOk (x : Bytes × Bytes) : Bool :=
  if x.1 == ascii "HM" then (hmCode x.2).isSome
  else if x.1 == ascii "1W" then (oneW x.2).isSome
  else !isDigit (x.1.headD 0).toNat

/-- n optional blocks from the front, and what follows them. -/
def takeBlocks : Nat → Bytes → Option (List (Bytes × Bytes) × Bytes)
  | 0, t => some ([], t)
  | n + 1, t => do
    let (id, data, rest) ← takeBlock t
    if !blockOk (id, data) then none
    let (l, rest) ← takeBlocks n rest
    return ((id, data) :: l, rest)

/-- As many optional blocks as there are bytes. -/
def allBlocks : Nat → Bytes → Option (List (Bytes × Bytes))
  | 0, t => if t.isEmpty then some [] else none
  | n + 1, t =>
    if t.isEmpty then some [] else do
      let (id, data, rest) ← takeBlock t
      if !blockOk (id, data) then none
      let l ← allBlocks n rest
      return (id, data) :: l

/-- The data of the first block with an ID. -/
def Header.find (h : Header) (id : String) : Option Bytes := (h.blocks.find? fun x => x.1 == ascii id).map (·.2)

/-- The 1W block. -/
def Header.w1 (h : Header) : Option (Nat × Nat) := (h.find "1W").bind oneW

/-- The code that HM gives. -/
def Header.hm (h : Header) : Option Nat := ((h.find "HM").bind hmCode).map (0x10 + ·)

/-- A block that R217 requires is present; without a key the code of T, A and R keys comes from 1W. -/
def Header.requiredPresent (h : Header) (noKey : Bool) : Bool :=
  let is := fun (t : String) => among h.alg t
  (!is "H" || h.hm.isSome) && (!is (if noKey then "E1TAR" else "E1") || h.w1.isSome)

/-- The header and what follows it: row 1 to the header part of row 3; an attribute header takes the steps of R226. -/
def parse (t : Bytes) (attr : Bool) : Except Fault (Header × Bytes) :=
  let h := t.take 16
  if !attr && t.headD 0 != 0x44 then .error (St.keyblockAuth, 3)
  else if h.length < 16 || !fieldsDefined h || (if attr then slice 1 4 h != ascii "0000" else decNum (slice 1 4 h) != some t.length)
    then .error (St.keyblockAuth, 2)
  else match takeBlocks ((decNum (slice 12 2 h)).getD 0) (t.drop 16) with
    | none => .error (St.keyblockAuth, 4)
    | some (blocks, rest) =>
      let x : Header := { version := (h.headD 0).toNat, usage := slice 5 2 h, alg := (nth 0 h 7).toNat, mode := (nth 0 h 8).toNat
                          kvn := slice 9 2 h, exportc := (nth 0 h 11).toNat, blocks }
      if !x.requiredPresent attr || (attr && !rest.isEmpty) || (!attr && (t.length - rest.length) % 16 != 0)
        then .error (St.keyblockAuth, 4)
      else .ok (x, rest)

/-! ## Attributes (R217, R218) -/

/-- The codes that a header leaves possible, given the length of the key (0 without one): one where it is decided, the codes
of the character where only the length is wrong, none where HM or 1W disagrees. -/
def Header.codes (h : Header) (keyLen : Nat) : List Nat :=
  let all := (List.range 0x71).filter fun c => charOf c == h.alg && charOf c != 0
  let exact : Option Nat :=
    if among h.alg "H" then h.hm
    else if among h.alg "T" then (if keyLen = 16 then some 1 else if keyLen = 24 then some 2 else none)
    else if among h.alg "A" then (if keyLen = 16 then some 3 else if keyLen = 24 then some 4 else if keyLen = 32 then some 5 else none)
    else if among h.alg "R" then some 0x20
    else none
  match exact, h.w1 with
  | some c, some w => if w.1 = c then [c] else []
  | some c, none => [c]
  | none, some w => if all.contains w.1 then [w.1] else []
  | none, none => all

/-- Codes and modes of use of a usage (R218). -/
def usageRow (u : Bytes) (code : Nat) : Option (Bool × String) :=
  let sym := decide (1 ≤ code) && decide (code ≤ 5)
  let tdea := code == 1 || code == 2
  let sign := (decide (0x20 ≤ code) && decide (code ≤ 0x24)) || code == 0x30 || code == 0x31 || (decide (0x51 ≤ code) && decide (code ≤ 0x53))
  let kem := decide (0x41 ≤ code) && decide (code ≤ 0x43)
  let rows : List (String × Bool × String) :=
    [("B0", code == 2 || code == 5, "X"),
     ("B3", (decide (3 ≤ code) && decide (code ≤ 5)) || code == 0x12 || code == 0x70, "X"),
     ("D0", sym, "EDBN"), ("D1", code == 0x20, "D"), ("E0", sym, "X"), ("E2", sym, "X"), ("K1", sym, "EB"),
     ("K3", (decide (0x21 ≤ code) && decide (code ≤ 0x24)) || code == 0x32 || code == 0x33 || kem, if kem then "DB" else "X"),
     ("M0", tdea, "GVCN"), ("M1", sym, "GVCN"), ("M3", code == 1, "GVCN"), ("M6", sym, "GVCN"),
     ("M7", (decide (0x11 ≤ code) && decide (code ≤ 0x18)) || code == 0x1F, if code = 0x1F then "V" else "GVCN"),
     ("P0", sym, "EDB"), ("S0", sign, "S"), ("S1", sign, "S"), ("S2", sign, "S"), ("V1", sym, "CN"), ("V2", sym, "CN"),
     ("1D", code == 0x60, "N")]
  (rows.find? fun r => ascii r.1 == u).map (·.2)

/-- Row 5 without ownership: the cause of ST_KEY_USAGE. -/
def Header.attrFault (h : Header) (keyLen : Nat) : Option Nat :=
  if (usageRow h.usage 0).isNone then some 1
  else
    let ok := (h.codes keyLen).filter fun c => ((usageRow h.usage c).map (·.1)).getD false
    if ok.isEmpty then some 2
    else if ok.any fun c => among h.mode (((usageRow h.usage c).map (·.2)).getD "") then none else some 3

/-- The size field of an attribute header (R217). -/
def sizeOk (code size : Nat) : Bool :=
  if code = 0x20 then size % 2 == 0 && decide (32 ≤ size) && decide (size ≤ 512)
  else if code = 0x24 then decide (2 ≤ size) && decide (size ≤ 20)
  else if 0x11 ≤ code ∧ code ≤ 0x1F then size == 0 || (decide (14 ≤ size) && decide (size ≤ 256))
  else size == 0

/-- The length of a key that GENERATE draws or DERIVE forms for a code, with the size of 1W (R226). -/
def drawLen (code size : Nat) : Nat :=
  match code with
  | 1 => 16 | 2 => 24 | 3 => 16 | 4 => 24 | 5 => 32 | 0x60 => 16 | 0x70 => 16
  | _ => if size ≠ 0 then size else match Hash.ofCode (code % 16) with | some h => Hash.digestLen h | none => 0

/-- Codes whose keys GENERATE draws; others are reserved (R226). -/
def drawn (code : Nat) : Bool := (decide (1 ≤ code) && decide (code ≤ 0x1F)) || code == 0x60 || code == 0x70

/-- Row 6 on IMPORT (R216, R217): WORDS of an acceptable key length, none where the length or the size field is wrong. -/
def importWords (h : Header) (code n : Nat) : Option Nat :=
  let size := (h.w1.map (·.2)).getD 0
  if code = 0x20 then
    let k := (n - 8) * 2 / 7
    let w := k / 4
    if 8 < n ∧ 7 * k = 2 * (n - 8) ∧ k % 4 = 0 ∧ 2 ≤ w ∧ w ≤ 512 ∧ (size = 0 ∨ size = w) then some w else none
  else if code = 0x24 then (if n = 4 * size ∧ 2 ≤ size ∧ size ≤ 20 then some size else none)
  else if 0x11 ≤ code ∧ code ≤ 0x1F then (if 14 ≤ n ∧ n ≤ 256 ∧ (size = 0 ∨ size = n) then some 0 else none)
  else
    let ok := match code with
      | 1 => n == 16 | 2 => n == 24 | 3 => n == 16 | 4 => n == 24 | 5 => n == 32
      | 0x21 => n == 32 | 0x22 => n == 48 | 0x23 => n == 66
      | 0x30 => n == 32 | 0x31 => n == 57 | 0x32 => n == 32 | 0x33 => n == 56
      | 0x41 => n == 1632 | 0x42 => n == 2400 | 0x43 => n == 3168
      | 0x51 => n == 2560 | 0x52 => n == 4032 | 0x53 => n == 4896
      | 0x60 => n == 16
      | 0x70 => decide (16 ≤ n) && decide (n ≤ 512)
      | _ => false
    if ok && size == 0 then some 0 else none

/-! ## Protection (X9.143 versions D and B) -/

/-- The derivation data of one block: counter, use (0 encryption, 1 authentication), algorithm of the protection key, its
length in bits. -/
def deriveData (i use alg bits : Nat) : Bytes := toBE 1 i ++ toBE 2 use ++ [0] ++ toBE 2 alg ++ toBE 2 bits

/-- Encryption and authentication keys of a protection key with its algorithm code. -/
def derive (code : Nat) (k : Bytes) : Bytes × Bytes :=
  let c := Modes.cipherOf code k
  let alg := code - 1
  let one := fun use => ((List.range (ceilDiv k.length c.b)).flatMap fun i => Modes.cmac c (deriveData (i + 1) use alg (8 * k.length))).take k.length
  (one 0, one 1)

/-- Row 3 for the key data, and row 4: the key of a version D block. -/
def openData (kbpk head body : Bytes) : Except Fault Bytes :=
  if !(body.all isHex) || body.length % 32 != 0 || decide (body.length < 64) then .error (St.keyblockAuth, 2)
  else
    let raw := (ofHex body).getD []
    let enc := raw.take (raw.length - 16)
    let mac := raw.drop (raw.length - 16)
    let (ek, ak) := derive 5 kbpk
    let clear := (Modes.cbcDec (Modes.aes ek) mac enc).1
    if Modes.cmac (Modes.aes ak) (head ++ clear) != mac then .error (St.keyblockAuth, 1)
    else
      let bits := ofBE (clear.take 2)
      if bits % 8 ≠ 0 ∨ clear.length - 2 < bits / 8 then .error (St.keyblockAuth, 2) else .ok (slice 2 (bits / 8) clear)

/-- Rows 1 to 4 of R224 under a protection key. -/
def unwrap (kbpk t : Bytes) : Except Fault (Header × Bytes) := do
  let (h, body) ← parse t false
  let key ← openData kbpk (t.take (t.length - body.length)) body
  return (h, key)

/-- An optional block spelt out. -/
def blockBytes (x : Bytes × Bytes) : Bytes :=
  let n := 4 + x.2.length
  if n < 256 then x.1 ++ hexOf 2 n ++ x.2 else x.1 ++ ascii "0004" ++ hexOf 4 (10 + x.2.length) ++ x.2

/-- A key block under a protection key with its code: version D for AES, B for TDEA. `fill` gives the open padding bytes,
`long` the length field of a block beyond 9,999 characters, which four decimal digits cannot state. -/
def wrap (code : Nat) (kbpk : Bytes) (h : Header) (key fill : Bytes) (long : Nat) : Bytes :=
  let c := Modes.cipherOf code kbpk
  let opt := h.blocks.flatMap blockBytes
  let short := (16 - (16 + opt.length) % 16) % 16
  let pb := if short = 0 then 0 else if short < 4 then short + 16 else short
  let pbBytes := if pb = 0 then [] else ascii "PB" ++ hexOf 2 pb ++ ((List.range (pb - 4)).map fun i => hexChar ((nth 0 fill i).toNat % 16))
  let opt := opt ++ pbBytes
  let nb := h.blocks.length + (if pb = 0 then 0 else 1)
  let pad := (c.b - (2 + key.length) % c.b) % c.b
  let clear := toBE 2 (8 * key.length) ++ key ++ (fill.drop 16).take pad
  let total := 16 + opt.length + 2 * clear.length + 2 * c.b
  let version := if code ≤ 2 then ascii "B" else ascii "D"
  let head := version ++ toDec 4 (if total ≤ 9999 then total else long) ++ h.usage ++ [byte h.alg, byte h.mode] ++ h.kvn
    ++ [byte h.exportc] ++ toDec 2 nb ++ ascii "00" ++ opt
  let (ek, ak) := derive code kbpk
  let mac := Modes.cmac (Modes.cipherOf code ak) (head ++ clear)
  head ++ toHex ((Modes.cbcEnc (Modes.cipherOf code ek) mac clear).1) ++ toHex mac

/-! ## Private keys in their valid range (08 R186, 09 R202) -/

/-- A private key lies in its valid range: RSA factors multiply to n and the other values lie below them; a scalar lies from
1 to n − 1 (above 0 for a generic curve, whose order the slot does not hold); a lattice key passes its check. -/
def keyInRange (code : Nat) (secret pub : Bytes) : Bool :=
  let scalar := fun (c : Ec.Curve) => decide (0 < ofBE secret) && decide (ofBE secret < c.n)
  match code with
  | 0x20 =>
    let k := Rsa.parse secret pub
    k.p * k.q == k.n && decide (1 < k.p) && decide (1 < k.q) && decide (k.dp < k.p) && decide (k.dq < k.q) && decide (k.qinv < k.p)
  | 0x21 => scalar Ec.p256
  | 0x22 => scalar Ec.p384
  | 0x23 => scalar Ec.p521
  | 0x24 => decide (0 < ofBE secret)
  | 0x41 | 0x42 | 0x43 => Kem.dkValid (Kem.params (code - 0x40)) secret
  | 0x51 | 0x52 | 0x53 => Dsa.skValid (Dsa.params (code - 0x40)) secret
  | _ => true

end Sys2Proof.KeyBlock
end

