-- ==== Sys2Proof/Machine/Keys.lean ====
section
/-! DEFINITION. The key lane pair (07 R154, 10 R214 to R228): its dispatch, the KEY family, the writes of generated keys (08
R190), the drains of ERASE, and the end of work on any lane. -/

namespace Sys2Proof.Machine

open Sys2Proof

/-! ## Check 4 of the KEY family (05 R116, 10 R219, R222, R225, R226, R229, 14 R322) -/

/-- A destination: in range (from partition 0 any enabled partition's range where `any0`), neither a continuation nor, unless
`join`, draining, and of the demanded generation. -/
def Block.writeFault (b : Block) (p ref : Nat) (k : KeyRef) (any0 join : Bool) : Refuse :=
  let s := b.slot k.slot
  let owner := b.slotOwner k.slot
  if !(b.slotIn p k.slot || (any0 && p == 0 && owner.isSome)) then some (St.keyAbsent, keyDetail ref 2, 0)
  else if s.st = .continuation then some (St.keyAbsent, keyDetail ref 4, 0)
  else if s.st = .draining && !join then some (St.keyAbsent, keyDetail ref 3, 0)
  else if k.stale s.gen then some (St.keyStale, keyDetail ref 1, BitVec.ofNat 64 s.gen)
  else match owner with
    | some q => refuseIf (p == 0 && b.paired q && !(b.role q).executes) St.keyUsage (keyDetail ref 0xA)
    | none => none

/-- What DERIVE needs of K1 (07 R149, 10 R226). -/
def deriveNeed (v : Nat) : KeyNeed :=
  { alg := fun c => match v with
      | 0 => algAes c
      | 1 => (decide (0x11 ≤ c) && decide (c ≤ 0x18)) || c == 0x1F
      | _ => c == 0x70
    usages := ["B3"], modes := "X" }

/-- Check 4 of EXPORT. -/
def Block.exportFault (b : Block) (e : Entry) : Refuse :=
  let k := b.slot e.d.k1.slot
  let kb := b.slot e.d.k2.slot
  (b.refFault e.part 0 e.d.k1).or <|
  (refuseIf (k.exportc == 0x4E) St.keyUsage 4).or <|
  if bit e.d.param 32 then
    (b.keyFault e.part 1 e.d.k2 { alg := upTo 1 5, usages := ["K1"], modes := "EB" }).or <|
    refuseIf (algTdea kb.code && !algTdea k.code) St.keyUsage (keyDetail 1 5)
  else none

/-- Check 4 of a KEY entry; the administrative operations name no slot. -/
def Block.keyOpFault (b : Block) (e : Entry) : Refuse :=
  match e.d.op with
  | 0x01 | 0x03 => (b.lockFault e).or (b.writeFault e.part 0 e.d.k1 true false)
  | 0x02 => b.exportFault e
  | 0x04 => (b.lockFault e).or <| (b.keyFault e.part 0 e.d.k1 (deriveNeed e.d.var)).or (b.writeFault e.part 1 e.d.k2 false false)
  | 0x05 => (b.lockFault e).or <| (b.writeFault e.part 0 e.d.k1 true true).or <|
      refuseIf (!b.slotIn e.part e.d.k1.slot && (b.slot e.d.k1.slot).usage != ascii "1D") St.keyAbsent 2
  | 0x06 => refuseIf (e.part != 0 && !b.slotIn e.part e.d.k1.slot) St.keyAbsent 2
  | _ => none

/-- The keys that a KEY entry copies. -/
def Block.keyOpCopies (b : Block) (e : Entry) : List KeyCopy :=
  match e.d.op with
  | 0x02 => if bit e.d.param 32 then [b.copyKey e.d.k1, b.copyKey e.d.k2] else [b.copyKey e.d.k1]
  | 0x04 => [b.copyKey e.d.k1]
  | _ => []

/-! ## Dispatch (07 R154) -/

/-- A key-management item may be taken: a slot write always, another job by the order rules. -/
def Block.keyReady (b : Block) (i : QItem) : Bool :=
  match i.job with
  | .entry k sub => (b.entry? k sub).any fun e => e.stage == .keyWrite || b.mayDispatch i.job
  | .call _ _ => b.mayDispatch i.job

/-- Invocations that derive the encryption and authentication keys of a protection key of a code, authenticate n bytes, and
encrypt m bytes, or decrypt them with the check by re-encryption (X9.143, 07 R155). -/
def blockInvocations (code n m : Nat) (opens : Bool) : Nat :=
  let bl := if code ≤ 2 then 8 else 16
  let keyLen := match code with | 1 | 3 => 16 | 2 | 4 => 24 | _ => 32
  4 * ceilDiv keyLen bl + (ceilDiv n bl + 1) + ceilDiv m bl * (if opens then 2 else 1)

/-- Invocations that derive a partition's key-encryption key (10 R223). -/
def kekInvocations : Nat := (Cost.kdf 0 5 32 10 32).1

/-- Cipher invocations of a key-management job (07 R155, log entry 18): those of a key block and its protection key, or of a KDF
kernel. A job that only draws, writes, erases or reads attributes makes none. -/
def Block.keyInvocations (b : Block) (e : Entry) : Nat :=
  let s := b.ownSlot e.part e.d.k1
  match e.d.op with
  | 0x01 =>
    let t := b.input e
    let data := (t.length - min t.length 48) / 2
    kekInvocations + blockInvocations 5 (t.length - data) data true
  | 0x02 =>
    let key := 2 + s.secret.length + s.pub.length
    let n := 16 + e.aux.length + key
    if bit e.d.param 32 then blockInvocations (b.ownSlot e.part e.d.k2).code n key false
    else kekInvocations + blockInvocations 5 n key false
  | 0x04 =>
    let n := (b.input e).length
    match KeyBlock.parse e.aux true with
    | .ok (h, _) => (Cost.kdf e.d.var s.code s.secret.length n (KeyBlock.drawLen ((h.codes 0).headD 0) ((h.w1.map (·.2)).getD 0))).1
    | .error _ => 0
  | _ => 0

/-- Generator blocks of a key-management job. -/
def Block.keyMasks (b : Block) (i : QItem) : Nat :=
  match i.job with
  | .entry k sub => match b.entry? k sub with
    | some e => if e.stage = .keyWrite then 0 else 2 * b.keyInvocations e
    | none => 0
  | .call _ _ => 0

/-- Time that a key-management request is taken to need on its lane, for the spending of the lane's generator blocks (13 R291). -/
def keyTime : Nat := 2000 * Cost.ns

/-- Key lane l takes an item: a first dispatch passes check 4; a retry or a slot write goes on with what it has. The next request
is the other lane's. -/
def Block.keyTake (b : Block) (l : Nat) (i : QItem) (need : Nat) : Block :=
  let start := fun (b : Block) =>
    let b := ((b.unqueue i.job).modLane l (LaneRec.take · i b.now keyTime need)).askSeed l
    { b with keys := { b.keys with lastLane := l } }
  match i.job with
  | .call _ _ => start b
  | .entry k sub =>
    match b.entry? k sub with
    | none => b.unqueue i.job
    | some e =>
      if e.stage = .keyWrite then start b
      else match (if e.dispatchedAt.isSome then none else (b.lateLength e).or (b.keyOpFault e)) with
        | some (st, det, r) => (b.unqueue i.job).refuse e st det r
        | none => (start b).startEntry k sub l (b.keyOpCopies e) none

/-- KEY_LANE_DISPATCH (R154, R159): with both key lanes idle, the first request goes to the lane that did not serve the last; a
retry to a lane that it does not exclude, for which it waits where none is in service. -/
def Block.keyDispatch (b : Block) : Block :=
  match b.keys.queue.find? b.keyReady with
  | none => b
  | some i =>
    let need := b.keyMasks i
    let pair := b.keyLanes
    let lanes := pair.filter fun l => !(i.excluded.contains l) && (b.lane l).role == .key
    if pair.any fun l => (b.lane l).job.isSome then b
    else if !lanes.isEmpty && b.hen.phase == .stopped && lanes.all (fun l => !(b.lane l).hasMasks need) then
      (b.unqueue i.job).noEntropy i.job 2 0xFF
    else
      let free := lanes.filter fun l => (b.lane l).hasMasks need
      match (free.find? fun l => l != b.keys.lastLane).orElse fun _ => free.head? with
      | some l => b.keyTake l i need
      | none => b

/-- KEY_LANE_DISPATCH. -/
def execKeyLaneDispatch (s : State) : Host.Outcome State Fault Refusal := s.run Block.keyDispatch

/-! ## Key-encryption keys and attribute headers (10 R223, R226) -/

/-- The key-encryption key of a partition under a master key. -/
def kekOf (mk : Bytes) (p : Nat) : Bytes := Modes.kdfCmac mk (ascii "WXKEK" ++ [0] ++ toBE 4 p) 256

/-- What a header sets aside: the attributes of the slot to be written, without key material. -/
def recOf (h : KeyBlock.Header) (code words chain : Nat) : SlotRec :=
  { st := .reserved, chain, usage := h.usage, algChar := h.alg, mode := h.mode, exportc := h.exportc, kvn := h.kvn, code, words }

/-- A record with its key. -/
def filled (r : SlotRec) (secret pub : Bytes) : SlotRec :=
  { r with st := .live, secret, pub, keyBits := keyBitsOf r.code r.words secret.length }

/-- A refusal as a result. -/
def Result.ofKey (ref : Nat) (f : Nat × Nat) : Result := Result.bad f.1 (if f.1 = St.keyblockAuth then f.2 else keyDetail ref f.2)

/-- The part of row 5 that concerns ownership (R219). -/
def Block.ownFault (b : Block) (p slot : Nat) (usage : Bytes) : Option (Nat × Nat) :=
  if usage = ascii "1D" ∧ p ≠ 0 then some (St.keyUsage, 1)
  else if p = 0 ∧ usage ≠ ascii "1D" ∧ !b.slotIn 0 slot then some (St.keyAbsent, 2)
  else none

/-- What an attribute header leaves to be written: the record and the length of its key. -/
structure Plan where
  slotRec : SlotRec
  len : Nat

/-- The attribute header of GENERATE or DERIVE, in the order of R226; `derive` admits the codes that DERIVE writes. -/
def Block.attrPlan (b : Block) (e : Entry) (ref : Nat) (k : KeyRef) (derive : Bool) : Except Result Plan := do
  let fail := fun (f : Nat × Nat) => Result.ofKey ref f
  let (h, _) ← (KeyBlock.parse e.aux true).mapError fail
  let code := (h.codes 0).headD 0
  let size := (h.w1.map (·.2)).getD 0
  match h.attrFault 0 with
  | some c => throw (fail (St.keyUsage, c))
  | none => pure ()
  match b.ownFault e.part k.slot h.usage with
  | some f => throw (fail f)
  | none => pure ()
  if !KeyBlock.sizeOk code size then throw (fail (St.keyUsage, 5))
  if derive && !(KeyBlock.drawn code && code != 0x60) then throw (fail (St.keyUsage, 2))
  let len := KeyBlock.drawLen code size
  if derive && !(decide (64 ≤ 8 * len) && decide (8 * len ≤ 4096)) then throw (fail (St.keyUsage, 5))
  let words := if code = 0x20 ∨ code = 0x24 then size else 0
  let chain := chainSlots (partLens code words len)
  match b.chainFault k.slot chain with
  | some c => throw (fail (St.keyUsage, c))
  | none => pure ()
  return { slotRec := recOf h code words chain, len }

/-! ## Operations -/

/-- IMPORT (R224). -/
def Block.importResult (b : Block) (e : Entry) : Result :=
  match b.gander.masterKey with
  | none => Result.bad St.locked 2
  | some key0 =>
    match KeyBlock.unwrap (kekOf key0 e.part) (b.input e) with
    | .error f => Result.ofKey 0 f
    | .ok (h, key) =>
      match h.attrFault key.length, b.ownFault e.part e.d.k1.slot h.usage with
      | some c, _ => Result.bad St.keyUsage c
      | none, some f => Result.bad f.1 f.2
      | none, none =>
        let code := (h.codes key.length).headD 0
        match KeyBlock.importWords h code key.length with
        | none => Result.bad St.keyUsage 5
        | some words =>
          let (s, u) := if code = 0x20 then partLens code words 0 else (key.length, 0)
          let chain := chainSlots (s, u)
          match b.chainFault e.d.k1.slot chain with
          | some c => Result.bad St.keyUsage c
          | none =>
            if !KeyBlock.keyInRange code (key.take s) (key.drop s) then Result.bad St.faultDetected 8
            else { key := some (e.d.k1.slot, filled (recOf h code words chain) (key.take s) (key.drop s)) }

/-- The optional blocks that EXPORT forms so that a slot's code can be read back (R225). -/
def codeBlocks (s : SlotRec) : List (Bytes × Bytes) :=
  if 0x11 ≤ s.code ∧ s.code ≤ 0x1F then [(ascii "HM", KeyBlock.hmValue (s.code % 16))]
  else if 0x20 ≤ s.code then [(ascii "1W", KeyBlock.hexOf 2 s.code ++ KeyBlock.hexOf 4 s.words)]
  else []

/-- EXPORT (R225). The padding of the block is open. -/
def Block.exportResult (b : Block) (e : Entry) : Result :=
  let s := e.key1.slotRec
  let kbpk : Option (Nat × Bytes) :=
    if bit e.d.param 32 then (nth none (e.keys.map some) 1).map fun k => (k.slotRec.code, k.slotRec.secret)
    else b.gander.masterKey.map fun mk => (5, kekOf mk e.part)
  match kbpk with
  | none => Result.bad St.locked 2
  | some (code, key) =>
    match KeyBlock.allBlocks e.aux.length e.aux with
    | none => Result.bad St.keyblockAuth 4
    | some extra =>
      if extra.any fun x => x.1 == ascii "HM" || x.1 == ascii "1W" || x.1 == ascii "PB" then Result.bad St.keyblockAuth 4
      else
        let fill := (List.range 4).flatMap fun i => toLE 8 (Config.internalDraw (b.free + i)).toNat
        let h : KeyBlock.Header := { version := 0x44, usage := s.usage, alg := s.algChar, mode := s.mode, kvn := ascii "00"
                                     exportc := s.exportc, blocks := codeBlocks s ++ extra }
        let out := KeyBlock.wrap code key h (s.secret ++ s.pub) fill ((Config.internalDraw (b.free + 4)).toNat % 10000)
        if e.d.dstLen < out.length then { status := St.length, detail := 1, result := BitVec.ofNat 64 out.length } else { out }

/-- One digit choice below m from random bytes, by rejection of values that would bias it. -/
def pickBelow (m : Nat) : Bytes → Option (Nat × Bytes)
  | [] => none
  | x :: r => if x.toNat < 256 - 256 % m then some (x.toNat % m, r) else pickBelow m r

/-- n distinct choices out of a list, each taken out. -/
def pickSome : Nat → List Nat → Bytes → Option (List Nat × Bytes)
  | 0, _, r => some ([], r)
  | n + 1, pool, r => do
    let (i, r) ← pickBelow pool.length r
    let (l, r) ← pickSome n (pool.eraseIdx i) r
    return (nth 0 pool i :: l, r)

/-- A decimalisation table (R226): six distinct digits, the multiset of them and 0 to 9, in a random order; none where the
bytes do not suffice. -/
def decTable (rnd : Bytes) : Option Bytes := do
  let (six, rnd) ← pickSome 6 (List.range 10) rnd
  let (t, _) ← pickSome 16 (List.range 10 ++ six) rnd
  return t.map byte

/-- A draw of a key-management operation at the key-generation priority; with HEN stopped it ends. -/
def Block.keyDraw (b : Block) (e : Entry) (n : Nat) : Block :=
  if e.asked then b
  else if b.hen.phase = .stopped then b.noEntropy e.job 1 e.engine
  else (b.ask 2 n (.entry e.ring e.sub)).modEntry e.ring e.sub fun e => { e with asked := true }

/-- GENERATE (R226): reserves, or draws a key and writes it. -/
def Block.generateOn (b : Block) (e : Entry) : Block :=
  match b.attrPlan e 0 e.d.k1 false with
  | .error r => b.setResult e r
  | .ok x =>
    if !KeyBlock.drawn x.slotRec.code then b.setResult e { key := some (e.d.k1.slot, x.slotRec) }
    else if x.slotRec.code = 0x60 then
      match decTable e.rnd with
      | some t => b.setResult e { key := some (e.d.k1.slot, filled x.slotRec t []) }
      | none => b.keyDraw e 64
    else if x.len ≤ e.rnd.length then b.setResult e { key := some (e.d.k1.slot, filled x.slotRec (e.rnd.take x.len) []) }
    else b.keyDraw e x.len

/-- DERIVE (R226, 07 R149). -/
def Block.deriveResult (b : Block) (e : Entry) : Result :=
  match b.attrPlan e 1 e.d.k2 true with
  | .error r => r
  | .ok x => { key := some (e.d.k2.slot, filled x.slotRec (Modes.kdf e.d.var e.key1.slotRec.secret (b.input e) (8 * x.len)) []) }

/-- ERASE (R222): an EMPTY slot ends at once, a RESERVED one is emptied; a LIVE chain goes into DRAINING and the descriptor
leaves the key lane, as does one that joins a drain. -/
def Block.eraseOn (b : Block) (l : Nat) (e : Entry) : Block :=
  let i := e.d.k1.slot
  let s := b.slot i
  let wait := fun (b : Block) (head : Nat) =>
    let b := b.parkEntry l e
    { b with keys := { b.keys with drains := b.keys.drains ++ [(head, e.ring, e.sub)] } }
  match s.st with
  | .reserved => b.setResult e { key := some (i, { chain := s.chain, gen := s.gen }) }
  | .live => wait (b.drainChainAt i) i
  | .draining => wait b (b.drainHead i)
  | _ => b.setResult e {}

/-- The attribute record of a slot (R228). -/
def Block.attributeRecord (b : Block) (i : Nat) : Bytes := slotAttributes (b.slot i) (b.slotOwner i)

/-- The KEY entry that key lane l executes, for an operation. -/
def Block.onKeyLane (b : Block) (l op : Nat) : Option Entry := b.onLane l Fam.key op

/-- An operation of the key lane whose result is formed at once. -/
def Block.keyOn (b : Block) (l op : Nat) (f : Entry → Result) : Block :=
  match b.onKeyLane l op with
  | some e => b.setResult e (f e)
  | none => b

/-- IMPORT. -/
def execKeyImport (lane : Nat) (s : State) : Host.Outcome State Fault Refusal := s.run fun b => b.keyOn lane 1 b.importResult

/-- EXPORT. -/
def execKeyExport (lane : Nat) (s : State) : Host.Outcome State Fault Refusal :=
  s.run fun b => match b.onKeyLane lane 2 with
    | some e => { b.setResult e (b.exportResult e) with free := b.free + 5 }
    | none => b

/-- GENERATE. -/
def execKeyGenerate (lane : Nat) (s : State) : Host.Outcome State Fault Refusal :=
  s.run fun b => match b.onKeyLane lane 3 with | some e => b.generateOn e | none => b

/-- DERIVE. -/
def execKeyDerive (lane : Nat) (s : State) : Host.Outcome State Fault Refusal := s.run fun b => b.keyOn lane 4 b.deriveResult

/-- ERASE. -/
def execKeyErase (lane : Nat) (s : State) : Host.Outcome State Fault Refusal :=
  s.run fun b => match b.onKeyLane lane 5 with | some e => b.eraseOn lane e | none => b

/-- QUERY. -/
def execKeyQuery (lane : Nat) (s : State) : Host.Outcome State Fault Refusal :=
  s.run fun b => b.keyOn lane 6 fun e => { out := b.attributeRecord e.d.k1.slot }

/-! ## The end of key-lane work -/

/-- A chain is written, or emptied where the record says so. -/
def Block.putChain (b : Block) (head : Nat) (r : SlotRec) : Block :=
  if r.st = .empty then (b.emptySlots head r.chain).markErased head else b.writeChain head r

/-- An entry that wrote a slot completes ST_OK; where partition 0 wrote into a paired partition's slot, after the twin has
acknowledged the STATE frame that carries the write (14 R322). -/
def Block.finishWrite (b : Block) (e : Entry) (head engine outLen : Nat) (result : BitVec 64) : Block :=
  let owner := (b.slotOwner head).getD 0
  if e.part = 0 ∧ b.paired owner ∧ b.twin.session.isSome then
    let seq := match b.twin.session with | some s => s.seqOut | none => 0
    let b := b.forward (.slotWrite owner head [b.slot head])
    let b := b.conclude e (e.completion St.ok 0 engine outLen result)
    b.modEntry e.ring e.sub fun e => { e with stage := .commit, commitSeq := seq + 1 }
  else b.finish e St.ok 0 engine outLen result

/-- A KEY entry is done on lane l: refusals counted, its slot written, its output scattered. -/
def Block.keyEntryDone (b : Block) (e : Entry) (r : Result) : Block :=
  if r.status ≠ St.ok then
    let b := if r.status = St.keyblockAuth ∧ r.detail = 1 then
        { b with keys := { b.keys with authFail := satAdd 16 b.keys.authFail 1 } } else b
    let b := if r.status = St.faultDetected ∧ r.detail = 8 then b.note 0x0031 2 e.engine 8 else b
    b.executed e (b.usedBy e)
  else match r.key with
    | none => b.executed e (b.usedBy e)
    | some (head, new) =>
      let b := b.putChain head new
      let result := if new.st = .empty then 0 else b.writeResult head
      let kept := if new.st = .empty then new else b.slot head
      let e := { e with res := some { r with key := some (head, kept) } }
      (b.leaveEngine e (b.usedBy e)).finishWrite e head e.engine 0 result

/-- A generated key against the destination as it stands at the write (08 R190, 10 R227): the refusal, or the record to be
written. A destination erased since dispatch is refused, whatever has been written there since; one rewritten with the same
algorithm, and WORDS where the operation implies them, is written once more. -/
def Block.generatedFault (b : Block) (e : Entry) (ref head : Nat) (r : SlotRec) : Except (Nat × Nat) SlotRec :=
  let s := b.slot head
  let sized := r.code == 0x20 || r.code == 0x24
  if e.erased then .error (St.keyAbsent, keyDetail ref 1)
  else match s.st with
  | .empty | .draining | .continuation => .error (St.keyAbsent, keyDetail ref 1)
  | .reserved | .live =>
    if s.code ≠ r.code then .error (St.keyUsage, keyDetail ref 2)
    else if sized && s.words != r.words then .error (St.keyUsage, keyDetail ref 5)
    else match b.chainFault head r.chain with
    | some c => .error (St.keyUsage, keyDetail ref c)
    | none => .ok { s with st := .live, chain := r.chain, words := r.words, keyBits := r.keyBits, secret := r.secret, pub := r.pub }

/-- The write of a generated key by lane l for an entry that has been scattered: where it is refused, OUT_LEN is still what has
been written to host memory (04 R82). -/
def Block.generatedDone (b : Block) (l : Nat) (e : Entry) (r : Result) : Block :=
  match r.key with
  | none => b
  | some (head, new) =>
    match b.generatedFault e 0 head new with
    | .error (st, det) =>
      (b.modEntry e.ring e.sub fun x => { x with res := some { r with key := none, ctx := none } }).finish e st det l r.out.length 0
    | .ok new =>
      let b := b.writeChain head new
      let result := if e.d.family = Fam.pk ∧ e.d.op = 0x14 then r.result else b.writeResult head
      let b := b.modEntry e.ring e.sub fun x => { x with res := some { r with key := some (head, b.slot head) } }
      b.finish e St.ok 0 e.engine r.out.length result

/-- A call to the key lane pair writes the output bay entry to the slot of K2 (12 R280, 10 R227). -/
def Block.keyCallDone (b : Block) (l u c : Nat) : Block :=
  let x := b.cx u (ctxIx c)
  let served := fun (b : Block) => b.modCx u (ctxIx c) fun x => { x with call := x.call.map fun r => { r with served := true, engine := l } }
  match x.fn.bind (fun f => b.entry? f.1 f.2), x.call with
  | some e, some r =>
    match (Table.get none x.bay r.outEntry) with
    | none => served b
    | some k =>
      let head := e.d.k2.slot
      let new : SlotRec := { chain := chainSlots (k.key.length, 0), code := k.code, keyBits := 8 * k.key.length, secret := k.key }
      match (if b.slotIn e.part head then b.generatedFault e 1 head new else .error (St.keyAbsent, keyDetail 1 2)) with
      | .error (st, det) => b.failCall u c st det l
      | .ok new =>
        let b := b.writeChain head new
        let b := b.modEntry e.ring e.sub fun y => { y with res := some { (y.res.getD {}) with
          key := some (head, b.slot head), written := true, result := b.writeResult head } }
        served b
  | _, _ => served b

/-- A key lane has done its request. -/
def Block.keyLaneDone (b : Block) (l : Nat) : Block :=
  let x := b.lane l
  match x.job with
  | none => b
  | some j =>
    let free := fun (b : Block) => b.freeLane l
    let again := fun (b : Block) => match x.jobMism, x.jobRetry.getLast? with
      | some t, some f => b.retried f t
      | _, _ => b
    match j with
    | .call u c => again ((free b).keyCallDone l u c)
    | .entry k i =>
      match b.entry? k i with
      | none => free b
      | some e =>
        match e.res with
        | none => b
        | some r => again (if e.stage = .keyWrite then (free b).generatedDone l e r else (free b).keyEntryDone e r)

/-- LANE_WORK_DONE (07 R165): a data lane releases its result, a key lane its request. -/
def Block.laneDone (b : Block) (l : Nat) : Block :=
  match (b.lane l).role with
  | .data p => b.dataLaneDone l p
  | .key => b.keyLaneDone l
  | _ => b

/-- LANE_WORK_DONE. -/
def execLaneWorkDone (lane : Nat) (s : State) : Host.Outcome State Fault Refusal := s.run fun b => b.laneDone lane

/-- ERASE_DRAIN_END (R222): no reference is left: every slot of the chain becomes EMPTY, and the ERASEs that wait for it
complete in order. -/
def Block.drainEnd (b : Block) (head : Nat) : Block :=
  let s := b.slot head
  if s.st != .draining || s.chain == 0 || s.refs != 0 then b else
  let b := b.emptySlots head s.chain
  let waiting := b.keys.drains.filter fun d => d.1 == head
  let b := { b with keys := { b.keys with drains := b.keys.drains.filter fun d => d.1 != head } }
  waiting.foldl (fun b d =>
    match b.entry? d.2.1 d.2.2 with
    | some e =>
      let e := { e with res := some { key := some (head, { chain := s.chain, gen := s.gen }) } }
      (b.leaveEngine e (b.usedBy e)).finishWrite e head e.engine 0 0
    | none => b) b

/-- ERASE_DRAIN_END. -/
def execEraseDrainEnd (slot : Nat) (s : State) : Host.Outcome State Fault Refusal := s.run fun b => b.drainEnd slot

end Sys2Proof.Machine
end

