-- ==== Sys2Proof/Machine/PayMath.lean ====
section
/-! DEFINITION. The arithmetic of the payment functions (11): PAN records, PIN blocks of ISO 9564-1, PIN verification, and the
DUKPT and EMV key derivations. Nibble strings are lists of numbers below 16, most significant first. -/

namespace Sys2Proof.Pay

open Sys2Proof

/-! ## Nibbles -/

/-- The nibbles of a byte string. -/
def nibbles (bs : Bytes) : List Nat := bs.flatMap fun b => [b.toNat / 16, b.toNat % 16]

/-- The bytes of a nibble string of even length. -/
def ofNibbles : List Nat → Bytes
  | a :: b :: r => byte (16 * a + b) :: ofNibbles r
  | _ => []

/-- Every nibble is a decimal digit. -/
def decimal (l : List Nat) : Bool := l.all fun x => decide (x ≤ 9)

/-! ## PAN records (R240) -/

/-- The digits of a PAN record; none where the record is invalid. -/
def panDigits (r : Bytes) : Option (List Nat) :=
  let n := (nth 0 r 0).toNat
  let l := nibbles (slice 1 10 r)
  if 12 ≤ n ∧ n ≤ 19 ∧ decimal (l.take n) ∧ (l.drop n).all (· == 15) then some (l.take n) else none

/-- The last n digits before the check digit. -/
def rightmost (n : Nat) (pan : List Nat) : List Nat :=
  let body := pan.dropLast
  body.drop (body.length - n)

/-- The PAN field of a format (R243); zero for formats without one. -/
def panField (f : Nat) (pan : List Nat) : Bytes :=
  match f with
  | 0 | 3 => ofNibbles (List.replicate 4 0 ++ rightmost 12 pan)
  | 4 => ofNibbles (((pan.length - 12) :: pan) ++ List.replicate (31 - pan.length) 0)
  | _ => zeros 8

/-! ## PIN blocks (R243 to R245) -/

/-- Random bytes that the fill of a format takes (log entry 21). -/
def fillBytes (f : Nat) : Nat := match f with | 1 | 4 => 8 | 3 => 16 | _ => 0

/-- The plaintext PIN field of a format: position i of the fill takes nibble or byte i of the random bytes (log entry 21). -/
def pinField (f : Nat) (pin : List Nat) (rnd : Bytes) : Bytes :=
  let head := [f, pin.length] ++ pin
  let at_ := fun (i : Nat) => match f with
    | 1 => nth 0 (nibbles rnd) i
    | 3 => 10 + (nth 0 rnd i).toNat % 6
    | 4 => 10
    | _ => 15
  let first := head ++ ((List.range 16).drop head.length).map at_
  ofNibbles (if f = 4 then first ++ (nibbles rnd).take 16 else first)

/-- The enciphered block of a PIN field. -/
def pinSeal (f : Nat) (c : Modes.Cipher) (pan : List Nat) (x : Bytes) : Bytes :=
  match f with
  | 0 | 3 => c.enc (xorB x (panField f pan))
  | 4 => c.enc (xorB (c.enc x) (panField 4 pan))
  | _ => c.enc x

/-- The PIN field of an enciphered block. -/
def pinOpen (f : Nat) (c : Modes.Cipher) (pan : List Nat) (x : Bytes) : Bytes :=
  match f with
  | 0 | 3 => xorB (c.dec x) (panField f pan)
  | 4 => c.dec (xorB (c.dec x) (panField 4 pan))
  | _ => c.dec x

/-- The PIN digits of a field. -/
def pinDigits (x : Bytes) : List Nat :=
  let l := nibbles x
  slice' 2 (min (nth 0 l 1) 12) l
where
  slice' (off n : Nat) (l : List Nat) : List Nat := (l.drop off).take n

/-- The checks of R244 on a decrypted field: the first failing detail. -/
def pinFault (f : Nat) (x : Bytes) : Option Nat :=
  let l := nibbles x
  let n := nth 0 l 1
  let fill := (l.take 16).drop (2 + n)
  if nth 0 l 0 ≠ f then some 1
  else if n < 4 ∨ 12 < n then some 2
  else if !decimal (pinDigits x) then some 3
  else if (match f with
    | 0 | 2 => fill.any (· != 15)
    | 3 => fill.any (· < 10)
    | 4 => fill.any (· != 10)
    | _ => false) then some 4
  else none

/-- The format pairs of R245. -/
def pairOk (i o : Nat) : Bool :=
  match i with
  | 0 | 3 | 4 => [0, 2, 3, 4].contains o
  | 1 => [0, 1, 3, 4].contains o
  | _ => false

/-! ## PIN verification (R247, R248) -/

/-- The table test of R248. -/
def tableOk (t : List Nat) : Bool :=
  t.length == 16 && decimal t && (List.range 10).all fun v => decide (1 ≤ t.count v) && decide (t.count v ≤ 2)

/-- The reference PIN of the offset method. -/
def referencePin (c : Modes.Cipher) (table : List Nat) (validation : Bytes) (n : Nat) (offset : List Nat) : List Nat :=
  let natural := (nibbles (c.enc validation)).map fun x => nth 0 table x
  List.zipWith (fun a b => (a + b) % 10) (natural.take n) offset

/-- The computed PVV. -/
def pvv (c : Modes.Cipher) (pan : List Nat) (pvki : Nat) (pin : List Nat) : List Nat :=
  let l := nibbles (c.enc (ofNibbles (rightmost 11 pan ++ [pvki] ++ pin.take 4)))
  ((l.filter (· ≤ 9)) ++ (l.filter (10 ≤ ·)).map (· - 10)).take 4

/-! ## DUKPT (R250, R251) -/

/-- A mask that turns a key into its second key. -/
def dukptMask : Bytes := toBE 16 0xC0C0C0C000000000C0C0C0C000000000

/-- The TDES initial key from the BDK and the KSN. -/
def tdesInitial (bdk ksn : Bytes) : Bytes :=
  let x := toBE 10 (ofBE ksn / 2 ^ 21 * 2 ^ 21)
  let k := bdk.take 16
  let d := x.take 8
  Des.enc3 k d ++ Des.enc3 (xorB k dukptMask) d

/-- One non-reversible key generation step under the low 8 bytes of a KSN. -/
def tdesStep (k r : Bytes) : Bytes :=
  let half := fun (k : Bytes) => xorB (Des.enc (k.take 8) (xorB r (k.drop 8))) (k.drop 8)
  half (xorB k dukptMask) ++ half k

/-- The one bits of a counter of w bits, most significant first, each with the counter up to it. -/
def counterSteps (w c : Nat) : List Nat :=
  ((List.range w).reverse.filter fun i => c.testBit i).map fun i => c / 2 ^ i * 2 ^ i

/-- The TDES transaction key. -/
def tdesTransaction (bdk ksn : Bytes) : Bytes :=
  let base := ofBE ksn / 2 ^ 21 * 2 ^ 21
  (counterSteps 21 (ofBE ksn % 2 ^ 21)).foldl (fun k c => tdesStep k ((toBE 10 (base + c)).drop 2)) (tdesInitial bdk ksn)

/-- What a working key is for. -/
inductive Use where
  | pin | mac (response : Bool) | data (response : Bool)
  deriving DecidableEq, Repr

/-- The TDES variant of a working key. -/
def tdesVariant : Use → Bytes
  | .pin => toBE 16 0x00000000000000FF00000000000000FF
  | .mac false => toBE 16 0x000000000000FF00000000000000FF00
  | .mac true => toBE 16 0x00000000FF00000000000000FF000000
  | .data false => toBE 16 0x0000000000FF00000000000000FF0000
  | .data true => toBE 16 0x000000FF00000000000000FF00000000

/-- The TDES working key of a transaction key; the data variant is encrypted under itself. -/
def tdesVaried (transaction : Bytes) (u : Use) : Bytes :=
  let k := xorB transaction (tdesVariant u)
  match u with
  | .data _ => Des.enc3 k (k.take 8) ++ Des.enc3 k (k.drop 8)
  | _ => k

/-- The TDES working key. -/
def tdesWorking (bdk ksn : Bytes) (u : Use) : Bytes := tdesVaried (tdesTransaction bdk ksn) u

/-- The derivation of X9.24-3: the key of a type from derivation data, one encryption for each 128 bits. `typ` is 2, 3 or 4
for AES-128, AES-192, AES-256. -/
def aesDerive (key : Bytes) (usage typ : Nat) (tail : Bytes) : Bytes :=
  let bits := 64 * typ
  let blk := fun (i : Nat) => (Modes.aes key).enc ([1, byte i] ++ toBE 2 usage ++ toBE 2 typ ++ toBE 2 bits ++ tail)
  (blk 1 ++ (if typ = 2 then [] else blk 2)).take (bits / 8)

/-- Key usage of a working key under AES. -/
def aesUsage : Use → Nat
  | .pin => 0x1000
  | .mac _ => 0x2001
  | .data false => 0x3001
  | .data true => 0x3000

/-- The AES working key of a type under an AES-256 base key. -/
def aesWorking (bdk ksn : Bytes) (u : Use) (typ : Nat) : Bytes :=
  let device := slice 4 4 ksn
  let k0 := aesDerive bdk 0x8001 4 (ksn.take 8)
  let k := (counterSteps 32 (ofBE (slice 8 4 ksn))).foldl (fun k c => aesDerive k 0x8000 4 (device ++ toBE 4 c)) k0
  aesDerive k (aesUsage u) typ (device ++ slice 8 4 ksn)

/-- The counter of a KSN. -/
def counter (aes : Bool) (ksn : Bytes) : Nat := if aes then ofBE (slice 8 4 ksn) else ofBE (ksn.take 10) % 2 ^ 21

/-- One bits of a number below 2^32. -/
def weight (n : Nat) : Nat := ((List.range 32).filter fun i => n.testBit i).length

/-- The counter test of R250. -/
def counterFault (aes : Bool) (ksn : Bytes) : Option Nat :=
  let c := counter aes ksn
  if (if aes then 0xFFFF0000 else 0x1FF800) < c then some 1
  else if (if aes then 16 else 10) < weight c then some 2
  else if c = 0 then some 3
  else none

/-- The working key of a DUKPT function. -/
def working (aes : Bool) (bdk ksn : Bytes) (u : Use) (typ : Nat) : Bytes :=
  if aes then aesWorking bdk ksn u typ else tdesWorking bdk ksn u

/-! ## EMV (R252 to R254) -/

/-- A DES key with odd parity in each byte. -/
def oddParity (k : Bytes) : Bytes :=
  k.map fun b =>
    let high := b.toNat / 2 * 2
    byte (if weight high % 2 = 0 then high + 1 else high)

/-- The ICC master key of a session method from PAN digits and PSN digits. -/
def iccMaster (m : Nat) (imk : Bytes) (pan psn : List Nat) : Bytes :=
  let l := pan ++ psn
  if m = 2 then
    let y := ofNibbles (List.replicate (32 - l.length) 0 ++ l)
    let c := Modes.aes imk
    if imk.length = 16 then c.enc y else (c.enc y ++ c.enc (y.map (~~~ ·))).take imk.length
  else
    let l := l.drop (l.length - 16)
    let y := ofNibbles (List.replicate (16 - l.length) 0 ++ l)
    oddParity (Des.enc3 imk y ++ Des.enc3 imk (y.map (~~~ ·)))

/-- The session key of a method: method 1 uses the ICC master key. -/
def session (m : Nat) (mk atc : Bytes) : Bytes :=
  match m with
  | 0 => Des.enc3 mk (fit 8 (atc ++ [0xF0])) ++ Des.enc3 mk (fit 8 (atc ++ [0x0F]))
  | 1 => mk
  | _ =>
    let c := Modes.aes mk
    if mk.length = 16 then c.enc (fit 16 atc)
    else (c.enc (fit 16 (atc ++ [0xF0])) ++ c.enc (fit 16 (atc ++ [0x0F]))).take mk.length

/-- The MAC of a session method, 8 bytes. -/
def emvMac (m : Nat) (k data : Bytes) : Bytes :=
  if m = 2 then (Modes.cmac (Modes.aes k) data).take 8 else Modes.mac3Finish k 2 (zeros 8) data data.length

/-- The cipher of a session method. -/
def emvCipher (m : Nat) (k : Bytes) : Modes.Cipher := if m = 2 then Modes.aes k else Modes.tdea k

/-- The ARPC: method 1 of ARC, method 2 of CSU and proprietary data. -/
def arpc (m method : Nat) (k arqc extra : Bytes) : Bytes :=
  let c := emvCipher m k
  if method = 0 then (c.enc (fit c.b (xorB arqc (fit 8 extra)))).take 8 else (emvMac m k (arqc ++ extra)).take 4

/-- Key check values (R255). -/
def kcv (v code : Nat) (key : Bytes) : Bytes :=
  let c := Modes.cipherOf code key
  if v = 0 then (c.enc (zeros c.b)).take 3 else (Modes.cmac c (zeros c.b)).take 5

end Sys2Proof.Pay
end

