-- ==== Sys2Proof/Machine/Admin.lean ====
section
/-! DEFINITION. Dual control (16 R361 to R365): challenges, custodian signatures, UNLOCK, ENROL and REVOKE, and the
master-key ceremony. -/

namespace Sys2Proof.Machine

open Sys2Proof

/-! ## Nonce and ceremony (R362, R365) -/

/-- The unexpired nonce of CHALLENGE. -/
def Gander.openNonce (g : Gander) (now : Nat) : Option Bytes :=
  g.nonce.bind fun x => if now < x.2 + 600000000 then some x.1 else none

/-- The open ceremony. -/
def Gander.openCeremony (g : Gander) (now : Nat) : Option Ceremony :=
  g.ceremony.bind fun c => if now < c.opened + 3600000000 then some c else none

/-- NONCE_EXPIRY. -/
def execNonceExpiry (s : State) : Host.Outcome State Fault Refusal :=
  s.run fun b => if (b.gander.openNonce b.now).isSome then b else { b with gander := { b.gander with nonce := none } }

/-- CEREMONY_EXPIRY: the ceremony closes, and its ephemerals and shares are zeroed. -/
def execCeremonyExpiry (s : State) : Host.Outcome State Fault Refusal :=
  s.run fun b => if (b.gander.openCeremony b.now).isSome then b else { b with gander := { b.gander with ceremony := none } }

/-- What CHALLENGE outputs with a nonce: serial, LOCK_SEQ, four zero bytes, the nonce (R361). -/
def challengeBytes (serial : BitVec 64) (seq : BitVec 32) (nonce : Bytes) : Bytes :=
  toBE 8 serial.toNat ++ toBE 4 seq.toNat ++ zeros 4 ++ nonce

/-- CHALLENGE on lane l: a nonce of 32 random bytes. -/
def Block.challengeOn (f : Fuses) (b : Block) (e : Entry) : Block :=
  if e.rnd.length < 32 then b.keyDraw e 32 else
  let n := e.rnd.take 32
  let b := b.setResult e { out := challengeBytes f.serial b.gander.lockSeq n }
  { b with gander := { b.gander with nonce := some (n, b.now) } }

/-- CHALLENGE. -/
def execChallenge (lane : Nat) (s : State) : Host.Outcome State Fault Refusal :=
  s.runF fun f b => match b.onKeyLane lane 0x30 with | some e => Block.challengeOn f b e | none => b

/-! ## Custodian signatures (R362, R363) -/

/-- A signature record of 4,736 bytes. -/
structure SigRecord where
  index : Nat
  hasDsa : Bool
  ecdsa : Bytes
  dsa : Bytes

/-- A signature record from its bytes. -/
def SigRecord.of (bs : Bytes) : SigRecord :=
  ⟨ofLE (bs.take 1), bit (ofLE (slice 1 1 bs)) 0, slice 8 96 bs, slice 104 4627 bs⟩

/-- The signature records that lead an input. -/
def sigRecords (n : Nat) (src : Bytes) : List SigRecord := (List.range n).map fun i => SigRecord.of (slice (4736 * i) 4736 src)

/-- An ECDSA P-384 signature r ‖ s over a message with hash h, under a key x ‖ y. -/
def ecdsaOver (key sig h : Bytes) : Bool :=
  let c := Ec.p384
  let x := ofBE (key.take 48)
  let y := ofBE (slice 48 48 key)
  let r := ofBE (sig.take 48)
  let s := ofBE (slice 48 48 sig)
  decide (x < c.p) && decide (y < c.p) && Ec.onCurve c x y && decide (0 < r) && decide (r < c.n) && decide (0 < s) &&
    decide (s < c.n) && Ec.verify c (some (x, y)) h r s

/-- An ECDSA P-384 signature with SHA-384 over a message. -/
def ecdsaHolds (key sig msg : Bytes) : Bool := ecdsaOver key sig (Hash.hash .sha384 msg)

/-- The message that custodians sign (R362). -/
def dualMessage (purpose : Nat) (serial : BitVec 64) (seq : BitVec 32) (nonce subject : Bytes) : Bytes :=
  ascii "WXDCT" ++ [0] ++ [byte purpose] ++ toBE 8 serial.toNat ++ toBE 4 seq.toNat ++ nonce ++ subject

/-- A record under a custodian's keys: whether a required ML-DSA signature is absent. -/
def SigRecord.lacks (r : SigRecord) (c : Custodian) : Bool := c.mldsa && !r.hasDsa

/-- A record's required signatures hold. -/
def SigRecord.holds (r : SigRecord) (c : Custodian) (msg : Bytes) : Bool :=
  ecdsaHolds c.ecKey r.ecdsa msg && (!c.mldsa || Dsa.verify (Dsa.params 0x13) c.dsaKey msg r.dsa [])

/-- The custodian of an index. -/
def Gander.custodian (g : Gander) (i : Nat) : Custodian := nth {} g.cust i

/-- Custodians enrolled. -/
def Gander.enrolled (g : Gander) : Nat := (g.cust.filter (·.enrolled)).length

/-- Rows 5 to 7 of R364 for records of enrolled custodians, `barred` not among them, and for a new custodian's record. -/
def Gander.signFault (g : Gander) (rs : List SigRecord) (barred : Option Nat) (new : Option (SigRecord × Custodian)) (msg : Bytes) :
    Option (Nat × Nat) :=
  let all := (rs.map fun r => (r, g.custodian r.index)) ++ new.toList
  if rs.any (fun r => !(g.custodian r.index).enrolled || some r.index == barred) || !(decide (rs.map (·.index)).Nodup) then
    some (St.keyblockAuth, 8)
  else if all.any fun x => x.1.lacks x.2 then some (St.keyblockAuth, 0xB)
  else if all.all fun x => x.1.holds x.2 msg then none
  else some (St.keyblockAuth, 7)

/-! ## UNLOCK, ENROL, REVOKE (R364) -/

/-- The outcome of a dual-control operation: a result, recorded at severity 2 (17 R374). -/
def Block.dualResult (b : Block) (e : Entry) (r : Result) : Block :=
  (b.setResult e r).note 0x0010 2 e.d.op (r.status + at_ 8 r.detail)

/-- Row 1 of R364, with the nonce consumed (R362). -/
def Block.withNonce (b : Block) (e : Entry) (f : Bytes → Block → Block) : Block :=
  match b.gander.openNonce b.now with
  | none => b.dualResult e (.bad St.keyUsage 0xE)
  | some n => f n { b with gander := { b.gander with nonce := none } }

/-- A source configured LOCK or ERASE is active. -/
def Gander.threatened (f : Fuses) (g : Gander) : Bool :=
  g.sources.zipIdx.any fun x => x.1.active && decide (0 < (g.cfgOf f x.2).response)

/-- The mode that UNLOCK gives: OPERATIONAL with a master key, else ZEROIZED, whose entry releases every lock (03 R59, 10 R231). -/
def Block.leaveLocked (b : Block) : Block :=
  if b.gander.masterKey.isSome then { b with mode := { b.mode with mode := .operational } }
  else b.partitions.foldl Block.freeLock { b with mode := { b.mode with mode := .zeroized } }

/-- UNLOCK on lane l: both latches clear and the mode leaves LOCKED (R364, 03 R59). -/
def Block.unlockOn (f : Fuses) (b : Block) (e : Entry) : Block :=
  b.withNonce e fun n b =>
    let g := b.gander
    if g.threatened f then b.dualResult e (.bad St.keyUsage 0xC)
    else if b.recorder.copy.reserveLock then b.dualResult e (.bad St.keyUsage 0xB)
    else match g.signFault (sigRecords 2 (b.input e)) none none (dualMessage 1 f.serial g.lockSeq n (zeros 32)) with
      | some (st, d) => b.dualResult e (.bad st d)
      | none =>
        (Block.leaveLocked { b with gander := { g with lockLatch := false, eraseLatch := false } }).dualResult e {}

/-- UNLOCK. -/
def execUnlock (lane : Nat) (s : State) : Host.Outcome State Fault Refusal :=
  s.runF fun f b => match b.onKeyLane lane 0x31 with | some e => Block.unlockOn f b e | none => b

/-- The custodian of an enrolment record, and its index (R363). -/
def enrolmentOf (aux : Bytes) : Nat × Custodian :=
  (ofLE (aux.take 1), { enrolled := true, mldsa := bit (ofLE (slice 1 1 aux)) 0, ecKey := slice 8 96 aux, dsaKey := slice 104 2592 aux })

/-- A key of a custodian is enrolled already. -/
def Gander.knows (g : Gander) (c : Custodian) : Bool :=
  g.cust.any fun x => x.enrolled && (x.ecKey == c.ecKey || (x.mldsa && c.mldsa && x.dsaKey == c.dsaKey))

/-- ENROL on lane l: two records of enrolled custodians and the new custodian's own, or in bootstrap the latter alone; the
new custodian's is the last record that carries the new index. -/
def Block.enrolOn (f : Fuses) (b : Block) (e : Entry) : Block :=
  b.withNonce e fun n b =>
    let g := b.gander
    let (i, c) := enrolmentOf e.aux
    let src := b.input e
    let rs := sigRecords (src.length / 4736) src
    if 8 ≤ i ∨ (g.custodian i).enrolled ∨ g.knows c then b.dualResult e (.bad St.keyUsage 0xD)
    else match rs.reverse.find? fun r => r.index == i with
      | none => b.dualResult e (.bad St.keyblockAuth 8)
      | some own =>
        let others := (eraseFirst (fun r => r.index == i) rs.reverse).reverse
        let msg := dualMessage 2 f.serial g.lockSeq n (Hash.hash .sha3_256 e.aux)
        match g.signFault others none (some (own, c)) msg with
        | some (st, d) => b.dualResult e (.bad st d)
        | none => Block.dualResult { b with gander := { g with cust := g.cust.set i c } } e {}

/-- ENROL. -/
def execEnrol (lane : Nat) (s : State) : Host.Outcome State Fault Refusal :=
  s.runF fun f b => match b.onKeyLane lane 0x32 with | some e => Block.enrolOn f b e | none => b

/-- REVOKE on lane l. -/
def Block.revokeOn (f : Fuses) (b : Block) (e : Entry) : Block :=
  b.withNonce e fun n b =>
    let g := b.gander
    let i := ofLE (e.aux.take 1)
    if !(g.custodian i).enrolled || decide (g.enrolled - 1 < 2) then b.dualResult e (.bad St.keyUsage 0xD)
    else
      let msg := dualMessage 3 f.serial g.lockSeq n (Hash.hash .sha3_256 e.aux)
      match g.signFault (sigRecords 2 (b.input e)) (some i) none msg with
      | some (st, d) => b.dualResult e (.bad st d)
      | none => Block.dualResult { b with gander := { g with cust := g.cust.set i {} } } e {}

/-- REVOKE. -/
def execRevoke (lane : Nat) (s : State) : Host.Outcome State Fault Refusal :=
  s.runF fun f b => match b.onKeyLane lane 0x33 with | some e => Block.revokeOn f b e | none => b

/-! ## The master-key ceremony (R365) -/

/-- MK_BEGIN on lane l: M in range; a nonce, an ML-KEM-768 pair and a P-384 scalar are drawn; a ceremony that was open
closes. -/
def Block.mkBeginOn (f : Fuses) (b : Block) (e : Entry) : Block :=
  let m := field e.d.param 3 0
  if m < 2 ∨ 8 < m then b.setResult e (.bad St.keyUsage 0xB)
  else if e.rnd.length < 144 then b.keyDraw e 144
  else match Ec.scalarOf Ec.p384 (e.rnd.drop (e.rnd.length - 48)) with
    | none => b.keyDraw e 48
    | some d =>
      let nonce := e.rnd.take 32
      let (ek, dk) := Kem.keyGen (Kem.params 2) (slice 32 32 e.rnd) (slice 64 32 e.rnd)
      let out := challengeBytes f.serial b.gander.lockSeq nonce ++ ek ++ Ec.encode Ec.p384 (Ec.mul Ec.p384 d (Ec.gen Ec.p384))
      let c : Ceremony := { m, kcv := e.aux.take 5, nonce, dk, scalar := d, context := Hash.hash .sha384 out, opened := b.now }
      let b := b.setResult e { out }
      { b with gander := { b.gander with ceremony := some c } }

/-- MK_BEGIN. -/
def execMkBegin (lane : Nat) (s : State) : Host.Outcome State Fault Refusal :=
  s.runF fun f b => match b.onKeyLane lane 0x34 with | some e => Block.mkBeginOn f b e | none => b

/-- The share (x, y) in a share packet, sealed to the ceremony's ephemerals with the custodian index as additional data. -/
def Ceremony.openShare (c : Ceremony) (index : Nat) (packet : Bytes) : Option (Nat × Bytes) := do
  let z ← ecdh384 c.scalar (slice 1088 96 packet)
  let ss := Kem.decaps (Kem.params 2) c.dk (packet.take 1088)
  let gcm := Modes.aes (Modes.kdfTwoStep (zeros 32) (ss ++ z) c.context 256)
  let ct := slice 1184 33 packet
  if Modes.gcmTag gcm (zeros 12) [byte index] ct = slice 1217 16 packet then
    let pt := Modes.gcmCrypt gcm (zeros 12) ct
    some (ofLE (pt.take 1), pt.drop 1)
  else none

/-- The Lagrange factor at 0 of share x among shares xs, over GF(2^8). -/
def lagrange (x : Byte) (xs : List Byte) : Byte :=
  (xs.filter (· != x)).foldl (fun acc y => Aes.mul acc (Aes.mul y (Aes.inv (x ^^^ y)))) 1

/-- The secret that shares (x, y) determine, byte by byte. -/
def recoverSecret (shares : List (Nat × Bytes)) : Bytes :=
  let xs := shares.map fun s => byte s.1
  (List.range 32).map fun i =>
    shares.foldl (fun acc s => acc ^^^ Aes.mul (lagrange (byte s.1) xs) (nth 0 s.2 i)) 0

/-- The tests of an MK_SHARE in the order of R365 step 4: the refusal, or the share. -/
def Block.shareOf (f : Fuses) (b : Block) (c : Ceremony) (src : Bytes) : Except (Nat × Nat) (Nat × Nat × Bytes) :=
  let g := b.gander
  let r := SigRecord.of src
  let packet := src.drop 4736
  let msg := dualMessage 4 f.serial g.lockSeq c.nonce (Hash.hash .sha3_256 packet)
  if !(g.custodian r.index).enrolled || c.shares.any (fun s => s.1 == r.index) then .error (St.keyblockAuth, 8)
  else match g.signFault [r] none none msg with
    | some x => .error x
    | none => match c.openShare r.index packet with
      | none => .error (St.keyblockAuth, 9)
      | some (x, y) =>
        if x = 0 ∨ c.shares.any (fun s => s.2.1 == x) then .error (St.keyblockAuth, 9) else .ok (r.index, x, y)

/-- MK_SHARE on lane l: the M-th accepted share recovers the key; on a match of its KCV the store is written and the mode
becomes OPERATIONAL, on a mismatch the ceremony closes. -/
def Block.mkShareOn (f : Fuses) (b : Block) (e : Entry) : Block :=
  match b.gander.openCeremony b.now with
  | none => b.setResult e (.bad St.keyUsage 0xB)
  | some c =>
    match Block.shareOf f b c (b.input e) with
    | .error (st, d) => b.setResult e (.bad st d)
    | .ok s =>
      let shares := c.shares ++ [s]
      let r : Result := { result := BitVec.ofNat 64 (shares.length + at_ 8 c.m) }
      let g := b.gander
      if shares.length < c.m then
        { b.setResult e r with gander := { g with ceremony := some { c with shares := shares } } }
      else
        let key := recoverSecret (shares.map (·.2))
        let check := Pay.kcv 1 5 key
        if check = c.kcv then
          Block.dualResult { b.tick with
            gander := { g with ceremony := none, masterKey := some key, mkKcv := check, mkInstalled := true, bootstrap := false
                               mkLine := (Config.internalDraw b.free).toNat % 255 }
            mode := { b.mode with mode := .operational } } e r
        else Block.dualResult { b with gander := { g with ceremony := none } } e (.bad St.keyblockAuth 0xA)

/-- MK_SHARE. -/
def execMkShare (lane : Nat) (s : State) : Host.Outcome State Fault Refusal :=
  s.runF fun f b => match b.onKeyLane lane 0x35 with | some e => Block.mkShareOn f b e | none => b

end Sys2Proof.Machine
end

