-- ==== Sys2Proof/Machine/Health.lean ====
section
/-! DEFINITION. The health manager and the store's errors (03 R64 to R67, 06 R120, R121). -/

namespace Sys2Proof.Machine

open Sys2Proof

/-! ## Staging under retired banks (06 R121) -/

/-- Banks missing for good: those in service and those quarantined do not make up the advertised count. -/
def Block.missingBanks (b : Block) : Nat := 64 - b.countUnits bankType .inService - b.countUnits bankType .quarantined

/-- The channels whose windows n removals take: 47 down to 0, then 63 down. -/
def removedWindows (n : Nat) : List Nat := ((List.range 48).reverse ++ (List.range 16).reverse.map (· + 48)).take n

/-- Staging follows the banks: 768 KiB less for each missing bank, and windows removed for what allocatable staging cannot
take up. -/
def Block.fitStaging (b : Block) : Block :=
  let n := b.missingBanks
  let size := match b.img.inForce.storeMap with | (_, s) :: _ => s | [] => 0
  let gone := removedWindows (ceilDiv (768 * n - (size - 1024)) 16)
  let b : Block := { b with store := { b.store with reduced := n } }
  (List.range 64).foldl (fun b k => b.modChan k fun c => { c with removed := gone.contains k }) b

/-! ## Retests and self-tests (R64, R65, R67) -/

/-- A unit is retired; a bank's share of staging goes with it. -/
def Block.retireUnit (b : Block) (u : Nat) : Block := if 206 ≤ u then (b.retire u).fitStaging else b.retire u

/-- The quarantined unit becomes a spare, or returns to service where its type is short of one (R67). -/
def Block.restore (b : Block) (u : Nat) : Block :=
  let t := typeOf u
  if (b.spares t).isEmpty && decide (b.countUnits t .inService < t.inServiceCount) then
    let b := b.returnUnit u
    if 206 ≤ u then b.fitStaging else b
  else b.modUnit u fun r => { r with st := .spare }

/-- RETEST_COMPLETE: failed, or quarantined for the third time within 24 operating hours, the unit is retired. -/
def Block.retested (b : Block) (u : Nat) (pass : Bool) : Block :=
  let r := b.unit u
  if r.st ≠ .quarantined then b
  else if !pass then b.retireUnit u
  else
    let b : Block := { b with health := { b.health with retestPass := satAdd 16 b.health.retestPass 1 } }
    let now := b.recorder.copy.opMinutes
    let recent := r.quarantines.filter fun m => decide (now < m + dayMinutes)
    if 3 ≤ recent.length then b.retireUnit u else b.restore u

/-- RETEST_COMPLETE. -/
def execRetestComplete (unit : Nat) (pass : Bool) (s : State) : Host.Outcome State Fault Refusal :=
  s.run fun b => b.retested unit pass

/-- A store bank's contents migrate before it is quarantined (R66). -/
def Block.migrate (b : Block) (u : Nat) : Block :=
  if !b.inService u || b.store.migrating.contains u then b
  else { b with store := { b.store with migrating := b.store.migrating ++ [u] } }

/-- A unit shows a fault: a bank migrates first, a spare goes to its retest, another is quarantined. -/
def Block.unitFault (b : Block) (u : Nat) : Block :=
  if (b.unit u).st = .spare then
    b.countQuarantine u 65
  else if 206 ≤ u then b.migrate u
  else b.quarantine u

/-- Whether unit u runs nothing. -/
def Block.idle (b : Block) (u : Nat) : Bool :=
  if u < 188 then (b.jobOf u).isNone
  else if u < 206 then (List.finRange 8).all fun c => (b.cx (u - 188) c).fn.isNone
  else true

/-- PERIODIC_SELF_TEST: once per 10,000,000 ticks, when idle. -/
def Block.selfTest (b : Block) (u : Nat) (pass : Bool) : Block :=
  let r := b.unit u
  let due := decide (r.tested + 10000000 ≤ b.now)
  if (r.st = .inService ∨ r.st = .spare) ∧ due ∧ b.governorFree 1 ∧ b.idle u then
    let b := b.modUnit u fun r => { r with tested := b.now }
    if pass then b else b.unitFault u
  else b

/-- PERIODIC_SELF_TEST. -/
def execPeriodicSelfTest (unit : Nat) (pass : Bool) (s : State) : Host.Outcome State Fault Refusal :=
  s.run fun b => b.selfTest unit pass

/-! ## Store errors (R64, R66, 06 R120) -/

/-- A corrected error of a bank, by unit number: 16 within 1,000 ticks quarantine it. -/
def Block.corrected (b : Block) (bank : Nat) : Block :=
  let recent := (bank, b.now) :: b.store.bankErrs.filter fun x => decide (b.now < x.2 + 1000)
  let b : Block := { b with store := { b.store with corrected := satAdd 32 b.store.corrected 1, bankErrs := recent } }
  if 16 ≤ (recent.filter fun x => x.1 == bank).length then b.migrate bank else b

/-- STORE_SCRUB: a line read; where it needed it, corrected and written back. -/
def execStoreScrub (bank : Nat) (corrected : Bool) (s : State) : Host.Outcome State Fault Refusal :=
  s.run fun b => if corrected then b.corrected bank else b

/-- The chain that slot i belongs to is erased as by ERASE, without a descriptor (10 R222): a RESERVED one is emptied, a LIVE one
drains; a chain that drains already is zeroed at once and becomes EMPTY when its references have gone (10 R232). -/
def Block.eraseChain (b : Block) (i : Nat) : Block :=
  let s := b.slot i
  match s.st with
  | .empty => b
  | .reserved => (b.emptySlots i s.chain).markErased i
  | .live => b.drainChainAt i
  | .continuation => b.drainChainAt s.head
  | .draining => b.modSlot (b.drainHead i) fun s => { st := .draining, chain := s.chain, gen := s.gen, refs := s.refs, head := s.head }

/-- What an uncorrectable line does by region (R66): 0 staging, whose descriptor faults; 1 context, which becomes invalid;
2 key slot, which is erased; 3 ring state, whose ring stops. -/
def Block.regionFault (b : Block) (region index : Nat) (sub : Index) : Block :=
  match region with
  | 0 => match b.entry? index sub with
    | some e => if e.isScattered then b else b.finish e St.faultDetected 4 (if e.wasDispatched then e.engine else 0xFF) 0 0
    | none => b
  | 1 => b.modCtx index fun x => { x with invalid := true }
  | 2 => b.eraseChain index
  | _ => b.stopRing index

/-- STORE_UNCORRECTABLE_ERROR. -/
def Block.uncorrectable (b : Block) (bank region index : Nat) (sub : Index) : Block :=
  let b : Block := { b with store := { b.store with uncorrectable := satAdd 16 b.store.uncorrectable 1, lastBank := bank - 206 } }
  let b := b.note 0x0032 (if 2 ≤ region then 2 else 0) (bank - 206) region
  (b.regionFault region index sub).migrate bank

/-- STORE_UNCORRECTABLE_ERROR. -/
def execStoreUncorrectableError (bank region index : Nat) (sub : Index) (s : State) : Host.Outcome State Fault Refusal :=
  s.run fun b => b.uncorrectable bank region index sub

/-- BANK_MIGRATION_DONE: the old bank is quarantined. -/
def execBankMigrationDone (bank : Nat) (s : State) : Host.Outcome State Fault Refusal :=
  s.run fun b =>
    if b.store.migrating.contains bank then
      Block.quarantine { b with store := { b.store with migrating := b.store.migrating.filter (· != bank) } } bank
    else b

end Sys2Proof.Machine
end

