-- ==== Sys2Proof/Machine/Image.lean ====
section
/-! DEFINITION. The structure image (03 R50 to R55): its layout, the checks of R54 in their order, and what an image that
passes puts in force. A failed check answers its REASON and the byte offset of the field that failed it. -/

namespace Sys2Proof.Machine

open Sys2Proof

/-- The outcome of a check: nothing, or REASON and AV_IMG_FAULT_OFF. -/
abbrev ImageCheck := Except (Nat × Nat) Unit

/-- A condition that must hold. -/
def need (ok : Bool) (reason off : Nat) : ImageCheck := if ok then .ok () else .error (reason, off)

/-- No element of a list may answer an offset. -/
def noneBad {α : Type} (l : List α) (reason : Nat) (f : α → Option Nat) : ImageCheck :=
  match l.findSome? f with
  | some off => .error (reason, off)
  | none => .ok ()

/-- The n-byte number at an offset. -/
def le (bs : Bytes) (off n : Nat) : Nat := ofLE (slice off n bs)

/-- The signature block of R52. -/
def sigLength : Nat := 7424

/-! ## Header and section table (R50, R51; checks 2 to 4) -/

/-- A section-table entry: type, version, the byte behind it, offset, length, the last four bytes, and where the entry
stands. -/
structure SectionEntry where
  type : Nat
  version : Nat
  zero : Nat
  offset : Nat
  length : Nat
  zero4 : Nat
  at_ : Nat

/-- The section table of an image. -/
def sectionTable (img : Bytes) : List SectionEntry :=
  ((chunks 16 (slice 0x100 (16 * le img 0x18 2) img)).zipIdx).map fun x =>
    { type := le x.1 0 2, version := le x.1 2 1, zero := le x.1 3 1, offset := le x.1 4 4, length := le x.1 8 4
      zero4 := le x.1 12 4, at_ := 0x100 + 16 * x.2 }

/-- Check 2. -/
def checkHeader (img : Bytes) : ImageCheck := do
  need (le img 0 4 == 0x09601A6E) 2 0
  need (le img 4 4 == 1) 2 4
  let n := le img 8 4
  need (decide (n ≤ 2 ^ 26) && n % 64 == 0 && n == img.length && decide (0x100 + sigLength ≤ n)) 2 8
  need (le img 0x1C 4 == n - sigLength) 2 0x1C

/-- Check 3: reserved fields of the header and the section table; ROLLBACK over 64. -/
def checkReserved (img : Bytes) : ImageCheck := do
  let w := le img 0xC 4
  need (w == w % 0x80 + at_ 8 (field w 8 8) && decide (w % 0x80 ≤ 64)) 3 0xC
  need (le img 0x1A 2 == 0) 3 0x1A
  match (slice 0x20 0xE0 img).findIdx? (· != 0) with
  | some i => .error (3, 0x20 + i)
  | none => noneBad (sectionTable img) 3 fun s =>
    if s.version ≠ 1 then some (s.at_ + 2) else if s.zero ≠ 0 then some (s.at_ + 3) else if s.zero4 ≠ 0 then some (s.at_ + 12) else none

/-- The length that R51 gives a section, by type. -/
def sectionFits (type n : Nat) : Bool :=
  match type with
  | 1 => n == 131072
  | 2 => n == 524288
  | 3 => n == 32
  | 4 => decide (16 + 96 < n)
  | 5 => decide (8 < n) && n % 8 == 0
  | 6 => decide (96 ≤ n) && decide (n ≤ 40960)
  | 7 => decide (8 ≤ n) && decide (n ≤ 192) && n % 8 == 0
  | _ => false

/-- Check 4: each of the seven sections once, in its place. -/
def checkSections (img : Bytes) : ImageCheck := do
  let ss := sectionTable img
  let sig := le img 0x1C 4
  let first := 0x100 + 16 * ss.length
  noneBad ss 4 fun s =>
    if !sectionFits s.type s.length || s.offset % 64 ≠ 0 || decide (s.offset < first) || decide (sig < s.offset + s.length) then some s.at_
    else if ss.any fun t => t.at_ != s.at_ && (t.type == s.type ||
        (decide (t.offset < s.offset + s.length) && decide (s.offset < t.offset + t.length))) then some s.at_
    else none
  need (ss.length == 7) 4 0x18

/-- The bytes of the section of a type. -/
def sectionOf (img : Bytes) (type : Nat) : Bytes :=
  match (sectionTable img).find? fun s => s.type == type with
  | some s => slice s.offset s.length img
  | none => []

/-- Where that section begins. -/
def sectionAt (img : Bytes) (type : Nat) : Nat := (((sectionTable img).find? fun s => s.type == type).map (·.offset)).getD 0

/-! ## Signatures and rollback (R52, R55; checks 5 to 9) -/

/-- Checks 5 to 8: both signatures are over the SHA-384 digest of what precedes the signature block. -/
def checkSignatures (f : Fuses) (img : Bytes) : ImageCheck := do
  let at0 := le img 0x1C 4
  let h := Hash.hash .sha384 (img.take at0)
  let ec := slice at0 96 img
  let dsa := slice (at0 + 192) 2592 img
  need (Hash.hash .sha3_256 ec == f.ecdsaHash) 5 0
  need (ecdsaOver ec (slice (at0 + 96) 96 img) h) 6 0
  need (Hash.hash .sha3_256 dsa == f.mldsaHash) 7 0
  need (Dsa.verify (Dsa.params 0x13) dsa h (slice (at0 + 2784) 4627 img) []) 8 0

/-- ROLLBACK of an image. -/
def rollbackOf (img : Bytes) : Nat := le img 0xC 4 % 0x80

/-- Check 9. -/
def checkRollback (f : Fuses) (img : Bytes) : ImageCheck := need (decide (f.rollback ≤ rollbackOf img)) 9 0

/-! ## Contents (R51; checks 10 to 16) -/

/-- The entries of a section, of n bytes each, with their offsets in the image. -/
def entriesOf (img : Bytes) (type n : Nat) : List (Bytes × Nat) :=
  let base := sectionAt img type
  (chunks n (sectionOf img type)).zipIdx.map fun x => (x.1, base + n * x.2)

/-- A partition-table entry. -/
def partOf (x : Bytes) : PartCfg :=
  let flags := le x 24 4
  { ringFirst := le x 0 2, ringCount := le x 2 2, slotFirst := le x 4 2, slotCount := le x 6 2, ctxFirst := le x 8 2
    ctxCount := le x 10 2, vecFirst := le x 12 2, vecCount := le x 14 2, stagingKib := le x 16 4, minShare := le x 20 2
    maxShare := le x 22 2, enabled := bit flags 0, paired := bit flags 1, home := bit flags 2 }

/-- A personality record: header, configuration data, and its offset in the section. -/
structure PersRecord where
  id : Nat
  cls : Nat
  reserved : Bool
  data : Bytes
  at_ : Nat

/-- The records of a personality set, before its signature; none where they do not fill it exactly. -/
def persRecords : Nat → Nat → Bytes → Option (List PersRecord)
  | 0, _, bs => if bs.isEmpty then some [] else none
  | fuel + 1, off, bs =>
    if bs.isEmpty then some []
    else
      let n := le bs 4 4
      if bs.length < 16 + n then none
      else (persRecords fuel (off + 16 + n) (bs.drop (16 + n))).map fun r =>
        { id := le bs 0 2, cls := le bs 2 1, reserved := le bs 3 1 != 0 || le bs 8 8 != 0, data := slice 16 n bs, at_ := off } :: r

/-- A section's data and the Walxia signature that ends it. -/
def signedData (sec : Bytes) : Bytes := sec.take (sec.length - 96)

/-- The personality set of an image. -/
def persSet (img : Bytes) : Option (List PersRecord) := persRecords 64 0 (signedData (sectionOf img 4))

/-- The program part of the firmware's data: 16,384 words at most; common-bank data follows a full program (log entry 27). -/
def programOf (img : Bytes) : Bytes := (signedData (sectionOf img 6)).take 32768

/-- The common-bank initial data of the firmware. -/
def commonOf (img : Bytes) : Bytes := (signedData (sectionOf img 6)).drop 32768

/-- The reserved bytes that end the signature block (R52). -/
def sigPadding (img : Bytes) : Bytes := slice (le img 0x1C 4 + 7411) 13 img

/-- Check 10: a reserved field inside a section, RESPONSE 3 being no response, and the reserved bytes of the signature block
(00 R9; no row of R54 names them: DESIGN CHOICE, log entry 85). -/
def checkContentReserved (img : Bytes) : ImageCheck := do
  noneBad ((sigPadding img).zipIdx) 10 fun x => if x.1 ≠ 0 then some (le img 0x1C 4 + 7411 + x.2) else none
  noneBad (entriesOf img 1 32) 10 fun x =>
    if le x.1 24 4 / 8 ≠ 0 then some (x.2 + 24) else if le x.1 28 4 ≠ 0 then some (x.2 + 28) else none
  noneBad (entriesOf img 2 8) 10 fun x => if le x.1 0 8 / 2 ^ 17 ≠ 0 then some x.2 else none
  noneBad ((persSet img).getD []) 10 fun r => if r.reserved then some (sectionAt img 4 + r.at_) else none
  noneBad ((entriesOf img 5 8).zipIdx) 10 fun x =>
    if (if x.2 = 0 then le x.1.1 0 8 / 2 ^ 8 else le x.1.1 0 8 / 2 ^ 40) ≠ 0 then some x.1.2 else none
  noneBad ((chunks 2 (programOf img)).zipIdx) 10 fun x =>
    if le x.1 0 2 / 2 ^ 14 ≠ 0 then some (sectionAt img 6 + 2 * x.2) else none
  noneBad (entriesOf img 7 8) 10 fun x =>
    let w := le x.1 0 8
    if field w 15 10 ≠ 0 ∨ w / 2 ^ 17 ≠ 0 ∨ field w 9 8 = 3 then some x.2 else none

/-- Two ranges of a list, as first, count and owner, that overlap: the owner of one. -/
def overlapOf (l : List (Nat × Nat × Nat)) : Option Nat :=
  let s := sortBy (·.1) (l.filter fun x => x.2.1 != 0)
  ((s.zip (s.drop 1)).find? fun x => decide (x.2.1 < x.1.1 + x.1.2.1)).map fun x => x.2.2.2

/-- Check 11: the partition table. -/
def checkPartitions (img : Bytes) : ImageCheck := do
  let es := (entriesOf img 1 32).map fun x => (partOf x.1, x.2)
  let staging := le (sectionOf img 3) 4 4
  match es with
  | (p0, off) :: _ => need (p0.enabled && p0.ringFirst == 0 && decide (0 < p0.ringCount)) 11 off
  | [] => .error (11, 0)
  noneBad es 11 fun (p, off) =>
    if 65536 < p.ringFirst + p.ringCount ∨ 4096 < p.ringCount then some off
    else if 32768 < p.slotFirst + p.slotCount then some (off + 4)
    else if 16384 < p.ctxFirst + p.ctxCount then some (off + 8)
    else if 16384 < p.vecFirst + p.vecCount then some (off + 12)
    else if staging < p.stagingKib then some (off + 16)
    else none
  let on := es.filter fun x => x.1.enabled
  let apart := fun (g : PartCfg → Nat × Nat) (k : Nat) =>
    match overlapOf (on.map fun x => ((g x.1).1, (g x.1).2, x.2)) with
    | some off => (.error (11, off + k) : ImageCheck)
    | none => .ok ()
  apart (fun p => (p.ringFirst, p.ringCount)) 0
  apart (fun p => (p.slotFirst, p.slotCount)) 4
  apart (fun p => (p.ctxFirst, p.ctxCount)) 8
  apart (fun p => (p.vecFirst, p.vecCount)) 12

/-- Check 12: shares and weights. -/
def checkShares (img : Bytes) : ImageCheck := do
  let es := (entriesOf img 1 32).map fun x => (partOf x.1, x.2)
  noneBad es 12 fun (p, off) =>
    if p.maxShare < p.minShare then some (off + 20) else if 32768 < p.maxShare then some (off + 22) else none
  need (decide (sumBy (fun x => x.1.minShare) (es.filter fun x => x.1.enabled) ≤ 32768)) 12 (sectionAt img 1)
  noneBad (entriesOf img 2 8) 12 fun x => if le x.1 1 1 = 0 then some x.2 else none

/-- The store map of an image: base and size in KiB. -/
def storeMapOf (img : Bytes) : List (Nat × Nat) := (chunks 8 (sectionOf img 3)).map fun x => (le x 0 4, le x 4 4)

/-- Check 13: the store map. -/
def checkStoreMap (img : Bytes) : ImageCheck := do
  let m := storeMapOf img
  let base := sectionAt img 3
  noneBad (m.zipIdx) 13 fun ((first, size), i) =>
    let okSize := match i with
      | 0 => decide (1024 ≤ size) && decide (size ≤ 32768)
      | 1 => size == 8192
      | _ => size == 4096
    if !okSize ∨ 49152 < first + size then some (base + 8 * i) else none
  match overlapOf (m.zipIdx.map fun x => (x.1.1, x.1.2, x.2)) with
  | some i => .error (13, base + 8 * i)
  | none => .ok ()

/-- The Walxia signature that ends a section holds over what precedes it. -/
def walxiaHolds (f : Fuses) (sec : Bytes) : Bool := ecdsaHolds f.walxiaKey (sec.drop (sec.length - 96)) (signedData sec)

/-- Check 14: the Walxia signatures, which cover records that fill the set and MASK_ORDER 1 or 2. -/
def checkWalxia (f : Fuses) (img : Bytes) : ImageCheck := do
  let good := match persSet img with
    | some rs => rs.all fun r => le r.data 0 1 == 1 || le r.data 0 1 == 2
    | none => false
  need (good && walxiaHolds f (sectionOf img 4)) 14 (sectionAt img 4)
  need (decide ((commonOf img).length ≤ 4096) && walxiaHolds f (sectionOf img 6)) 14 (sectionAt img 6)

/-- The personality IDs of 07 R138. -/
def knownPers : List Nat := [0x11, 0x12, 0x21, 0x31, 0x32, 0x41]

/-- A bound of the balancer section: ID, MIN_LANES, MAX_LANES, INITIAL_LANES and its offset. -/
def boundsOf (img : Bytes) : List ((Nat × Nat × Nat × Nat) × Nat) :=
  ((entriesOf img 5 8).drop 1).map fun x => ((le x.1 0 2, le x.1 2 1, le x.1 3 1, le x.1 4 1), x.2)

/-- SWITCH_LIMIT of an image. -/
def switchLimitOf (img : Bytes) : Nat := le (sectionOf img 5) 0 1

/-- Check 15: the balancer's bounds name the personalities of the set, each once. -/
def checkBalancer (img : Bytes) : ImageCheck := do
  let bs := boundsOf img
  let ids := ((persSet img).getD []).map (·.id)
  let base := sectionAt img 5
  noneBad bs 15 fun ((id, mn, mx, ini), off) =>
    if !knownPers.contains id || !ids.contains id || decide (1 < (bs.filter fun x => x.1.1 == id).length) then some off
    else if mx < mn ∨ 96 < mx ∨ ini < mn ∨ mx < ini then some off
    else none
  need (bs.length == ids.length && ids.all knownPers.contains && decide ids.Nodup) 15 (sectionAt img 4)
  need (decide (sumBy (fun x => x.1.2.1) bs ≤ 96) && sumBy (fun x => x.1.2.2.2) bs == 96) 15 base
  need (decide (1 ≤ switchLimitOf img) && decide (switchLimitOf img ≤ 16)) 15 base

/-- The sentinel entries: source, response, mesh mode. -/
def sentinelOf (img : Bytes) : List ((Nat × Nat × Bool) × Nat) :=
  (entriesOf img 7 8).map fun x => let w := le x.1 0 8; ((field w 7 0, field w 9 8, bit w 16), x.2)

/-- Check 16: sources known and not fused off, responses at their floors. -/
def checkSentinel (f : Fuses) (img : Bytes) : ImageCheck :=
  noneBad (sentinelOf img) 16 fun ((s, r, _), off) =>
    if 19 ≤ s ∨ f.disabled s ∨ r < f.floorOf s then some off else none

/-- Checks 2 to 16 in their order: the first that fails decides. -/
def checkImage (f : Fuses) (img : Bytes) : ImageCheck := do
  checkHeader img
  checkReserved img
  checkSections img
  checkSignatures f img
  checkRollback f img
  checkContentReserved img
  checkPartitions img
  checkShares img
  checkStoreMap img
  checkWalxia f img
  checkBalancer img
  checkSentinel f img

/-- Whether a REASON makes the image malformed; the others reject it. -/
def isMalformed (reason : Nat) : Bool := (decide (2 ≤ reason) && decide (reason ≤ 4)) || decide (10 ≤ reason)

/-! ## What an image puts in force -/

/-- Entries of a list with their indices, those equal to the default left out. -/
def indexed {α : Type} [DecidableEq α] (d : α) (l : List α) : Table α :=
  (l.zipIdx.filter fun x => x.1 ≠ d).map fun x => (x.2, x.1)

/-- A ring-table entry. -/
def ringCfgOf (x : Bytes) : RingCfg := { burst := le x 0 1 + 1, weight := le x 1 1, pollAllowed := bit (le x 2 1) 0 }

/-- The partition table with every FLAGS.HOME bit cleared. -/
def withoutHome (sec : Bytes) : Bytes :=
  (chunks 32 sec).flatMap fun x => x.take 24 ++ [nth 0 x 24 &&& 0xFB] ++ x.drop 25

/-- The personalities of the set with their bounds, in the order of the set. -/
def persOf (img : Bytes) : List PersCfg :=
  ((persSet img).getD []).map fun r =>
    let x := (((boundsOf img).find? fun x => x.1.1 == r.id).map (·.1)).getD (r.id, 0, 0, 0)
    { id := r.id, cls := r.cls, maskOrder := le r.data 0 1, minLanes := x.2.1, maxLanes := x.2.2.1, initial := x.2.2.2 }

/-- The image that passed its checks. -/
def imageOf (img : Bytes) : Image :=
  { imageId := BitVec.ofNat 64 (le img 0x10 8), rollback := rollbackOf img, advance := bit (le img 0xC 4) 8
    parts := indexed {} ((entriesOf img 1 32).map fun x => partOf x.1)
    rings := indexed {} ((entriesOf img 2 8).map fun x => ringCfgOf x.1)
    storeMap := storeMapOf img, pers := persOf img, switchLimit := switchLimitOf img
    program := (chunks 2 (programOf img)).map fun x => BitVec.ofNat 14 (le x 0 2)
    common := commonOf img, sentinel := (sentinelOf img).map (·.1)
    tableDigest := Hash.hash .sha384 (withoutHome (sectionOf img 1)) }

end Sys2Proof.Machine
end

