-- ==== Sys2Proof/Machine/Edwards.lean ====
section
/-! DEFINITION. The Edwards and Montgomery curves of the OX units: Ed25519 and Ed448 (RFC 8032), X25519 and X448
(RFC 7748) (08 R179, R180). Encodings are little-endian. -/

namespace Sys2Proof.Edwards

open Sys2Proof BigNum

/-- The parameters of a twisted Edwards curve a·x^2 + y^2 = 1 + d·x^2·y^2. -/
structure Curve where
  p : Nat
  a : Nat
  d : Nat
  gx : Nat
  gy : Nat
  /-- Order of the generator. -/
  l : Nat
  /-- log2 of the cofactor. -/
  c : Nat
  /-- Bytes of an encoded point. -/
  b : Nat
  deriving DecidableEq, Repr

/-- Ed25519. -/
def ed25519 : Curve where
  p := 2 ^ 255 - 19
  a := 2 ^ 255 - 20
  d := 0x52036CEE2B6FFE738CC740797779E89800700A4D4141D8AB75EB4DCA135978A3
  gx := 0x216936D3CD6E53FEC0A4E231FDD6DC5C692CC7609525A7B2C9562D608F25D51A
  gy := 0x6666666666666666666666666666666666666666666666666666666666666658
  l := 2 ^ 252 + 27742317777372353535851937790883648493
  c := 3
  b := 32

/-- Ed448. -/
def ed448 : Curve where
  p := 2 ^ 448 - 2 ^ 224 - 1
  a := 1
  d := 2 ^ 448 - 2 ^ 224 - 1 - 39081
  gx := 224580040295924300187604334099896036246789641632564134246125461686950415467406032909029192869357953282578032075146446173674602635247710
  gy := 298819210078481492676017930443930673437544040154080242095928241372331506189835876003536878655418784733982303233503462500531545062832660
  l := 2 ^ 446 - 13818066809895115352007386748515426880336692474882178609894547503885
  c := 2
  b := 57

/-- A point in affine coordinates; the neutral element is (0, 1). -/
abbrev Point := Nat × Nat

/-- Addition; the formula is complete on both curves. -/
def add (c : Curve) (p q : Point) : Point :=
  let t := c.d * (p.1 * q.1 % c.p) % c.p * (p.2 * q.2 % c.p) % c.p
  ((p.1 * q.2 + q.1 * p.2) * inv ((1 + t) % c.p) c.p % c.p,
   subMod (p.2 * q.2 % c.p) (c.a * (p.1 * q.1 % c.p) % c.p) c.p * inv (subMod 1 t c.p) c.p % c.p)

/-- Multiplication by the low bits of a number, the highest first. -/
def mulAux (c : Curve) (pt : Point) (k : Nat) : Nat → Point → Point
  | 0, acc => acc
  | i + 1, acc =>
    let d := add c acc acc
    mulAux c pt k i (if k.testBit i then add c d pt else d)

/-- Multiplication of a point by a number. -/
def mul (c : Curve) (k : Nat) (pt : Point) : Point := mulAux c pt k (bitLen k) (0, 1)

/-- The base point. -/
def base (c : Curve) : Point := (c.gx, c.gy)

/-- The encoding of a point: y, with the low bit of x as the top bit of the last byte. -/
def encode (c : Curve) (p : Point) : Bytes := toLE c.b (p.2 + (p.1 % 2) * 2 ^ (8 * c.b - 1))

/-- The encoded y and the sign bit of a point's encoding. -/
def split (c : Curve) (e : Bytes) : Nat × Nat :=
  let n := ofLE e
  (n % 2 ^ (8 * c.b - 1), n / 2 ^ (8 * c.b - 1))

/-- A square root of u/v modulo p, where there is one; by the exponent that suits p modulo 8. -/
def sqrtRatio (p u v : Nat) : Option Nat :=
  let w := u * inv v p % p
  let x := if p % 4 = 3 then powMod w ((p + 1) / 4) p else
    let x := powMod w ((p + 3) / 8) p
    if x * x % p = w then x else x * powMod 2 ((p - 1) / 4) p % p
  if x * x % p = w then some x else none

/-- The point that an encoding decodes to; none where there is none. y must be below p. -/
def decode (c : Curve) (e : Bytes) : Option Point :=
  let (y, s) := split c e
  let u := subMod 1 (y * y % c.p) c.p
  let v := subMod c.a (c.d * (y * y % c.p) % c.p) c.p
  match sqrtRatio c.p u v with
  | none => none
  | some x =>
    if x = 0 ∧ s = 1 then none
    else some (if x % 2 = s then x else c.p - x, y)

/-- The message hash: SHA-512, or SHAKE256 with the prefix of an empty context. -/
def digest (c : Curve) (m : Bytes) : Bytes :=
  if c.b = 32 then Hash.hash .sha512 m else Hash.xof .shake256 (ascii "SigEd448" ++ [0, 0] ++ m) 114

/-- The clamped scalar and the prefix of a seed. -/
def expand (c : Curve) (seed : Bytes) : Nat × Bytes :=
  let h := if c.b = 32 then Hash.hash .sha512 seed else Hash.xof .shake256 seed 114
  let s := ofLE (h.take c.b)
  let top := if c.b = 32 then 254 else 447
  (s % 2 ^ top / 2 ^ c.c * 2 ^ c.c + 2 ^ top, h.drop c.b)

/-- The public key of a seed. -/
def publicKey (c : Curve) (seed : Bytes) : Bytes := encode c (mul c (expand c seed).1 (base c))

/-- EDDSA_SIGN. -/
def sign (c : Curve) (seed m : Bytes) : Bytes :=
  let (s, pre) := expand c seed
  let a := encode c (mul c s (base c))
  let r := ofLE (digest c (pre ++ m)) % c.l
  let er := encode c (mul c r (base c))
  let k := ofLE (digest c (er ++ a ++ m)) % c.l
  er ++ toLE c.b ((r + k * s) % c.l)

/-- A point times the cofactor. -/
def cofactor (c : Curve) (p : Point) : Point := mul c (2 ^ c.c) p

/-- EDDSA_VERIFY's cofactored equation. -/
def equation (c : Curve) (a r : Point) (ea er m : Bytes) (s : Nat) : Bool :=
  let k := ofLE (digest c (er ++ ea ++ m)) % c.l
  cofactor c (mul c s (base c)) = add c (cofactor c r) (cofactor c (mul c k a))

/-! ## Montgomery curves -/

/-- The parameters of X25519 or X448: prime, bits of the ladder, (A - 2)/4, bytes. -/
structure Mont where
  p : Nat
  bits : Nat
  a24 : Nat
  b : Nat
  deriving DecidableEq, Repr

/-- X25519. -/
def x25519 : Mont := ⟨2 ^ 255 - 19, 255, 121665, 32⟩

/-- X448. -/
def x448 : Mont := ⟨2 ^ 448 - 2 ^ 224 - 1, 448, 39081, 56⟩

/-- The ladder's four coordinates. -/
structure Ladder where
  x2 : Nat
  z2 : Nat
  x3 : Nat
  z3 : Nat

/-- One step of the ladder without its swap. -/
def ladderStep (m : Mont) (x1 : Nat) (l : Ladder) : Ladder :=
  let p := m.p
  let a := (l.x2 + l.z2) % p
  let aa := a * a % p
  let b := subMod l.x2 l.z2 p
  let bb := b * b % p
  let e := subMod aa bb p
  let da := subMod l.x3 l.z3 p * a % p
  let cb := (l.x3 + l.z3) % p * b % p
  let s := (da + cb) % p
  let t := subMod da cb p
  ⟨aa * bb % p, e * ((aa + m.a24 * e) % p) % p, s * s % p, x1 * (t * t % p) % p⟩

/-- The ladder over the low `i` bits of k, the highest first. -/
def ladder (m : Mont) (x1 k : Nat) : Nat → Ladder → Ladder
  | 0, l => l
  | i + 1, l =>
    if k.testBit i then
      let r := ladderStep m x1 ⟨l.x3, l.z3, l.x2, l.z2⟩
      ladder m x1 k i ⟨r.x3, r.z3, r.x2, r.z2⟩
    else ladder m x1 k i (ladderStep m x1 l)

/-- A clamped scalar. -/
def clamp (m : Mont) (s : Bytes) : Nat :=
  let c := if m.bits = 255 then 3 else 2
  ofLE s % 2 ^ (m.bits - 1) / 2 ^ c * 2 ^ c + 2 ^ (m.bits - 1)

/-- X25519 or X448 of a scalar and a u-coordinate; the top bit of X25519's u is masked. -/
def xdh (m : Mont) (scalar u : Bytes) : Bytes :=
  let x1 := ofLE u % 2 ^ m.bits % m.p
  let r := ladder m x1 (clamp m scalar) m.bits ⟨1, 0, x1, 1⟩
  toLE m.b (r.x2 * powMod r.z2 (m.p - 2) m.p % m.p)

/-- The u-coordinate of the base point. -/
def basePoint (m : Mont) : Bytes := toLE m.b (if m.bits = 255 then 9 else 5)

end Sys2Proof.Edwards
end

