-- ==== Sys2Proof/Machine/MathUnits.lean ====
section
/-! DEFINITION. What OX units and lattice units have in common: taking a job, mismatch and retry (08 R187, 09 R209), the end of
a job, seeds of blinding generators, and wipes (08 R188, 09 R210). Units are named by their unit numbers. -/

namespace Sys2Proof.Machine

open Sys2Proof

/-- Unit u, an OX unit below 168, else a lattice unit. -/
def Block.mathUnit (b : Block) (u : Nat) : MathUnit := if u < 168 then b.oxUnit (u - 112) else b.latUnit (u - 168)

/-- Unit u changed. -/
def Block.modMath (b : Block) (u : Nat) (f : MathUnit → MathUnit) : Block :=
  if u < 168 then b.modOx (u - 112) f else b.modLat (u - 168) f

/-- Mismatch counters of a unit's type changed: SINGLE, DOUBLE, RECHECK, LAST_UNIT. -/
def Block.countMath (b : Block) (u : Nat) (single double recheck : Nat) : Block :=
  if u < 168 then
    { b with ox := { b.ox with single := satAdd 16 b.ox.single single, double := satAdd 16 b.ox.double double, recheck := satAdd 16 b.ox.recheck recheck } }
  else
    { b with lat := { b.lat with single := satAdd 16 b.lat.single single, double := satAdd 16 b.lat.double double, recheck := satAdd 16 b.lat.recheck recheck } }

/-- LAST_UNIT. -/
def Block.lastMath (b : Block) (u : Nat) : Block :=
  if u < 168 then { b with ox := { b.ox with lastUnit := u } } else { b with lat := { b.lat with lastUnit := u } }

/-- Units of a type that can take a job now. -/
def Block.freeMath (b : Block) (t : UnitType) : List Nat :=
  t.units.filter fun u => b.inService u && (b.mathUnit u).job.isNone && !(b.mathUnit u).wiping

/-- A unit's blinding generator asks for a seed before its first job and every 2^16 jobs (08 R181, 09 R207). -/
def Block.seedMath (b : Block) (u : Nat) : Block :=
  let x := b.mathUnit u
  if (!x.seeded || decide (2 ^ 16 ≤ x.jobs)) && !x.seedAsked && b.hen.phase != .stopped then
    (b.ask 1 32 (.unit u)).modMath u fun x => { x with seedAsked := true }
  else b

/-- Unit u takes an item. -/
def Block.mathTake (b : Block) (u : Nat) (i : QItem) : Block :=
  let now := b.now
  ((b.unqueue i.job).modMath u fun x => { x with
    job := some i.job, jobRetry := i.excluded, jobMism := i.mism, startedAt := now, jobs := x.jobs + 1, checked := false
    fatal := none, cutAt := none }).seedMath u

/-- A job leaves unit u, which wipes. -/
def Block.freeJob (b : Block) (u : Nat) : Block :=
  match (b.mathUnit u).job with
  | some j => b.freeUnit j
  | none => b

/-- A retry with no unit in service that it may run on ends ST_FAULT_DETECTED 0x07, and the first unit is quarantined. -/
def Block.noSecond (b : Block) (i : QItem) : Block :=
  match i.excluded.getLast? with
  | some f => (((b.countMath f 0 1 0).unqueue i.job).failJob i.job St.faultDetected 7 f).quarantine f
  | none => b

/-- A self-check mismatch on unit u: a first one sends the job to a retry that excludes the unit; one on the retry, or one with
no other unit in service, ends the job with the tick, unless a cut-off of the same tick governs. One that meets a job cut off in
its tick is only counted (08 R187, R193, 09 R209, R212). -/
def Block.mathMismatch (b : Block) (t : UnitType) (u : Nat) : Block :=
  let x := b.mathUnit u
  match x.job with
  | none => if x.cutAt = some b.now then (b.lastMath u).note 0x0031 1 u 3 else b
  | some j =>
    if x.fatal.isSome then b else
    let b := b.lastMath u
    let fatal := fun (b : Block) (d : Nat) => b.modMath u fun x => { x with fatal := some d }
    if x.jobMism.isSome then fatal (b.note 0x0031 2 u 3) 3
    else if t.units.all fun v => v == u || !b.inService v then fatal (b.note 0x0031 1 u 3) 7
    else ((b.freeUnit j).note 0x0031 1 u 3).retryJob j (x.jobRetry ++ [u]) (some b.now)

/-- A job whose mismatch is final ends ST_FAULT_DETECTED: 0x03 on a retry, with both units quarantined; 0x07 with no other unit,
which is quarantined. -/
def Block.endMismatch (b : Block) (u : Nat) : Block :=
  let x := b.mathUnit u
  match x.job, x.fatal with
  | some j, some d =>
    let b := ((b.freeUnit j).countMath u 0 1 0).failJob j St.faultDetected d u
    let b := match x.jobRetry.getLast? with | some f => if d = 3 then b.quarantine f else b | none => b
    b.quarantine u
  | _, _ => b

/-- The end of a tick: final mismatches of the tick end their jobs, and one microsecond passes. -/
def Block.passTick (b : Block) : Block :=
  (((oxType.units ++ latType.units).filter fun u => (b.mathUnit u).fatal.isSome).foldl Block.endMismatch b).microsecond

/-- A retry has executed without a mismatch: counted; a second such mismatch of the first unit within 10,000,000 ticks
quarantines it. -/
def Block.mathRetried (b : Block) (f t : Nat) : Block :=
  let b := b.countMath f 1 0 0
  let second := match (b.unit f).loneMismatch with | some t0 => decide (t ≤ t0 + mismatchWindow) | none => false
  let b := b.modUnit f fun r => { r with loneMismatch := some t }
  if second then b.quarantine f else b

/-- What follows a job that unit u has executed, as the unit stood before. -/
def Block.afterMath (b : Block) (x : MathUnit) : Block :=
  match x.jobMism, x.jobRetry.getLast? with
  | some t, some f => b.mathRetried f t
  | _, _ => b

/-- The job that unit u works on: none that has met its final mismatch. -/
def Block.mathJob (b : Block) (u : Nat) : Option Job := if (b.mathUnit u).fatal.isSome then none else (b.mathUnit u).job

/-- The entry that unit u executes, for an operation of a family. -/
def Block.onUnit (b : Block) (u family op : Nat) : Option Entry :=
  match b.mathJob u with
  | some (.entry k i) =>
    match b.entry? k i with
    | some e => if e.stage = .dispatched ∧ e.res.isNone ∧ e.d.family = family ∧ e.d.op = op then some e else none
    | none => none
  | _ => none

/-- Unit u may compute: its checks have ended. A draw that HEN cannot serve is refused from PARAM alone, before them (08 R175). -/
def Block.mayCompute (b : Block) (u : Nat) (draws : Bool) : Bool := (b.mathUnit u).checked || (draws && b.hen.phase == .stopped)

/-- An entry draws bytes at a priority; with HEN stopped it ends. -/
def Block.mathDraw (b : Block) (e : Entry) (prio n : Nat) : Block :=
  if e.asked then b
  else if b.hen.phase = .stopped then b.noEntropy e.job 1 e.engine
  else (b.ask prio n (.entry e.ring e.sub)).modEntry e.ring e.sub fun e => { e with asked := true }

/-- UNIT_WIPE_DONE: the unit may take another job; the verifying read of a reset's wipe that finds a byte that is not zero
quarantines it. -/
def Block.wipeDone (b : Block) (u : Nat) (clean : Bool) : Block :=
  let x := b.mathUnit u
  let fault := fun (b : Block) => if (b.unit u).st = .spare then b.countQuarantine u 65 else b.quarantine u
  if b.mode.wiping then (if clean then b else fault b) else
  if !x.wiping then b else
  let b := b.modMath u fun x => { x with wiping := false, verify := false, cutFor := none }
  if x.verify && !clean then fault b else b

/-- UNIT_WIPE_DONE. -/
def execUnitWipeDone (unit : Nat) (clean : Bool) (s : State) : Host.Outcome State Fault Refusal :=
  s.run fun b => b.wipeDone unit clean

end Sys2Proof.Machine
end

