-- ==== Sys2Proof/Machine/Ox.lean ====
section
/-! DEFINITION. OX units (08): dispatch, validation in fixed time, the operations of the PK family and of DRAKE's OX calls,
and RSA key generation. -/

namespace Sys2Proof.Machine

open Sys2Proof

/-! ## Check 4 (05 R116, 08 R170, R177, 10 R218, R227, R229) -/

/-- The operation writes a generated key to K1. -/
def Desc.keygen (d : Desc) : Bool := d.op == 0x14 || d.op == 0x23 || d.op == 0x33

/-- The operation works under K1. -/
def Desc.pkKeyed (d : Desc) : Bool := [0x12, 0x13, 0x20, 0x22, 0x30, 0x32].contains d.op

/-- The algorithm code that an operation and its VARIANT imply. -/
def Desc.pkCode (d : Desc) : Nat := if d.op < 0x20 then 0x20 else if d.op < 0x30 then 0x20 + d.var else 0x20 + d.var

/-- WORDS that the slot must have: of the modulus, or of a generic curve. -/
def Desc.pkWords (d : Desc) : Option Nat := if d.op < 0x20 ∨ (d.op < 0x30 ∧ d.var = 4) then some d.words else none

/-- What an operation needs of K1. -/
def Desc.pkNeed (d : Desc) : KeyNeed :=
  let (usages, modes) := match d.op with
    | 0x12 => (["D1"], "D")
    | 0x22 | 0x32 => (["K3"], "X")
    | _ => (["S0", "S1", "S2"], "S")
  { alg := fun c => c == d.pkCode, usages, modes, len := fun s => match d.pkWords with | some w => s.words == w | none => true }

/-- Check 4 of a PK entry. -/
def Block.oxFault (b : Block) (e : Entry) : Refuse :=
  (b.lateLength e).or <|
  if e.d.keygen then (b.lockFault e).or (b.destFault e.part 0 e.d.k1 (fun c => c == e.d.pkCode) e.d.pkWords)
  else if e.d.pkKeyed then b.keyFault e.part 0 e.d.k1 e.d.pkNeed
  else none

/-! ## Jobs -/

/-- What a unit works on: the descriptor or what a call makes of one, its input, and its key. -/
structure PkJob where
  d : Desc
  src : Bytes
  aux : Bytes
  key : SlotRec := {}

/-- The job of an entry. -/
def Block.pkJob (b : Block) (e : Entry) : PkJob := { d := e.d, src := b.input e, aux := e.aux, key := e.key1.slotRec }

/-- The job of a call: VARIANT is 0 (log entry 20). -/
def callPk (r : CallRec) : PkJob :=
  let key : SlotRec := match r.input with | some k => k.origin | none => {}
  { d := { family := Fam.pk, op := r.op, var := 0, param := r.param, srcLen := r.src.length, auxLen := r.aux.length, dstLen := r.dstLen }
    src := r.src, aux := r.aux, key }

/-! ## Validation (R173, R177 to R179) -/

/-- A refusal: status and detail. -/
abbrev PkRefusal := Option (Nat × Nat)

/-- The first refusal of a list. -/
def firstOf (l : List (Bool × Nat × Nat)) : PkRefusal := (l.find? (·.1)).map (·.2)

/-- The operation uses HASH, and may use SHA-1 (R173). -/
def Desc.usesHash (d : Desc) : Bool × Bool :=
  match d.op with
  | 0x10 | 0x12 => (d.var == 4, false)
  | 0x11 => (d.var != 0, true)
  | 0x13 => (d.var != 0, false)
  | 0x20 => (true, false)
  | 0x21 => (true, true)
  | _ => (false, false)

/-- Refusals decided from PARAM alone (R173, R177). -/
def Desc.pkParam (d : Desc) : PkRefusal :=
  let w := d.words
  let generic := upTo 0x20 0x23 d.op && d.var == 4
  let (uses, sha1) := d.usesHash
  let h := d.hashCode
  firstOf [
    (d.op == 0x14 && (w % 2 == 1 || decide (w < 32) || decide (512 < w)), St.lengthUnsupported, 3),
    (decide (d.op < 0x14) && (decide (w < 2) || decide (512 < w)), St.lengthUnsupported, 1),
    (generic && decide (w < 2), St.lengthUnsupported, 1),
    (generic && decide (20 < w), St.lengthUnsupported, 2),
    (decide (0x20 ≤ d.op) && !generic && w != 0, St.lengthUnsupported, 1),
    (if uses then !(upTo 1 8 h || (sha1 && h == 0xF)) else h != 0, St.lengthUnsupported, 5)]

/-- The modulus of a modular or public RSA operation. -/
def PkJob.n (j : PkJob) : Nat := ofBE (j.aux.take (4 * j.d.words))

/-- The modulus of a job, the slot's where it works under K1. -/
def PkJob.modulus (j : PkJob) : Nat := if j.d.pkKeyed then (Rsa.parse j.key.secret j.key.pub).n else j.n

/-- The public exponent after n. -/
def PkJob.e (j : PkJob) : Nat := ofBE (slice (4 * j.d.words) 8 j.aux)

/-- Unit time of a job with so many output bytes: e comes from the key where the operation works under one, else from AUX (R174,
R184, R185). -/
def PkJob.time (j : PkJob) (out : Nat) : Nat :=
  let keyed := j.d.pkKeyed
  let shares := if keyed then 2 * j.key.secret.length + j.key.pub.length else 0
  Cost.ox j.d (if keyed then slotExponent j.key else expWork j.e) shares out * Cost.cycle

/-- Cases of a value that must lie strictly between 1 and n. -/
def proper (x n : Nat) : List (Bool × Nat × Nat) :=
  [(x == 0, St.operandRange, 1), (x == 1, St.operandRange, 2), (decide (n ≤ x), St.operandRange, 3)]

/-- Refusals of the modular and RSA operations (R177). -/
def PkJob.rsaRange (j : PkJob) : PkRefusal :=
  let d := j.d
  let k := 4 * d.words
  let n := j.modulus
  let a := ofBE (j.src.take k)
  let b := ofBE (j.src.drop k)
  let ofN := if d.op = 0x14 then [] else
      [(n == 0, St.operandRange, 1), (n == 1, St.operandRange, 2), (decide (n < 2 ^ (8 * (k - 4))), St.lengthUnsupported, 4),
       (upTo 3 0x13 d.op && n % 2 == 0, St.operandRange, 4)]
  let exponent := (j.e % 2 == 0 || decide (j.e < 3) || decide (n ≤ j.e), St.operandRange, 0x12)
  firstOf (ofN ++ match d.op with
    | 0x01 | 0x02 | 0x03 => [(decide (n ≤ a), St.operandRange, 3), (decide (n ≤ b), St.operandRange, 3)]
    | 0x04 => proper a n ++ [(b == 0, St.operandRange, 1)]
    | 0x05 => [(a == 0, St.operandRange, 1), (decide (n ≤ a), St.operandRange, 3)]
    | 0x10 => exponent :: (if d.var = 0 then proper a n else [])
    | 0x11 => exponent :: proper (ofBE (j.aux.drop (k + 8))) n
    | 0x12 => proper a n
    | 0x13 => if d.var = 0 then proper a n else []
    | 0x14 => [(let e := ofBE j.aux; e % 2 == 0 || decide (e < 65537), St.operandRange, 0x12)]
    | _ => [])

/-- The curve of a Weierstrass job. -/
def PkJob.curve (j : PkJob) : Ec.Curve :=
  match j.d.var with
  | 1 => Ec.p256
  | 2 => Ec.p384
  | 3 => Ec.p521
  | _ => Ec.generic j.d.words j.aux

/-- AUX after the parameters of a generic curve. -/
def PkJob.rest (j : PkJob) : Bytes := if j.d.var = 4 then j.aux.drop (28 * j.d.words) else j.aux

/-- The point operand. -/
def PkJob.point (j : PkJob) : Nat × Nat :=
  let f := j.curve.f
  (ofBE (j.rest.take f), ofBE (slice f f j.rest))

/-- r and s. -/
def PkJob.rs (j : PkJob) : Nat × Nat :=
  let c := j.curve
  (ofBE (slice (2 * c.f) c.g j.rest), ofBE (slice (2 * c.f + c.g) c.g j.rest))

/-- Refusals of the Weierstrass operations (R178). -/
def PkJob.ecRange (j : PkJob) : PkRefusal :=
  let c := j.curve
  let (x, y) := j.point
  let (r, s) := j.rs
  let generic := if j.d.var = 4 then
      [(ofBE (j.aux.take 4) == 0, St.lengthUnsupported, 4),
       (c.p % 2 == 0 || decide (c.p < 5) || decide (c.p ≤ c.a) || decide (c.p ≤ c.b) || c.n % 2 == 0 || decide (c.n < 3) || c.h == 0 ||
          (4 * c.a ^ 3 + 27 * c.b ^ 2) % c.p == 0, St.notOnCurve, 3),
       (decide (c.p ≤ c.gx) || decide (c.p ≤ c.gy) || !Ec.onCurve c c.gx c.gy, St.notOnCurve, 2)]
    else []
  let pt := if j.d.op = 0x21 ∨ j.d.op = 0x22 then
      [(decide (c.p ≤ x) || decide (c.p ≤ y), St.operandRange, 3), (!Ec.onCurve c x y, St.notOnCurve, 1)]
    else []
  let sig := if j.d.op = 0x21 then
      [(r == 0 || decide (c.n ≤ r) || s == 0 || decide (c.n ≤ s), St.operandRange, 6)]
    else []
  firstOf (generic ++ pt ++ sig)

/-- The Edwards curve of a job. -/
def PkJob.ed (j : PkJob) : Edwards.Curve := if j.d.var = 0x10 then Edwards.ed25519 else Edwards.ed448

/-- The Montgomery curve of a job. -/
def PkJob.mont (j : PkJob) : Edwards.Mont := if j.d.var = 0x12 then Edwards.x25519 else Edwards.x448

/-- A, R and S of EDDSA_VERIFY. -/
def PkJob.edParts (j : PkJob) : Bytes × Bytes × Nat :=
  let n := j.ed.b
  (j.aux.take n, slice n n j.aux, ofLE (j.aux.drop (2 * n)))

/-- Refusals of the Edwards and Montgomery operations (R179). -/
def PkJob.edRange (j : PkJob) : PkRefusal :=
  match j.d.op with
  | 0x31 =>
    let c := j.ed
    let (a, r, s) := j.edParts
    let high := fun (e : Bytes) => decide (c.p ≤ (Edwards.split c e).1)
    let small := match Edwards.decode c a with | some p => Edwards.cofactor c p == (0, 1) | none => false
    firstOf [(high a || high r, St.operandRange, 3), ((Edwards.decode c a).isNone || (Edwards.decode c r).isNone, St.notOnCurve, 1),
      (small, St.operandRange, 7), (decide (c.l ≤ s), St.operandRange, 6)]
  | 0x32 =>
    let u := ofLE j.aux % 2 ^ j.mont.bits
    firstOf [(u == 0, St.operandRange, 1), (u == 1, St.operandRange, 2)]
  | _ => none

/-- The private key copied from a slot lies in its valid range (R186); on a generic curve below the order that AUX gives. -/
def PkJob.keyOk (j : PkJob) : Bool :=
  !j.d.pkKeyed || (KeyBlock.keyInRange j.key.code j.key.secret j.key.pub &&
    (j.key.code != 0x24 || decide (ofBE j.key.secret < j.curve.n)))

/-- Check 5 (R173 to R179, R186). -/
def PkJob.refusal (j : PkJob) : PkRefusal :=
  match j.d.pkParam with
  | some r => some r
  | none =>
    match (if j.d.op < 0x20 then j.rsaRange else if j.d.op < 0x30 then j.ecRange else j.edRange) with
    | some r => some r
    | none => if j.keyOk then none else some (St.faultDetected, 8)

/-! ## Computation (R180) -/

/-- The hash of a job. -/
def PkJob.hash (j : PkJob) : Hash.Fn := (Hash.ofCode j.d.hashCode).getD .sha256

/-- Bytes of randomness that an operation other than RSA_KEYGEN draws before it can go on, with its priority (R182); none
where `rnd` suffices. -/
def PkJob.needs (j : PkJob) (rnd : Bytes) : Option (Nat × Nat) :=
  let k := 4 * j.d.words
  let want := fun (prio n : Nat) => if rnd.length < n then some (prio, n - rnd.length) else none
  match j.d.op with
  | 0x10 =>
    if j.d.var = 3 then
      let have_ := (rnd.filter (· ≠ 0)).length
      let need := k - 3 - j.src.length
      if have_ < need then some (3, need - have_) else none
    else if j.d.var = 4 then want 3 (Hash.digestLen j.hash) else none
  | 0x13 => if j.d.var = 2 then want 3 j.d.saltLen else none
  | 0x20 => want 3 32
  | 0x23 =>
    let n := ceilDiv (BigNum.bitLen j.curve.n) 8
    if (chunks n rnd).any fun c => decide (c.length = n) && (Ec.scalarOf j.curve c).isSome then none else some (2, n)
  | 0x33 => want 2 (if j.d.var = 0x11 then 57 else if j.d.var = 0x13 then 56 else 32)
  | _ => none

/-- A key to be written to the slot of K1. -/
def PkJob.newKey (j : PkJob) (secret pub : Bytes) (words : Nat) : Option (Nat × SlotRec) :=
  let s : SlotRec := { st := .live, chain := chainSlots (secret.length, pub.length), code := j.d.pkCode, words
                       keyBits := keyBitsOf j.d.pkCode words secret.length, secret, pub }
  some (j.d.k1.slot, s)

/-- The encoded message of RSA_SIGN and the check of RSA_VERIFY. -/
def PkJob.rsaEncoded (j : PkJob) (rnd : Bytes) : Option Bytes :=
  let k := 4 * j.d.words
  match j.d.var with
  | 0 => some j.src
  | 1 => Rsa.emsaPkcs1 j.hash j.src k
  | _ => (Rsa.emsaPss j.hash j.src (rnd.take j.d.saltLen) (BigNum.bitLen j.modulus - 1)).map fun em => zeros (k - em.length) ++ em

/-- The result of a PK operation that passed check 5, with the randomness it drew. -/
def PkJob.result (j : PkJob) (rnd : Bytes) : Result :=
  let d := j.d
  let k := 4 * d.words
  let n := j.modulus
  let a := ofBE (j.src.take k)
  let b := ofBE (j.src.drop k)
  let num := fun (x : Nat) => ({ out := toBE k x } : Result)
  let verdict := fun (ok : Bool) (detail : Nat) => if ok then ({} : Result) else Result.bad St.verifyFail detail
  match d.op with
  | 0x01 => num ((a + b) % n)
  | 0x02 => num (BigNum.subMod a b n)
  | 0x03 => num (a * b % n)
  | 0x04 => num (BigNum.powMod a b n)
  | 0x05 => match BigNum.inverse a n with | some x => num x | none => Result.bad St.operandRange 5
  | 0x10 =>
    let em := match d.var with
      | 0 => j.src
      | 3 => Rsa.emePkcs1 j.src ((rnd.filter (· ≠ 0)).take (k - 3 - j.src.length))
      | _ => Rsa.emeOaep j.hash (j.aux.drop (k + 8)) j.src (rnd.take (Hash.digestLen j.hash)) k
    num (BigNum.powMod (ofBE em) j.e n)
  | 0x11 =>
    let m := BigNum.powMod (ofBE (j.aux.drop (k + 8))) j.e n
    match d.var with
    | 0 => verdict (toBE k m == j.src) 3
    | 1 => verdict (Rsa.emsaPkcs1 j.hash j.src k == some (toBE k m)) 3
    | _ =>
      let bits := BigNum.bitLen n - 1
      let len := ceilDiv bits 8
      verdict (decide (m < 2 ^ (8 * len)) && Rsa.pssVerify j.hash j.src (toBE len m) bits d.saltLen) 3
  | 0x12 =>
    let em := toBE k (Rsa.crt (Rsa.parse j.key.secret j.key.pub) a)
    let msg := match d.var with
      | 0 => some em
      | 3 => Rsa.unpadPkcs1 em
      | _ => Rsa.unpadOaep j.hash j.aux em
    match msg with
    | none => Result.bad St.verifyFail 9
    | some m =>
      if d.dstLen < m.length then { status := St.length, detail := 1, result := BitVec.ofNat 64 m.length } else { out := m }
  | 0x13 =>
    match j.rsaEncoded rnd with
    | some em => num (Rsa.crt (Rsa.parse j.key.secret j.key.pub) (ofBE em))
    | none => Result.bad St.length 4
  | 0x20 => { out := Ec.sign j.curve j.hash (ofBE j.key.secret) j.src (rnd.take 32) }
  | 0x21 => verdict (Ec.verify j.curve (some j.point) j.src j.rs.1 j.rs.2) 4
  | 0x22 =>
    let c := j.curve
    match Ec.mul c (c.h * ofBE j.key.secret) (some j.point) with
    | none => Result.bad St.operandRange 7
    | some (x, _) => { out := toBE c.f x }
  | 0x23 =>
    let c := j.curve
    match (chunks (ceilDiv (BigNum.bitLen c.n) 8) rnd).findSome? (Ec.scalarOf c) with
    | some x => { out := Ec.encode c (Ec.mul c x (Ec.gen c)), key := j.newKey (toBE c.g x) [] (if d.var = 4 then d.words else 0) }
    | none => {}
  | 0x30 => { out := Edwards.sign j.ed j.key.secret j.src }
  | 0x31 =>
    let c := j.ed
    let (ea, er, s) := j.edParts
    match Edwards.decode c ea, Edwards.decode c er with
    | some pa, some pr => verdict (Edwards.equation c pa pr ea er j.src s) 5
    | _, _ => Result.bad St.verifyFail 5
  | 0x32 =>
    let z := Edwards.xdh j.mont j.key.secret j.aux
    if ofLE z = 0 then Result.bad St.operandRange 7 else { out := z }
  | 0x33 =>
    if d.var ≤ 0x11 then
      let seed := rnd.take (if d.var = 0x11 then 57 else 32)
      { out := Edwards.publicKey j.ed seed, key := j.newKey seed [] 0 }
    else
      let x := rnd.take (if d.var = 0x13 then 56 else 32)
      { out := Edwards.xdh j.mont x (Edwards.basePoint j.mont), key := j.newKey x [] 0 }
  | _ => {}

/-! ## Commands -/

/-- An RSA_KEYGEN with WORDS above 128 (R169). -/
def Desc.isLong (d : Desc) : Bool := d.family == Fam.pk && d.op == 0x14 && decide (128 < d.words)

/-- Whether a job is a long job. -/
def Block.longJob (b : Block) (j : Job) : Bool :=
  match j with
  | .entry k i => (b.entry? k i).any fun e => e.d.isLong
  | .call _ _ => false

/-- Long jobs that run. -/
def Block.longActive (b : Block) : Nat :=
  (oxType.units.filter fun u => match (b.mathUnit u).job with | some j => b.longJob j | none => false).length

/-- The unit that may take an item: of those free and not excluded the one idle longest. -/
def Block.unitFor (b : Block) (t : UnitType) (i : QItem) : Option Nat :=
  argMin (fun u => ((b.mathUnit u).idleSince : Int)) ((b.freeMath t).filter fun u => !(i.excluded.contains u))

/-- A retry that no unit in service may take. -/
def Block.stranded (b : Block) (t : UnitType) (i : QItem) : Bool :=
  i.retry && t.units.all fun u => !b.inService u || i.excluded.contains u

/-- Check 4 of a call, as the equivalent descriptor would be refused (R169): the cause of ST_KEY_USAGE. -/
def CallRec.oxFault (r : CallRec) : Option Nat :=
  let j := callPk r
  if j.d.pkKeyed then j.d.pkNeed.fault j.key else none

/-- What happens to an item of the OX queue; none where it waits. -/
def Block.oxTry (b : Block) (i : QItem) : Option Block :=
  if !b.mayDispatch i.job || (b.longJob i.job && decide (8 ≤ b.longActive)) then none
  else if b.stranded oxType i then some (b.noSecond i)
  else (b.unitFor oxType i).map fun u =>
    match i.job with
    | .call c n =>
      match (b.call? c n).bind CallRec.oxFault with
      | some cause => (b.unqueue i.job).failJob i.job St.keyUsage (keyDetail 0 cause) 0xFF
      | none => b.mathTake u i
    | .entry k sub =>
      match b.entry? k sub with
      | none => b.unqueue i.job
      | some e =>
        match (if e.dispatchedAt.isSome then none else b.oxFault e) with
        | some (st, det, r) => (b.unqueue i.job).refuse e st det r
        | none => (b.mathTake u i).startEntry k sub u (if e.d.pkKeyed then [b.copyKey e.d.k1] else []) none

/-- OX_DISPATCH (R169). -/
def Block.oxDispatch (b : Block) : Block := (b.ox.queue.findSome? b.oxTry).getD b

/-- OX_DISPATCH. -/
def execOxDispatch (s : State) : Host.Outcome State Fault Refusal := s.run Block.oxDispatch

/-- Time that unit u has spent on its job, scaled to 1.6 GHz, in 1/12800 ns (13 R291). -/
def Block.mathSpent (b : Block) (u : Nat) : Nat := (b.now - (b.mathUnit u).startedAt) * 12800000 * b.freqOf u / 16

/-- A job on unit u refused at check 5: counted, noted where a slot's key failed, and reported; the unit wipes. A call is charged
(13 R291). -/
def Block.oxRefuse (b : Block) (u : Nat) (j : Job) (st det : Nat) : Block :=
  let x := b.mathUnit u
  let used := b.mathSpent u
  let b := b.freeUnit j
  let b := if st = St.faultDetected then (b.countMath u 0 0 1).note 0x0031 2 u det else b
  let b : Block := { b with ox := { b.ox with validation := satAdd 32 b.ox.validation 1 } }
  let b := match j with | .call c n => b.chargeCall c n 1 used | .entry _ _ => b
  (b.failJob j st det u).afterMath x

/-- The job of unit u as the unit works on it. -/
def Block.unitJob (b : Block) (u : Nat) : Option (Job × PkJob) :=
  match b.mathJob u with
  | some (.entry k i) => (b.entry? k i).bind fun e => if e.stage = .dispatched then some (.entry k i, b.pkJob e) else none
  | some (.call c x) => (b.call? c x).map fun r => (.call c x, callPk r)
  | none => none

/-- OX_VALIDATION_REPORT (R175): a job that check 5 refuses is reported; another goes on. -/
def Block.validationReport (b : Block) (u : Nat) : Block :=
  match b.unitJob u with
  | some (j, x) =>
    match x.refusal with
    | some (st, det) => b.oxRefuse u j st det
    | none => b.modMath u fun y => { y with checked := true }
  | none => b

/-- OX_VALIDATION_REPORT. -/
def execOxValidationReport (unit : Nat) (s : State) : Host.Outcome State Fault Refusal := s.run fun b => b.validationReport unit

/-- OX_SELF_CHECK_MISMATCH. -/
def execOxSelfCheckMismatch (unit : Nat) (s : State) : Host.Outcome State Fault Refusal :=
  s.run fun b => if unit < 168 then b.mathMismatch oxType unit else b

/-- A PK operation on unit u: draws what it needs, then its result stands; one that check 5 refuses waits for its report, and
one that it passes computes after it (R175). -/
def Block.pkOn (b : Block) (u op : Nat) : Block :=
  match b.onUnit u Fam.pk op with
  | none => b
  | some e =>
    let j := b.pkJob e
    if j.refusal.isSome || !b.mayCompute u (j.needs []).isSome then b
    else match j.needs e.rnd with
      | some (prio, n) => b.mathDraw e prio n
      | none => b.setResult e (j.result e.rnd)

/-- MOD_ADD. -/
def execModAdd (unit : Nat) (s : State) : Host.Outcome State Fault Refusal := s.run fun b => b.pkOn unit 0x01
/-- MOD_SUB. -/
def execModSub (unit : Nat) (s : State) : Host.Outcome State Fault Refusal := s.run fun b => b.pkOn unit 0x02
/-- MOD_MUL. -/
def execModMul (unit : Nat) (s : State) : Host.Outcome State Fault Refusal := s.run fun b => b.pkOn unit 0x03
/-- MOD_EXP. -/
def execModExp (unit : Nat) (s : State) : Host.Outcome State Fault Refusal := s.run fun b => b.pkOn unit 0x04
/-- MOD_INV. -/
def execModInv (unit : Nat) (s : State) : Host.Outcome State Fault Refusal := s.run fun b => b.pkOn unit 0x05
/-- RSA_ENCRYPT. -/
def execRsaEncrypt (unit : Nat) (s : State) : Host.Outcome State Fault Refusal := s.run fun b => b.pkOn unit 0x10
/-- RSA_VERIFY. -/
def execRsaVerify (unit : Nat) (s : State) : Host.Outcome State Fault Refusal := s.run fun b => b.pkOn unit 0x11
/-- RSA_DECRYPT. -/
def execRsaDecrypt (unit : Nat) (s : State) : Host.Outcome State Fault Refusal := s.run fun b => b.pkOn unit 0x12
/-- RSA_SIGN. -/
def execRsaSign (unit : Nat) (s : State) : Host.Outcome State Fault Refusal := s.run fun b => b.pkOn unit 0x13
/-- ECDSA_SIGN. -/
def execEcdsaSign (unit : Nat) (s : State) : Host.Outcome State Fault Refusal := s.run fun b => b.pkOn unit 0x20
/-- ECDSA_VERIFY. -/
def execEcdsaVerify (unit : Nat) (s : State) : Host.Outcome State Fault Refusal := s.run fun b => b.pkOn unit 0x21
/-- ECDH. -/
def execEcdh (unit : Nat) (s : State) : Host.Outcome State Fault Refusal := s.run fun b => b.pkOn unit 0x22
/-- EC_KEYGEN. -/
def execEcKeygen (unit : Nat) (s : State) : Host.Outcome State Fault Refusal := s.run fun b => b.pkOn unit 0x23
/-- EDDSA_SIGN. -/
def execEddsaSign (unit : Nat) (s : State) : Host.Outcome State Fault Refusal := s.run fun b => b.pkOn unit 0x30
/-- EDDSA_VERIFY. -/
def execEddsaVerify (unit : Nat) (s : State) : Host.Outcome State Fault Refusal := s.run fun b => b.pkOn unit 0x31
/-- XDH. -/
def execXdh (unit : Nat) (s : State) : Host.Outcome State Fault Refusal := s.run fun b => b.pkOn unit 0x32
/-- EDWARDS_KEYGEN. -/
def execEdwardsKeygen (unit : Nat) (s : State) : Host.Outcome State Fault Refusal := s.run fun b => b.pkOn unit 0x33

/-! ## RSA key generation (R191) -/

/-- What testing one candidate does to an entry: rejected by sieve or Miller–Rabin it is counted; a prime is kept where it fits e
and lies far enough from the first. -/
def Entry.tryCandidate (e : Entry) (words ex : Nat) : Entry :=
  let c := Rsa.candidate (16 * words) (e.rnd.take (2 * words))
  let e := { e with rnd := e.rnd.drop (2 * words) }
  if BigNum.sieved c || !BigNum.probablyPrime (BigNum.mrRounds (16 * words)) c then { e with tested := e.tested + 1 }
  else
    let far := match e.primes.head? with
      | some p => decide (2 ^ (16 * words - 100) < max p c - min p c)
      | none => true
    if Nat.gcd ex (c - 1) = 1 && far then { e with primes := e.primes ++ [c] } else e

/-- RSA_KEYGEN: one candidate is drawn and tested; with the second prime the key stands. -/
def Block.rsaKeygen (b : Block) (u : Nat) : Block :=
  match b.onUnit u Fam.pk 0x14 with
  | none => b
  | some e =>
    let j := b.pkJob e
    let w := e.d.words
    let ex := ofBE e.aux
    if j.refusal.isSome || !b.mayCompute u true then b
    else if e.rnd.length < 2 * w then b.mathDraw e 2 (2 * w)
    else
      let c := Rsa.candidate (16 * w) (e.rnd.take (2 * w))
      let e' := e.tryCandidate w ex
      let b := { b with ox := { b.ox with
        candidates := if BigNum.sieved c then b.ox.candidates else satAdd 32 b.ox.candidates 1
        primes := satAdd 16 b.ox.primes (e'.primes.length - e.primes.length) } }
      let b := b.modEntry e.ring e.sub fun _ => e'
      match e'.primes with
      | [p, q] =>
        let (secret, pub) := Rsa.keyOf p q ex (4 * w)
        b.setResult e' { out := pub.take (4 * w), key := j.newKey secret pub w, result := BitVec.ofNat 64 (e'.tested % 2 ^ 32) }
      | _ => b.mathDraw e' 2 (2 * w)

/-- RSA_KEYGEN. -/
def execRsaKeygen (unit : Nat) (s : State) : Host.Outcome State Fault Refusal := s.run fun b => b.rsaKeygen unit

/-! ## The end of a job -/

/-- A call draws bytes at a priority; with HEN stopped it cannot be served (12 R280). -/
def Block.drawCall (b : Block) (u c prio n : Nat) : Block :=
  match b.call? u c with
  | none => b
  | some r =>
    if r.asked then b
    else if b.hen.phase = .stopped then (b.freeUnit (.call u c)).noEntropy (.call u c) 1 (188 + u)
    else (b.ask prio n (.call u c)).modCx u (ctxIx c) fun x => { x with call := x.call.map fun r => { r with asked := true } }

/-- OX_JOB_DONE of a call: it is served, or ends with the status of its computation, and is charged (13 R291). -/
def Block.oxCallDone (b : Block) (u c n : Nat) (r : CallRec) : Block :=
  let x := b.mathUnit u
  let j := callPk r
  if r.served then b.freeUnit (.call c n)
  else if j.refusal.isSome || !b.mayCompute u (j.needs []).isSome then b
  else match j.needs r.rnd with
    | some (prio, len) => b.drawCall c n prio len
    | none =>
      let y := j.result r.rnd
      let b := (b.freeUnit (.call c n)).chargeCall c n 1 (j.time y.out.length)
      (if y.status = St.ok then
          b.modCx c (ctxIx n) fun z => { z with call := z.call.map fun r => { r with served := true, engine := u } }
        else b.failCall c n y.status y.detail u).afterMath x

/-- OX_JOB_DONE (R184, R185): the result of an entry goes to staging; a call is served, or refused as the equivalent descriptor
would be; the unit wipes. -/
def Block.oxDone (b : Block) (u : Nat) : Block :=
  let x := b.mathUnit u
  match b.mathJob u with
  | some (.entry k i) =>
    match b.entry? k i with
    | some e =>
      match e.res with
      | none => b
      | some r =>
        let used := if e.d.op = 0x14 then b.mathSpent u else (b.pkJob e).time r.out.length
        let span := match e.dispatchedAt with | some t => min 200 ((b.now - t) / 100000) | none => 0
        let b := if e.d.op = 0x14 then { b with ox := { b.ox with max100ms := max b.ox.max100ms span } } else b
        ((b.freeUnit (.entry k i)).executed e used).afterMath x
    | none => b.freeUnit (.entry k i)
  | some (.call c n) =>
    match b.call? c n with
    | some r => b.oxCallDone u c n r
    | none => b.freeUnit (.call c n)
  | none => b

/-- OX_JOB_DONE. -/
def execOxJobDone (unit : Nat) (s : State) : Host.Outcome State Fault Refusal :=
  s.run fun b => if unit < 168 then b.oxDone unit else b

end Sys2Proof.Machine
end

