-- ==== Sys2Proof/Machine/Slh.lean ====
section
/-! DEFINITION. Verification of SLH-DSA signatures, FIPS 205, for the twelve parameter sets (09 R211, 11 R256). -/

namespace Sys2Proof.Slh

open Sys2Proof

/-- The parameters of a set: hash bytes n, total height h, layers d, FORS height a and trees k, digest bytes m. -/
structure Params where
  /-- Whether the set uses SHA-2, else SHAKE. -/
  sha2 : Bool
  n : Nat
  h : Nat
  d : Nat
  a : Nat
  k : Nat
  m : Nat
  deriving Inhabited

/-- The six sizes, in the order 128s, 128f, 192s, 192f, 256s, 256f. -/
def sizes (sha2 : Bool) : List Params :=
  [⟨sha2, 16, 63, 7, 12, 14, 30⟩, ⟨sha2, 16, 66, 22, 6, 33, 34⟩, ⟨sha2, 24, 63, 7, 14, 17, 39⟩,
   ⟨sha2, 24, 66, 22, 8, 33, 42⟩, ⟨sha2, 32, 64, 8, 14, 22, 47⟩, ⟨sha2, 32, 68, 17, 9, 35, 49⟩]

/-- An address of a hash call: layer, tree, type and the three words of the type. -/
structure Adrs where
  layer : Nat := 0
  tree : Nat := 0
  type : Nat := 0
  w1 : Nat := 0
  w2 : Nat := 0
  w3 : Nat := 0

/-- The 32 bytes of an address, or its 22 compressed bytes under SHA-2. -/
def adrsBytes (sha2 : Bool) (x : Adrs) : Bytes :=
  if sha2 then [byte x.layer] ++ toBE 8 x.tree ++ [byte x.type] ++ toBE 4 x.w1 ++ toBE 4 x.w2 ++ toBE 4 x.w3
  else toBE 4 x.layer ++ toBE 12 x.tree ++ toBE 4 x.type ++ toBE 4 x.w1 ++ toBE 4 x.w2 ++ toBE 4 x.w3

/-- A tweakable hash: F when the message is one block (`wide` false), H and T otherwise. -/
def tweak (p : Params) (seed : Bytes) (wide : Bool) (x : Adrs) (m : Bytes) : Bytes :=
  if !p.sha2 then Hash.xof .shake256 (seed ++ adrsBytes false x ++ m) p.n
  else if wide && decide (p.n > 16) then (Hash.hash .sha512 (seed ++ zeros (128 - p.n) ++ adrsBytes true x ++ m)).take p.n
  else (Hash.hash .sha256 (seed ++ zeros (64 - p.n) ++ adrsBytes true x ++ m)).take p.n

/-- The message hash. -/
def hMsg (p : Params) (r seed root m : Bytes) : Bytes :=
  if !p.sha2 then Hash.xof .shake256 (r ++ seed ++ root ++ m) p.m
  else
    let f : Hash.Fn := if p.n = 16 then .sha256 else .sha512
    Rsa.mgf1 f (r ++ seed ++ Hash.hash f (r ++ seed ++ root ++ m)) p.m

/-- count b-bit digits of a byte string, most significant first. -/
def digits (b count : Nat) (x : Bytes) : List Nat :=
  let total := 8 * x.length
  let v := ofBE x
  (List.range count).map (fun i => v / 2 ^ (total - b * (i + 1)) % 2 ^ b)

/-- The chain function: s steps from step i. -/
def chain (p : Params) (seed : Bytes) (x : Adrs) : Nat → Nat → Bytes → Bytes
  | 0, _, v => v
  | s + 1, i, v => chain p seed x s (i + 1) (tweak p seed false { x with w3 := i } v)

/-- The WOTS+ public key that a signature part on an n-byte message gives. -/
def wotsPk (p : Params) (seed sig m : Bytes) (layer tree idx : Nat) : Bytes :=
  let msg := digits 4 (2 * p.n) m
  let csum := sumBy (fun x => 15 - x) msg
  let all := msg ++ digits 4 3 (toBE 2 (csum * 16))
  let parts := chunks p.n sig
  let tops := (List.range (2 * p.n + 3)).flatMap (fun i =>
    let v := nth 0 all i
    chain p seed { layer, tree, type := 0, w1 := idx, w2 := i } (15 - v) v (nth [] parts i))
  tweak p seed true { layer, tree, type := 1, w1 := idx } tops

/-- A Merkle path from a node: heights from 1, the node's index, the authentication path. -/
def path (p : Params) (seed : Bytes) (x : Adrs) : Nat → Nat → Bytes → List Bytes → Bytes
  | _, _, node, [] => node
  | height, idx, node, a :: as =>
    let y := { x with w2 := height, w3 := idx / 2 }
    path p seed x (height + 1) (idx / 2) (tweak p seed true y (if idx % 2 = 0 then node ++ a else a ++ node)) as

/-- The FORS public key of a signature part. -/
def forsPk (p : Params) (seed sig md : Bytes) (tree leaf : Nat) : Bytes :=
  let idx := digits p.a p.k md
  let roots := (List.range p.k).flatMap (fun i =>
    let part := chunks p.n (slice (i * (p.a + 1) * p.n) ((p.a + 1) * p.n) sig)
    let x : Adrs := { tree, type := 3, w1 := leaf }
    let j := i * 2 ^ p.a + nth 0 idx i
    path p seed x 1 j (tweak p seed false { x with w3 := j } (nth [] part 0)) (part.drop 1))
  tweak p seed true { tree, type := 4, w1 := leaf } roots

/-- The hypertree: from layer j up, the root that the signature parts lead to. -/
def hyper (p : Params) (seed : Bytes) : Nat → Nat → Nat → Nat → Bytes → List Bytes → Bytes
  | 0, _, _, _, node, _ => node
  | fuel + 1, layer, tree, leaf, node, sigs =>
    match sigs with
    | [] => node
    | s :: r =>
      let len := (2 * p.n + 3) * p.n
      let hp := p.h / p.d
      let w := wotsPk p seed (s.take len) node layer tree leaf
      let node := path p seed { layer, tree, type := 2 } 1 leaf w (chunks p.n (s.drop len))
      hyper p seed fuel (layer + 1) (tree / 2 ^ hp) (tree % 2 ^ hp) node r

/-- Bytes of a signature. -/
def sigLen (p : Params) : Nat := (1 + p.k * (1 + p.a) + p.h + p.d * (2 * p.n + 3)) * p.n

/-- Verification of a signature on a message of the pure mode, given with its domain and context bytes in front. -/
def verify (p : Params) (pk m sig : Bytes) : Bool :=
  let seed := pk.take p.n
  let root := pk.drop p.n
  let dig := hMsg p (sig.take p.n) seed root m
  let mdLen := ceilDiv (p.k * p.a) 8
  let treeLen := ceilDiv (p.h - p.h / p.d) 8
  let tree := ofBE (slice mdLen treeLen dig) % 2 ^ (p.h - p.h / p.d)
  let leaf := ofBE (slice (mdLen + treeLen) (ceilDiv p.h (8 * p.d)) dig) % 2 ^ (p.h / p.d)
  let forsLen := p.k * (1 + p.a) * p.n
  let node := forsPk p seed (slice p.n forsLen sig) (dig.take mdLen) tree leaf
  let part := (2 * p.n + 3 + p.h / p.d) * p.n
  decide (sig.length = sigLen p) && hyper p seed p.d 0 tree leaf node (chunks part (sig.drop (p.n + forsLen))) = root

end Sys2Proof.Slh
end

