-- ==== Sys2Proof/Machine/Pay.lean ====
section
/-! DEFINITION. The PAY family (11): dispatch to DRAKE cores, core faults, check 4 and 5 of the payment functions and their
results. Machine/PayRun.lean has the runs of their firmware, Machine/K14.lean the instructions themselves. -/

namespace Sys2Proof.Machine

open Sys2Proof

/-! ## Check 4 at dispatch (R235, 12 R263) -/

/-- The key references that a function names, by reference number. -/
def Entry.payRefs (e : Entry) : List (Nat × KeyRef) :=
  match payForm e.d.op e.d.var with
  | some f => (if f.k1 then [(0, e.d.k1)] else []) ++ (if f.k2 then [(1, e.d.k2)] else []) ++ (if f.k3 then [(2, e.d.k3)] else [])
  | none => []

/-- The destination of EMV_SESSION_DERIVE, up to its generation. -/
def Block.payDest (b : Block) (e : Entry) : Refuse := b.destFault e.part 1 e.d.k2 (fun _ => true) none

/-- Check 4 of a PAY entry as far as the core makes it: lock, range, presence and generation of each key. -/
def Block.payFault (b : Block) (e : Entry) : Refuse :=
  let derive := e.d.op == 0x23
  let keys := e.payRefs.map fun x => if derive && x.1 == 1 then b.payDest e else b.refFault e.part x.1 x.2
  (b.lateLength e).or <| (if derive then b.lockFault e else none).or <| keys.foldl Refuse.or none

/-- The keys that a function copies. -/
def Block.payCopies (b : Block) (e : Entry) : List KeyCopy :=
  (e.payRefs.filter fun x => !(e.d.op == 0x23 && x.1 == 1)).map fun x => b.copyKey x.2

/-! ## Dispatch (R234, R235) -/

/-- A byte string placed in a bank at an offset; bytes that read zero are not listed. -/
def bankCells (off : Nat) (bs : Bytes) : List Host.Cell := (bs.zipIdx.filter fun x => x.1 != 0).map fun x => (off + x.2, x.1)

/-- The decimalisation table goes to the bank and not to the bay. -/
def Desc.usesTable (d : Desc) : Bool := d.op == 0x02 && d.var / 16 == 0

/-- The bank of a function at its start (12 R263); a retry starts with the keys copied at the first dispatch (R238). -/
def Block.startBank (b : Block) (e : Entry) (keys : List KeyCopy) : List Host.Cell :=
  let src := b.input e
  let derive := e.d.op == 0x23
  let attr := fun (i : Nat) => match e.payRefs.find? fun x => x.1 == i with
    | some x =>
      let now := b.slot x.2.slot
      let s := if derive && i == 1 then now else match keys[i]? with
        | some k => { k.slotRec with refs := now.refs }
        | none => now
      slotAttributes s (b.slotOwner x.2.slot)
    | none => zeros 32
  let table := if e.d.usesTable then match keys[2]? with | some k => k.slotRec.secret.take 16 | none => [] else []
  bankCells 0 e.raw ++ bankCells 0x40 e.aux ++ bankCells 0x440 (if src.length ≤ 64 then src else [])
    ++ bankCells 0x490 (attr 0 ++ attr 1 ++ attr 2) ++ bankCells 0x4F0 table

/-- The bay of a function at its start: entry i holds the copy of key i. -/
def startBay (d : Desc) (keys : List KeyCopy) : Table (Option BayKey) :=
  ((keys.zipIdx.filter fun k => !(d.usesTable && k.2 == 2)).map fun k =>
    let x : BayKey := { key := k.1.slotRec.secret, code := k.1.slotRec.code, origin := k.1.slotRec }
    (k.2, some x))

/-- The contexts of a core that hold no function. -/
def Core14.freeCtxs (k : Core14) : List (Fin 8) := (List.finRange 8).filter fun c => c != 0 && k.ctxs[c].fn.isNone

/-- Cores, by index, that may take an item: in service, accepting functions, with a free bank and not excluded. -/
def Block.payCores (b : Block) (i : QItem) : List Nat :=
  (List.range 18).filter fun u =>
    b.inService (188 + u) && (b.core u).accepting && !(b.core u).freeCtxs.isEmpty && !(i.excluded.contains (188 + u))

/-- A function starts in context c of core u. -/
def Block.startFunction (b : Block) (u : Nat) (c : Fin 8) (e : Entry) : Block :=
  let keys := b.payCopies e
  let b := b.startEntry e.ring e.sub (188 + u) keys none
  match b.entry? e.ring e.sub with
  | none => b
  | some e =>
    let bank := b.startBank e e.keys
    b.modCx u c fun _ => { Ctx14.fresh with
      pc := BitVec.ofNat 14 (0x100 + 2 * e.d.op), fn := some (e.ring, e.sub), op := e.d.op, var := e.d.var, part := e.part
      bank, bay := startBay e.d e.keys }

/-- What happens to an item of the PAY queue; none where it waits. -/
def Block.payTry (b : Block) (i : QItem) : Option Block :=
  if !b.mayDispatch i.job then none else
  (argMax (fun u => ((b.core u).freeCtxs.length : Int)) (b.payCores i)).bind fun u =>
    match i.job with
    | .call _ _ => some (b.unqueue i.job)
    | .entry k sub =>
      match b.entry? k sub, (b.core u).freeCtxs.head? with
      | some e, some c =>
        some <| match (if e.dispatchedAt.isSome then none else b.payFault e) with
          | some (st, det, r) => (b.unqueue i.job).refuse e st det r
          | none => (b.unqueue i.job).startFunction u c e
      | _, _ => none

/-- PAY_DISPATCH: the first entry that a core may take; the core with the most free banks, the lowest of equals. -/
def Block.payDispatch (b : Block) : Block := (b.pay.queue.findSome? b.payTry).getD b

/-- PAY_DISPATCH. -/
def execPayDispatch (s : State) : Host.Outcome State Fault Refusal := s.run Block.payDispatch

/-! ## Core faults (R238, 12 R285) -/

/-- The function in context c of core u leaves a faulty core: a first fault sends it to a retry, one on the retry ends it. -/
def Block.faultFunction (b : Block) (u : Nat) (c : Fin 8) : Block :=
  match (b.cx u c).fn with
  | none => b
  | some (k, i) =>
    let b := b.endFunction u c
    match b.entry? k i with
    | none => b
    | some e =>
      if !e.excluded.isEmpty then b.finish e St.faultDetected 6 (188 + u) 0 0
      else
        let b := { b with pay := { b.pay with coreRetries := satAdd 8 b.pay.coreRetries 1 } }
        b.retryJob (.entry k i) [188 + u] none

/-- Core u is faulty: its functions leave it, the one in the lowest bank first in the queue, and the core is quarantined. -/
def Block.coreFails (b : Block) (u : Nat) : Block :=
  if !b.inService (188 + u) then b else
  let b := (List.finRange 8).reverse.foldl (fun b c => b.faultFunction u c) b
  let b := b.endFunction u 0
  b.quarantine (188 + u)

/-- CORE_FAULT: a parity error in program or data memory. -/
def execCoreFault (core : Nat) (s : State) : Host.Outcome State Fault Refusal := s.run fun b => b.coreFails (core - 188)

/-- WATCHDOG_EXPIRY: a context has issued 65,536 cycles without suspending. -/
def Block.watchdog (b : Block) (u : Nat) : Block :=
  match (b.core u).running with
  | some c => if 65536 ≤ (b.cx u c).cycles then b.coreFails u else b
  | none => b

/-- WATCHDOG_EXPIRY. -/
def execWatchdogExpiry (core : Nat) (s : State) : Host.Outcome State Fault Refusal := s.run fun b => b.watchdog (core - 188)

/-! ## Attribute rules (R242, R248) -/

/-- The algorithm of a PIN format. -/
def formatAlg (f c : Nat) : Bool := if f = 4 then upTo 3 5 c else upTo 1 2 c

/-- A double-length TDES base derivation key repeats its first part. -/
def bdkLen (s : SlotRec) : Bool := s.code != 2 || s.secret.take 8 == slice 16 8 s.secret

/-- What a function needs of a key, by reference number (R242). -/
def Entry.payNeed (e : Entry) (ref : Nat) : KeyNeed :=
  let d := e.d
  let lo := d.var % 16
  let hi := d.var / 16
  let pinKey := fun (f : Nat) (modes : String) => ({ alg := formatAlg f, usages := ["P0"], modes } : KeyNeed)
  let bdk : KeyNeed := { alg := fun c => c == (if lo % 2 = 0 then 2 else 5), usages := ["B0"], modes := "X", len := bdkLen }
  let emvAlg := fun (c : Nat) => if lo = 2 then upTo 3 5 c else c == 1
  match d.op, ref with
  | 0x01, 0 => pinKey lo "DB"
  | 0x01, _ => pinKey hi "EB"
  | 0x02, 0 => pinKey lo "DB"
  | 0x02, 1 => { alg := upTo 1 2, usages := if hi = 0 then ["V1"] else ["V2"], modes := "CN" }
  | 0x02, _ => { alg := fun c => c == 0x60, usages := ["1D"], modes := "N"
                 len := fun s => Pay.tableOk ((s.secret.take 16).map (·.toNat)) }
  | 0x10, _ | 0x12, _ | 0x11, 0 => bdk
  | 0x11, _ => pinKey hi "EB"
  | 0x20, _ | 0x21, _ => { alg := emvAlg, usages := ["E0"], modes := "X" }
  | 0x22, _ => { alg := emvAlg, usages := ["E2"], modes := "X" }
  | 0x23, 0 => { alg := emvAlg, usages := ["E0", "E2"], modes := "X" }
  | 0x23, _ => { alg := fun c => if lo = 2 then c == e.key1.slotRec.code else c == 1
                 usages := if lo = 2 then ["M6"] else ["M3"], modes := "GVC" }
  | _, _ => { alg := upTo 1 5 }

/-- The firmware's part of check 4: the attributes of each key, from the copies taken at dispatch and, for a destination, from
the slot. -/
def Block.payAttr (b : Block) (e : Entry) : Option Nat :=
  e.payRefs.findSome? fun x =>
    let s := if e.d.op == 0x23 && x.1 == 1 then b.slot x.2.slot else ((e.keys[x.1]?).map (·.slotRec)).getD {}
    ((e.payNeed x.1).fault s).map (keyDetail x.1)

/-! ## Parameter records (R240, R247, R249, R252) -/

/-- DUKPT of the AES kind. -/
def Desc.dukptAes (d : Desc) : Bool := d.var % 2 == 1

/-- The PAN record of a function's parameter record. -/
def Entry.panRecord (e : Entry) : Option Bytes :=
  match e.d.op with
  | 0x01 => if e.aux.isEmpty then none else some e.aux
  | 0x02 | 0x20 | 0x21 | 0x22 | 0x23 => some (e.aux.take 16)
  | 0x11 => some (slice 0x20 16 e.aux)
  | _ => none

/-- The PIN formats of a function: input and output. -/
def Entry.formats (e : Entry) : Option Nat × Option Nat :=
  match e.d.op with
  | 0x01 => (some (e.d.var % 16), some (e.d.var / 16))
  | 0x02 => (some (e.d.var % 16), none)
  | 0x11 => (some ((nth 0 e.aux 0x0E).toNat), some (e.d.var / 16))
  | _ => (none, none)

/-- The format pair that R245 refuses. -/
def Entry.pairFault (e : Entry) : Bool :=
  match e.formats with
  | (some i, some o) => decide (i ≤ 4) && !Pay.pairOk i o
  | (some i, none) => i == 2
  | _ => false

/-- A field of a parameter record that is not permitted. -/
def Entry.fieldFault (e : Entry) : Bool :=
  let x := fun (i : Nat) => (nth 0 e.aux i).toNat
  let aes := e.d.dukptAes
  let typ := aes && !upTo 2 4 (x 0x0D)
  let dir := decide (1 < x 0x0C)
  match e.d.op with
  | 0x02 =>
    if e.d.var / 16 = 0 then
      !upTo 4 12 (x 0x18) || !Pay.decimal ((Pay.nibbles (slice 0x19 6 e.aux)).take (x 0x18))
    else decide (6 < x 0x10) || !Pay.decimal (Pay.nibbles (slice 0x11 2 e.aux))
  | 0x10 => dir || typ
  | 0x11 => typ || !(if aes then x 0x0E == 4 else [0, 1, 3].contains (x 0x0E))
  | 0x12 => dir || typ || !upTo 4 (if aes then 16 else 8) (x 0x0F)
  | 0x20 | 0x22 | 0x23 => !Pay.decimal (Pay.nibbles (slice 0x10 1 e.aux))
  | 0x21 => !Pay.decimal (Pay.nibbles (slice 0x10 1 e.aux)) || (e.d.var / 16 == 1 && decide (8 < x 0x2C))
  | 0x40 =>
    let n := slhN e.d.var
    let set := nth (Slh.Params.mk false 0 0 0 0 0 0) (Slh.sizes (e.d.var % 2 == 1)) ((e.d.var - 1) / 2)
    ofLE (slice 8 4 e.aux) != Slh.sigLen set || e.aux.length != 16 + 2 * n + x 0x0C
  | _ => false

/-- The PAN digits of a function. -/
def Entry.pan (e : Entry) : List Nat := ((e.panRecord.bind Pay.panDigits)).getD []

/-- The PAN record is invalid, or its PAN too short for a format 0 or format 3 block. -/
def Entry.panFault (e : Entry) : Bool :=
  match e.panRecord with
  | none => false
  | some r =>
    match Pay.panDigits r with
    | none => true
    | some l =>
      let short := fun (f : Option Nat) => (f == some 0 || f == some 3) && decide (l.length < 13)
      let (i, o) := e.formats
      short i || short o

/-- Refusals of check 5 that the parameter record alone decides, in the order of log entry 23. -/
def Entry.recordFault (e : Entry) : Option (Nat × Nat) :=
  let dukpt := upTo 0x10 0x12 e.d.op
  if e.pairFault then some (St.pinFormat, 5)
  else if e.fieldFault then some (St.pinFormat, 7)
  else if e.panFault then some (St.pinFormat, 6)
  else if dukpt then (Pay.counterFault e.d.dukptAes e.aux).map fun c => (St.dukptExhausted, c)
  else none

/-! ## The functions (R246 to R256) -/

/-- The secret of key i of a function. -/
def Entry.payKey (e : Entry) (i : Nat) : Bytes := ((e.keys[i]?).map (·.slotRec.secret)).getD []

/-- The algorithm code of key i of a function. -/
def Entry.payCode (e : Entry) (i : Nat) : Nat := ((e.keys[i]?).map (·.slotRec.code)).getD 0

/-- The working key of a DUKPT function. -/
def Entry.dukptKey (e : Entry) (u : Pay.Use) (typ : Nat) : Bytes := Pay.working e.d.dukptAes (e.payKey 0) (e.aux.take (if e.d.dukptAes then 12 else 10)) u typ

/-- The direction of a DUKPT function: response. -/
def Entry.response (e : Entry) : Bool := nth 0 e.aux 0x0C == 1

/-- A PIN block under one cipher and format translated to another (R246 steps 3 to 6). -/
def Entry.translated (e : Entry) (inp : Modes.Cipher) (out : Modes.Cipher) (src : Bytes) : Result :=
  let fi := (e.formats.1).getD 0
  let fo := (e.formats.2).getD 0
  let x := Pay.pinOpen fi inp e.pan src
  match Pay.pinFault fi x with
  | some det => Result.bad St.pinFormat det
  | none => { out := Pay.pinSeal fo out e.pan (Pay.pinField fo (Pay.pinDigits x) e.rnd) }

/-- PIN_VERIFY (R247). -/
def Entry.pinVerified (e : Entry) (src : Bytes) : Result :=
  let f := e.d.var % 16
  let x := Pay.pinOpen f (Modes.cipherOf (e.payCode 0) (e.payKey 0)) e.pan src
  match Pay.pinFault f x with
  | some det => Result.bad St.pinFormat det
  | none =>
    let pin := Pay.pinDigits x
    let c := Modes.cipherOf (e.payCode 1) (e.payKey 1)
    let ok :=
      if e.d.var / 16 = 0 then
        let n := (nth 0 e.aux 0x18).toNat
        let table := (e.payKey 2).map (·.toNat)
        let offset := (Pay.nibbles (slice 0x19 6 e.aux)).take n
        decide (n ≤ pin.length) && pin.take n == Pay.referencePin c table (slice 0x10 8 e.aux) n offset
      else Pay.pvv c e.pan (nth 0 e.aux 0x10).toNat pin == Pay.nibbles (slice 0x11 2 e.aux)
    if ok then {} else Result.bad St.pinCheck 1

/-- The session key of an EMV function. -/
def Entry.emvKey (e : Entry) : Bytes :=
  let m := e.d.var % 16
  let mk := Pay.iccMaster m (e.payKey 0) e.pan (Pay.nibbles (slice 0x10 1 e.aux))
  Pay.session m mk (slice 0x11 2 e.aux)

/-- The result of a payment function whose record passed; `signature` is what SLH_VERIFY has read. EMV_SESSION_DERIVE has the
result of the call that wrote its key. -/
def Entry.payResult (e : Entry) (src signature : Bytes) : Result :=
  let d := e.d
  let aes := d.dukptAes
  let m := d.var % 16
  let k1 := Modes.cipherOf (e.payCode 0) (e.payKey 0)
  let k2 := Modes.cipherOf (e.payCode 1) (e.payKey 1)
  let typ := (nth 0 e.aux 0x0D).toNat
  let under := fun (k : Bytes) => if aes then Modes.aes k else Modes.tdea k
  let arqcOk := Pay.emvMac m e.emvKey src == slice 0x18 8 e.aux
  match d.op with
  | 0x01 => e.translated k1 k2 src
  | 0x02 => e.pinVerified src
  | 0x10 =>
    let c := under (e.dukptKey (.data e.response) typ)
    { out := (Modes.cbcDec c (slice 0x10 c.b e.aux) src).1 }
  | 0x11 => e.translated (under (e.dukptKey .pin 2)) k2 src
  | 0x12 =>
    let k := e.dukptKey (.mac e.response) typ
    let n := (nth 0 e.aux 0x0F).toNat
    let mac := if aes then Modes.cmac (Modes.aes k) src else Modes.mac3Finish k 1 (zeros 8) src src.length
    if mac.take n == slice 0x30 n e.aux then {} else Result.bad St.verifyFail 8
  | 0x20 => if arqcOk then {} else Result.bad St.verifyFail 7
  | 0x21 =>
    if !arqcOk then Result.bad St.verifyFail 7
    else
      let extra := if d.var / 16 = 0 then slice 0x20 2 e.aux else slice 0x20 4 e.aux ++ slice 0x24 (nth 0 e.aux 0x2C).toNat e.aux
      { out := Pay.arpc m (d.var / 16) e.emvKey (slice 0x18 8 e.aux) extra }
  | 0x22 => { out := Pay.emvMac m e.emvKey src }
  | 0x23 =>
    e.res.getD {}
  | 0x30 => { result := BitVec.ofNat 64 (ofLE (Pay.kcv d.var (e.payCode 0) (e.payKey 0))) }
  | _ =>
    let n := slhN d.var
    let set := nth (Slh.Params.mk false 0 0 0 0 0 0) (Slh.sizes (d.var % 2 == 1)) ((d.var - 1) / 2)
    let ctx := e.aux.drop (16 + 2 * n)
    if Slh.verify set (slice 16 (2 * n) e.aux) ([0, byte ctx.length] ++ ctx ++ src) signature then {} else Result.bad St.verifyFail 0xA

/-- The function of context c of core u, for an operation. -/
def Block.onCore (b : Block) (u : Nat) (c : Fin 8) (op : Nat) : Option Entry :=
  match (b.cx u c).fn with
  | some (k, i) => (b.entry? k i).filter fun e => e.stage == .dispatched && e.d.op == op
  | none => none

/-- Count n of a key serial number's one bits, for the core time of R257. -/
def Entry.counterBits (e : Entry) : Nat :=
  if upTo 0x10 0x12 e.d.op then Pay.weight (Pay.counter e.d.dukptAes e.aux) else 0

/-- A function ends with a result: bank and bay are zeroed and the result goes on its way. -/
def Block.endPay (b : Block) (u : Nat) (c : Fin 8) (e : Entry) (r : Result) : Block :=
  let e' := { e with res := some r }
  ((b.endFunction u c).modEntry e.ring e.sub fun _ => e').executed e' (Cost.pay e.d e.counterBits * Cost.cycle)

end Sys2Proof.Machine
end

