-- ==== Sys2Proof/Machine/Calls.lean ====
section
/-! DEFINITION. What K14 contexts share (12 R260, R271 to R284): data banks, late results, the end of an instruction, traps,
suspension and events, and the calls of R279 and R280 from their check to CALL_COMPLETE. Cores are named by index, 0 to 17. -/

namespace Sys2Proof.Machine

open Sys2Proof

/-! ## Banks (R261) -/

/-- n bytes of a bank of a size from an offset. -/
def bankRead (m : List Host.Cell) (off n : Nat) : Bytes := (List.range n).map fun i => Table.get 0 m (off + i)

/-- Bytes stored into a bank from an offset. -/
def bankWrite (m : List Host.Cell) (off : Nat) (bs : Bytes) : List Host.Cell :=
  bs.zipIdx.foldl (fun m x => Table.set 0 m (off + x.2) x.1) m

/-- The bank of a context: bank 0 for the service context or where an access asks for it. -/
def Block.bankOf (b : Block) (u : Nat) (c : Fin 8) (common : Bool) : List Host.Cell :=
  if common || c == 0 then (b.core u).common else (b.cx u c).bank

/-- Bytes stored into the bank of a context; bank 0 is that of the service context. -/
def Block.storeBank (b : Block) (u : Nat) (c : Fin 8) (off : Nat) (bs : Bytes) : Block :=
  if c = 0 then b.modCore u fun k => { k with common := bankWrite k.common off bs }
  else b.modCx u c fun x => { x with bank := bankWrite x.bank off bs }

/-! ## Registers and late results (R264, R271) -/

/-- A register number as an index. -/
def regIx (r : BitVec 3) : Fin 8 := Fin.ofNat 8 r.toNat

/-- A register read by instruction n: undefined inside the distance of its producer. -/
def Ctx14.readG (x : Ctx14) (n : Nat) (r : BitVec 3) : BitVec 32 :=
  if x.late.any fun l => l.reg == r then Config.earlyRead (16 * n + r.toNat) else x.g[regIx r]

/-- A register written: one inside the distance of a producer is left undefined. -/
def Ctx14.writeG (x : Ctx14) (r : BitVec 3) (v : BitVec 32) : Ctx14 :=
  { x with g := x.g.set (regIx r) v, late := x.late.map fun l => if l.reg == r then { l with spoiled := true } else l }

/-- A result that is usable after a distance. -/
def Ctx14.produce (x : Ctx14) (r : BitVec 3) (v : BitVec 32) (distance : Nat) : Ctx14 :=
  let spoiled := x.late.any fun l => l.reg == r
  let late := x.late.map fun l => if l.reg == r then { l with spoiled := true } else l
  { x with late := late ++ [{ reg := r, value := v, left := distance + 1, spoiled }] }

/-- A late result arrives. -/
def Ctx14.land (x : Ctx14) (n : Nat) (l : Late) : Ctx14 :=
  { x with g := x.g.set (regIx l.reg) (if l.spoiled then Config.earlyRead (16 * n + 8 + l.reg.toNat) else l.value) }

/-- Every outstanding result arrives. -/
def Ctx14.settle (x : Ctx14) (n : Nat) : Ctx14 := { x.late.foldl (fun x l => x.land n l) x with late := [] }

/-- One instruction has passed: results whose distance it ends arrive. -/
def Ctx14.tickLate (x : Ctx14) (n : Nat) : Ctx14 :=
  let y := (x.late.filter fun l => decide (l.left ≤ 1)).foldl (fun x l => x.land n l) x
  { y with late := (x.late.filter fun l => decide (1 < l.left)).map fun l => { l with left := l.left - 1 } }

/-- Predicate p. -/
def Ctx14.pred (x : Ctx14) (p : BitVec 3) : Bool := if p = 0 then true else if p = 1 then false else x.p.getLsbD p.toNat

/-- A predicate pair written with a condition and its complement (R268). -/
def Ctx14.setPair (x : Ctx14) (pair : BitVec 2) (c : Bool) : Ctx14 :=
  let i := 2 * pair.toNat
  let clear := x.p &&& ~~~(BitVec.ofNat 8 (3 <<< i))
  { x with p := clear ||| BitVec.ofNat 8 ((if c then 1 else 2) <<< i) }

/-! ## The end of an instruction (R272 to R274) -/

/-- The end test of the innermost loop for the instruction at an address. -/
def Ctx14.endTest (x : Ctx14) (at_ : BitVec 14) : Ctx14 :=
  match x.loops with
  | l :: rest =>
    if l.le = at_ then
      if 1 < l.lc.toNat then { x with loops := { l with lc := l.lc - 1 } :: rest, pc := l.ls } else { x with loops := rest }
    else x
  | [] => x

/-- Instruction n, of so many words, has ended: a repetition follows under RPT; otherwise the PC moves on, to the target of a
branch from its delay slot, and the end test is made. -/
def Ctx14.advance (x : Ctx14) (n words : Nat) : Ctx14 :=
  let x := x.tickLate n
  if 1 < x.rpt then { x with rpt := x.rpt - 1 }
  else
    let next := match x.delay with | some t => t | none => x.pc + BitVec.ofNat 14 words
    Ctx14.endTest { x with rpt := 0, delay := none, pc := next } x.pc

/-! ## Suspension, events and the end of a context's work (R277, R282 to R284) -/

/-- Context c of core u suspends: outstanding results arrive, and the core turns to another context. -/
def Block.suspend (b : Block) (u : Nat) (c : Fin 8) (st : CtxSt) : Block :=
  let n := b.free
  let b := b.modCx u c fun x => { (x.settle n) with st, cycles := 0 }
  b.modCore u fun k => { k with running := none, accepting := k.accepting || c == 0 }

/-- An event bit of a context is set; a WFE that waits for it takes it and continues. -/
def Ctx14.event (x : Ctx14) (n bit : Nat) : Ctx14 :=
  let x := { x with ev := x.ev ||| BitVec.ofNat 10 (2 ^ bit) }
  match x.st with
  | .waitEvent d mask =>
    if x.ev &&& mask = 0 then x
    else
      let got := x.ev &&& mask
      Ctx14.advance { (x.writeG d (got.setWidth 32)) with ev := x.ev &&& ~~~mask, st := .ready } n 2
  | _ => x

/-- An event of a context of core u. -/
def Block.setEvent (b : Block) (u : Nat) (c : Fin 8) (bit : Nat) : Block :=
  let n := b.free
  b.modCx u c fun x => x.event n bit

/-- Unit number of core u. -/
def coreUnit (u : Nat) : Nat := 188 + u

/-- The service context stops until the next reset (R283, R284). -/
def Block.stopService (b : Block) (u : Nat) : Block := (b.endFunction u 0).modCore u fun k => { k with accepting := true }

/-- A trap (R284): it ends the function, or stops the service context. -/
def Block.trap (b : Block) (u : Nat) (c : Fin 8) (cause : Nat) : Block :=
  let fn := (b.cx u c).fn
  let b := { b with pay := { b.pay with lastTrapCore := coreUnit u, lastTrapCause := cause } }
  let b := b.note 0x0033 2 (coreUnit u) cause
  if c = 0 then b.stopService u
  else
    let b := b.endFunction u c
    match fn.bind fun f => b.entry? f.1 f.2 with
    | some e => b.finish e St.firmwareTrap cause (coreUnit u) 0 0
    | none => b

/-- DST in staging of the function of a context, as far as it has been written. -/
def Entry.dst (e : Entry) : Bytes := (e.res.getD {}).out

/-- DONE has no call and no channel block to wait for: the function ends with its status, or the service context stops. -/
def Block.endByDone (b : Block) (u : Nat) (c : Fin 8) (v : BitVec 32) : Block :=
  let st := v.toNat % 256
  let det := v.toNat / 256 % 256
  if c = 0 then (if v = 0 then b.stopService u else b.trap u 0 0x0C)
  else
    match (b.cx u c).fn.bind fun f => b.entry? f.1 f.2 with
    | none => b.endFunction u c
    | some e =>
      let bank := (b.cx u c).bank
      let len := ofBE (bankRead bank 0x480 4)
      let allowed := [St.ok, St.sgFault, St.keyUsage, St.verifyFail, St.pinFormat, St.pinCheck, St.dukptExhausted].contains st
      if !allowed || (st == St.ok && decide (e.d.dstLen < len)) then b.trap u c 0x0C
      else
        let old := e.res.getD {}
        let r : Result := { old with status := st, detail := det, out := [], result := 0 }
        let r := if st = St.ok then { r with out := fit len e.dst, result := BitVec.ofNat 64 (ofLE (bankRead bank 0x488 8)) } else r
        let e' := { e with res := some r }
        ((b.endFunction u c).modEntry e.ring e.sub fun _ => e').executed e' 0

/-- A context that waits in DONE goes on once its call and its channel block have ended. -/
def Block.tryDone (b : Block) (u : Nat) (c : Fin 8) : Block :=
  let x := b.cx u c
  match x.st with
  | .waitDone s => if x.call.isNone && !x.block then b.endByDone u c x.g[regIx s] else b
  | _ => b

/-! ## Call blocks (R280) -/

/-- An area of a call: its bytes, none where the context has no such area; bit 12 of the offset of area 0 selects bank 0. -/
def Block.area (b : Block) (u : Nat) (c : Fin 8) (area off len : Nat) : Option Bytes :=
  let e := (b.cx u c).fn.bind fun f => b.entry? f.1 f.2
  let cut := fun (bs : Bytes) => if off + len ≤ bs.length then some (slice off len bs) else none
  match area with
  | 0 =>
    let o := off % 4096
    if 2 ≤ off / 4096 ∨ 4096 < o + len then none else some (bankRead (b.bankOf u c (bit off 12)) o len)
  | 1 => match e with | some e => cut (b.input e) | none => cut []
  | 2 => match e with | some e => cut (fit e.d.dstLen e.dst) | none => cut []
  | _ => if off + len ≤ 16384 then some (bankRead (b.core u).window off len) else none

/-- The destination of a call lies within an area that may be written: bank 0, the service context's own, may not. -/
def Block.dstFits (b : Block) (u : Nat) (c : Fin 8) (area off len : Nat) : Bool :=
  let e := (b.cx u c).fn.bind fun f => b.entry? f.1 f.2
  match area with
  | 0 => (len == 0 || c != 0) && decide (off + len ≤ 4096)
  | 1 => false
  | 2 => match e with | some e => decide (off + len ≤ e.d.dstLen) | none => len == 0
  | _ => decide (off + len ≤ 16384)

/-- A key suits a cipher target. -/
def keySuits (target : Nat) (k : BayKey) : Bool :=
  if target = 1 then [16, 24, 32].contains k.key.length else [16, 24].contains k.key.length

/-- The hash function of a call. -/
def CallRec.fn (r : CallRec) : Option Hash.Fn :=
  match Hash.ofCode (r.param % 16) with
  | some f => if Hash.isSponge f == (r.target == 4) && r.param % 16 != 0xF then some f else none
  | none => none

/-- Whether a call's operation exists and permits its lengths and keys; `areas` tells a HEN draw's area apart. -/
def CallRec.permitted (r : CallRec) : Bool :=
  let n := r.src.length
  let a := r.aux.length
  let b := if r.target = 1 then 16 else 8
  let keyed := match r.input with | some k => keySuits r.target k | none => false
  let whole := decide (0 < n) && n % b == 0
  let mac := decide (1 ≤ r.dstLen) && decide (r.dstLen ≤ b) && a == 0
  let outKey := r.outKey && decide (r.outEntry < 8) && decide (r.dstLen ≤ 64)
  let len := fun (l : List Nat) => l.contains r.dstLen
  (!r.outKey || outKey) && match r.target with
  | 1 | 2 =>
    keyed && (match r.op with
      | 1 | 2 => whole && a == 0 && r.dstLen == n
      | 3 | 4 => whole && a == b && r.dstLen == n
      | 5 => mac
      | 6 => mac && upTo 1 3 (field r.param 9 8)
      | 7 => r.target == 2 && mac && upTo 1 3 (field r.param 9 8)
      | 8 => r.target == 1 && whole && a == n && r.dstLen == n
      | _ => false)
  | 3 | 4 =>
    match r.fn with
    | none => false
    | some f =>
      let dig := Hash.digestLen f
      (match r.op with
        | 1 => dig != 0 && r.dstLen == dig
        | 2 => dig == 0 && decide (1 ≤ r.dstLen)
        | 3 => dig != 0 && decide (1 ≤ r.dstLen) && decide (r.dstLen ≤ dig) && r.input.isSome
        | _ => false) && a == 0
  | 5 =>
    outKey && r.input.isSome && a == 0 && (match r.op with
      | 1 | 2 => decide (1 ≤ r.dstLen) && decide (r.dstLen ≤ 64)
      | 3 => n == 10 && len [16]
      | 4 => n == 8 && len [16]
      | 5 => n == 16 && len [16, 24, 32]
      | 6 => (n == 8 && len [16]) || (n == 16 && len [16, 24, 32])
      | 7 => n == 2 && len [16, 24, 32]
      | _ => false)
  | 6 =>
    match pkForm r.op with
    | none => false
    | some f => f.variants 0 && r.op != 0x14 && (!f.k1 || r.input.isSome) && ((callPk r).d.pkLengths (some n)).isNone
  | 7 => r.op == 1 && n == 0 && a == 0 && r.dstLen == 0
  | 8 =>
    upTo 2 3 (r.param % 8) && n == 0 && a == 0 && (match r.op with
      | 1 => !r.outKey && r.dstArea == 0 && decide (1 ≤ r.dstLen) && decide (r.dstLen ≤ 64)
      | 2 => outKey && decide (16 ≤ r.dstLen) && decide (r.dstLen ≤ 64)
      | _ => false)
  | _ => false

/-- The call of a 32-byte block, or none where a check of R280 fails; with it whether it names the channel window. -/
def Block.readCall (b : Block) (u : Nat) (c : Fin 8) (blk : Bytes) : Option (CallRec × Bool) :=
  let x := fun (i : Nat) => (nth 0 blk i).toNat
  let h := fun (i : Nat) => ofBE (slice i 2 blk)
  let keys := x 2
  let fl := x 3
  let inE := keys % 16
  let outE := keys / 16
  let (sa, da, aa) := (fl % 4, fl / 4 % 4, fl / 16 % 4)
  let outKey := bit fl 6
  let bay := (b.cx u c).bay
  let badEntry := fun (e : Nat) => decide (8 ≤ e) && e != 15
  let input := if inE < 8 then Table.get none bay inE else none
  let outMissing := x 0 == 7 && (Table.get none bay outE).isNone
  let window := sa == 3 || da == 3 || aa == 3
  let held := match (b.core u).holder with | some h => h != c | none => false
  match b.area u c sa (h 4) (h 6), b.area u c aa (h 0xC) (h 0xE) with
  | some src, some aux =>
    let r : CallRec := { target := x 0, op := x 1, input, outEntry := outE, outKey, dstArea := da, dstOff := h 8, dstLen := h 0xA
                         src, aux, param := ofBE (slice 0x10 8 blk) }
    let zero := bit fl 7 || (slice 0x18 8 blk).any (· != 0)
    if zero || badEntry inE || badEntry outE || (decide (inE < 8) && input.isNone) || outMissing
      || (window && (held || (b.chan (b.fwChan u)).removed))
      || (!outKey && !b.dstFits u c da (h 8) (h 0xA)) || !r.permitted then none
    else some (r, window)
  | _, _ => none

/-- A call enters its target's queue; a HEN call is a request of its own priority. -/
def Block.postCall (b : Block) (u : Nat) (c : Fin 8) (r : CallRec) (window : Bool) : Block :=
  let b := if window then b.modCore u fun k => { k with holder := some c } else b
  let b := b.modCx u c fun x => { x with call := some r }
  if r.target = 8 then b.drawCall u c.val (r.param % 8) r.dstLen else b.enqueue { job := .call u c.val }

/-- A channel block is queued; one that names the window takes it (R281, R282). -/
def Block.pushBlock (b : Block) (u : Nat) (c : Fin 8) (blk : Bytes) (window : Bool) : Block :=
  (b.modCore u fun k => { k with holder := if window then some c else k.holder, blocks := k.blocks ++ [(c, blk)] }).modCx u c
    fun x => { x with block := true }

/-- Another context holds the channel window (R282). -/
def Block.windowHeld (b : Block) (u : Nat) (c : Fin 8) : Bool := match (b.core u).holder with | some h => h != c | none => false

/-! ## Results of calls (R280) -/

/-- The derivation of an AES DUKPT call: byte 1 of the data counts the blocks. -/
def deriveBlocks (key data : Bytes) (n : Nat) : Bytes :=
  ((List.range (ceilDiv n 16)).flatMap fun i => (Modes.aes key).enc (data.take 1 ++ [byte (i + 1)] ++ data.drop 2)).take n

/-- EMV master-key derivation from the block Y (log entry 24). -/
def deriveIcc (key y : Bytes) (n : Nat) : Bytes :=
  let c := if y.length = 8 then Modes.tdea key else Modes.aes key
  let k := (c.enc y ++ c.enc (y.map (~~~ ·))).take n
  if y.length = 8 then Pay.oddParity k else k

/-- The working key of TDES DUKPT from the transaction key: R280 names no operation for it, and 11 R257 counts it among the
derivation calls. PARAM of the key generation step selects the variant: 1 PIN, 2 and 3 MAC, 4 and 5 data, of a request and of a
response (DESIGN CHOICE, log entry 24). -/
def dukptVariant (n : Nat) : Option Pay.Use :=
  match n with
  | 1 => some .pin
  | 2 => some (.mac false)
  | 3 => some (.mac true)
  | 4 => some (.data false)
  | 5 => some (.data true)
  | _ => none

/-- The output of a call. -/
def CallRec.output (r : CallRec) : Bytes :=
  let key := (r.input.map (·.key)).getD []
  let code := (r.input.map (·.code)).getD 0
  let c := if r.target = 1 then Modes.aes key else Modes.tdea key
  let pad := field r.param 9 8
  let n := r.src.length
  match r.target, r.op with
  | 1, 1 | 2, 1 => Modes.ecb c.enc c.b r.src
  | 1, 2 | 2, 2 => Modes.ecb c.dec c.b r.src
  | 1, 3 | 2, 3 => (Modes.cbcEnc c r.aux r.src).1
  | 1, 4 | 2, 4 => (Modes.cbcDec c r.aux r.src).1
  | 1, 5 | 2, 5 => (Modes.cmac c r.src).take r.dstLen
  | 1, 6 | 2, 6 => (Modes.mac1Finish c pad (zeros c.b) r.src n).take r.dstLen
  | 2, 7 => (Modes.mac3Finish key pad (zeros 8) r.src n).take r.dstLen
  | 1, _ => (List.zipWith (fun s a => c.enc (xorB (c.enc s) a)) (chunks 16 r.src) (chunks 16 r.aux)).flatten
  | 3, op | 4, op =>
    match r.fn with
    | none => []
    | some f => match op with
      | 1 => Hash.hash f r.src
      | 2 => Hash.xof f r.src r.dstLen
      | _ => (Hash.hmac f key r.src).take r.dstLen
  | 5, 1 => Modes.kdfCmac key r.src (8 * r.dstLen)
  | 5, 2 => Modes.kdfHmac key r.src (8 * r.dstLen)
  | 5, 3 => Pay.tdesInitial key r.src
  | 5, 4 => match dukptVariant r.param with
    | some v => Pay.tdesVaried key v
    | none => Pay.tdesStep key r.src
  | 5, 5 => deriveBlocks key r.src r.dstLen
  | 5, 6 => deriveIcc key r.src r.dstLen
  | 5, _ => (Pay.session (if upTo 1 2 code then 0 else 2) key r.src).take r.dstLen
  | 6, _ => ((callPk r).result r.rnd).out
  | 8, _ => r.rnd.take r.dstLen
  | _, _ => []

/-- The algorithm code of a key that a call leaves in the bay (log entry 24). -/
def CallRec.outCode (r : CallRec) (n : Nat) : Nat :=
  let code := (r.input.map (·.code)).getD 0
  let aes := if n = 16 then 3 else if n = 24 then 4 else 5
  match r.target, r.op with
  | 5, 3 | 5, 4 => 1
  | 5, 5 => aes
  | 5, 6 => if r.src.length = 8 then 1 else aes
  | 5, 7 => if upTo 1 2 code then 1 else aes
  | 5, _ | 8, _ => 0
  | _, _ => code

/-- The output of a call reaches its area or the bay. -/
def Block.placeOutput (b : Block) (u : Nat) (c : Fin 8) (r : CallRec) (out : Bytes) : Block :=
  if r.target = 7 then b
  else if r.outKey then
    let k : BayKey := { key := out, code := r.outCode out.length }
    b.modCx u c fun x => { x with bay := Table.set none x.bay r.outEntry (some k) }
  else match r.dstArea with
    | 0 => b.storeBank u c r.dstOff out
    | 2 =>
      match (b.cx u c).fn with
      | some (k, i) => b.modEntry k i fun e =>
        let old := e.res.getD {}
        { e with res := some { old with out := fit r.dstOff e.dst ++ out ++ e.dst.drop (r.dstOff + out.length) } }
      | none => b
    | _ => b.modCore u fun k => { k with window := bankWrite k.window r.dstOff out }

/-- The call has been served, or its random bytes have come. -/
def CallRec.ready (r : CallRec) : Bool := r.served || (r.target == 8 && decide (r.dstLen ≤ r.rnd.length))

/-- How a function ends whose call failed: with the call's status, but a draw that HEN could not serve comes after the refusal of
check 5 that its firmware has found (05 R116). -/
def Entry.failedWith (e : Entry) (status detail : Nat) : Nat × Nat :=
  match e.res with
  | some r => if status = St.entropy ∧ detail = 1 ∧ r.status ≠ St.ok then (r.status, r.detail) else (status, detail)
  | none => (status, detail)

/-- CALL_COMPLETE (R279, 11 R236): ST_OK places the output, latches the result word and sets EV.CALL; another status ends the
function, or stops the service context (log entry 25). -/
def Block.callComplete (b : Block) (u : Nat) (c : Fin 8) : Block :=
  match (b.cx u c).call with
  | none => b
  | some r =>
    if !r.ready then b else
    match r.failed with
    | some (st, det) =>
      match (b.cx u c).fn.bind fun f => b.entry? f.1 f.2 with
      | some e =>
        let r := e.failedWith st det
        (b.endFunction u c).finish e r.1 r.2 (coreUnit u) 0 0
      | none => if c = 0 then b.stopService u else b.endFunction u c
    | none =>
      let out := r.output
      let b := b.placeOutput u c r out
      let b := b.modCx u c fun x => { x with call := none, result := BitVec.ofNat 32 (at_ 16 out.length) }
      (b.setEvent u c 0).tryDone u c

/-- CALL_COMPLETE. -/
def execCallComplete (core ctx : Nat) (s : State) : Host.Outcome State Fault Refusal :=
  s.run fun b => b.callComplete (core - 188) (ctxIx ctx)

end Sys2Proof.Machine
end

