-- ==== Sys2Proof/Machine/Code14.lean ====
section
/-! DEFINITION. The encoding of K14 instructions (12 R265 to R270, R273 to R282): an instruction as one word and its extension
word, and the reading of words. A word that spells no instruction is a reserved encoding. -/

namespace Sys2Proof.K14

open Sys2Proof

/-- A program word. -/
abbrev Word14 := BitVec 14

/-- A word: guard, major opcode, destination field, source field (R265). -/
def word (g : BitVec 3) (m : BitVec 5) (d s : BitVec 3) : Word14 := g ++ m ++ d ++ s

/-- The guard of a word. -/
def guardOf (w : Word14) : BitVec 3 := w.extractLsb' 11 3

/-- The major opcode of a word. -/
def majorOf (w : Word14) : BitVec 5 := w.extractLsb' 6 5

/-- The destination field of a word. -/
def destOf (w : Word14) : BitVec 3 := w.extractLsb' 3 3

/-- The source field of a word. -/
def srcOf (w : Word14) : BitVec 3 := w.extractLsb' 0 3

/-- The six-bit count of LOOPI and RPT. -/
def countOf (w : Word14) : BitVec 6 := w.extractLsb' 0 6

/-- An extension word that names no bits above its n lowest. -/
def small (n : Nat) (x : Word14) : Bool := decide (x.toNat < 2 ^ n)

/-- An instruction with a condition on its encoding. -/
def only (c : Bool) (i : Instr) : Option Instr := if c then some i else none

/-- The extension word of a load or store. -/
def memExt (c post : Bool) (disp : BitVec 12) : Word14 := BitVec.ofBool c ++ BitVec.ofBool post ++ disp

/-- A load or store read from its extension word. -/
def memOf (f : Bool → Bool → BitVec 12 → Instr) (x : Word14) : Option Instr :=
  some (f (x.getLsbD 13) (x.getLsbD 12) (x.extractLsb' 0 12))

/-- SHI (major 0x07). -/
def decodeShift (k : Nat) (g d s : BitVec 3) (x : Word14) : Option Instr :=
  let n := x.extractLsb' 0 5
  match s.toNat with
  | 0 => only (small 5 x) (.shl k g d n)
  | 1 => only (small 5 x) (.shr k g d n)
  | 2 => only (small 5 x) (.sar k g d n)
  | 3 => only (small 5 x) (.rol k g d n)
  | 4 => only (small 0 x) (.bswap k g d)
  | _ => none

/-- ALUI (major 0x09). -/
def decodeAlui (k : Nat) (g d s : BitVec 3) (x : Word14) : Option Instr :=
  match s.toNat with
  | 0 => some (.movi k g d x)
  | 1 => some (.movu k g d x)
  | 2 => some (.addi k g d x)
  | 3 => some (.andi k g d x)
  | 4 => some (.ori k g d x)
  | 5 => some (.xori k g d x)
  | _ => none

/-- DEC (major 0x12). -/
def decodeDec (k : Nat) (g d s : BitVec 3) (x : Word14) : Option Instr :=
  let pair := x.extractLsb' 3 2
  let carry := small 5 x && pair != 0
  let plain := small 3 x
  match (x.extractLsb' 0 3).toNat with
  | 0 => only carry (.dadd k g d s pair)
  | 1 => only carry (.dadc k g d s pair)
  | 2 => only carry (.dsub k g d s pair)
  | 3 => only carry (.dsbb k g d s pair)
  | 4 => only plain (.daddn k g d s)
  | 5 => only plain (.dsubn k g d s)
  | 6 => only plain (.daa k g d s)
  | _ => only plain (.dbin k g d s)

/-- NIB (major 0x13). -/
def decodeNib (k : Nat) (g d s : BitVec 3) (x : Word14) : Option Instr :=
  let pos := x.extractLsb' 0 3
  let byReg := x.getLsbD 3
  let free := x.extractLsb' 4 8 == 0
  match (x.extractLsb' 12 2).toNat with
  | 0 => only free (.next k g d s byReg pos)
  | 1 => only free (.nins k g d s byReg pos)
  | 2 => only (free && !byReg && pos == 0) (.nshl k g d s)
  | _ => none

/-- CTL (major 0x00); the source field is the operand. -/
def decodeCtl (k : Nat) (g d s : BitVec 3) (x : Word14) : Option Instr :=
  match d.toNat with
  | 0 => only (s == 0) (.ctlNop k g)
  | 1 => only (s == 0) (.ret k g)
  | 2 => some (.trapi k g s)
  | 3 => only (s == 0 && small 8 x) (.sev k g (x.extractLsb' 0 4) (x.getLsbD 4) (x.extractLsb' 5 3))
  | 4 => only (small 10 x && x.extractLsb' 0 10 != 0) (.wfe k g s (x.extractLsb' 0 10))
  | 5 => some (.waitt k g s)
  | 6 => some (.done k g s)
  | _ => only (s == 0) (.eret k g)

/-- The instruction that a word and the word after it spell on core k; none for a reserved encoding. -/
def decode (k : Nat) (w x : Word14) : Option Instr :=
  let g := guardOf w
  let d := destOf w
  let s := srcOf w
  match (majorOf w).toNat with
  | 0x00 => decodeCtl k g d s x
  | 0x01 => some (.mov k g d s)
  | 0x02 => some (.add k g d s)
  | 0x03 => some (.sub k g d s)
  | 0x04 => some (.and k g d s)
  | 0x05 => some (.or k g d s)
  | 0x06 => some (.xor k g d s)
  | 0x07 => decodeShift k g d s x
  | 0x08 => some (.mul k g d s)
  | 0x09 => decodeAlui k g d s x
  | 0x0A => only (small 5 x && x.extractLsb' 0 2 != 0) (.cmp k g d s (x.extractLsb' 0 2) (x.extractLsb' 2 3))
  | 0x0B => only (x.extractLsb' 12 2 != 0) (.cmpi k g d s (x.extractLsb' 12 2) (x.extractLsb' 0 12))
  | 0x0C => memOf (.ldw k g d s) x
  | 0x0D => memOf (.ldh k g d s) x
  | 0x0E => memOf (.ldb k g d s) x
  | 0x0F => memOf (.stw k g d s) x
  | 0x10 => memOf (.sth k g d s) x
  | 0x11 => memOf (.stb k g d s) x
  | 0x12 => decodeDec k g d s x
  | 0x13 => decodeNib k g d s x
  | 0x14 => only (d == 0 && s == 0) (.branch k g x)
  | 0x15 => only (d == 0 && s == 0) (.call k g x)
  | 0x16 => if d = 0 then some (.jrJump k g s) else if d = 1 then some (.jrCall k g s) else none
  | 0x17 => only (d == 0) (.loop k g s x)
  | 0x18 => some (.loopi k g (countOf w) x)
  | 0x19 => some (.rpt k g (countOf w))
  | 0x1A => only (s == 0 && small 6 x) (.mfr k g d (x.extractLsb' 0 6))
  | 0x1B => only (d == 0 && small 6 x) (.mtr k g s (x.extractLsb' 0 6))
  | 0x1C => if s = 0 then some (.post k g d) else if s = 1 then some (.mbr k g d) else none
  | 0x1D => only (s == 0) (.mch k g d)
  | _ => none

/-- Whether a word takes an extension word, by its major opcode and, in CTL, its sub-operation (R266, R267). -/
def hasExt (w : Word14) : Bool :=
  match (majorOf w).toNat with
  | 0x00 => destOf w == 3 || destOf w == 4
  | 0x07 | 0x09 | 0x0A | 0x0B | 0x0C | 0x0D | 0x0E | 0x0F | 0x10 | 0x11 | 0x12 | 0x13 | 0x14 | 0x15 | 0x17 | 0x18 | 0x1A | 0x1B => true
  | _ => false

/-- Program words of the instruction that a word begins. -/
def sizeOf (w : Word14) : Nat := if hasExt w then 2 else 1

/-- The word and the extension word of an instruction, none for a command that is no K14 instruction; the extension word of
an instruction without one is zero here and not part of the program. -/
def encode : Instr → Option (Word14 × Word14)
  | .ctlNop _ g => some (word g 0x00 0 0, 0)
  | .ret _ g => some (word g 0x00 1 0, 0)
  | .trapi _ g n => some (word g 0x00 2 n, 0)
  | .sev _ g pos all e => some (word g 0x00 3 0, (0 : BitVec 6) ++ e ++ BitVec.ofBool all ++ pos)
  | .wfe _ g d mask => some (word g 0x00 4 d, (0 : BitVec 4) ++ mask)
  | .waitt _ g s => some (word g 0x00 5 s, 0)
  | .done _ g s => some (word g 0x00 6 s, 0)
  | .eret _ g => some (word g 0x00 7 0, 0)
  | .mov _ g d s => some (word g 0x01 d s, 0)
  | .add _ g d s => some (word g 0x02 d s, 0)
  | .sub _ g d s => some (word g 0x03 d s, 0)
  | .and _ g d s => some (word g 0x04 d s, 0)
  | .or _ g d s => some (word g 0x05 d s, 0)
  | .xor _ g d s => some (word g 0x06 d s, 0)
  | .shl _ g d n => some (word g 0x07 d 0, (0 : BitVec 9) ++ n)
  | .shr _ g d n => some (word g 0x07 d 1, (0 : BitVec 9) ++ n)
  | .sar _ g d n => some (word g 0x07 d 2, (0 : BitVec 9) ++ n)
  | .rol _ g d n => some (word g 0x07 d 3, (0 : BitVec 9) ++ n)
  | .bswap _ g d => some (word g 0x07 d 4, 0)
  | .mul _ g d s => some (word g 0x08 d s, 0)
  | .movi _ g d x => some (word g 0x09 d 0, x)
  | .movu _ g d x => some (word g 0x09 d 1, x)
  | .addi _ g d x => some (word g 0x09 d 2, x)
  | .andi _ g d x => some (word g 0x09 d 3, x)
  | .ori _ g d x => some (word g 0x09 d 4, x)
  | .xori _ g d x => some (word g 0x09 d 5, x)
  | .cmp _ g d s pair cond => some (word g 0x0A d s, (0 : BitVec 9) ++ cond ++ pair)
  | .cmpi _ g d cond pair x => some (word g 0x0B d cond, pair ++ x)
  | .ldw _ g d s c post disp => some (word g 0x0C d s, memExt c post disp)
  | .ldh _ g d s c post disp => some (word g 0x0D d s, memExt c post disp)
  | .ldb _ g d s c post disp => some (word g 0x0E d s, memExt c post disp)
  | .stw _ g d s c post disp => some (word g 0x0F d s, memExt c post disp)
  | .sth _ g d s c post disp => some (word g 0x10 d s, memExt c post disp)
  | .stb _ g d s c post disp => some (word g 0x11 d s, memExt c post disp)
  | .dadd _ g d s pair => some (word g 0x12 d s, (0 : BitVec 9) ++ pair ++ (0 : BitVec 3))
  | .dadc _ g d s pair => some (word g 0x12 d s, (0 : BitVec 9) ++ pair ++ (1 : BitVec 3))
  | .dsub _ g d s pair => some (word g 0x12 d s, (0 : BitVec 9) ++ pair ++ (2 : BitVec 3))
  | .dsbb _ g d s pair => some (word g 0x12 d s, (0 : BitVec 9) ++ pair ++ (3 : BitVec 3))
  | .daddn _ g d s => some (word g 0x12 d s, 4)
  | .dsubn _ g d s => some (word g 0x12 d s, 5)
  | .daa _ g d s => some (word g 0x12 d s, 6)
  | .dbin _ g d s => some (word g 0x12 d s, 7)
  | .next _ g d s byReg pos => some (word g 0x13 d s, (0 : BitVec 10) ++ BitVec.ofBool byReg ++ pos)
  | .nins _ g d s byReg pos => some (word g 0x13 d s, (1 : BitVec 2) ++ (0 : BitVec 8) ++ BitVec.ofBool byReg ++ pos)
  | .nshl _ g d s => some (word g 0x13 d s, 0x2000)
  | .branch _ g x => some (word g 0x14 0 0, x)
  | .call _ g x => some (word g 0x15 0 0, x)
  | .jrJump _ g s => some (word g 0x16 0 s, 0)
  | .jrCall _ g s => some (word g 0x16 1 s, 0)
  | .loop _ g s le => some (word g 0x17 0 s, le)
  | .loopi _ g n le => some (g ++ (0x18 : BitVec 5) ++ n, le)
  | .rpt _ g n => some (g ++ (0x19 : BitVec 5) ++ n, 0)
  | .mfr _ g d num => some (word g 0x1A d 0, (0 : BitVec 8) ++ num)
  | .mtr _ g s num => some (word g 0x1B 0 s, (0 : BitVec 8) ++ num)
  | .post _ g d => some (word g 0x1C d 0, 0)
  | .mbr _ g d => some (word g 0x1C d 1, 0)
  | .mch _ g d => some (word g 0x1D d 0, 0)
  | _ => none

end Sys2Proof.K14
end

