-- ==== Sys2Proof/Machine/K14.lean ====
section
/-! DEFINITION. The K14 instructions (12 R260 to R287). A command names an instruction with its fields; it takes effect when the
word at the PC of the context that the core issues from spells it. -/

namespace Sys2Proof.Machine

open Sys2Proof

/-! ## Issue (R260, R265, R272 to R274, R284) -/

/-- A program word. -/
def Block.word14 (b : Block) (a : BitVec 14) : BitVec 14 := Table.get 0 b.pay.prog a.toNat

/-- Program words of the instruction at an address. -/
def Block.sizeAt (b : Block) (a : BitVec 14) : Nat := K14.sizeOf (b.word14 a)

/-- The instruction at an address on core u; none for a reserved encoding. -/
def Block.instrAt (b : Block) (u : Nat) (a : BitVec 14) : Option Instr := K14.decode (coreUnit u) (b.word14 a) (b.word14 (a + 1))

/-- The context that core u issues from, where it is ready. -/
def Block.issuing (b : Block) (u : Nat) : Option (Fin 8) :=
  if b.inService (coreUnit u) then (b.core u).running.filter fun c => (b.cx u c).st == .ready else none

/-- What the delay slot of a branch must not contain, and what must not stand at LE (R272, R273). -/
def transfers : Instr → Bool
  | .branch .. | .call .. | .jrJump .. | .jrCall .. | .ret .. | .eret .. | .done .. | .trapi .. | .loop .. | .loopi .. | .rpt .. => true
  | _ => false

/-- Branches with a delay slot. -/
def delayed : Instr → Bool
  | .branch .. | .call .. | .jrJump .. | .jrCall .. | .ret .. => true
  | _ => false

/-- What RPT must not repeat (R274). -/
def unrepeatable : Instr → Bool
  | .branch .. | .call .. | .jrJump .. | .jrCall .. | .ret .. | .eret .. | .done .. | .trapi .. | .loop .. | .loopi .. | .rpt ..
  | .wfe .. | .waitt .. => true
  | .mtr _ _ _ n => upTo 2 5 n.toNat
  | _ => false

/-- The innermost loop's end is at an address. -/
def Ctx14.endsAt (x : Ctx14) (a : BitVec 14) : Bool := match x.loops with | l :: _ => l.le == a | [] => false

/-- Causes of R272 and R273 for an instruction of a size at the PC. -/
def Ctx14.placeCauses (x : Ctx14) (i : Instr) (words : Nat) : List Nat :=
  (if transfers i && (x.endsAt x.pc || (delayed i && x.endsAt (x.pc + BitVec.ofNat 14 words))) then [0x03] else []) ++
  (if transfers i && x.delay.isSome then [0x04] else [])

/-- The lowest of the causes an instruction meets. -/
def lowest (l : List Nat) : Option Nat := argMin (fun n => (n : Int)) l

/-- The address after the delay slot of a branch at the PC. -/
def Block.afterSlot (b : Block) (x : Ctx14) (words : Nat) : BitVec 14 :=
  let slot := x.pc + BitVec.ofNat 14 words
  slot + BitVec.ofNat 14 (b.sizeAt slot)

/-- A guarded-off instruction takes its cycles; a branch has its delay slot all the same. -/
def Block.skip (b : Block) (u : Nat) (c : Fin 8) (isBranch : Bool) (words : Nat) : Block :=
  let n := b.free
  let x := b.cx u c
  let y :=
    if isBranch && !x.endsAt x.pc && x.delay.isNone then
      { (x.tickLate n) with pc := x.pc + BitVec.ofNat 14 words, delay := some (b.afterSlot x words) }
    else x.advance n words
  b.modCx u c fun _ => y

/-- Instruction i issues on core u: its cycles count, its guard is read, the causes it meets trap, and otherwise it acts. `act`
is given the state, the context's number, the context and the number that names the instruction's undefined reads. -/
def Block.issue (b : Block) (i : Instr) (u : Nat) (causes : Block → Fin 8 → Ctx14 → List Nat)
    (act : Block → Fin 8 → Ctx14 → Nat → Block) : Block :=
  match b.issuing u with
  | none => b
  | some c =>
    let pc := (b.cx u c).pc
    if b.instrAt u pc ≠ some i then b else
    let words := b.sizeAt pc
    let b := (b.tick).modCx u c fun x => { x with cycles := x.cycles + words }
    let x := b.cx u c
    if !x.pred (K14.guardOf (b.word14 pc)) then b.skip u c (delayed i) words
    else match lowest (x.placeCauses i words ++ causes b c x) with
      | some cause => b.trap u c cause
      | none => act b c x b.free

/-- An instruction that changes registers and predicates alone. -/
def Block.plain (b : Block) (i : Instr) (u : Nat) (f : Ctx14 → Nat → Ctx14) : Block :=
  b.issue i u (fun _ _ _ => []) fun b c x n => b.modCx u c fun _ => (f x n).advance n (b.sizeAt x.pc)

/-- d ← f d s. -/
def Ctx14.binary (f : BitVec 32 → BitVec 32 → BitVec 32) (d s : BitVec 3) (x : Ctx14) (n : Nat) : Ctx14 :=
  x.writeG d (f (x.readG n d) (x.readG n s))

/-- d ← f d. -/
def Ctx14.unary (f : BitVec 32 → BitVec 32) (d : BitVec 3) (x : Ctx14) (n : Nat) : Ctx14 := x.writeG d (f (x.readG n d))

/-- A core's index. -/
def coreIx (core : Nat) : Nat := core - 188

/-! ## Registers and arithmetic (R266) -/

/-- MOV. -/
def execMov (core : Nat) (g d s : BitVec 3) (st : State) : Host.Outcome State Fault Refusal :=
  st.run fun b => b.plain (.mov core g d s) (coreIx core) fun x n => x.writeG d (x.readG n s)

/-- ADD. -/
def execAdd (core : Nat) (g d s : BitVec 3) (st : State) : Host.Outcome State Fault Refusal :=
  st.run fun b => b.plain (.add core g d s) (coreIx core) (Ctx14.binary (· + ·) d s)

/-- SUB. -/
def execSub (core : Nat) (g d s : BitVec 3) (st : State) : Host.Outcome State Fault Refusal :=
  st.run fun b => b.plain (.sub core g d s) (coreIx core) (Ctx14.binary (· - ·) d s)

/-- AND. -/
def execAnd (core : Nat) (g d s : BitVec 3) (st : State) : Host.Outcome State Fault Refusal :=
  st.run fun b => b.plain (.and core g d s) (coreIx core) (Ctx14.binary (· &&& ·) d s)

/-- OR. -/
def execOr (core : Nat) (g d s : BitVec 3) (st : State) : Host.Outcome State Fault Refusal :=
  st.run fun b => b.plain (.or core g d s) (coreIx core) (Ctx14.binary (· ||| ·) d s)

/-- XOR. -/
def execXor (core : Nat) (g d s : BitVec 3) (st : State) : Host.Outcome State Fault Refusal :=
  st.run fun b => b.plain (.xor core g d s) (coreIx core) (Ctx14.binary (· ^^^ ·) d s)

/-- SHL. -/
def execShl (core : Nat) (g d : BitVec 3) (imm : BitVec 5) (st : State) : Host.Outcome State Fault Refusal :=
  st.run fun b => b.plain (.shl core g d imm) (coreIx core) (Ctx14.unary (· <<< imm.toNat) d)

/-- SHR. -/
def execShr (core : Nat) (g d : BitVec 3) (imm : BitVec 5) (st : State) : Host.Outcome State Fault Refusal :=
  st.run fun b => b.plain (.shr core g d imm) (coreIx core) (Ctx14.unary (· >>> imm.toNat) d)

/-- SAR. -/
def execSar (core : Nat) (g d : BitVec 3) (imm : BitVec 5) (st : State) : Host.Outcome State Fault Refusal :=
  st.run fun b => b.plain (.sar core g d imm) (coreIx core) (Ctx14.unary (·.sshiftRight imm.toNat) d)

/-- ROL. -/
def execRol (core : Nat) (g d : BitVec 3) (imm : BitVec 5) (st : State) : Host.Outcome State Fault Refusal :=
  st.run fun b => b.plain (.rol core g d imm) (coreIx core) (Ctx14.unary (·.rotateLeft imm.toNat) d)

/-- The bytes of a register in the other order. -/
def swapBytes (v : BitVec 32) : BitVec 32 := BitVec.ofNat 32 (ofBE (toLE 4 v.toNat))

/-- BSWAP. -/
def execBswap (core : Nat) (g d : BitVec 3) (st : State) : Host.Outcome State Fault Refusal :=
  st.run fun b => b.plain (.bswap core g d) (coreIx core) (Ctx14.unary swapBytes d)

/-- MUL: usable after a distance of 2 (R271). -/
def execMul (core : Nat) (g d s : BitVec 3) (st : State) : Host.Outcome State Fault Refusal :=
  st.run fun b => b.plain (.mul core g d s) (coreIx core) fun x n => x.produce d (x.readG n d * x.readG n s) 2

/-- MOVI. -/
def execMovi (core : Nat) (g d : BitVec 3) (imm : BitVec 14) (st : State) : Host.Outcome State Fault Refusal :=
  st.run fun b => b.plain (.movi core g d imm) (coreIx core) fun x _ => x.writeG d (imm.signExtend 32)

/-- MOVU. -/
def execMovu (core : Nat) (g d : BitVec 3) (imm : BitVec 14) (st : State) : Host.Outcome State Fault Refusal :=
  st.run fun b => b.plain (.movu core g d imm) (coreIx core) (Ctx14.unary (fun v => v <<< 14 ||| imm.setWidth 32) d)

/-- ADDI. -/
def execAddi (core : Nat) (g d : BitVec 3) (imm : BitVec 14) (st : State) : Host.Outcome State Fault Refusal :=
  st.run fun b => b.plain (.addi core g d imm) (coreIx core) (Ctx14.unary (· + imm.signExtend 32) d)

/-- ANDI. -/
def execAndi (core : Nat) (g d : BitVec 3) (imm : BitVec 14) (st : State) : Host.Outcome State Fault Refusal :=
  st.run fun b => b.plain (.andi core g d imm) (coreIx core) (Ctx14.unary (· &&& imm.signExtend 32) d)

/-- ORI. -/
def execOri (core : Nat) (g d : BitVec 3) (imm : BitVec 14) (st : State) : Host.Outcome State Fault Refusal :=
  st.run fun b => b.plain (.ori core g d imm) (coreIx core) (Ctx14.unary (· ||| imm.signExtend 32) d)

/-- XORI. -/
def execXori (core : Nat) (g d : BitVec 3) (imm : BitVec 14) (st : State) : Host.Outcome State Fault Refusal :=
  st.run fun b => b.plain (.xori core g d imm) (coreIx core) (Ctx14.unary (· ^^^ imm.signExtend 32) d)

/-! ## Compares (R268) -/

/-- Nibble i of a register. -/
def nibble (v : BitVec 32) (i : Nat) : Nat := v.toNat / 16 ^ i % 16

/-- The digits of a register, lowest first, each nibble read modulo 10 (R268, R270). -/
def digits (v : BitVec 32) : List Nat := (List.range 8).map fun i => nibble v i % 10

/-- The value of digits, lowest first. -/
def digitValue (l : List Nat) : Nat := l.foldr (fun d n => d + 10 * n) 0

/-- A register of the eight lowest digits of a number. -/
def packDigits (n : Nat) : BitVec 32 := BitVec.ofNat 32 (((List.range 8).map fun i => n / 10 ^ i % 10 * 16 ^ i).sum)

/-- The conditions of CMP and CMPI. -/
def condition (code : BitVec 3) (d v : BitVec 32) : Bool :=
  match code.toNat with
  | 0 => d == v
  | 1 => d.slt v
  | 2 => d.ult v
  | 3 => d.sle v
  | 4 => d.ule v
  | 5 => d &&& v != 0
  | 6 => decide (digitValue (digits d) < digitValue (digits v))
  | _ => (List.range 8).all fun i => !v.getLsbD i || decide (nibble d i ≤ 9)

/-- CMP. -/
def execCmp (core : Nat) (g d s : BitVec 3) (pair : BitVec 2) (cond : BitVec 3) (st : State) : Host.Outcome State Fault Refusal :=
  st.run fun b => b.plain (.cmp core g d s pair cond) (coreIx core) fun x n =>
    x.setPair pair (condition cond (x.readG n d) (x.readG n s))

/-- CMPI. -/
def execCmpi (core : Nat) (g d : BitVec 3) (cond : BitVec 3) (pair : BitVec 2) (imm : BitVec 12) (st : State) :
    Host.Outcome State Fault Refusal :=
  st.run fun b => b.plain (.cmpi core g d cond pair imm) (coreIx core) fun x n =>
    x.setPair pair (condition cond (x.readG n d) (imm.signExtend 32))

/-! ## Loads and stores (R261, R269) -/

/-- The offset of an access. -/
def Ctx14.offset (x : Ctx14) (n : Nat) (s : BitVec 3) (disp : BitVec 12) : Nat := (x.readG n s + disp.setWidth 32).toNat % 4096

/-- The base register after an access with POST. -/
def Ctx14.posted (x : Ctx14) (n : Nat) (s : BitVec 3) (post : Bool) (size : Nat) : Ctx14 :=
  if post then x.writeG s (x.readG n s + BitVec.ofNat 32 size) else x

/-- A load of `size` bytes: usable after a distance of 2 (R271); one whose destination is its base writes only the value. -/
def Block.load (b : Block) (i : Instr) (u size : Nat) (d s : BitVec 3) (common post : Bool) (disp : BitVec 12) : Block :=
  let n := b.free + 1
  b.issue i u (fun _ _ x => if x.offset n s disp % size ≠ 0 then [0x05] else []) fun b c x n =>
    let v := ofBE (bankRead (b.bankOf u c common) (x.offset n s disp) size)
    let y := (x.posted n s (post && s != d) size).produce d (BitVec.ofNat 32 v) 2
    b.modCx u c fun _ => y.advance n (b.sizeAt x.pc)

/-- A store of `size` bytes; bank 0 takes none from contexts 1 to 7. -/
def Block.storeTo (b : Block) (i : Instr) (u size : Nat) (d s : BitVec 3) (common post : Bool) (disp : BitVec 12) : Block :=
  let n := b.free + 1
  b.issue i u (fun _ c x => (if x.offset n s disp % size ≠ 0 then [0x05] else []) ++ (if common && c != 0 then [0x06] else []))
    fun b c x n =>
      let bs := toBE size (x.readG n d).toNat
      let b := b.storeBank u c (x.offset n s disp) bs
      let words := b.sizeAt x.pc
      b.modCx u c fun x => (x.posted n s post size).advance n words

/-- LDW. -/
def execLdw (core : Nat) (g d s : BitVec 3) (c post : Bool) (disp : BitVec 12) (st : State) : Host.Outcome State Fault Refusal :=
  st.run fun b => b.load (.ldw core g d s c post disp) (coreIx core) 4 d s c post disp

/-- LDH. -/
def execLdh (core : Nat) (g d s : BitVec 3) (c post : Bool) (disp : BitVec 12) (st : State) : Host.Outcome State Fault Refusal :=
  st.run fun b => b.load (.ldh core g d s c post disp) (coreIx core) 2 d s c post disp

/-- LDB. -/
def execLdb (core : Nat) (g d s : BitVec 3) (c post : Bool) (disp : BitVec 12) (st : State) : Host.Outcome State Fault Refusal :=
  st.run fun b => b.load (.ldb core g d s c post disp) (coreIx core) 1 d s c post disp

/-- STW. -/
def execStw (core : Nat) (g d s : BitVec 3) (c post : Bool) (disp : BitVec 12) (st : State) : Host.Outcome State Fault Refusal :=
  st.run fun b => b.storeTo (.stw core g d s c post disp) (coreIx core) 4 d s c post disp

/-- STH. -/
def execSth (core : Nat) (g d s : BitVec 3) (c post : Bool) (disp : BitVec 12) (st : State) : Host.Outcome State Fault Refusal :=
  st.run fun b => b.storeTo (.sth core g d s c post disp) (coreIx core) 2 d s c post disp

/-- STB. -/
def execStb (core : Nat) (g d s : BitVec 3) (c post : Bool) (disp : BitVec 12) (st : State) : Host.Outcome State Fault Refusal :=
  st.run fun b => b.storeTo (.stb core g d s c post disp) (coreIx core) 1 d s c post disp

/-! ## Packed digits (R270) -/

/-- An addition or subtraction of packed digits with a carry or borrow. -/
def Block.decimal (b : Block) (i : Instr) (u : Nat) (d s : BitVec 3) (pair : BitVec 2) (minus withIn : Bool) : Block :=
  b.plain i u fun x n =>
    let a := digitValue (digits (x.readG n d))
    let v := digitValue (digits (x.readG n s)) + flag (withIn && x.p.getLsbD (2 * pair.toNat))
    let (r, c) := if minus then ((a + 2 * 10 ^ 8 - v) % 10 ^ 8, decide (a < v)) else ((a + v) % 10 ^ 8, decide (10 ^ 8 ≤ a + v))
    (x.writeG d (packDigits r)).setPair pair c

/-- DADD. -/
def execDadd (core : Nat) (g d s : BitVec 3) (pair : BitVec 2) (st : State) : Host.Outcome State Fault Refusal :=
  st.run fun b => b.decimal (.dadd core g d s pair) (coreIx core) d s pair false false

/-- DADC. -/
def execDadc (core : Nat) (g d s : BitVec 3) (pair : BitVec 2) (st : State) : Host.Outcome State Fault Refusal :=
  st.run fun b => b.decimal (.dadc core g d s pair) (coreIx core) d s pair false true

/-- DSUB. -/
def execDsub (core : Nat) (g d s : BitVec 3) (pair : BitVec 2) (st : State) : Host.Outcome State Fault Refusal :=
  st.run fun b => b.decimal (.dsub core g d s pair) (coreIx core) d s pair true false

/-- DSBB. -/
def execDsbb (core : Nat) (g d s : BitVec 3) (pair : BitVec 2) (st : State) : Host.Outcome State Fault Refusal :=
  st.run fun b => b.decimal (.dsbb core g d s pair) (coreIx core) d s pair true true

/-- Digits combined one by one modulo 10. -/
def digitwise (f : Nat → Nat → Nat) (d s : BitVec 32) : BitVec 32 :=
  packDigits (digitValue (List.zipWith (fun a v => f a v % 10) (digits d) (digits s)))

/-- DADDN. -/
def execDaddn (core : Nat) (g d s : BitVec 3) (st : State) : Host.Outcome State Fault Refusal :=
  st.run fun b => b.plain (.daddn core g d s) (coreIx core) (Ctx14.binary (digitwise (· + ·)) d s)

/-- DSUBN. -/
def execDsubn (core : Nat) (g d s : BitVec 3) (st : State) : Host.Outcome State Fault Refusal :=
  st.run fun b => b.plain (.dsubn core g d s) (coreIx core) (Ctx14.binary (digitwise fun a v => a + 10 - v) d s)

/-- DAA. -/
def execDaa (core : Nat) (g d s : BitVec 3) (st : State) : Host.Outcome State Fault Refusal :=
  st.run fun b => b.plain (.daa core g d s) (coreIx core) (Ctx14.unary (fun v => packDigits (v.toNat % 10 ^ 8)) d)

/-- DBIN. -/
def execDbin (core : Nat) (g d s : BitVec 3) (st : State) : Host.Outcome State Fault Refusal :=
  st.run fun b => b.plain (.dbin core g d s) (coreIx core) (Ctx14.unary (fun v => BitVec.ofNat 32 (digitValue (digits v))) d)

/-- The position of a NIB operation: the field, or the low bits of the register it names. -/
def Ctx14.position (x : Ctx14) (n : Nat) (byReg : Bool) (pos : BitVec 3) : Nat :=
  if byReg then (x.readG n pos).toNat % 8 else pos.toNat

/-- A nibble of a register replaced. -/
def putNibble (d : BitVec 32) (p v : Nat) : BitVec 32 :=
  (d &&& ~~~(BitVec.ofNat 32 (15 * 16 ^ p))) ||| BitVec.ofNat 32 (v % 16 * 16 ^ p)

/-- NEXT. -/
def execNext (core : Nat) (g d s : BitVec 3) (byReg : Bool) (pos : BitVec 3) (st : State) : Host.Outcome State Fault Refusal :=
  st.run fun b => b.plain (.next core g d s byReg pos) (coreIx core) fun x n =>
    x.writeG d (BitVec.ofNat 32 (nibble (x.readG n s) (x.position n byReg pos)))

/-- NINS. -/
def execNins (core : Nat) (g d s : BitVec 3) (byReg : Bool) (pos : BitVec 3) (st : State) : Host.Outcome State Fault Refusal :=
  st.run fun b => b.plain (.nins core g d s byReg pos) (coreIx core) fun x n =>
    x.writeG d (putNibble (x.readG n d) (x.position n byReg pos) (x.readG n s).toNat)

/-- NSHL. -/
def execNshl (core : Nat) (g d s : BitVec 3) (st : State) : Host.Outcome State Fault Refusal :=
  st.run fun b => b.plain (.nshl core g d s) (coreIx core)
    (Ctx14.binary (fun a v => a <<< 4 ||| BitVec.ofNat 32 (v.toNat % 16)) d s)

/-! ## Branches (R266, R272) -/

/-- A branch to a target with its delay slot; `link` writes LK with the address after the slot. -/
def Block.branchTo (b : Block) (i : Instr) (u : Nat) (link : Bool) (target : Ctx14 → Nat → BitVec 14) : Block :=
  b.issue i u (fun _ _ _ => []) fun b c x n =>
    let words := b.sizeAt x.pc
    let after := b.afterSlot x words
    b.modCx u c fun _ => { (x.tickLate n) with
      pc := x.pc + BitVec.ofNat 14 words, delay := some (target x n), rpt := 0, lk := if link then after else x.lk }

/-- B. -/
def execBranch (core : Nat) (g : BitVec 3) (imm : BitVec 14) (st : State) : Host.Outcome State Fault Refusal :=
  st.run fun b => b.branchTo (.branch core g imm) (coreIx core) false fun _ _ => imm

/-- CALL. -/
def execCall (core : Nat) (g : BitVec 3) (imm : BitVec 14) (st : State) : Host.Outcome State Fault Refusal :=
  st.run fun b => b.branchTo (.call core g imm) (coreIx core) true fun _ _ => imm

/-- JR, jump. -/
def execJrJump (core : Nat) (g s : BitVec 3) (st : State) : Host.Outcome State Fault Refusal :=
  st.run fun b => b.branchTo (.jrJump core g s) (coreIx core) false fun x n => (x.readG n s).setWidth 14

/-- JR, call. -/
def execJrCall (core : Nat) (g s : BitVec 3) (st : State) : Host.Outcome State Fault Refusal :=
  st.run fun b => b.branchTo (.jrCall core g s) (coreIx core) true fun x n => (x.readG n s).setWidth 14

/-- RET. -/
def execRet (core : Nat) (g : BitVec 3) (st : State) : Host.Outcome State Fault Refusal :=
  st.run fun b => b.branchTo (.ret core g) (coreIx core) false fun x _ => x.lk

/-! ## Loops and repetition (R273, R274) -/

/-- Causes of a loop's set-up. -/
def Ctx14.loopCauses (x : Ctx14) (count : Nat) (le : BitVec 14) : List Nat :=
  (if 0 < count ∧ 4 ≤ x.loops.length then [0x02] else []) ++
  (if le.toNat ≤ x.pc.toNat || x.loops.any (fun l => decide (l.le.toNat ≤ le.toNat)) then [0x03] else [])

/-- A loop is set up, or its body skipped where the count is 0. -/
def Block.loopTo (b : Block) (i : Instr) (u : Nat) (count : Ctx14 → Nat → Nat) (le : BitVec 14) : Block :=
  let n := b.free + 1
  b.issue i u (fun _ _ x => x.loopCauses (count x n) le) fun b c x n =>
    let k := count x n
    let y := x.advance n (b.sizeAt x.pc)
    let z := if k = 0 then { y with pc := le + BitVec.ofNat 14 (b.sizeAt le) }
      else { y with loops := { ls := y.pc, le, lc := BitVec.ofNat 32 k } :: y.loops }
    b.modCx u c fun _ => z

/-- LOOP. -/
def execLoop (core : Nat) (g s : BitVec 3) (le : BitVec 14) (st : State) : Host.Outcome State Fault Refusal :=
  st.run fun b => b.loopTo (.loop core g s le) (coreIx core) (fun x n => (x.readG n s).toNat) le

/-- A count field, 0 meaning 64. -/
def countField (c : BitVec 6) : Nat := if c = 0 then 64 else c.toNat

/-- LOOPI. -/
def execLoopi (core : Nat) (g : BitVec 3) (count : BitVec 6) (le : BitVec 14) (st : State) : Host.Outcome State Fault Refusal :=
  st.run fun b => b.loopTo (.loopi core g count le) (coreIx core) (fun _ _ => countField count) le

/-- RPT: the next instruction is executed n times. -/
def Block.repeat14 (b : Block) (i : Instr) (u count : Nat) : Block :=
  b.issue i u (fun b _ x =>
      match b.instrAt u (x.pc + 1) with
      | some j => if unrepeatable j then [0x01] else []
      | none => [0x01])
    fun b c x n => b.modCx u c fun _ => { (x.tickLate n) with pc := x.pc + 1, rpt := count }

/-- RPT. -/
def execRpt (core : Nat) (g : BitVec 3) (count : BitVec 6) (st : State) : Host.Outcome State Fault Refusal :=
  st.run fun b => b.repeat14 (.rpt core g count) (coreIx core) (countField count)

/-! ## Special registers (R275, R276) -/

/-- FEAT0 to FEAT3. -/
def feature (i : Nat) : Nat :=
  match i with
  | 0 => 0x1F
  | 1 => 0x4000 + at_ 16 4 + at_ 24 8
  | 2 => 4 + at_ 4 8 + at_ 8 1 + at_ 16 16
  | _ => 0

/-- A special register as MFR reads it; none where it traps. -/
def Block.special (b : Block) (u : Nat) (c : Fin 8) (x : Ctx14) (num : Nat) : Option (BitVec 32) :=
  let n := fun (v : Nat) => some (BitVec.ofNat 32 v)
  match num with
  | 0x00 => n x.lk.toNat
  | 0x01 => n c.val
  | 0x02 => n (match x.loops with | l :: _ => l.ls.toNat | [] => 0)
  | 0x03 => n (match x.loops with | l :: _ => l.le.toNat | [] => 0)
  | 0x04 => match x.loops with | l :: _ => some l.lc | [] => some 0
  | 0x06 => n x.loops.length
  | 0x07 => some (b.time.sched.setWidth 32)
  | 0x08 => n x.ev.toNat
  | 0x09 => n x.epc.toNat
  | 0x0A => n x.ecause.toNat
  | 0x0B => n (if c = 0 then 0 else x.op + at_ 8 x.var + at_ 16 x.part)
  | 0x0C => some x.mcs
  | 0x0D => n (c.val + at_ 8 (b.position u))
  | 0x10 => n (feature 0)
  | 0x11 => n (feature 1)
  | 0x12 => n (feature 2)
  | 0x13 => n (feature 3)
  | _ => none

/-- MFR. -/
def execMfr (core : Nat) (g d : BitVec 3) (num : BitVec 6) (st : State) : Host.Outcome State Fault Refusal :=
  st.run fun b =>
    let u := coreIx core
    b.issue (.mfr core g d num) u (fun b c x => if (b.special u c x num.toNat).isNone then [0x07] else []) fun b c x n =>
      let v := (b.special u c x num.toNat).getD 0
      b.modCx u c fun _ => (x.writeG d v).advance n (b.sizeAt x.pc)

/-- A write of a special register; none where it traps. -/
def Ctx14.special (x : Ctx14) (num : Nat) (v : BitVec 32) : Option Ctx14 :=
  let inner := fun (f : LoopRec → LoopRec) => match x.loops with
    | l :: rest => some { x with loops := f l :: rest }
    | [] => none
  match num with
  | 0x00 => some { x with lk := v.setWidth 14 }
  | 0x02 => inner fun l => { l with ls := v.setWidth 14 }
  | 0x03 => inner fun l => { l with le := v.setWidth 14 }
  | 0x04 => inner fun l => { l with lc := if v = 0 then 1 else v }
  | 0x05 => match x.loops with | _ :: rest => some { x with loops := rest } | [] => none
  | 0x09 => some { x with epc := v.setWidth 14 }
  | _ => none

/-- MTR. -/
def execMtr (core : Nat) (g s : BitVec 3) (num : BitVec 6) (st : State) : Host.Outcome State Fault Refusal :=
  st.run fun b =>
    let u := coreIx core
    b.issue (.mtr core g s num) u (fun _ _ x => if (x.special num.toNat 0).isNone then [0x07] else []) fun b c x n =>
      let y := (x.special num.toNat (x.readG n s)).getD x
      b.modCx u c fun _ => y.advance n (b.sizeAt x.pc)

/-! ## Calls and the channel (R279, R281, R282) -/

/-- The 32 bytes of a block that a register names: offset and bank-0 selection; none where it is not aligned or does not lie in
the bank. -/
def Block.block32 (b : Block) (u : Nat) (c : Fin 8) (v : BitVec 32) : Option Bytes :=
  let off := v.toNat % 4096
  if off % 8 ≠ 0 ∨ 4064 < off then none else some (bankRead (b.bankOf u c (v.getLsbD 12)) off 32)

/-- POST. -/
def execPost (core : Nat) (g d : BitVec 3) (st : State) : Host.Outcome State Fault Refusal :=
  st.run fun b =>
    let u := coreIx core
    let n := b.free + 1
    let read := fun (b : Block) (c : Fin 8) (x : Ctx14) => (b.block32 u c (x.readG n d)).bind (b.readCall u c)
    b.issue (.post core g d) u
      (fun b c x => (if x.call.isSome then [0x08] else []) ++ (if (read b c x).isNone then [0x09] else []))
      fun b c x n =>
        let r := read b c x
        let b := b.modCx u c fun x => x.advance n (b.sizeAt x.pc)
        match r with
        | some (r, window) => b.postCall u c r window
        | none => b

/-- MBR: usable after a distance of 4. -/
def execMbr (core : Nat) (g d : BitVec 3) (st : State) : Host.Outcome State Fault Refusal :=
  st.run fun b => b.plain (.mbr core g d) (coreIx core) fun x _ => x.produce d x.result 4

/-- A side of a channel block: 0 host, 1 window, 2 bank. -/
structure BlockSides where
  src : Nat
  dst : Nat
  count : Nat
  srcSel : Nat
  dstSel : Nat
  srcSg : Bool
  dstSg : Bool
  swap : Nat

/-- The fields of a channel block (R281). -/
def sidesOf (blk : Bytes) : BlockSides :=
  let ctl := ofBE (slice 0x14 4 blk)
  { src := ofBE (slice 0 8 blk), dst := ofBE (slice 8 8 blk), count := ofBE (slice 0x10 4 blk), srcSel := ctl % 4, dstSel := ctl / 4 % 4
    srcSg := bit ctl 4, dstSg := bit ctl 5, swap := field ctl 10 8 }

/-- A block passes the checks of R281: fields, areas, and a window that has not been removed. -/
def blockOk (blk : Bytes) (removed : Bool) : Bool :=
  let k := sidesOf blk
  let ctl := ofBE (slice 0x14 4 blk)
  let zero := ctl / 64 % 4 == 0 && ctl / 2048 == 0 && (slice 0x18 8 blk).all (· == 0)
  let side := fun (sel off : Nat) (sg : Bool) => match sel with
    | 0 => true
    | 1 => !sg && !removed && decide (k.count ≤ 16384) && decide (off + k.count ≤ 16384)
    | 2 => !sg && decide (k.count ≤ 4096) && decide (off + k.count ≤ 4096)
    | _ => false
  zero && side k.srcSel k.src k.srcSg && side k.dstSel k.dst k.dstSg

/-- The block that an MCH names, where it passes its checks. -/
def Block.mchBlock (b : Block) (u : Nat) (c : Fin 8) (v : BitVec 32) : Option Bytes :=
  (b.block32 u c v).filter fun blk => blockOk blk (b.chan (b.fwChan u)).removed

/-- A block that passed its checks is queued; one that names the window of another context suspends its own. -/
def Block.queueBlock (b : Block) (u : Nat) (c : Fin 8) (x : Ctx14) (n : Nat) (d : BitVec 3) (blk : Bytes) : Block :=
  let k := sidesOf blk
  let window := k.srcSel == 1 || k.dstSel == 1
  if window && b.windowHeld u c then b.suspend u c (.waitWindow d)
  else
    let words := b.sizeAt x.pc
    (b.pushBlock u c blk window).modCx u c fun x => x.advance n words

/-- MCH. -/
def execMch (core : Nat) (g d : BitVec 3) (st : State) : Host.Outcome State Fault Refusal :=
  st.run fun b =>
    let u := coreIx core
    let n := b.free + 1
    b.issue (.mch core g d) u
      (fun b c x => (if x.block then [0x0A] else []) ++ (if (b.mchBlock u c (x.readG n d)).isNone then [0x0B] else []))
      fun b c x n => match b.mchBlock u c (x.readG n d) with
        | some blk => b.queueBlock u c x n d blk
        | none => b

/-! ## Control (R267, R277, R278, R283, R284, R286) -/

/-- CTL NOP. -/
def execCtlNop (core : Nat) (g : BitVec 3) (st : State) : Host.Outcome State Fault Refusal :=
  st.run fun b => b.plain (.ctlNop core g) (coreIx core) fun x _ => x

/-- TRAPI. -/
def execTrapi (core : Nat) (g n : BitVec 3) (st : State) : Host.Outcome State Fault Refusal :=
  st.run fun b => b.issue (.trapi core g n) (coreIx core) (fun _ _ _ => [0x10 + n.toNat]) fun b _ _ _ => b

/-- The core, by index, at a logical position. -/
def Block.coreAt (b : Block) (pos : Nat) : Option Nat :=
  (List.range 18).find? fun i => b.inService (coreUnit i) && b.position i == pos

/-- SEV: an event to context 0 of one core, or of all in service. -/
def execSev (core : Nat) (g : BitVec 3) (pos : BitVec 4) (all : Bool) (event : BitVec 3) (st : State) : Host.Outcome State Fault Refusal :=
  st.run fun b =>
    let u := coreIx core
    b.issue (.sev core g pos all event) u (fun _ _ _ => []) fun b c x n =>
      let b := b.modCx u c fun x => x.advance n (b.sizeAt x.pc)
      let targets := if all then (List.range 18).filter fun i => b.inService (coreUnit i) else (b.coreAt pos.toNat).toList
      targets.foldl (fun b v => b.setEvent v 0 (2 + event.toNat)) b

/-- WFE. -/
def execWfe (core : Nat) (g d : BitVec 3) (mask : BitVec 10) (st : State) : Host.Outcome State Fault Refusal :=
  st.run fun b =>
    let u := coreIx core
    b.issue (.wfe core g d mask) u (fun _ _ _ => []) fun b c x n =>
      if x.ev &&& mask = 0 then b.suspend u c (.waitEvent d mask)
      else b.modCx u c fun _ => Ctx14.advance { (x.writeG d ((x.ev &&& mask).setWidth 32)) with ev := x.ev &&& ~~~mask } n (b.sizeAt x.pc)

/-- The schedule tick has reached a target (01 R17). -/
def Block.reached (b : Block) (target : BitVec 32) : Bool := decide ((b.time.sched.setWidth 32 - target).toNat < 2 ^ 31)

/-- WAITT. -/
def execWaitt (core : Nat) (g s : BitVec 3) (st : State) : Host.Outcome State Fault Refusal :=
  st.run fun b =>
    let u := coreIx core
    b.issue (.waitt core g s) u (fun _ _ _ => []) fun b c x n =>
      let target := x.readG n s
      if b.reached target then b.modCx u c fun _ => x.advance n (b.sizeAt x.pc)
      else b.suspend u c (.waitTime target)

/-- WAITT_REACHED (R278): the context becomes ready after its WAITT. -/
def Block.waittDone (b : Block) (u : Nat) (c : Fin 8) : Block :=
  match (b.cx u c).st with
  | .waitTime t =>
    if b.reached t then
      let n := b.free
      b.modCx u c fun x => Ctx14.advance { x with st := .ready } n 1
    else b
  | _ => b

/-- WAITT_REACHED. -/
def execWaittReached (core ctx : Nat) (st : State) : Host.Outcome State Fault Refusal :=
  st.run fun b => b.waittDone (coreIx core) (ctxIx ctx)

/-- DONE: it waits for the context's call and channel block, and ends the context's work. -/
def execDone (core : Nat) (g s : BitVec 3) (st : State) : Host.Outcome State Fault Refusal :=
  st.run fun b =>
    let u := coreIx core
    b.issue (.done core g s) u (fun _ _ _ => []) fun b c x n =>
      if x.call.isSome || x.block then b.suspend u c (.waitDone s) else b.endByDone u c (x.readG n s)

/-- The end test that follows the return from an emulated instruction at LE (R288). -/
def Ctx14.returned (x : Ctx14) : Ctx14 :=
  match x.loops with
  | l :: _ => if x.emuPc = l.le ∧ l.le.toNat < x.epc.toNat then x.endTest l.le else x
  | [] => x

/-- ERET. -/
def execEret (core : Nat) (g : BitVec 3) (st : State) : Host.Outcome State Fault Refusal :=
  st.run fun b =>
    let u := coreIx core
    b.issue (.eret core g) u (fun _ _ x => if x.emulating then [] else [0x0D]) fun b c x n =>
      b.modCx u c fun _ => Ctx14.returned { (x.tickLate n) with pc := x.epc, emulating := false, rpt := 0 }

/-- EMULATION_VECTOR (R286): the word at the PC is a reserved encoding; guarded off it takes its cycles. -/
def Block.emulate (b : Block) (u : Nat) : Block :=
  match b.issuing u with
  | none => b
  | some c =>
    let pc := (b.cx u c).pc
    if (b.instrAt u pc).isSome then b else
    let words := b.sizeAt pc
    let b := (b.tick).modCx u c fun x => { x with cycles := x.cycles + words }
    let x := b.cx u c
    let w := b.word14 pc
    if !x.pred (K14.guardOf w) then b.skip u c false words
    else if x.delay.isSome then b.trap u c 0x04
    else if x.emulating then b.trap u c 0x0D
    else
      let next := b.word14 (pc + 1)
      b.modCx u c fun _ => { (x.settle b.free) with epc := pc, ecause := next ++ w, pc := 4, emulating := true, emuPc := pc, rpt := 0 }

/-- EMULATION_VECTOR. -/
def execEmulationVector (core : Nat) (st : State) : Host.Outcome State Fault Refusal := st.run fun b => b.emulate (coreIx core)

/-! ## The choice of context (R260) -/

/-- Function contexts in the order in which core k resumes them: those whose timed wait a jump of the schedule tick has passed, in
order of target (01 R20, R288), then the next higher bank numbers after the last context that ran, wrapping from 7 to 1. -/
def Core14.order (k : Core14) : List (Fin 8) :=
  (k.jumped ++ (List.finRange 8).filter (fun c => decide (k.last < c)) ++ (List.finRange 8).filter (fun c => decide (c ≤ k.last))).filter
    (· != 0)

/-- A context that may be resumed: a ready one, or one whose timed wait a jump has passed. -/
def Core14.resumable (k : Core14) (c : Fin 8) : Bool :=
  match k.ctxs[c].st with
  | .ready => true
  | .waitTime _ => k.jumped.contains c
  | _ => false

/-- The next context of a core: a function context; context 0 when none is ready. -/
def Core14.next (k : Core14) : Option (Fin 8) :=
  (k.order.find? k.resumable).orElse fun _ => if k.resumable 0 then some 0 else none

/-- CONTEXT_RESUME: a core that issues from no context takes the next ready one. -/
def Block.resume (b : Block) (u : Nat) : Block :=
  let k := b.core u
  if !b.inService (coreUnit u) || k.running.isSome then b else
  match k.next with
  | none => b
  | some c =>
    let b := b.waittDone u c
    let n := b.free
    let b := b.modCx u c fun x => { (x.settle n) with cycles := 0 }
    b.modCore u fun k => { k with running := some c, last := c, jumped := k.jumped.filter (· != c) }

/-- CONTEXT_RESUME. -/
def execContextResume (core : Nat) (st : State) : Host.Outcome State Fault Refusal := st.run fun b => b.resume (coreIx core)

end Sys2Proof.Machine
end

