-- ==== Sys2Proof/Machine/Mule.lean ====
section
/-! DEFINITION. The raw channels of MULE (06 R129 to R137) and the firmware channels of the DRAKE cores (12 R281, R282). -/

namespace Sys2Proof.Machine

open Sys2Proof

/-! ## The end of a transfer -/

/-- The core, by index, whose firmware channel is ch, and the context of the block in progress. -/
def Block.channelUser (b : Block) (ch : Nat) : Option (Nat × Fin 8) :=
  if ch < 48 then none
  else (b.coreAt (ch - 48)).bind fun u =>
    if (b.core u).busy then ((b.core u).blocks.head?).map fun x => (u, x.1) else none

/-- The block in progress on a firmware channel ends: MCS takes the status, EV.MULE sets, and a DONE that waited goes on (12 R282).
A block that outlived its function (06 R136) lets the window go. -/
def Block.blockEnds (b : Block) (ch : Nat) (mcs : Nat) : Block :=
  match b.channelUser ch with
  | none => b
  | some (u, c) =>
    let b := b.modCore u fun k => { k with blocks := k.blocks.drop 1, busy := false }
    if (b.cx u c).block then
      let b := b.modCx u c fun x => { x with block := false, mcs := BitVec.ofNat 32 mcs }
      (b.setEvent u c 1).tryDone u c
    else b.modCore u fun k => k.releaseWindow c

/-- Requests of a channel are no longer its own: their responses are discarded. -/
def Block.forgetChannel (b : Block) (ch : Nat) : Block := b.disown (Purpose.ofChan ch)

/-- A transfer ends with ERR (R135): COUNT is undefined and no vector is raised; the end of a firmware block sets EV.MULE all the
same (12 R282). -/
def Block.chanError (b : Block) (ch cause addr : Nat) : Block :=
  let n := b.free
  let b := (b.forgetChannel ch).tick
  let b := b.modChan ch fun c => { c with
    err := true, cause, errAddr := addr, run := none, count := (Config.undefinedReg n 2).setWidth 32 }
  b.blockEnds ch (2 + at_ 8 cause)

/-- A transfer is complete (R133): DONE, COUNT 0, and the vector of a partition 0 channel or the event of a firmware one. -/
def Block.chanComplete (b : Block) (ch : Nat) : Block :=
  let b := b.forgetChannel ch
  let b := b.modChan ch fun c => { c with done := true, count := 0, run := none }
  let c := b.chan ch
  let b := if ch < 48 && c.irqEn then b.raise c.vector c.port else b
  b.blockEnds ch 1

/-- A channel that DISABLE has stopped is busy no more once nothing of it is outstanding. -/
def Block.settleChan (b : Block) (ch : Nat) : Block :=
  match (b.chan ch).run with
  | some r =>
    let busy := b.mport.outst.any fun q => Purpose.ofChan ch q.purpose
    if r.stopped && !busy then b.modChan ch fun c => { c with run := none } else b
  | none => b

/-- A raw channel is stopped by an event of R136. The block of the service context that it was serving ends DISABLED in MCS, and
the channel goes on with the next (12 R282). -/
def Block.disableChan (b : Block) (ch : Nat) : Block :=
  match (b.chan ch).run with
  | none => b
  | some r =>
    if r.stopped then b else
    let b := b.stopChan ch
    match b.channelUser ch with
    | some (_, c) => if c = 0 then b.blockEnds ch 4 else b
    | none => b

/-! ## Chunks (R131) -/

/-- The pieces of a list of ranges that n bytes from an offset take. -/
def cutRanges : List (Nat × Nat) → Nat → Nat → List (Nat × Nat)
  | [], _, _ => []
  | (a, len) :: r, off, n =>
    if n = 0 then []
    else if len ≤ off then cutRanges r (off - len) n
    else
      let k := min n (len - off)
      (a + off, k) :: cutRanges r 0 (n - k)

/-- The source ranges of a transfer. -/
def ChanRun.sources (r : ChanRun) : List (Nat × Nat) := if r.srcList.isEmpty then [(r.src, r.count)] else r.srcList

/-- The destination ranges of a transfer. -/
def ChanRun.targets (r : ChanRun) : List (Nat × Nat) := if r.dstList.isEmpty then [(r.dst, r.count)] else r.dstList

/-- Chunks of a transfer. -/
def ChanRun.chunkCount (r : ChanRun) : Nat := ceilDiv r.count 4096

/-- Bytes of chunk m. -/
def ChanRun.chunkLen (r : ChanRun) (m : Nat) : Nat := min 4096 (r.count - 4096 * m)

/-- The chunks of a transfer in copy order. -/
def Channel.order (c : Channel) (r : ChanRun) : List Nat :=
  let l := List.range r.chunkCount
  if c.descending then l.reverse else l

/-- Whether a write request of channel ch is outstanding. -/
def Block.chanWriting (b : Block) (ch : Nat) : Bool := b.mport.outst.any fun r => match r.purpose with
  | .chanWrite k _ => k == ch
  | _ => false

/-- Bytes of the bank of a context or of the channel window. -/
def Block.localRead (b : Block) (ch sel off n : Nat) : Bytes :=
  match b.channelUser ch with
  | some (u, c) => if sel = 1 then bankRead (b.core u).window off n else bankRead (b.bankOf u c false) off n
  | none => zeros n

/-- Bytes stored into the bank of a context or into the channel window. -/
def Block.localWrite (b : Block) (ch sel off : Nat) (bs : Bytes) : Block :=
  match b.channelUser ch with
  | some (u, c) => if sel = 1 then b.modCore u fun k => { k with window := bankWrite k.window off bs } else b.storeBank u c off bs
  | none => b

/-- A run changed. -/
def Block.modRun (b : Block) (ch : Nat) (f : ChanRun → ChanRun) : Block := b.modChan ch fun c => { c with run := c.run.map f }

/-- One chunk's writes: requests to host memory in ascending order, or a store on the core's side. -/
def Block.writeChunk (b : Block) (ch : Nat) (r : ChanRun) (m : Nat) (data : Bytes) : Block :=
  let c := b.chan ch
  let out := swapUnits c.swap data
  let off := 4096 * m
  let b := if r.dstSel ≠ 0 then b.localWrite ch r.dstSel (r.dst + off) out
    else (layOut (cutRanges r.targets off out.length) out).foldl (fun b x => b.issueWrite c.port c.part 0xFFFF x.1 x.2 (.chanWrite ch m)) b
  let last := match (cutRanges r.targets off out.length).getLast? with | some x => x.1 + x.2 - 1 | none => 0
  let b := if r.dstSel ≠ 0 then b.modChan ch fun c => { c with count := c.count - BitVec.ofNat 32 out.length } else b
  b.modRun ch fun r => { r with written := r.written ++ [m], lastWrite := last }

/-- Chunks whose data have come are written in copy order; `fuel` bounds their number. -/
def Block.drainChunks (ch : Nat) : Nat → Block → Block
  | 0, b => b
  | fuel + 1, b =>
    let c := b.chan ch
    match c.run with
    | none => b
    | some r =>
      match (c.order r).find? fun m => !r.written.contains m with
      | none => b
      | some m =>
        match r.got.find? fun x => x.1 == m with
        | some x => Block.drainChunks ch fuel (b.writeChunk ch r m x.2)
        | none => b

/-- Reads are issued while fewer than four chunks are in flight. -/
def Block.askChunks (ch : Nat) : Nat → Block → Block
  | 0, b => b
  | fuel + 1, b =>
    let c := b.chan ch
    match c.run with
    | none => b
    | some r =>
      if 4 ≤ r.asked.length - r.written.length then b else
      match (c.order r).find? fun m => !r.asked.contains m with
      | none => b
      | some m =>
        let n := r.chunkLen m
        let b := b.modRun ch fun r => { r with asked := r.asked ++ [m] }
        let b :=
          if r.srcSel ≠ 0 then
            let data := b.localRead ch r.srcSel (r.src + 4096 * m) n
            Block.drainChunks ch 4 (b.modRun ch fun r => { r with got := r.got ++ [(m, data)] })
          else (cutRanges r.sources (4096 * m) n).foldl (fun b x => b.issueRead c.port c.part 0xFFFF x.1 x.2 (.chanRead ch m)) b
        Block.askChunks ch fuel b

/-- Every write has been accepted: the line of the last write's highest byte is read back (R133); without a host side the
transfer is complete. -/
def Block.finishChunks (b : Block) (ch : Nat) : Block :=
  let c := b.chan ch
  match c.run with
  | none => b
  | some r =>
    if r.written.length < r.chunkCount || r.readback || b.chanWriting ch then b
    else if r.dstSel ≠ 0 || r.count = 0 then b.chanComplete ch
    else (b.issueRead c.port c.part 0xFFFF (r.lastWrite / 64 * 64) 64 (.chanReadback ch)).modRun ch fun r => { r with readback := true }

/-- A write request of n bytes of channel ch has been accepted: COUNT falls by them (R133). After DISABLE it is one response fewer
(R134). -/
def Block.chanAccepted (b : Block) (ch n : Nat) : Block :=
  match (b.chan ch).run with
  | none => b
  | some r =>
    if r.stopped then b.settleChan ch
    else (b.modChan ch fun c => { c with count := c.count - BitVec.ofNat 32 n }).finishChunks ch

/-- The transfer proper begins. -/
def Block.startChunks (b : Block) (ch : Nat) : Block :=
  match (b.chan ch).run with
  | none => b
  | some r => (Block.askChunks ch (r.chunkCount + 1) b).finishChunks ch

/-! ## Lists (R132, R135) -/

/-- Entries of a list: address, length, FLAGS. -/
def listEntries (bs : Bytes) : List (Nat × Nat × Nat) :=
  (List.range 256).map fun i => (ofLE (slice (16 * i) 8 bs), ofLE (slice (16 * i + 8) 4 bs), ofLE (slice (16 * i + 12) 4 bs))

/-- The entries up to END; none where there is no END. -/
def listToEnd (l : List (Nat × Nat × Nat)) : Option (List (Nat × Nat × Nat)) :=
  (l.findIdx? fun e => e.2.2 % 2 == 1).map fun i => l.take (i + 1)

/-- The first failing test of the lists in the order of R135: cause and address of the failing entry. -/
def listsFault (lists : List (Nat × Bytes)) (count : Nat) : Option (Nat × Nat) :=
  let cut := lists.map fun x => (x.1, listToEnd (listEntries x.2))
  let first := fun (cause : Nat) (bad : Nat × Nat × Nat → Bool) =>
    cut.findSome? fun x => ((x.2.getD []).findIdx? bad).map fun i => (cause, x.1 + 16 * i)
  let noEnd := cut.findSome? fun x => if x.2.isNone then some (0x0A, x.1 + 16 * 255) else none
  let total := cut.findSome? fun x =>
    let l := x.2.getD []
    if sumBy (fun e => e.2.1) l != count then some (0x07, x.1 + 16 * (l.length - 1)) else none
  (((noEnd.orElse fun _ => first 0x0B fun e => e.2.2 / 2 != 0).orElse fun _ => first 0x08 fun e => e.2.1 == 0).orElse fun _ =>
    first 0x09 fun e => decide (2 ^ 64 < e.1 + e.2.1)).orElse fun _ => total

/-! ## START (R130, R135) -/

/-- Causes of R135 that concern registers, in its order, with the address that the error shows. -/
def Block.startCause (b : Block) (ch : Nat) : Option (Nat × Nat) :=
  let c := b.chan ch
  let n := c.count.toNat
  if !b.enabled c.part then some (0x0F, 0)
  else if 4 < c.swap then some (0x0E, 0)
  else if n % swapUnit c.swap ≠ 0 then some (0x0D, 0)
  else if (c.srcSg && c.src.toNat % 16 != 0) || (c.dstSg && c.dst.toNat % 16 != 0) then some (0x0C, 0)
  else if c.irqEn && ch < 48 && b.vecOwner c.vector != some 0 then some (0x10, 0)
  else none

/-- A transfer starts with the registers as they stand. Two contiguous sides in the same memory that overlap upwards are copied
descending (R131). A contiguous range that passes the top of memory is a register cause, with address 0 (R135). -/
def Block.startChan (b : Block) (ch srcSel dstSel : Nat) : Block :=
  let port := b.pickPort
  let c := b.chan ch
  let src := c.src.toNat
  let dst := c.dst.toNat
  let n := c.count.toNat
  let down := !c.srcSg && !c.dstSg && srcSel == dstSel && decide (src < dst) && decide (dst < src + n)
  let run : ChanRun := { src, dst, count := n, srcSel, dstSel, listsRead := !c.srcSg && !c.dstSg }
  let b := b.modChan ch fun c => { c with done := false, err := false, disabled := false, port, descending := down, run := some run }
  match b.startCause ch with
  | some (cause, a) => b.chanError ch cause a
  | none =>
    if c.srcSg || c.dstSg then
      let b := if c.srcSg then b.issueRead port c.part 0xFFFF src 4096 (.chanSrcList ch) else b
      if c.dstSg then b.issueRead port c.part 0xFFFF dst 4096 (.chanDstList ch) else b
    else if srcSel == 0 && rangePasses src n then b.chanError ch 0x09 0
    else if dstSel == 0 && rangePasses dst n then b.chanError ch 0x09 0
    else b.startChunks ch

/-- The modes in which START is accepted. -/
def Mode.copies (m : Mode) : Bool := m == .factory || m == .operational || m == .maintenance

/-- Address of a register of channel ch. -/
def chanReg (ch off : Nat) : Nat := 0x8000 + 0x80 * ch + off

/-- The RW fields of CTRL; while BUSY they are discarded and BUSY_WRITE sets where they would change (R137). -/
def Block.chanCtl (b : Block) (ch : Nat) (data : BitVec 64) : Block :=
  let d := data.toNat
  b.modChan ch fun c =>
    if c.run.isSome then { c with busyWrite := true }
    else { c with srcSg := bit d 2, dstSg := bit d 3, swap := field d 6 4, irqEn := bit d 8, vector := field d 29 16, part := field d 43 32 }

/-- A write of a channel register by a tag: the channels of firmware take none (R129). -/
def Block.chanWriteBy (b : Block) (ch tag off : Nat) (f : Block → Block) : Block :=
  if b.mode.porstLow then b
  else if tag = 0 ∧ ch < 48 then f b.okWrite else b.refuseOwner (chanReg ch off) tag true

/-- MULE_START: a write of CTRL with START at 1. -/
def Block.muleStart (b : Block) (ch : Nat) (data : BitVec 64) : Block :=
  let c := b.chan ch
  if c.run.isNone ∧ b.mode.mode.copies ∧ !c.removed then (b.chanCtl ch data).startChan ch 0 0
  else (b.chanCtl ch data).modChan ch fun c => { c with startRefused := true }

/-- DISABLE (R134): with a transfer it stops it, and the RW fields of the write are discarded (R137); with START in the same write
no transfer starts. -/
def Block.muleDisable (b : Block) (ch : Nat) (data : BitVec 64) : Block :=
  let run := (b.chan ch).run
  let b := b.chanCtl ch data
  match run with
  | some r => if r.stopped then b else b.stopChan ch
  | none => if data.getLsbD 0 then b.modChan ch fun c => { c with disabled := true } else b

/-- A write of CTRL: DISABLE acts before START. -/
def Block.muleCtl (b : Block) (ch : Nat) (data : BitVec 64) : Block :=
  if data.getLsbD 1 then b.muleDisable ch data
  else if data.getLsbD 0 then b.muleStart ch data
  else b.chanCtl ch data

/-- MULE_START. -/
def execMuleStart (ch tag : Nat) (data : BitVec 64) (s : State) : Host.Outcome State Fault Refusal :=
  s.run fun b => b.chanWriteBy ch tag 0x18 fun b => b.muleCtl ch (data ||| 1)

/-- MULE_DISABLE. -/
def execMuleDisable (ch tag : Nat) (data : BitVec 64) (s : State) : Host.Outcome State Fault Refusal :=
  s.run fun b => b.chanWriteBy ch tag 0x18 fun b => b.muleCtl ch (data ||| 2)

/-! ## Returns -/

/-- CHANNEL_LIST_READ_RETURN: the lists are checked and the transfer begins. -/
def Block.chanLists (b : Block) (ch : Nat) (srcL dstL : Bytes) : Block :=
  let c := b.chan ch
  let late := fun (b : Block) => b.discard fun w => w == .chanSrcList ch || w == .chanDstList ch
  match c.run with
  | none => late b
  | some r =>
    if r.listsRead || !(b.awaits (.chanSrcList ch) || b.awaits (.chanDstList ch)) then late b else
    let b := (b.arrived (.chanSrcList ch)).arrived (.chanDstList ch)
    if r.stopped then b.settleChan ch else
    let lists := (if c.srcSg then [(r.src, srcL)] else []) ++ (if c.dstSg then [(r.dst, dstL)] else [])
    let plain := (!c.srcSg && r.srcSel == 0 && rangePasses r.src r.count) || (!c.dstSg && r.dstSel == 0 && rangePasses r.dst r.count)
    match listsFault lists r.count, plain with
    | some (0x07, _), true => b.chanError ch 0x09 0
    | some (cause, a), _ => b.chanError ch cause a
    | none, true => b.chanError ch 0x09 0
    | none, false =>
      let entries := fun (sg : Bool) (bs : Bytes) => if sg then ((listToEnd (listEntries bs)).getD []).map fun e => (e.1, e.2.1) else []
      (b.modRun ch fun r => { r with listsRead := true, srcList := entries c.srcSg srcL, dstList := entries c.dstSg dstL }).startChunks ch

/-- CHANNEL_LIST_READ_RETURN. -/
def execChannelListReadReturn (ch : Nat) (srcList dstList : Bytes) (s : State) : Host.Outcome State Fault Refusal :=
  s.run fun b => b.chanLists ch srcList dstList

/-- CHUNK_READ_RETURN: chunk m is in the window; writes and further reads follow. -/
def Block.chunkReturn (b : Block) (ch m : Nat) (data : Bytes) : Block :=
  match (b.chan ch).run with
  | none => b.discard (· == .chanRead ch m)
  | some r =>
    if !b.awaits (.chanRead ch m) then b.discard (· == .chanRead ch m)
    else if !r.stopped && data.length != r.chunkLen m then b else
    let b := b.arrived (.chanRead ch m)
    if r.stopped then b.settleChan ch
    else
      let b := b.modRun ch fun r => { r with got := r.got ++ [(m, data)] }
      let b := Block.drainChunks ch 4 b
      (Block.askChunks ch (r.chunkCount + 1) b).finishChunks ch

/-- CHUNK_READ_RETURN. -/
def execChunkReadReturn (ch m : Nat) (data : Bytes) (s : State) : Host.Outcome State Fault Refusal :=
  s.run fun b => b.chunkReturn ch m data

/-- CHANNEL_DONE: the read-back returns (R133). -/
def Block.chanDone (b : Block) (ch : Nat) : Block :=
  match (b.chan ch).run with
  | none => b.discard (· == .chanReadback ch)
  | some r =>
    if !b.awaits (.chanReadback ch) then b.discard (· == .chanReadback ch)
    else if r.stopped then (b.arrived (.chanReadback ch)).settleChan ch
    else (b.arrived (.chanReadback ch)).chanComplete ch

/-- CHANNEL_DONE. -/
def execChannelDone (ch : Nat) (s : State) : Host.Outcome State Fault Refusal := s.run fun b => b.chanDone ch

/-! ## Firmware channels (12 R281) -/

/-- CHANNEL_BLOCK_START: the channel of a core starts the block that waits first. -/
def Block.blockStart (b : Block) (u : Nat) : Block :=
  let k := b.core u
  let ch := b.fwChan u
  match k.blocks with
  | [] => b
  | (c, blk) :: _ =>
    if k.busy || !b.inService (coreUnit u) || (b.chan ch).run.isSome || !b.mode.mode.copies then b else
    let x := sidesOf blk
    let b := b.modCore u fun k => { k with busy := true }
    let b := b.modChan ch fun y => { y with
      src := BitVec.ofNat 64 x.src, dst := BitVec.ofNat 64 x.dst, count := BitVec.ofNat 32 x.count
      srcSg := x.srcSg, dstSg := x.dstSg, swap := x.swap, irqEn := false, part := (b.cx u c).part }
    b.startChan ch x.srcSel x.dstSel

/-- CHANNEL_BLOCK_START. -/
def execChannelBlockStart (core : Nat) (s : State) : Host.Outcome State Fault Refusal := s.run fun b => b.blockStart (core - 188)

end Sys2Proof.Machine
end

