-- ==== Sys2Proof/Machine/PartReset.lean ====
section
/-! DEFINITION. Partition reset (13 R306 to R308) and the abort completions that find no room (R307). -/

namespace Sys2Proof.Machine

open Sys2Proof

/-- The entry that a job works for. -/
def Block.entryOf (b : Block) (j : Job) : Option Entry :=
  match j with
  | .entry k i => b.entry? k i
  | .call u c => (b.cx u (ctxIx c)).fn.bind fun f => b.entry? f.1 f.2

/-- A unit that wipes after work it lost to a reset ends the wipe with a verifying read (08 R188). -/
def MathUnit.verifying (p : Nat) (hit : MathUnit → Bool) (x : MathUnit) : MathUnit :=
  if hit x then { x with verify := true, cutFor := some p } else x

/-- OX and lattice units that run or retry work of partition p will verify their wipe (08 R188, 09 R210). -/
def Block.markVerify (b : Block) (p : Nat) : Block :=
  let hit := fun (x : MathUnit) => match x.job.bind b.entryOf with | some e => e.part == p | none => false
  let os := b.ox.units.map fun x => (x.1, x.2.verifying p hit)
  let ts := b.lat.units.map fun x => (x.1, x.2.verifying p hit)
  { b with ox := { b.ox with units := os }, lat := { b.lat with units := ts } }

/-- The contexts of partition p are zeroed. -/
def Block.zeroContexts (b : Block) (p : Nat) : Block :=
  let c := b.cfg p
  { b with ctxs := b.ctxs.filter fun x => !(decide (c.ctxFirst ≤ x.1) && decide (x.1 < c.ctxFirst + c.ctxCount)) }

/-- A held completion of ring k is given up: its entry ends with it. -/
def Block.dropHeld (b : Block) (k : Nat) : Block :=
  let held := (b.ring k).held
  let b := b.modRing k fun r => { r with held := [] }
  held.foldl (fun b c => if c.overrun then b else b.dropEntry k c.sub) b

/-- Step 1 of R306 for ring k: nothing submitted stays, no chain is open and no poll; a completion that a failed write holds is
discarded (04 R91). A burst whose reads are outstanding is fetched, and a failed read of it is still repeated. -/
def Block.resetRing (b : Block) (k : Nat) : Block :=
  let lost := (b.ring k).failedW
  let b := if lost.isEmpty then b else b.dropHeld k
  let b := b.disown (· == .poll k)
  let b := ((b.markStall k).modRing k RingRec.discardPush).withdraw k
  b.modRing k fun r =>
    let burst := match r.burst with | some u => if u.poll then none else some u | none => none
    { r with
      chain := none, kept := [], pollDue := false, failedW := [], burst := burst
      failedF := if burst.isSome then r.failedF else none
      sig := r.sig.filter fun s => !lost.any fun x => x.purpose == .completion k s.q }

/-- The raw channels that a reset of partition p stops (06 R136): those of partition 0, and firmware channels that serve p. -/
def Block.channelsOf (b : Block) (p : Nat) : List Nat :=
  (List.range 64).filter fun k => if k < 48 then p == 0 else (b.chan k).run.isSome && (b.chan k).part == p

/-- A partition reset begins (R306, steps 1 to 4): what is submitted is withdrawn, what is fetched and not scattered is
cut off, contexts are zeroed, the lock is released, channels stop, and the completions follow R307. -/
def Block.beginPartReset (b : Block) (p : Nat) : Block :=
  let b := b.modPart p fun q => { q with resetting := some b.now }
  let b := (b.liveRings p).foldl Block.resetRing b
  let b := (b.markVerify p).cutAll (fun e => e.part == p) St.aborted 3
  let b := (b.zeroContexts p).freeLock p
  (b.channelsOf p).foldl Block.disableChan b

/-- A write of RESET to PART_RESET: ignored, with REFUSED set, while a reset is in progress (R308); for a paired partition
the twin acknowledges it first (14 R321), and a block that does not execute the partition ignores it. A partition that is not
enabled owns nothing that a reset could act on (R289). -/
def Block.writePartReset (b : Block) (p : Nat) : Block :=
  if !b.enabled p then b
  else if (b.part p).resetting.isSome ∨ b.mode.warm.isSome then b.modPart p fun q => { q with resetRefused := true }
  else match b.route p with
    | .apply => b.beginPartReset p
    | .forward => b.forward (.partReset p)
    | .ignore => b

/-- PART_RESET. -/
def execPartReset (part tag : Nat) (s : State) : Host.Outcome State Fault Refusal :=
  s.run fun b => b.accessUnless (b.forwarding (StateItem.resets part)) fun b => b.partWrite part tag 0 fun b => b.writePartReset part

/-- Step 6 of R306 for ring k: DISABLED, its fault over. -/
def Block.disableRing (b : Block) (k : Nat) : Block := b.modRing k RingRec.disabled

/-- A request that belongs to work of partition p, whose response a reset of p awaits (02 R42): not its lease's, and not one of a
raw channel that the reset leaves alone. -/
def Block.ofReset (b : Block) (p : Nat) (r : Request) : Bool :=
  r.part == p && r.purpose.isWork && match r.purpose with
    | .chanSrcList k | .chanDstList k | .chanRead k _ | .chanWrite k _ | .chanReadback k =>
      match (b.chan k).run with | some x => x.stopped | none => false
    | _ => true

/-- Units that still wipe after work which a reset of partition p cut off: the reset does not complete before them (08 R188, 09
R210). -/
def Block.resetWipes (b : Block) (p : Nat) : Bool :=
  (b.ox.units ++ b.lat.units).any fun x => x.2.verify && x.2.wiping && x.2.cutFor == some p

/-- PARTITION_RESET_END: every response of the partition's work has come or timed out (02 R42), every wipe has ended, and every
completion is written or dropped; the rings become DISABLED, the halt ends and RESETS counts. -/
def Block.endPartReset (b : Block) (p : Nat) : Block :=
  let busy := b.entries.any (fun e => e.part == p) || b.mport.outst.any (b.ofReset p) || b.resetWipes p ||
    (b.liveRings p).any fun k =>
      (b.ring k).burst.isSome || !(b.ring k).held.isEmpty || !(b.ring k).failedW.isEmpty || !(b.ring k).sig.isEmpty
  if (b.part p).resetting.isNone || busy then b else
  let b := (b.liveRings p).foldl Block.disableRing b
  b.modPart p fun q => { q with resetting := none, halted := false, haltRing := 0, resets := satAdd 16 q.resets 1 }

/-- PARTITION_RESET_END. -/
def execPartitionResetEnd (part : Nat) (s : State) : Host.Outcome State Fault Refusal := s.run fun b => b.endPartReset part

/-- Whether a warm block reset is past its handover. -/
def ModeCtl.cutting (m : ModeCtl) : Option Nat := m.warm.bind fun w => if w.1 then none else some w.2

/-- When the reset that concerns partition p began. -/
def Block.resetSince (b : Block) (p : Nat) : Option Nat :=
  match b.mode.cutting with
  | some t => some t
  | none => (b.part p).resetting

/-- ABORT_COMPLETION_DROP (R307): 1,000 ticks into a reset the completions of a ring that still find no room are discarded,
counted and noted. -/
def Block.dropAborts (b : Block) (k : Nat) : Block :=
  let p := b.ownerD k
  match b.resetSince p with
  | some t =>
    let n := (b.ring k).held.length
    if t + 1000 ≤ b.now ∧ 0 < n then
      let lost := (b.ring k).failedW
      let b := (b.dropHeld k).modRing k fun r => { r with
        failedW := [], sig := r.sig.filter fun s => !lost.any fun x => x.purpose == .completion k s.q }
      (b.modPart p fun q => { q with abortDropped := satAdd 16 q.abortDropped n }).note 0x0023 1 p n
    else b
  | none => b

/-- ABORT_COMPLETION_DROP. -/
def execAbortCompletionDrop (ring : Nat) (s : State) : Host.Outcome State Fault Refusal := s.run fun b => b.dropAborts ring

/-! ## Steps 2 and 3 of a warm block reset (R305) -/

/-- Fetching stops on every ring; partitions still home here are released to the twin; every other fetched entry is treated
under R307 with detail 0x05; every raw channel stops. -/
def Block.cutForWarm (b : Block) : Block :=
  let b : Block := { b with mode := { b.mode with warm := some (false, b.now) } }
  let b := b.releaseAll b.pairedParts 4
  let b := (b.rings.map (·.1)).foldl (fun b k => if b.paired (b.ownerD k) then b else b.resetRing k) b
  let b := b.cutAll (fun e => !b.paired e.part) St.aborted 5
  (List.range 64).foldl Block.disableChan b

/-- The handover of a warm reset has ended once no paired partition executes here; the reset then proceeds. -/
def Block.settleWarm (b : Block) : Block :=
  match b.mode.warm with
  | some (true, _) => if b.pairedParts.any b.executes then b else b.cutForWarm
  | _ => b

end Sys2Proof.Machine
end

