-- ==== Sys2Proof/Machine/Power.lean ====
section
/-! DEFINITION. The DVFS and thermal governors (01 R23, R24, 18 R385, R386, R389, R391, R394). Frequencies are in
100 MHz, temperatures in 0.1 °C, voltages in 0.1 mV. -/

namespace Sys2Proof.Machine

open Sys2Proof

/-- The thermal region of a domain (log entry 48: the spec gives no assignment). -/
def regionOf (d : Nat) : Nat := Config.regionOf d % 8

/-- The frequency ceiling of a domain. -/
def Power.ceilingOf (w : Power) (d : Nat) : Nat := nth 16 w.ceiling (regionOf d)

/-- Every frequency changed by its domain, the time base's excepted. -/
def Power.mapFreq (w : Power) (f : Nat → Nat → Nat) : Power :=
  { w with freq := w.freq.zipIdx.map fun x => if x.2 < 139 then f x.2 x.1 else x.1 }

/-- The code for the highest voltage needed: 15 mV of guard, rounded up to a whole code of 2.5 mV from 650 mV, within 0
to 80 (R385, R386). -/
def codeFor (need : Nat) : Nat := min 80 (ceilDiv (need + 150 - 6500) 25)

/-- A domain is gated: the last reading gates it while no unit of it works (01 R16). -/
def Block.gatedNow (b : Block) (d : Nat) : Bool := b.power.gated.contains d && !b.busyDomains.contains d

/-- The frequency that a reading sets for a domain: what its load asks for, within 400 MHz and its ceiling (01 R23, R24). -/
def Power.goalOf (w : Power) (d : Nat) : Nat := max 4 (min (w.ceilingOf d) (Config.wantedFreq d (nth 0 w.load d)))

/-- The code that a reading asks for: the highest need over the domains that are not gated; with every domain gated, code
0. -/
def Power.wanted (w : Power) (needs : List Nat) : Nat :=
  codeFor ((needs.zipIdx.map fun x => if w.gated.contains x.2 then 0 else x.1).foldl max 0)

/-- VCORE_REQ takes a code; a change is counted. -/
def Block.setCode (b : Block) (c : Nat) : Block :=
  if c = b.power.code then b else
  { b.put (.vcoreReq c) with power := { b.power with
      code := c, codeMin := min b.power.codeMin c, codeMax := max b.power.codeMax c
      codeChanges := satAdd 16 b.power.codeChanges 1, changedAt := some b.now
      raisedAt := if b.power.code < c then some b.now else b.power.raisedAt } }

/-- The next step of the code towards the one wanted: at most 8 codes, no sooner than 20 µs after the last change
(R386). -/
def Block.stepCode (b : Block) : Block :=
  let free := match b.power.changedAt with | some t => decide (t + 20 ≤ b.now) | none => true
  if !free then b
  else if b.power.code < b.power.want then b.setCode (min b.power.want (b.power.code + 8))
  else b.setCode (max b.power.want (b.power.code - 8))

/-- Whether the governors run: after CAL_DONE, PORST_N high. -/
def Block.governed (b : Block) : Bool := b.mode.calDone && !b.mode.porstLow

/-- DVFS_READING (R386): each domain's load sets its frequency, and whether it is gated while it idles; frequencies fall at
once, the others wait for their step; the code wanted follows the needs of the domains that are not gated (log entry 48). -/
def Block.dvfsReading (b : Block) (needs : List Nat) : Block :=
  if !b.governed || !b.governorFree 3 || decide (b.now < b.power.readingAt + 1000) then b else
  let w := b.power
  let goal := (List.range 140).map w.goalOf
  let busy := b.busyDomains
  let gated := (List.range 94).filter fun d => !busy.contains d && Config.gatesIdle d (nth 0 w.load d)
  let w := ({ w with readingAt := b.now, goal, gated, load := List.replicate 140 0 } : Power).mapFreq fun d f => min f (nth f goal d)
  let raising := (List.range 139).filter fun d => decide (nth 0 w.freq d < nth 0 goal d) && !w.stopped.contains d
  (Block.stepCode { b with power := { w with want := w.wanted needs, raising } }).governs 3

/-- DVFS_READING. -/
def execDvfsReading (needs : List Nat) (s : State) : Host.Outcome State Fault Refusal := s.run fun b => b.dvfsReading needs

/-- VCORE_CODE_STEP_DUE (R386): an unmet request takes its next step. -/
def Block.codeStepDue (b : Block) : Block := if b.governed then b.stepCode else b

/-- VCORE_CODE_STEP_DUE. -/
def execVcoreCodeStepDue (s : State) : Host.Outcome State Fault Refusal := s.run Block.codeStepDue

/-- FREQUENCY_RAISE (R386): once the request it waits on is met and has been held for 20 µs, a domain rises to the frequency
set for it, within its ceiling (R26); a domain stopped for its PLL waits for lock (R394). -/
def Block.frequencyRaise (b : Block) (d : Nat) : Block :=
  let w := b.power
  let held := match w.raisedAt with | some t => decide (t + 20 ≤ b.now) | none => true
  if !b.governed || !w.raising.contains d || w.stopped.contains d || decide (w.code < w.want) || !held then b
  else { b with power := { w.mapFreq (fun i f => if i = d then max f (min (nth 0 w.goal d) (w.ceilingOf d)) else f) with
      raising := w.raising.filter (· != d) } }

/-- FREQUENCY_RAISE. -/
def execFrequencyRaise (domain : Nat) (s : State) : Host.Outcome State Fault Refusal :=
  s.run fun b => b.frequencyRaise domain

/-- The four sensors of region r. -/
def regionSensors (tj : List Int) (r : Nat) : List Int := (tj.drop (4 * r)).take 4

/-- The ceiling of a region after one governor step (R24): 100 MHz lower while a sensor reads 115 °C or more, down to
400 MHz; 100 MHz higher once every sensor reads below 112 °C, up to 1.6 GHz; a clamped region is not raised (R394). -/
def stepCeiling (sensors : List Int) (clamped : Bool) (c : Nat) : Nat :=
  if sensors.any fun t => decide (1150 ≤ t) then max 4 (c - 1)
  else if (sensors.all fun t => decide (t < 1120)) && !clamped then min 16 (c + 1)
  else c

/-- THERMAL_STEP (R24). -/
def Block.thermalStep (b : Block) (sensors : List Int) : Block :=
  if b.mode.porstLow || !b.governorFree 2 || decide (b.now < b.power.thermalAt + 1000) then b else
  let w := { b.power with
    thermalAt := b.now, tj := sensors
    ceiling := (List.range 8).map fun r => stepCeiling (regionSensors sensors r) (nth false b.power.clamped r) (nth 16 b.power.ceiling r) }
  Block.governs { b with power := w.mapFreq fun d f => min f (w.ceilingOf d) } 2

/-- THERMAL_STEP. -/
def execThermalStep (sensors : List Int) (s : State) : Host.Outcome State Fault Refusal := s.run fun b => b.thermalStep sensors

/-- THERMAL_CLAMP (R389, R394): the region's domains go to 400 MHz and no longer wait on a raised request. -/
def Block.thermalClamp (b : Block) (sensor : Nat) (temp : Int) : Block :=
  let r := sensor / 4
  if b.mode.porstLow || decide (temp < 1250) then b else
  let w := { b.power with tj := b.power.tj.set sensor temp }
  if nth false w.clamped r then { b with power := w } else
  let w := { w with
    clamped := w.clamped.set r true, clamps := satAdd 16 w.clamps 1, ceiling := w.ceiling.set r 4
    raising := w.raising.filter fun d => regionOf d != r }
  { b with power := w.mapFreq fun d f => if regionOf d = r then min f 4 else f }

/-- THERMAL_CLAMP. -/
def execThermalClamp (sensor : Nat) (temp : Int) (s : State) : Host.Outcome State Fault Refusal :=
  s.run fun b => b.thermalClamp sensor temp

/-- THERMAL_CLAMP_LIFT (R389): every sensor of the region reads below 120 °C. -/
def Block.thermalClampLift (b : Block) (region : Nat) (sensors : List Int) : Block :=
  if b.mode.porstLow || sensors.any fun t => decide (1200 ≤ t) then b else
  { b with power := { b.power with
      clamped := b.power.clamped.set region false
      tj := b.power.tj.take (4 * region) ++ sensors ++ b.power.tj.drop (4 * region + 4) } }

/-- THERMAL_CLAMP_LIFT. -/
def execThermalClampLift (region : Nat) (sensors : List Int) (s : State) : Host.Outcome State Fault Refusal :=
  s.run fun b => b.thermalClampLift region sensors

/-- PLL_UNLOCK (R391): the domains stop; the flag sets. No PLL feeds the time base, domain 139, which runs from TREFCLK (02 R46). -/
def Block.pllUnlock (b : Block) (domains : List Nat) : Block :=
  if b.mode.porstLow then b else
  { b with power := { b.power with
      pllUnlock := true, stopped := b.power.stopped ++ domains.filter fun d => d != 139 && !b.power.stopped.contains d } }

/-- PLL_UNLOCK. -/
def execPllUnlock (domains : List Nat) (s : State) : Host.Outcome State Fault Refusal := s.run fun b => b.pllUnlock domains

/-- PLL_LOCK (R391): the domains resume. -/
def Block.pllLock (b : Block) (domains : List Nat) : Block :=
  { b with power := { b.power with stopped := b.power.stopped.filter fun d => !domains.contains d } }

/-- PLL_LOCK. -/
def execPllLock (domains : List Nat) (s : State) : Host.Outcome State Fault Refusal := s.run fun b => b.pllLock domains

end Sys2Proof.Machine
end

