-- ==== Sys2Proof/Machine/Boot.lean ====
section
/-! DEFINITION. Cold and warm reset (02 R47, 13 R304, R305), boot (03 R61, R62), image loads (R53 to R55) and the mode
changes of R59. -/

namespace Sys2Proof.Machine

open Sys2Proof

/-! ## Resets (R47, R304, R305) -/

/-- The compute die at its reset values, its OX and lattice units being wiped (08 R188). The sentinel die, the flash and the interval clock go on; a warm reset keeps
AV_IMG_ADDR and its load count, the schedule tick with SYNCED (01 R22), EARLY_WRITES, ABORT_DROPPED and RESETS, and counts itself. -/
def Block.computeReset (f : Fuses) (b : Block) (warm : Bool) : Block :=
  let mode : ModeCtl := { mode := if f.factoryOpen then .factory else .configure, releasedAt := b.now, wiping := true }
  let keptParts : Table PartRec := indexedParts b.parts
  let fresh : Block := {
    time := { interval := b.time.interval, sched := if warm then b.time.sched else 0, synced := warm && b.time.synced }
    mport := { nextId := b.mport.nextId }
    mode := if warm then { mode with warmCount := satAdd 16 b.mode.warmCount 1, handoverFailed := b.mode.handoverFailed } else mode
    img := if warm then { addr := b.img.addr, loads := b.img.loads } else {}
    health := { units := (b.health.units.map fun x => (x.1, kept x.2)).filter fun x => x.2 ≠ {} }
    earlyWrites := if warm then b.earlyWrites else []
    parts := if warm then keptParts else []
    twin := { record := b.twin.record, leaseBase := b.twin.leaseBase, recordSide := b.twin.recordSide }
    gander := { b.gander with nonce := none, ceremony := none }
    recorder := b.recorder
    free := b.free
    bus := b.bus }
  if b.power.code = fresh.power.code then fresh else fresh.put (.vcoreReq fresh.power.code)
where
  /-- Of a unit the repair map and its quarantines within 24 operating hours (03 R65; log entry 82). -/
  kept (r : UnitRec) : UnitRec := { st := if r.st = .retired then .retired else .spare, quarantines := r.quarantines }
  /-- ABORT_DROPPED and RESETS of each partition. -/
  indexedParts (t : Table PartRec) : Table PartRec :=
    (t.map fun x => (x.1, ({ abortDropped := x.2.abortDropped, resets := x.2.resets } : PartRec))).filter fun x => x.2 ≠ {}

/-- PORST_ASSERT: the compute die is reset; the block issues nothing and ignores every response. -/
def Block.assertPorst (f : Fuses) (b : Block) : Block :=
  if b.mode.porstLow then b else
  let b := Block.computeReset f b false
  { b with mode := { b.mode with porstLow := true }
           recorder := { b.recorder with minuteAt := b.now - b.recorder.minuteAt } }

/-- PORST_ASSERT. -/
def execPorstAssert (s : State) : Host.Outcome State Fault Refusal := s.runF Block.assertPorst

/-- RESET_RELEASE: the operand-memory wipe has ended, and boot begins; the release counts as a power cycle (17 R368). -/
def Block.releaseReset (f : Fuses) (b : Block) : Block :=
  if !b.mode.porstLow then b else
  let b : Block := { b with
    mode := { mode := if f.factoryOpen then .factory else .configure, releasedAt := b.now }
    recorder := { b.recorder with minuteAt := b.now - b.recorder.minuteAt } }
  (b.modRec fun c => { c with powerCycles := satAdd 32 c.powerCycles 1 }).storeCheck

/-- RESET_RELEASE. -/
def execResetRelease (s : State) : Host.Outcome State Fault Refusal := s.runF Block.releaseReset

/-- WARM: steps 2 and 3 begin; ignored while a warm reset is in progress. -/
def execWarm (tag : Nat) (s : State) : Host.Outcome State Fault Refusal :=
  s.run fun b => b.globalWrite tag 0x1010 fun b => if b.mode.warm.isSome then b else b.cutForWarm

/-- HANDOVER: the partitions that are home here go to the twin first. -/
def Block.warmHandover (b : Block) : Block :=
  if b.mode.warm.isSome then b else
  (Block.examineHandovers { b with mode := { b.mode with warm := some (true, b.now) } }).settleWarm

/-- HANDOVER. -/
def execHandover (tag : Nat) (s : State) : Host.Outcome State Fault Refusal :=
  s.run fun b => b.globalWrite tag 0x1010 fun b => b.warmHandover

/-- WARM_HANDOVER_TIMEOUT: 2,000 ticks. -/
def execWarmHandoverTimeout (s : State) : Host.Outcome State Fault Refusal :=
  s.run fun b => match b.mode.warm with
    | some (true, t) =>
      if t + 2000 ≤ b.now then Block.cutForWarm { b with mode := { b.mode with handoverFailed := true } } else b
    | _ => b

/-- A load of the image begins: it waits for HEN (R61). -/
def Block.startLoad (b : Block) : Block :=
  { b with img := { b.img with st := 1, reason := 0, faultOff := 0, loads := satAdd 16 b.img.loads 1 } }

/-- WARM_RESET_DRAIN_END: every completion written or given up and every response in or timed out (02 R42), the compute die is
reset, and the image reloads itself from the address kept. -/
def Block.warmDrained (f : Fuses) (b : Block) : Block :=
  let busy := !b.entries.isEmpty || !b.mport.outst.isEmpty || b.rings.any fun x =>
    x.2.burst.isSome || !x.2.held.isEmpty || !x.2.failedW.isEmpty || !x.2.sig.isEmpty
  if b.mode.cutting.isNone || busy then b else
  let b := Block.computeReset f b true
  if b.mode.mode = .configure ∧ b.img.addr ≠ 0 then b.startLoad else b

/-- WARM_RESET_DRAIN_END. -/
def execWarmResetDrainEnd (s : State) : Host.Outcome State Fault Refusal := s.runF Block.warmDrained

/-! ## Boot steps 1 to 3 (R61, R62) -/

/-- The units of a type after BIST: retired units stay out, as do those that the reset's wipe quarantined; failed ones are quarantined and go to their retest, and of the rest as
many as are advertised enter service, the others being spares; a DRAKE core's logical position is its rank (12 R275). A failed
unit that no spare makes good lowers the count, which the recorder notes (00 R4). -/
def Block.sortUnits (failed : List Nat) (b : Block) (t : UnitType) : Block :=
  let out := t.units.filter fun u => (b.unit u).st == .retired
  let held := t.units.filter fun u => (b.unit u).st == .quarantined
  let bad := t.units.filter fun u => failed.contains u && !out.contains u && !held.contains u
  let good := t.units.filter fun u => !failed.contains u && !out.contains u && !held.contains u
  let b := bad.foldl (fun b u => b.countQuarantine u 65) b
  let bad := held ++ bad
  let b := ((good.take t.inServiceCount).zipIdx).foldl (fun b x => b.modUnit x.1 fun r => { r with st := .inService, pos := x.2 }) b
  let b := (good.drop t.inServiceCount).foldl (fun b u => b.modUnit u fun r => { r with st := .spare }) b
  (bad.drop (bad.length - (t.inServiceCount - good.length))).foldl (fun b u => b.note 0x0030 0 u 3) b

/-- The unit types in the order of AV_AVAIL. -/
def unitTypes : List UnitType := [laneType, oxType, latType, drakeType, bankType]

/-- The two highest lanes in service are the key lane pair (log entry 28). -/
def Block.pickKeyLanes (b : Block) : Block :=
  let ls := laneType.units.filter b.inService
  (ls.drop (ls.length - 2)).foldl (fun b l => b.modLane l fun x => { x with role := .keyLoading }) b

/-- BIST_DONE: the availability registers are set; a type without a working unit ends the boot here, recorded at severity 3. -/
def Block.bistEnd (b : Block) (failed : List Nat) : Block :=
  if b.mode.porstLow || b.mode.bistDone || b.mode.bootStep != 1 then b else
  let b := (unitTypes.foldl (Block.sortUnits failed) b).pickKeyLanes
  let b : Block := { b with mode := { b.mode with bistDone := true, wiping := false } }
  let dead := unitTypes.zipIdx.filter fun x => b.countUnits x.1 .inService == 0
  if dead.isEmpty then
    { b with mode := { b.mode with bootStep := 2 }, hen := { b.hen with phase := .warmup, phaseAt := b.now } }
  else dead.foldl (fun b x => Block.note b 0x0034 3 x.2 x.1.inServiceCount) b

/-- BIST_DONE. -/
def execBistDone (failed : List Nat) (s : State) : Host.Outcome State Fault Refusal := s.run fun b => b.bistEnd failed

/-! ## Image load (R53 to R56) -/

/-- Whether a load is in progress. -/
def ImageCtl.loading (i : ImageCtl) : Bool := decide (1 ≤ i.st) && decide (i.st ≤ 4)

/-- A write of START: accepted in CONFIGURE, no load being in progress and ADDR not zero (R57). A halted block refuses it, since
only a reset ends its halt (R56, R62); the register's own conditions do not name the halt (DESIGN CHOICE, log entry 105). -/
def Block.startImage (b : Block) : Block :=
  if b.mode.mode = .configure ∧ !b.mode.halted ∧ !b.img.loading ∧ b.img.addr ≠ 0 then b.startLoad
  else { b with img := { b.img with startRefused := true } }

/-- IMAGE_LOAD_START. -/
def execImageLoadStart (tag : Nat) (s : State) : Host.Outcome State Fault Refusal :=
  s.run fun b => b.globalWrite tag 0x10008 fun b => b.startImage

/-- IMAGE_FETCH_START: HEN is seeded, and the fetch begins with the header. Its reads carry partition 0 and ring pair index 0xFFFF,
which R38 names for other traffic without a ring (DESIGN CHOICE, log entry 106). -/
def Block.fetchImage (b : Block) : Block :=
  if b.img.st ≠ 1 ∨ !b.mode.henSeeded then b else
  let b := b.issueRead b.pickPort 0 0xFFFF (b.img.addr.toNat * 64) 256 .image
  { b with img := { b.img with st := 2 }, mode := { b.mode with bootStep := 4 } }

/-- IMAGE_FETCH_START. -/
def execImageFetchStart (s : State) : Host.Outcome State Fault Refusal := s.run Block.fetchImage

/-- A load ends with a failed check: rejected, or malformed, which halts the block. -/
def Block.failLoad (b : Block) (reason off : Nat) : Block :=
  let shown := if isMalformed reason then off else 0
  let b : Block := { b with img := { b.img with
    st := if isMalformed reason then 7 else 6, reason := reason, faultOff := shown, staged := none } }
  if isMalformed reason then b.haltBlock 1 reason else { b with mode := { b.mode with bootStep := 3 } }

/-- The reads that follow the header's: the rest of the image, in address order (R53; log entry 107). -/
def Block.readImage (b : Block) (len : Nat) : Block :=
  (pieces (b.img.addr.toNat * 64 + 256) (len - 256)).foldl (fun b x => b.put (.read b.pickPort 0 0xFFFF false x.1 x.2)) b

/-- The image's bytes have come, or a read of it failed: the checks of R54 in their order; one that passes is staged, and
its rollback advance begins (R55). -/
def Block.imageFetched (f : Fuses) (b : Block) (readOk : Bool) (image : Bytes) : Block :=
  if b.img.st ≠ 2 then b else
  let b := (b.readImage image.length).arrived .image
  if !readOk then b.failLoad 1 0 else
  match checkImage f image with
  | .error (reason, off) => b.failLoad reason off
  | .ok () =>
    let i := imageOf image
    let more := if i.advance ∧ f.rollback < i.rollback then some (i.rollback, b.now + 100) else none
    { b with img := { b.img with st := 4, staged := some i, advanceTo := more }, mode := { b.mode with bootStep := 5 } }

/-- IMAGE_CHECKS. -/
def execImageChecks (readOk : Bool) (image : Bytes) (s : State) : Host.Outcome State Fault Refusal :=
  s.runF fun f b => Block.imageFetched f b readOk image

/-- FUSE_ADVANCE_STEP: 100 µs after the last step one more fuse is blown, until the counter reads r. -/
def execFuseAdvanceStep (s : State) : Host.Outcome State Fault Refusal :=
  match s.blk.img.advanceTo with
  | some (r, t) =>
    if t ≤ s.blk.now ∧ s.fuses.rollback < r then
      let c := s.fuses.rollback + 1
      let more := if c < r then some (r, s.blk.now + 100) else none
      .next { s with fuses := { s.fuses with rollback := c }, blk := { s.blk with img := { s.blk.img with advanceTo := more } } }
    else .next s
  | none => .next s

/-! ## The end of boot (R58, R59, R61) -/

/-- INITIAL_LANES reduced to the lanes available (07 R145). -/
def reduceInitial : Nat → Nat → List (Nat × Nat) → List (Nat × Nat)
  | 0, _, l => l
  | fuel + 1, avail, l =>
    if sumBy (·.1) l ≤ avail then l
    else match argMax (fun i => ((nth (0, 0) l i).1 : Int) - (nth (0, 0) l i).2) (List.range l.length) with
      | some i => reduceInitial fuel avail (modNth (fun x => (x.1 - 1, x.2)) i l)
      | none => l

/-- The personality of each data lane in turn. -/
def laneOrder (counts : List Nat) : List Nat := (counts.zipIdx).flatMap fun x => List.replicate x.1 x.2

/-- The personalities and the key-management configuration are loaded, and each lane asks for its first seed (07 R139, R142,
R156). -/
def Block.loadLanes (b : Block) : Block :=
  let cfg := b.img.inForce.pers
  let b := Block.adjustMins { b with lanes := { b.lanes with pers := cfg.map fun c => { minNow := c.minLanes } } }
  let counts := (reduceInitial 100 b.dataLanes.length (List.zipWith (fun c s => (c.initial, s.minNow)) cfg b.lanes.pers)).map (·.1)
  let b := (List.zip b.dataLanes (laneOrder counts)).foldl (fun b x =>
    b.modLane x.1 fun r => { r with role := .data x.2, idleSince := b.now }) b
  let b := b.keyLanes.foldl (fun b l => b.modLane l fun r => { r with role := .key, idleSince := b.now }) b
  let b := (b.dataLanes ++ b.keyLanes).foldl Block.seedLane b
  { b with lanes := { b.lanes with evalAt := b.now } }

/-- The firmware is loaded, and each core in service starts (12 R287). -/
def Block.loadFirmware (b : Block) : Block :=
  let b : Block := { b with pay := { b.pay with prog := indexed 0 b.img.inForce.program } }
  ((List.range 18).filter fun u => b.inService (188 + u)).foldl Block.startCore b

/-- The mode that follows CONFIGURE (R59), and LOCK_CAUSE (16 R357). -/
def Block.leaveConfigure (b : Block) : Block :=
  let g := b.gander
  let latched := g.lockLatch || g.eraseLatch
  let mode := if latched then Mode.locked else if g.masterKey.isSome then .operational else .zeroized
  let cause := if g.eraseLatch then 2 else if b.recorder.copy.reserveLock then 3 else 1
  { b with mode := { b.mode with
      mode := mode, lockCause := if latched then cause else b.mode.lockCause, ready := true, bootStep := 0, imgLoaded := true } }

/-- Every paired partition stands by and watches its lease (14 R311). -/
def Block.beginTwin (b : Block) : Block :=
  let b : Block := { b with twin := { b.twin with side := if b.twin.record then b.twin.recordSide else b.twin.side, helloDue := b.now } }
  b.pairedParts.foldl (fun b p => Block.startWatch (b.modTw p fun _ => { role := .standby }) p) b

/-- END_OF_BOOT: the staged image is in force, its sentinel configuration replaces the one before (16 R354), lanes and cores
are loaded, the first service frame and evaluation period begin, and the mode leaves CONFIGURE with READY set. -/
def Block.bootEnd (f : Fuses) (b : Block) : Block :=
  match b.img.staged with
  | some i =>
    if b.img.st ≠ 4 ∨ b.img.advanceTo.isSome ∨ b.mode.mode ≠ .configure then b else
    let b : Block := { b with
      img := { b.img with st := 5, staged := none, inForce := i, imageId := i.imageId }
      gander := { b.gander with cfg := sentinelCfg f i.sentinel }
      power := { b.power with freq := (List.range 140).map fun d => min 10 (b.power.ceilingOf d) } }
    (((b.fitStaging.loadLanes).loadFirmware).leaveConfigure).beginFrame.beginTwin
  | none => b

/-- END_OF_BOOT. -/
def execEndOfBoot (s : State) : Host.Outcome State Fault Refusal := s.runF Block.bootEnd

/-- CAL_DONE: every domain runs at its ceiling (log entry 48). -/
def execCalDone (s : State) : Host.Outcome State Fault Refusal :=
  s.run fun b =>
    if b.mode.ready && !b.mode.calDone then
      { b with mode := { b.mode with calDone := true }, power := b.power.mapFreq fun d _ => b.power.ceilingOf d }
    else b

/-! ## Mode requests (R59) -/

/-- A REQUEST: a transition of the table waits for its drain; any other is refused; 0 requests nothing. A refused one leaves a
pending change pending (DESIGN CHOICE, log entry 108). -/
def Block.requestMode (b : Block) (r : Nat) : Block :=
  match b.mode.mode, r with
  | _, 0 => b
  | .operational, 4 => { b with mode := { b.mode with transition := some .maintenance } }
  | .maintenance, 3 => { b with mode := { b.mode with transition := some .operational } }
  | _, _ => { b with mode := { b.mode with reqRefused := true } }

/-- REQUEST_OPERATIONAL. -/
def execRequestOperational (tag : Nat) (s : State) : Host.Outcome State Fault Refusal :=
  s.run fun b => b.globalWrite tag 0x1000 fun b => b.requestMode 3

/-- REQUEST_MAINTENANCE. -/
def execRequestMaintenance (tag : Nat) (s : State) : Host.Outcome State Fault Refusal :=
  s.run fun b => b.globalWrite tag 0x1000 fun b => b.requestMode 4

/-- MODE_REQUEST_REFUSED. -/
def execModeRequestRefused (tag request : Nat) (s : State) : Host.Outcome State Fault Refusal :=
  s.run fun b => b.globalWrite tag 0x1000 fun b => b.requestMode request

/-- The mode changes as requested. -/
def Block.takeMode (b : Block) (m : Mode) : Block := { b with mode := { b.mode with mode := m, transition := none } }

/-- MAINTENANCE_DRAIN_END: every fetched descriptor of partitions 1 to 4,095 has completed. -/
def execMaintenanceDrainEnd (s : State) : Host.Outcome State Fault Refusal :=
  s.run fun b =>
    let busy := b.entries.any (fun e => e.part != 0) ||
      b.rings.any fun x => b.owner x.1 != some 0 && (match x.2.burst with | some u => !u.poll | none => false)
    if b.mode.mode = .operational ∧ b.mode.transition = some .maintenance ∧ !busy then b.takeMode .maintenance else b

/-- An attach, detach, enrolment or ceremony is in progress. -/
def Block.administering (b : Block) : Bool :=
  b.twin.attach.isSome || b.twin.detaching || b.gander.ceremony.isSome ||
    b.entries.any fun e => e.d.family == Fam.key && (e.d.op == 0x20 || e.d.op == 0x21 || e.d.op == 0x32 || e.d.op == 0x33)

/-- OPERATIONAL_RETURN. -/
def execOperationalReturn (s : State) : Host.Outcome State Fault Refusal :=
  s.run fun b =>
    if b.mode.mode = .maintenance ∧ b.mode.transition = some .operational ∧ !b.administering then b.takeMode .operational else b

end Sys2Proof.Machine
end

