-- ==== Sys2Proof/Machine/Irq.lean ====
section
/-! DEFINITION. Interrupt vectors (02 R43, 13 R299 to R303): the vector table, the moderation table, time thresholds, and
the sleep of a partition. -/

namespace Sys2Proof.Machine

open Sys2Proof

/-- The 32-bit word at byte offset w that a write of size bytes at an offset covers, if it does. -/
def coveredWord (offset size : Nat) (data : BitVec 64) (w : Nat) : Option Nat :=
  if offset ≤ w ∧ w + 4 ≤ offset + size then some ((data.toNat >>> (8 * (w - offset))) % 2 ^ 32) else none

/-- A moderation table entry is written (R300, R301). -/
def Block.modTable (b : Block) (v offset size : Nat) (data : BitVec 64) : Block :=
  let word := coveredWord offset size data
  let b := b.modVec v fun x => { x with
    countThresh := match word 0 with | some w => w % 2 ^ 16 | none => x.countThresh
    timeThresh := match word 4 with | some w => w | none => x.timeThresh
    wake := match word 12 with | some w => bit w 0 | none => x.wake }
  b.examineVec v

/-- MOD_TABLE_WRITE. -/
def execModTableWrite (vec offset size tag : Nat) (data : BitVec 64) (s : State) : Host.Outcome State Fault Refusal :=
  let addr := 0x180000 + 16 * vec + offset
  s.run fun b => b.access addr size tag true fun b => b.globalWrite tag addr fun b => b.modTable vec offset size data

/-- A vector table entry is written: address, data and the mask bit of the control word, whose other bits are reserved. A mask that clears or an address that becomes aligned lets
a held message go (R43, R302). -/
def Block.vecTable (b : Block) (v offset size : Nat) (data : BitVec 64) : Block :=
  let word := coveredWord offset size data
  let was := b.vec v
  let b := b.modVec v fun x => { x with
    addr := BitVec.ofNat 64 ((word 0).getD (x.addr.toNat % 2 ^ 32) + at_ 32 ((word 4).getD (x.addr.toNat / 2 ^ 32)))
    data := match word 8 with | some w => BitVec.ofNat 32 w | none => x.data
    ctl := match word 12 with | some w => BitVec.ofNat 32 (field w 0 0) | none => x.ctl }
  if was.masked || was.misaligned then b.releaseVec v else b

/-- VECTOR_TABLE_WRITE. -/
def execVectorTableWrite (vec offset size tag : Nat) (data : BitVec 64) (s : State) : Host.Outcome State Fault Refusal :=
  let addr := 0x100000 + 16 * vec + offset
  s.run fun b => b.access addr size tag true fun b => b.globalWrite tag addr fun b => b.vecTable vec offset size data

/-- The vectors of partition p that differ from reset, in ascending order. -/
def Block.vecsOf (b : Block) (p : Nat) : List Nat := (b.irq.filter fun x => b.vecOwner x.1 == some p).map (·.1)

/-- ASLEEP goes from 0 to 1 (R303): vectors that may wake and have completions pending send a message at once. -/
def Block.sleep (b : Block) (p : Nat) : Block :=
  if b.asleep p then b else
  let b := b.modPart p fun q => { q with asleep := true, sleeps := satAdd 16 q.sleeps 1 }
  (b.vecsOf p).foldl Block.releaseVec b

/-- PARTITION_SLEEP. -/
def execPartitionSleep (part tag : Nat) (s : State) : Host.Outcome State Fault Refusal :=
  s.run fun b => b.partWrite part tag 0x20 fun b => b.sleep part

/-- ASLEEP goes from 1 to 0 (R303): held messages are sent in vector order, and WOKE clears. -/
def Block.wakeUp (b : Block) (p : Nat) : Block :=
  if !b.asleep p then b else
  let b := b.modPart p fun q => { q with asleep := false }
  (b.vecsOf p).foldl (fun b v =>
    let b := b.modVec v fun x => { x with woke := false }
    let x := b.vec v
    if x.due then b.releaseVec v else b.examineVec v) b

/-- PARTITION_WAKE. -/
def execPartitionWake (part tag : Nat) (s : State) : Host.Outcome State Fault Refusal :=
  s.run fun b => b.partWrite part tag 0x20 fun b => b.wakeUp part

/-- MOD_TIME_EXPIRY: TIME_THRESH ticks have passed since the first pending completion. -/
def execModTimeExpiry (vec : Nat) (s : State) : Host.Outcome State Fault Refusal := s.run fun b => b.examineVec vec

/-- IRQ_MESSAGE_REISSUE (02 R41): one tick after a failed message the block issues it once more; messages that failed first go
first. None goes out while its partition may have no output (14 R324). -/
def Block.reissueIrq (b : Block) (v : Nat) : Block :=
  match (b.vec v).reissue with
  | (due, port, addr, data) :: rest =>
    if due ≤ b.now ∧ !b.muted v then
      (b.issueOrdered port ((b.vecOwner v).getD 0) 0xFFFF addr data (.irq v) true).modVec v fun x => { x with reissue := rest }
    else b
  | [] => b

/-- IRQ_MESSAGE_REISSUE. -/
def execIrqMessageReissue (vec : Nat) (s : State) : Host.Outcome State Fault Refusal := s.run fun b => b.reissueIrq vec

end Sys2Proof.Machine
end

