-- ==== Sys2Proof/Machine/Lat.lean ====
section
/-! DEFINITION. Lattice units (09): dispatch, the fixed-time check phase, and the ML-KEM and ML-DSA operations. -/

namespace Sys2Proof.Machine

open Sys2Proof

/-! ## Check 4 (09 R201, R203) -/

/-- The operation writes a generated key to K1. -/
def Desc.latKeygen (d : Desc) : Bool := d.op == 0x01 || d.op == 0x11

/-- The operation works under K1. -/
def Desc.latKeyed (d : Desc) : Bool := d.op == 0x03 || d.op == 0x12

/-- The algorithm code of a parameter set. -/
def Desc.latCode (d : Desc) : Nat := 0x40 + d.var

/-- Check 4 of a LAT entry. -/
def Block.latFault (b : Block) (e : Entry) : Refuse :=
  let d := e.d
  (b.lateLength e).or <|
  if d.latKeygen then (b.lockFault e).or (b.destFault e.part 0 d.k1 (fun c => c == d.latCode) none)
  else if d.latKeyed then b.keyFault e.part 0 d.k1
    { alg := fun c => c == d.latCode
      usages := if d.op = 0x03 then ["K3"] else ["S0", "S1", "S2"]
      modes := if d.op = 0x03 then "DB" else "S"
      len := fun s => s.secret.length == (latLens d.var).2.1 }
  else none

/-! ## Dispatch (R196, R197) -/

/-- What happens to an item of the lattice queue; none where it waits. -/
def Block.latTry (b : Block) (i : QItem) : Option Block :=
  if !b.mayDispatch i.job then none
  else if b.stranded latType i then some (b.noSecond i)
  else (b.unitFor latType i).map fun u =>
    match i.job with
    | .call _ _ => b.unqueue i.job
    | .entry k sub =>
      match b.entry? k sub with
      | none => b.unqueue i.job
      | some e =>
        match (if e.dispatchedAt.isSome then none else b.latFault e) with
        | some (st, det, r) => (b.unqueue i.job).refuse e st det r
        | none => (b.mathTake u i).startEntry k sub u (if e.d.latKeyed then [b.copyKey e.d.k1] else []) none

/-- LAT_DISPATCH. -/
def Block.latDispatch (b : Block) : Block := (b.lat.queue.findSome? b.latTry).getD b

/-- LAT_DISPATCH. -/
def execLatDispatch (s : State) : Host.Outcome State Fault Refusal := s.run Block.latDispatch

/-! ## The check phase (R202, R203) -/

/-- The refusal of the check phase. -/
def Entry.latRefusal (e : Entry) : PkRefusal :=
  let kem := Kem.params e.d.var
  let sk := e.key1.slotRec.secret
  firstOf [
    (e.d.op == 0x02 && !Kem.ekValid kem e.aux, St.operandRange, 8),
    (e.d.op == 0x03 && !Kem.dkValid kem sk, St.operandRange, 9),
    (e.d.op == 0x12 && !Dsa.skValid (Dsa.params e.d.var) sk, St.faultDetected, 8)]

/-- The priority and number of random bytes that an operation draws. -/
def Desc.latDraw (d : Desc) : Option (Nat × Nat) :=
  match d.op with
  | 0x01 => some (2, 64)
  | 0x02 => some (3, 32)
  | 0x11 => some (2, 32)
  | 0x12 => if bit d.param 8 then none else some (3, 32)
  | _ => none

/-- A lattice job refused at the end of its check phase: a key of a slot that fails is counted and noted. -/
def Block.latRefuse (b : Block) (u : Nat) (e : Entry) (st det : Nat) : Block :=
  let x := b.mathUnit u
  let b := b.freeUnit e.job
  let b := { b with lat := { b.lat with validation := satAdd 32 b.lat.validation 1 } }
  let b := if e.d.op = 0x02 then b else (b.countMath u 0 0 1).note 0x0031 2 u det
  (b.finish e st det u 0 0).afterMath x

/-- LAT_CHECK_PHASE_END: the job is refused or goes on to its computation, which begins with its draw: one that HEN cannot serve
is refused here too (R207). -/
def Block.latChecked (b : Block) (u : Nat) : Block :=
  match b.mathJob u with
  | some (.entry k i) =>
    match b.entry? k i with
    | some e =>
      if e.stage = .dispatched ∧ !(b.mathUnit u).checked then
        match e.latRefusal with
        | some (st, det) => b.latRefuse u e st det
        | none =>
          let b := b.modMath u fun y => { y with checked := true }
          match e.d.latDraw with
          | some (prio, n) => b.mathDraw e prio n
          | none => b
      else b
    | none => b
  | _ => b

/-- LAT_CHECK_PHASE_END. -/
def execLatCheckPhaseEnd (unit : Nat) (s : State) : Host.Outcome State Fault Refusal :=
  s.run fun b => if 168 ≤ unit then b.latChecked unit else b

/-- LAT_SELF_CHECK_MISMATCH (R209). -/
def execLatSelfCheckMismatch (unit : Nat) (s : State) : Host.Outcome State Fault Refusal :=
  s.run fun b => if 168 ≤ unit then b.mathMismatch latType unit else b

/-! ## The operations (R200, R204 to R207) -/

/-- Iterations of the signing loop within the descriptor time limit: fewer than this (R206). -/
def signFuel : Nat := 3000000

/-- The record of a generated key. -/
def Desc.latKey (d : Desc) (secret : Bytes) : Option (Nat × SlotRec) :=
  let s : SlotRec := { st := .live, chain := chainSlots (secret.length, 0), code := d.latCode
                       keyBits := keyBitsOf d.latCode 0 secret.length, secret }
  some (d.k1.slot, s)

/-- The result of an operation with the bytes it drew; none for a signature whose loop outlasts the time limit. -/
def Entry.latResult (e : Entry) (src : Bytes) : Option Result :=
  let d := e.d
  let kem := Kem.params d.var
  let dsa := Dsa.params d.var
  let sk := e.key1.slotRec.secret
  match d.op with
  | 0x01 =>
    let (ek, dk) := Kem.keyGen kem (e.rnd.take 32) ((e.rnd.drop 32).take 32)
    some { out := ek, key := d.latKey dk }
  | 0x02 =>
    let (k, c) := Kem.encaps kem e.aux (e.rnd.take 32)
    some { out := c ++ k }
  | 0x03 => some { out := Kem.decaps kem sk src }
  | 0x11 =>
    let (pk, sk) := Dsa.keyGen dsa (e.rnd.take 32)
    some { out := pk, key := d.latKey sk }
  | 0x12 =>
    (Dsa.sign dsa sk src e.aux (if bit d.param 8 then zeros 32 else e.rnd.take 32) signFuel).map fun r =>
      { out := r.1, result := BitVec.ofNat 64 (min r.2 0xFFFF) }
  | _ =>
    let (p, _, s) := latLens d.var
    if Dsa.verify dsa (e.aux.take p) src (slice p s e.aux) (e.aux.drop (p + s)) then some {} else some (Result.bad St.verifyFail 6)

/-- A LAT operation on unit u, after its check phase: with the bytes that it has drawn its result stands. -/
def Block.latOn (b : Block) (u op : Nat) : Block :=
  match b.onUnit u Fam.lat op with
  | none => b
  | some e =>
    let waits := match e.d.latDraw with | some (_, n) => decide (e.rnd.length < n) | none => false
    if !(b.mathUnit u).checked || waits then b
    else match e.latResult (b.input e) with
      | some r => b.setResult e r
      | none => b

/-- KEM_KEYGEN. -/
def execKemKeygen (unit : Nat) (s : State) : Host.Outcome State Fault Refusal := s.run fun b => b.latOn unit 0x01
/-- KEM_ENCAPS. -/
def execKemEncaps (unit : Nat) (s : State) : Host.Outcome State Fault Refusal := s.run fun b => b.latOn unit 0x02
/-- KEM_DECAPS. -/
def execKemDecaps (unit : Nat) (s : State) : Host.Outcome State Fault Refusal := s.run fun b => b.latOn unit 0x03
/-- DSA_KEYGEN. -/
def execDsaKeygen (unit : Nat) (s : State) : Host.Outcome State Fault Refusal := s.run fun b => b.latOn unit 0x11
/-- DSA_SIGN. -/
def execDsaSign (unit : Nat) (s : State) : Host.Outcome State Fault Refusal := s.run fun b => b.latOn unit 0x12
/-- DSA_VERIFY. -/
def execDsaVerify (unit : Nat) (s : State) : Host.Outcome State Fault Refusal := s.run fun b => b.latOn unit 0x13

/-- A signature completed ST_OK after k iterations (R213). -/
def Lat.signed (l : Lat) (k : Nat) : Lat :=
  { l with signs := satAdd 32 l.signs 1, maxIter := max l.maxIter k, over32 := if 32 < k then satAdd 16 l.over32 1 else l.over32 }

/-- LAT_JOB_DONE: the result goes to staging and the unit wipes. -/
def Block.latDone (b : Block) (u : Nat) : Block :=
  let x := b.mathUnit u
  match b.mathJob u with
  | some (.entry k i) =>
    match b.entry? k i with
    | some e =>
      match e.res with
      | none => b
      | some r =>
        let iter := r.result.toNat % 2 ^ 16
        let b := if e.d.op = 0x12 ∧ r.status = St.ok then { b with lat := b.lat.signed iter } else b
        ((b.freeUnit e.job).executed e (Cost.lat e.d (some iter) * Cost.cycle)).afterMath x
    | none => b.freeUnit (.entry k i)
  | some j => b.freeUnit j
  | none => b

/-- LAT_JOB_DONE. -/
def execLatJobDone (unit : Nat) (s : State) : Host.Outcome State Fault Refusal :=
  s.run fun b => if 168 ≤ unit then b.latDone unit else b

end Sys2Proof.Machine
end

