-- ==== Sys2Proof/Machine/Locks.lean ====
section
/-! DEFINITION. The key-management lock of a partition (10 R230, R231; 14 R321 where the partition is paired). -/

namespace Sys2Proof.Machine

open Sys2Proof

/-- The lease that a LEASE field gives. -/
def leaseTicks (n : Nat) : Nat := if n = 0 then 100000 else max n 1000

/-- The lock of partition p changed. -/
def Block.modLock (b : Block) (p : Nat) (f : KmLock → KmLock) : Block := b.modPart p fun q => { q with lock := f q.lock }

/-- The lock becomes what an accepted ACQUIRE or RELEASE makes it: held by a ring for a lease from now, or free. -/
def Block.setLock (b : Block) (p : Nat) (held : Bool) (holder lease : Nat) : Block :=
  b.modLock p fun l =>
    if held then
      { l with held := true, holder := holder, ends := b.now + lease
               acquisitions := if l.held && l.holder == holder then l.acquisitions else satAdd 8 l.acquisitions 1 }
    else { l with held := false, holder := 0 }

/-- An outcome of the lock: applied here, or forwarded to the twin first, to be applied when it has acknowledged. -/
def Block.lockOutcome (b : Block) (p : Nat) (held : Bool) (holder lease : Nat) : Block :=
  match b.route p with
  | .apply => b.setLock p held holder lease
  | .forward => b.forward (.kmLock p held holder lease)
  | .ignore => b

/-- Bits [31:0] of a write to AV_KM_LOCK. -/
def Block.lockLow (b : Block) (p w : Nat) : Block :=
  if b.route p = .ignore then b else
  let b := b.modLock p fun l => { l with
    contended := l.contended && !bit w 21, expired := l.expired && !bit w 22, badReq := l.badReq && !bit w 23 }
  let k := field w 15 0
  let l := (b.part p).lock
  let bad := b.modLock p fun l => { l with badReq := true }
  if !bit w 16 && !bit w 17 then b
  else if (bit w 16 && bit w 17) || b.owner k != some p || (b.ring k).st != .running then bad
  else if bit w 16 then
    if l.held && l.holder != k then b.modLock p fun l => { l with contended := true }
    else b.lockOutcome p true k (leaseTicks l.lease)
  else if l.held && l.holder == k then b.lockOutcome p false 0 0
  else bad

/-- Bits [63:32] of a write to AV_KM_LOCK. -/
def Block.lockHigh (b : Block) (p w : Nat) : Block :=
  if b.route p = .ignore then b else b.modLock p fun l => { l with lease := field w 23 0 }

/-- A 64-bit write to AV_KM_LOCK: the lease it carries is in force for the acquisition it makes. -/
def Block.writeLock (b : Block) (p : Nat) (data : BitVec 64) : Block :=
  (b.lockHigh p (data.toNat / 2 ^ 32)).lockLow p (data.toNat % 2 ^ 32)

/-- ACQUIRE. -/
def execAcquire (part tag : Nat) (data : BitVec 64) (s : State) : Host.Outcome State Fault Refusal :=
  s.run fun b => b.accessUnless (b.forwarding (StateItem.locks part)) fun b =>
    b.partWrite part tag 8 fun b => b.writeLock part (data ||| BitVec.ofNat 64 (2 ^ 16))

/-- RELEASE. -/
def execRelease (part tag : Nat) (data : BitVec 64) (s : State) : Host.Outcome State Fault Refusal :=
  s.run fun b => b.accessUnless (b.forwarding (StateItem.locks part)) fun b =>
    b.partWrite part tag 8 fun b => b.writeLock part (data ||| BitVec.ofNat 64 (2 ^ 17))

/-- LOCK_LEASE_EXPIRY (R231): the lease has run out: released, EXPIRED set, noted. The tick in which the lease ends is its last,
so that a renewal in it keeps the lock and a dispatch in it finds the lock held (R232; log entry 109). -/
def Block.lockExpiry (b : Block) (p : Nat) : Block :=
  let l := (b.part p).lock
  if l.held && decide (l.ends < b.now) then
    (b.modLock p fun l => { l with held := false, holder := 0, expired := true }).note 0x0063 0 p l.holder
  else b

/-- LOCK_LEASE_EXPIRY. -/
def execLockLeaseExpiry (part : Nat) (s : State) : Host.Outcome State Fault Refusal := s.run fun b => b.lockExpiry part

end Sys2Proof.Machine
end

