-- ==== Sys2Proof/Machine/Twin.lean ====
section
/-! DEFINITION. The twin (14): the link, sessions, commits on the shadow, forwarded writes, leases, takeover, handover and
release, synchronisation, attach and detach. -/

namespace Sys2Proof.Machine

open Sys2Proof

/-! ## Attach and detach (R330, R333) -/

/-- Roles in which a TWIN_ATTACH finds a partition settled (R330). -/
def Role.settled : Role → Bool
  | .home | .shadow | .solo => true
  | .unpaired | .standby | .syncSource | .syncTarget | .handing => false

/-- A TWIN_ATTACH whose handshake has succeeded completes once every paired partition is settled. -/
def Block.settleAttach (b : Block) : Block :=
  if b.twin.attach.isSome && b.twin.shaken && b.pairedParts.all (fun p => (b.role p).settled) then
    { b.endAttach St.ok 0 with twin := { (b.endAttach St.ok 0).twin with shaken := false } }
  else b

/-- Key slots of partition p read as EMPTY. -/
def Block.zeroSlots (b : Block) (p : Nat) : Block :=
  { b with keys := { b.keys with slots := b.keys.slots.filter fun x => !b.slotIn p x.1 } }

/-- The rings of partition p at their reset state. -/
def Block.zeroRings (b : Block) (p : Nat) : Block := { b with rings := b.rings.filter fun x => b.owner x.1 != some p }

/-- The state of a partition that a block no longer holds is zeroed: contexts, ring state, key slots (R333). -/
def Block.zeroState (b : Block) (p : Nat) : Block :=
  ((b.abandonAll p fun _ => true).zeroContexts p).zeroSlots p |>.zeroRings p

/-- The detach ends on this block (R333): the record is erased, what does not execute here is zeroed and stands by, what
does is unpaired. -/
def Block.endDetach (b : Block) : Block :=
  let ps := b.pairedParts
  let b := ps.foldl (fun b p =>
    if b.executes p then ((b.writeUncommitted p).modTw p fun _ => {})
    else (b.zeroState p).modTw p fun _ => { role := .standby, detached := true }) b
  let entry := b.twin.detachEntry
  let b : Block := { b with twin := { b.twin with
    record := false, leaseBase := 0, detaching := false, detachEntry := none, session := none, hs := none, fill := [], unacked := []
    parts := [], forwarded := [] } }
  match entry.bind (fun x => b.entry? x.1 x.2) with
  | some e => (b.leaveEngine e (b.usedBy e)).finish e St.ok 0 e.engine 0 0
  | none => b

/-- A detach ends when every paired partition executes at its preferred home, or when the twin is lost (R328, R333). -/
def Block.settleDetach (b : Block) : Block :=
  if b.twin.detaching && (b.twin.session.isNone || b.pairedParts.all (fun p => b.executes p == (b.cfg p).home && (b.role p) != .handing))
  then b.endDetach else b

/-- TWIN_ATTACH: refused where a session exists; otherwise the handshake begins. -/
def Block.twinAttachOn (f : Fuses) (b : Block) (l : Nat) (e : Entry) : Block :=
  if b.twin.session.isSome then b.setResult e (.bad St.keyUsage 0xA) else
  let b := b.parkEntry l e
  let b : Block := { b with twin := { b.twin with attach := some (BitVec.ofNat 49 (e.d.param / 32768), e.ring, e.sub), shaken := false } }
  if b.mayShake then
    ({ b with twin := { b.twin with helloDue := b.now + 1000 } }).beginHs f.serial false
  else b

/-- TWIN_ATTACH. -/
def execTwinAttach (lane : Nat) (s : State) : Host.Outcome State Fault Refusal :=
  s.runF fun f b => match b.onKeyLane lane 0x20 with | some e => Block.twinAttachOn f b lane e | none => b

/-- A detach proceeds on this block: what the twin is to have is handed over as soon as it qualifies. -/
def Block.proceedDetach (b : Block) : Block :=
  (Block.examineHandovers { b with twin := { b.twin with detaching := true } }).settleDetach

/-- TWIN_DETACH: refused where no record exists; otherwise DETACH is sent. -/
def Block.twinDetachOn (b : Block) (l : Nat) (e : Entry) : Block :=
  if !b.twin.record then b.setResult e (.bad St.keyUsage 0xA) else
  let b := b.parkEntry l e
  let b : Block := { b with twin := { b.twin with detachEntry := some (e.ring, e.sub) } }
  (b.sendFrame 2 fun _ => .detach).proceedDetach

/-- TWIN_DETACH. -/
def execTwinDetach (lane : Nat) (s : State) : Host.Outcome State Fault Refusal :=
  s.run fun b => match b.onKeyLane lane 0x21 with | some e => b.twinDetachOn lane e | none => b

/-! ## Acknowledgements (R315, R321, R322, R332) -/

/-- A forwarded outcome takes effect here; a slot write's descriptor completes. -/
def Block.applyForwarded (b : Block) (seq : Nat) (i : StateItem) : Block :=
  match i with
  | .stop k => b.stopRing k
  | .retract k p => b.retractRing k p
  | .partReset p => b.beginPartReset p
  | .kmLock p held holder lease => b.setLock p held holder lease
  | .slotWrite _ _ _ =>
    (b.entries.filter fun e => e.stage == .commit && e.commitSeq == seq + 1).foldl (fun b e =>
      match e.done with | some c => b.emit c | none => b) b

/-- The copy of partition p has been acknowledged as a whole: the partition is HOME here (R332). -/
def Block.syncAcked (n : Nat) (b : Block) (p : Nat) : Block :=
  let t := (b.part p).tw
  match t.syncDone with
  | some q => if t.role = .syncSource ∧ q < n then b.modTw p fun t => { t with role := .home, syncDone := none } else b
  | none => b

/-- ACK_SEQ of a received frame. -/
def Block.acknowledge (b : Block) (ack : BitVec 64) : Block :=
  match b.twin.session with
  | none => b
  | some s =>
    let n := if ack = BitVec.allOnes 64 then 0 else ack.toNat + 1
    if n ≤ s.acked ∨ s.seqOut < n then b else
    let s' := { s with acked := n, ackAt := b.now, replay := s.replay.filter fun x => decide (n ≤ x.1) }
    let now_ := b.twin.forwarded.filter fun x => decide (x.1 < n)
    let later := b.twin.forwarded.filter fun x => decide (n ≤ x.1)
    let b : Block := { b with twin := { b.twin with session := some s', forwarded := later } }
    let b := now_.foldl (fun b x => b.applyForwarded x.1 x.2) b
    (b.pairedParts.foldl (Block.syncAcked n) b).settleAttach

/-! ## Loss (R316, R325) -/

/-- The twin is lost: what it was to acknowledge takes effect here, and a detach ends on this block alone. -/
def Block.twinLost (b : Block) : Block :=
  if b.twin.session.isNone && b.twin.lost then b else
  let fw := b.twin.forwarded
  let b := (b.unask .handshake).loseTwin
  let b := fw.foldl (fun b x => b.applyForwarded x.1 x.2) { b with twin := { b.twin with forwarded := [] } }
  b.settleDetach.settleAttach

/-- Whether some partition counts on the twin. -/
def Block.needsTwin (b : Block) : Bool :=
  b.pairedParts.any fun p => match (b.part p).tw.role with
    | .home | .shadow | .syncSource | .syncTarget | .handing => true
    | .unpaired | .solo | .standby => false

/-- TWIN_LOSS is due: 100 ticks without a heartbeat, or with a COMMIT frame unacknowledged. -/
def Block.lossDue (b : Block) : Bool :=
  match b.twin.session with
  | some s => (decide (s.began + 100 ≤ b.now) && decide (100 ≤ b.twin.hbAge)) ||
      b.twin.unacked.any (fun x => !x.2.2.2 && decide (x.2.1 + 100 ≤ b.now))
  | none => b.needsTwin && !b.twin.lost && decide (100 ≤ b.twin.hbAge)

/-- TWIN_LOSS. -/
def execTwinLoss (s : State) : Host.Outcome State Fault Refusal := s.run fun b => if b.lossDue then b.twinLost else b

/-! ## Reception (R313, R315) -/

/-- A frame with a good CRC fails its tag: sixteen within 1,000 ticks end the session. -/
def Block.tagFailed (b : Block) (s : Session) : Block :=
  let fails := b.now :: s.tagFails.filter fun t => decide (b.now < t + 1000)
  let t := { b.twin with tagErr := satAdd 16 b.twin.tagErr 1, session := some { s with tagFails := fails } }
  let b : Block := { b with twin := t }
  if fails.length < 16 then b
  else (({ b with twin := { b.twin with authFail := true } }).noteTwin 0xFFFF 5).twinLost

/-- A frame arrives: discarded for its CRC, its tag or its SEQ; otherwise its ACK_SEQ and then its content act. Before a
session only handshake frames are taken. -/
def Block.receive (b : Block) (h : FrameHdr) (handshake : Bool) (act : Block → Block) : Block :=
  if b.mode.porstLow || !b.twin.linkUp then b
  else if !h.crcOk then { b with twin := { b.twin with crcErr := satAdd 16 b.twin.crcErr 1 } }
  else match b.twin.session with
    | none => if handshake then act b else b
    | some s =>
      if !h.tagOk then b.tagFailed s
      else if h.seq.toNat ≠ s.seqIn then b
      else act (Block.acknowledge { b with twin := { b.twin with session := some { s with seqIn := s.seqIn + 1 } } } h.ack)

/-! ## Handshake frames (R331) -/

/-- A HELLO: it answers this block's, or begins a handshake here as well. -/
def Block.gotHello (f : Fuses) (b : Block) (m : HelloMsg) : Block :=
  if !b.mayShake then b else
  let b : Block := { b with twin := { b.twin with side := if f.serial.toNat < m.serial.toNat then 0 else 1 } }
  let fresh := match b.twin.hs with | some h => h.gotHello.isSome | none => true
  let b := if fresh then b.beginHs f.serial b.twin.session.isSome else b
  (b.modHs fun h => { h with gotHello := some m }).hsRun

/-- HELLO. -/
def execHello (hdr : FrameHdr) (msg : HelloMsg) (s : State) : Host.Outcome State Fault Refusal :=
  s.runF fun f b => b.receive hdr true fun b => Block.gotHello f b msg

/-- KEX. -/
def execKex (hdr : FrameHdr) (kem point : Bytes) (s : State) : Host.Outcome State Fault Refusal :=
  s.run fun b => b.receive hdr true fun b =>
    (b.modHs fun h => if h.gotHello.isSome && h.gotKex.isNone then { h with gotKex := some (kem, point) } else h).hsRun

/-- CONFIRM. -/
def execConfirm (hdr : FrameHdr) (value : Bytes) (s : State) : Host.Outcome State Fault Refusal :=
  s.run fun b => b.receive hdr true fun b =>
    ((b.modHs fun h => if h.gotKex.isSome then { h with gotConfirm := some value } else h).hsRun).settleAttach

/-- HELLO_SEND (R316): every 1,000 ticks without a session. -/
def Block.helloTick (f : Fuses) (b : Block) : Block :=
  if b.twin.session.isNone && b.mayShake && decide (b.twin.helloDue ≤ b.now) then
    ({ b with twin := { b.twin with helloDue := b.now + 1000 } }).beginHs f.serial false
  else b

/-- HELLO_SEND. -/
def execHelloSend (s : State) : Host.Outcome State Fault Refusal := s.runF fun f b => Block.helloTick f b

/-- SESSION_REKEY (R331): after 2^32 frames or 3,600,000,000 ticks of the keys. -/
def Block.rekey (f : Fuses) (b : Block) : Block :=
  match b.twin.session with
  | some s => if b.twin.hs.isNone ∧ (2 ^ 32 ≤ s.frames ∨ s.began + 3600000000 ≤ b.now) then b.beginHs f.serial true else b
  | none => b

/-- SESSION_REKEY. -/
def execSessionRekey (s : State) : Host.Outcome State Fault Refusal := s.runF fun f b => Block.rekey f b

/-- TW_LINK_UP_CHANGE: it shortens no loss rule (02 R48). -/
def execTwLinkUpChange (up : Bool) (s : State) : Host.Outcome State Fault Refusal :=
  s.run fun b => { b with twin := { b.twin with linkUp := up } }

/-! ## Heartbeats and notices (R314, R316) -/

/-- HEARTBEAT_SEND: every 20 ticks of a session. -/
def Block.sendHeartbeat (b : Block) : Block :=
  if b.twin.session.isNone || decide (b.now < b.twin.heartbeatDue) then b else
  let m : HeartbeatMsg := { tk := b.time.sched, mode := b.mode.mode.code, avail := b.avail, henStopped := b.hen.phase == .stopped
                            lost := b.twin.lost }
  let b := b.sendFrame 3 fun _ => .heartbeat m
  { b with twin := { b.twin with heartbeatDue := b.now + 20 } }

/-- HEARTBEAT_SEND. -/
def execHeartbeatSend (s : State) : Host.Outcome State Fault Refusal := s.run Block.sendHeartbeat

/-- HEARTBEAT: the loss timer restarts, and waiting handovers are examined (R328). -/
def execHeartbeat (hdr : FrameHdr) (msg : HeartbeatMsg) (s : State) : Host.Outcome State Fault Refusal :=
  s.run fun b => b.receive hdr false fun b =>
    Block.examineHandovers { b with twin := { b.twin with hbAge := 0, peer := some msg } }

/-- FAULT_NOTICE: the twin is lost. -/
def execFaultNotice (hdr : FrameHdr) (cause : Nat) (parts : List Nat) (s : State) : Host.Outcome State Fault Refusal :=
  s.run fun b => b.receive hdr false Block.twinLost

/-- REPLAY_TIMEOUT (R315): frames unacknowledged for 4 ticks are sent again from ACK_SEQ + 1. -/
def Block.replay (b : Block) : Block :=
  match b.twin.session with
  | some s =>
    if s.replay.isEmpty ∨ b.now < s.ackAt + 4 then b else
    let b := b.put (.replay s.acked)
    { b with twin := { b.twin with replays := satAdd 16 b.twin.replays 1, session := some { s with ackAt := b.now } } }
  | none => b

/-- REPLAY_TIMEOUT. -/
def execReplayTimeout (s : State) : Host.Outcome State Fault Refusal := s.run Block.replay

/-! ## The shadow (R317 to R319, R321) -/

/-- The partition that owns context i. -/
def Block.ctxOwner (b : Block) (i : Nat) : Option Nat :=
  (b.img.inForce.parts.find? fun e =>
    e.2.enabled && decide (e.2.ctxFirst ≤ i) && decide (i < e.2.ctxFirst + e.2.ctxCount)).map (·.1)

/-- A block that stands by for partition p receives its copy: it holds nothing of it before (R332). -/
def Block.becomeTarget (b : Block) (p : Nat) : Block :=
  if b.role p = .standby then
    ((b.zeroContexts p).zeroSlots p).modTw p fun t => { t with role := .syncTarget, watching := false, watch := none }
  else b

/-- The chain that a SLOT delta carries; references are each block's own. -/
def Block.mirrorChain (b : Block) (head : Nat) (r : SlotRec) : Block :=
  (b.writeChain head r).modSlot head fun s => { s with gen := r.gen, refs := 0 }

/-- One delta of a committed entry (R317). -/
def Block.applyDelta (k : Nat) (sub : Index) (b : Block) (d : Delta) : Block :=
  match d with
  | .ctx i c => b.modCtx i fun _ => { c }
  | .slots first recs => match recs with | r :: _ => b.mirrorChain first r | [] => b
  | .emptied first n => b.emptySlots first n
  | .keep bs => b.modRing k fun r => { r with tw := { r.tw with keep := (r.tw.keep.filter fun x => x.1 != sub) ++ [(sub, bs)] } }
  | .keepUsed => b.modRing k fun r => { r with tw := { r.tw with keep := r.tw.keep.filter fun x => x.1 + 1 != sub } }

/-- The parts of a split entry as one: the KEEP delta's pieces in one (R319). -/
def joinParts (ps : List CommitItem) : Option CommitItem :=
  match ps with
  | [] => none
  | i :: _ =>
    let ds := ps.flatMap (·.deltas)
    let keep := (ds.filterMap fun d => match d with | .keep x => some x | _ => none).flatten
    let others := ds.filter fun d => match d with | .keep _ => false | _ => true
    some { i with split := false, deltas := others ++ (if keep.isEmpty then [] else [.keep keep]) }

/-- C advances past each index whose entry is committed (R318). -/
def advanceC (subs : List Index) : Nat → Index → Index
  | 0, c => c
  | fuel + 1, c => if subs.contains c then advanceC subs fuel (c + 1) else c

/-- The shadow takes a committed entry as a completion written at Q (R318). -/
def RingRec.commitEntry (r : RingRec) (i : CommitItem) : RingRec :=
  let committed := r.tw.committed ++ [(i.q, i.completion, i.subIndex)]
  let c := advanceC (committed.map (·.2.2)) committed.length r.c
  let q := i.q + 1
  let kept := committed.filter fun x => decide (dist x.1 r.d < dist q r.d) || decide (dist x.2.2 c < 2 ^ 31)
  { r with q, c, tw := { r.tw with committed := kept, digests := (i.digest :: r.tw.digests).take 64 } }

/-- A whole commit entry applied. -/
def Block.applyEntry (b : Block) (i : CommitItem) : Block :=
  let p := b.ownerD i.ring
  if b.executes p || !b.paired p then b else
  let b := b.becomeTarget p
  (i.deltas.foldl (Block.applyDelta i.ring i.subIndex) b).modRing i.ring fun r => r.commitEntry i

/-- One item of a COMMIT frame: parts are held until the last has come. -/
def Block.takeItem (b : Block) (i : CommitItem) : Block :=
  let parts := b.twin.parts ++ [i]
  if i.split then { b with twin := { b.twin with parts := parts } }
  else
    let b : Block := { b with twin := { b.twin with parts := [] } }
    match joinParts parts with
    | some j => b.applyEntry j
    | none => b

/-- COMMIT: applied and acknowledged. -/
def execCommit (hdr : FrameHdr) (items : List CommitItem) (s : State) : Host.Outcome State Fault Refusal :=
  s.run fun b => b.receive hdr false fun b =>
    (items.foldl Block.takeItem b).sendFrame 3 fun _ => .commitAck [hdr.seq.toNat]

/-- COMMIT_FLUSH (R318): 100 ns after its first entry a partly filled frame is sent. -/
def execCommitFlush (s : State) : Host.Outcome State Fault Refusal := s.run fun b => b.flushCommit

/-- Handovers whose last entries have completed move their lease. -/
def Block.moveHandovers (b : Block) : Block := b.handing.foldl Block.moveHandover b

/-- The descriptors of the acknowledged frame at the front of the line reach the Committed stage; `fuel` bounds the line. -/
def Block.releaseAcked : Nat → Block → Block
  | 0, b => b
  | fuel + 1, b =>
    match b.twin.unacked with
    | (_, _, ids, true) :: rest =>
      let b : Block := { b with twin := { b.twin with unacked := rest, commits := satAdd 32 b.twin.commits ids.length } }
      let b := ids.foldl (fun b x =>
        match b.entry? x.1 x.2 with
        | some e => match e.done with
          | some c => if e.stage == .commit && !((b.ring e.ring).held.any fun h => h.sub == e.sub && !h.overrun) then b.emit c else b
          | none => b
        | none => b) b
      Block.releaseAcked fuel b
    | _ => b

/-- COMMIT_ACK (R318): frames are acknowledged one by one and their completions written in order. -/
def Block.commitAcked (b : Block) (seqs : List Nat) : Block :=
  let u := b.twin.unacked.map fun x => (x.1, x.2.1, x.2.2.1, x.2.2.2 || seqs.contains x.1)
  (Block.releaseAcked u.length { b with twin := { b.twin with unacked := u } }).moveHandovers

/-- COMMIT_ACK. -/
def execCommitAck (hdr : FrameHdr) (seqs : List Nat) (s : State) : Host.Outcome State Fault Refusal :=
  s.run fun b => b.receive hdr false fun b => b.commitAcked seqs

/-- A STOP or partition reset of the executing block, on the other one: the ring stops there, and what commits later is
still taken. -/
def Block.stopMirror (b : Block) (k : Nat) : Block :=
  b.modRing k fun r => if r.st = .disabled then r else { r with st := .stopping, tw := { r.tw with keep := [] } }

/-- A forwarded outcome applied on the block that does not execute the partition (R321, R322). -/
def Block.mirrorState (b : Block) (i : StateItem) : Block :=
  match i with
  | .stop k => if b.executes (b.ownerD k) then b else b.stopMirror k
  | .retract k p => if b.executes (b.ownerD k) then b else b.modRing k fun r => { r with tw := { r.tw with doorbell := p } }
  | .partReset p =>
    if b.executes p then b else
    let b := (b.liveRings p).foldl Block.stopMirror b
    ((b.zeroContexts p).freeLock p).modPart p fun q => { q with halted := false, haltRing := 0 }
  | .kmLock p held holder lease => if b.executes p then b else b.setLock p held holder lease
  | .slotWrite p first recs =>
    if b.executes p then b else match recs with | r :: _ => b.mirrorChain first r | [] => b

/-- STATE. -/
def execState (hdr : FrameHdr) (item : StateItem) (s : State) : Host.Outcome State Fault Refusal :=
  s.run fun b => b.receive hdr false fun b => b.mirrorState item

/-! ## Synchronisation (R332) -/

/-- The set-up record that a ring's latched values spell. -/
def RingRec.setupWords (r : RingRec) : List (BitVec 64) :=
  let w := fun (n : Nat) => BitVec.ofNat 64 n
  [r.subBase, r.cmpBase, r.shadow,
   w (r.subLog2 + at_ 8 r.cmpLog2 + at_ 16 (flag r.poll) + at_ 32 r.vector), w (r.c.toNat + at_ 32 r.q.toNat), w r.pollN, 0, 0]

/-- Completed indices of ring k that lie beyond C. -/
def Block.aheadOfC (b : Block) (k : Nat) : List Index :=
  let r := b.ring k
  let held := (b.entries.filter fun e => e.ring == k).map (·.sub)
  let inBurst := fun (i : Index) => match r.burst with | some u => decide (dist i u.first < u.count) | none => false
  ((List.range (dist r.f r.c)).map fun i => r.c + BitVec.ofNat 32 i).filter fun i => !held.contains i && !inBurst i

/-- The items that copy partition p. -/
def Block.copyOf (b : Block) (p : Nat) : List SyncItem :=
  let rings := (b.liveRings p).map fun k =>
    let r := b.ring k
    SyncItem.ring k (r.st != .disabled) r.setupWords r.p r.c r.q r.d (b.aheadOfC k) r.p
  let keeps := (b.liveRings p).flatMap fun k => (b.ring k).kept.map fun x => SyncItem.keep k x.1 x.2.1
  let ctxs := (b.ctxs.filter fun x => b.ctxOwner x.1 == some p).map fun x => SyncItem.ctx x.1 x.2.c
  let slots := (b.keys.slots.filter fun x => b.slotIn p x.1).map fun x => SyncItem.slots x.1 [x.2]
  let q := b.part p
  rings ++ keeps ++ ctxs ++ slots ++ [.lock p q.lock.held q.lock.holder (q.lock.ends - b.now) q.halted q.haltRing]

/-- Words of a SYNC_DATA frame. -/
def SyncItem.words : SyncItem → Nat
  | .ring _ _ _ _ _ _ _ committed _ => 4 + ceilDiv (4 * committed.length) 64
  | .keep _ _ d => 3 + ceilDiv d.length 64
  | .ctx _ _ => 11
  | .slots _ recs => 3 + 2 * recs.length
  | .lock .. => 3

/-- Partitions whose copy has not been sent. -/
def Block.toCopy (b : Block) : List Nat :=
  b.pairedParts.filter fun p => (b.part p).tw.role == .syncSource && (b.part p).tw.syncDone.isNone

/-- SYNC_COPY_END: the copy of the lowest partition to be copied is sent, with its SYNC_DONE. -/
def Block.sendCopy (b : Block) (p : Nat) : Block :=
  if b.twin.session.isNone || b.toCopy.head? != some p then b else
  let b := (b.copyOf p).foldl (fun b i => b.sendFrame (SyncItem.words i) fun _ => .syncData i) b
  let seq := match b.twin.session with | some s => s.seqOut | none => 0
  (b.sendFrame 3 fun _ => .syncDone p).modTw p fun t => { t with syncDone := some seq }

/-- SYNC_COPY_END. -/
def execSyncCopyEnd (part : Nat) (s : State) : Host.Outcome State Fault Refusal := s.run fun b => b.sendCopy part

/-- The partition that a copied item belongs to. -/
def Block.ownerOfItem (b : Block) (i : SyncItem) : Option Nat :=
  match i with
  | .ring k .. | .keep k .. => b.owner k
  | .ctx i _ => b.ctxOwner i
  | .slots first _ => b.slotOwner first
  | .lock p .. => some p

/-- The target takes one item (R332). -/
def Block.takeCopy (b : Block) (i : SyncItem) : Block :=
  match i with
  | .ring k running setup p c q d committed doorbell =>
    b.modRing k fun r =>
      let x := ({ r with setup }).latched b.now
      let x := { x with setup := r.setup, p, c, f := c, q, d, st := if running then .running else .disabled
                        tw := { doorbell, committed := committed.map fun i => (q, [], i) } }
      x
  | .keep k m bs => b.modRing k fun r => { r with tw := { r.tw with keep := (r.tw.keep.filter fun x => x.1 != m) ++ [(m, bs)] } }
  | .ctx i c => b.modCtx i fun _ => { c }
  | .slots first recs => (recs.zipIdx).foldl (fun b x => b.modSlot (first + x.2) fun _ => { x.1 with refs := 0 }) b
  | .lock p held holder ends halted haltRing =>
    let b := b.modPart p fun q => { q with
      halted, haltRing, lock := { q.lock with held, holder, ends := b.now + ends } }
    if halted then (b.liveRings p).foldl (fun b k => b.modRing k fun r => { r with st := if r.st = .disabled then r.st else .halted }) b
    else b

/-- SYNC_DATA. -/
def execSyncData (hdr : FrameHdr) (item : SyncItem) (s : State) : Host.Outcome State Fault Refusal :=
  s.run fun b => b.receive hdr false fun b =>
    match b.ownerOfItem item with
    | some p => if b.executes p || !b.paired p then b else (b.becomeTarget p).takeCopy item
    | none => b

/-- SYNC_DONE: the target is SHADOW. -/
def execSyncDone (hdr : FrameHdr) (part : Nat) (s : State) : Host.Outcome State Fault Refusal :=
  s.run fun b => b.receive hdr false fun b =>
    if b.paired part && !b.executes part then ((b.becomeTarget part).setRole part .shadow).settleAttach else b

/-! ## Handover (R327) -/

/-- HANDOVER_BEGIN: the twin learns of it and changes nothing. -/
def execHandoverBegin (hdr : FrameHdr) (part : Nat) (s : State) : Host.Outcome State Fault Refusal :=
  s.run fun b => b.receive hdr false id

/-- The lease of partition p is this block's, from now. -/
def Block.holdLease (b : Block) (p : Nat) (w : BitVec 64) (r : Role) : Block :=
  b.modTw p fun t => { t with
    role := r, lease := w, renewedAt := b.now, renewDue := b.now + 500, offered := none, retryAt := none, watching := false
    watch := none, stopped := false, atLoss := false, wasShadow := false, detached := false }

/-- Steps 4 and 5 of R325 on a block that takes partition p over: a former shadow rewrites, every ring fetches again, and a
ring that was stopping is DISABLED. -/
def Block.takeOver (b : Block) (p : Nat) (shadow : Bool) : Block :=
  let b := if shadow then (b.liveRings p).foldl Block.rewriteRing b else b
  let b := (b.liveRings p).foldl Block.refetchRing b
  (b.liveRings p).foldl (fun b k => if (b.ring k).st = .stopping then b.modRing k RingRec.disabled else b) b

/-- HANDOVER_DONE: the twin holds the lease and adopts the partition. -/
def Block.adoptHanded (b : Block) (p epoch : Nat) : Block :=
  if b.role p = .shadow then
    ((b.holdLease p (leaseWord 0 epoch b.twin.side true false) .home).takeOver p true).settleDetach.settleAttach
  else b

/-- HANDOVER_DONE. -/
def execHandoverDone (hdr : FrameHdr) (part epoch : Nat) (s : State) : Host.Outcome State Fault Refusal :=
  s.run fun b => b.receive hdr false fun b => b.adoptHanded part epoch

/-- DETACH. -/
def execDetach (hdr : FrameHdr) (s : State) : Host.Outcome State Fault Refusal :=
  s.run fun b => b.receive hdr false fun b => if b.twin.record then b.proceedDetach else b

/-- The lease of partition p has been given to the twin: HANDOVER_DONE follows, and the partition is SHADOW here. -/
def Block.handedOver (b : Block) (p : Nat) (w : BitVec 64) : Block :=
  let b := b.sendFrame 3 fun _ => .handoverDone p (leaseEpoch w)
  let b := (b.liveRings p).foldl (fun b k => b.modRing k fun r => { r with tw := { r.tw with keep := r.kept.map fun x => (x.1, x.2.1) } }) b
  let b := (b.rewindRings p).modTw p fun t => { t with role := .shadow, handover := none, lease := w, offered := none, retryAt := none }
  let b : Block := { b with twin := { b.twin with handovers := satAdd 16 b.twin.handovers 1 } }
  b.settleDetach.settleWarm

/-- HANDOVER_TIMEOUT (R327): 2,000 ticks after its start a handover becomes a release. -/
def Block.handoverTimeout (b : Block) (p : Nat) : Block :=
  match (b.part p).tw.handover with
  | some (t, _, _) => if t + 2000 ≤ b.now then (b.disown (· == .leaseGive p)).releaseAll [p] 0 else b
  | none => b

/-- HANDOVER_TIMEOUT. -/
def execHandoverTimeout (part : Nat) (s : State) : Host.Outcome State Fault Refusal := s.run fun b => b.handoverTimeout part

/-! ## Release (R329) -/

/-- RELEASE_ACK_WAIT_END: 20 ticks into a release. -/
def Block.ackWaitEnd (b : Block) (p : Nat) : Block :=
  match (b.part p).tw.releaseAt with
  | some t => if t + 20 ≤ b.now then (b.endRelease p).settleWarm else b
  | none => b

/-- RELEASE_ACK_WAIT_END. -/
def execReleaseAckWaitEnd (part : Nat) (s : State) : Host.Outcome State Fault Refusal := s.run fun b => b.ackWaitEnd part

/-- A failed or unanswered request for the work of a partition whose twin is SHADOW releases it. -/
def Block.releaseFor (b : Block) (r : Request) : Block :=
  if b.role r.part = .home ∧ r.purpose.isWork then b.releaseAll [r.part] 5 else b

/-- MPORT_PAIRED_NO_RESPONSE: 200 ticks without a response. -/
def Block.noResponse (b : Block) (req : Nat) : Block :=
  match b.mport.outst.find? fun r => r.id == req with
  | some r => if r.issued + 200 ≤ b.now then b.releaseFor r else b
  | none => b

/-- MPORT_PAIRED_NO_RESPONSE. -/
def execMportPairedNoResponse (req : Nat) (s : State) : Host.Outcome State Fault Refusal := s.run fun b => b.noResponse req

/-! ## Leases (R323, R324) -/

/-- Output for partition p goes on: output writes that were held back, completions, interrupt messages. -/
def Block.resumeOutput (b : Block) (p : Nat) : Block :=
  if !(b.part p).tw.stopped then b else
  let b := b.modTw p fun t => { t with stopped := false }
  let held := b.entries.filter fun e => e.part == p && e.stage == .writing && !b.awaits (.output e.ring e.sub)
  let b := held.foldl (fun b e => (layOut e.destination (e.res.getD {}).out).foldl (fun b x =>
    b.issueWrite (e.port.getD 0) e.part e.ring x.1 x.2 (.output e.ring e.sub)) b) b
  let b := (b.liveRings p).foldl (fun b k => (b.signal k).flushHeld k) b
  ((b.irq.map (·.1)).filter fun v => b.vecOwner v == some p).foldl Block.releaseVec b

/-- Whether a swap of the lease of partition p is on its way. -/
def Block.swapping (b : Block) (p : Nat) : Bool := b.awaits (.leaseRenew p) || b.awaits (.leaseGive p) || b.awaits (.leaseTake p)

/-- LEASE_RENEWAL: every 500 ticks for each lease held. -/
def Block.renewalTick (b : Block) (p : Nat) : Block :=
  let t := (b.part p).tw
  if b.paired p && t.role.executes && t.offered.isNone && decide (t.renewDue ≤ b.now) then b.renewLease p false else b

/-- LEASE_RENEWAL. -/
def execLeaseRenewal (part : Nat) (s : State) : Host.Outcome State Fault Refusal := s.run fun b => b.renewalTick part

/-- A renewal has succeeded; that of step 1 of R325 makes the partition SOLO and writes its held completions. -/
def Block.renewed (b : Block) (p : Nat) : Block :=
  let t := (b.part p).tw
  let b := b.modTw p fun t => { t with
    lease := t.offered.getD t.lease, offered := none, renewedAt := b.now, retryAt := none, atLoss := false }
  let b := b.resumeOutput p
  if t.atLoss then
    let b := (b.setRole p .solo).writeUncommitted p
    let b := if b.twin.session.isSome then b.startSync p else b
    b.settleAttach.settleDetach
  else b

/-- A release that began while a renewal was on its way sets its lease RELEASED now. -/
def Block.giveUp (b : Block) (p : Nat) : Block := if (b.part p).tw.releaseAt.isSome then b.setReleased p else b

/-- A swap that renews or gives a lease returns the old value: the one expected, or the lease is lost. -/
def Block.renewalResponse (b : Block) (p : Nat) (old : BitVec 64) : Block :=
  let t := (b.part p).tw
  if b.awaits (.leaseGive p) then
    let b := b.arrived (.leaseGive p)
    if old ≠ t.lease then b.fence p
    else match t.handover, t.offered with
      | some _, some w => b.handedOver p w
      | _, _ => b.modTw p fun t => { t with lease := t.offered.getD t.lease, offered := none, retryAt := none }
  else if b.awaits (.leaseRenew p) then
    let b := b.arrived (.leaseRenew p)
    if old = t.lease then ((b.renewed p).giveUp p).moveHandover p else b.fence p
  else b.discard fun w => w == .leaseRenew p || w == .leaseGive p

/-- LEASE_RENEWAL_RESPONSE. -/
def execLeaseRenewalResponse (part : Nat) (old : BitVec 64) (s : State) : Host.Outcome State Fault Refusal :=
  s.run fun b => b.renewalResponse part old

/-- A swap of the lease of partition p received an error response, or none within its limit (02 R41). -/
def Block.leaseFailed (b : Block) (p : Nat) : Block := b.modTw p fun t => { t with retryAt := some (b.now + 50) }

/-- The repeat of a swap is due: 50 ticks after its failure, or after its issue with no response. -/
def Block.retryDue (b : Block) (p : Nat) : Bool :=
  let t := (b.part p).tw
  match t.retryAt with
  | some x => decide (x ≤ b.now)
  | none => b.mport.outst.any fun r => decide (r.issued + 50 ≤ b.now) &&
      (r.purpose == .leaseRenew p || r.purpose == .leaseGive p || r.purpose == .leaseTake p)

/-- LEASE_RENEWAL_RETRY: the swap that failed, or that has no response, is issued again. One without a response stays outstanding
until its response comes or its own limit passes (02 R41). -/
def Block.retryLease (b : Block) (p : Nat) : Block :=
  let t := (b.part p).tw
  match t.offered with
  | some w =>
    if b.paired p && b.retryDue p then
      let pur := if leaseReleased w || leaseHolder w != b.twin.side then Purpose.leaseGive p
        else if t.role.executes then .leaseRenew p else .leaseTake p
      ((b.disown (· == pur)).swapLease p w pur).modTw p fun t => { t with retryAt := none }
    else b
  | none => b

/-- LEASE_RENEWAL_RETRY. -/
def execLeaseRenewalRetry (part : Nat) (s : State) : Host.Outcome State Fault Refusal := s.run fun b => b.retryLease part

/-- LEASE_OUTPUT_STOP: 700 ticks after the last successful renewal. -/
def execLeaseOutputStop (part : Nat) (s : State) : Host.Outcome State Fault Refusal :=
  s.run fun b =>
    let t := (b.part part).tw
    if b.paired part && t.role.executes && decide (t.renewedAt + 700 ≤ b.now) then b.modTw part fun t => { t with stopped := true } else b

/-- LEASE_FENCED: 1,000 ticks after it. -/
def execLeaseFenced (part : Nat) (s : State) : Host.Outcome State Fault Refusal :=
  s.run fun b =>
    let t := (b.part part).tw
    if b.paired part && t.role.executes && decide (t.renewedAt + 1000 ≤ b.now) then b.fence part else b

/-! ## Watch and take (R325) -/

/-- Step 3: the lease is taken by compare-and-swap. -/
def Block.takeLease (b : Block) (p : Nat) : Block :=
  let w := (b.part p).tw.lease
  (b.swapLease p (leaseWord 0 (leaseEpoch w + 1) b.twin.side true false) (.leaseTake p)).modTw p fun t => { t with
    watching := false, watch := none }

/-- The partition executes here alone; with a session in place its copy begins (R332). -/
def Block.runAlone (b : Block) (p : Nat) : Block :=
  (if b.twin.session.isSome then b.startSync p else b).settleAttach.settleDetach

/-- A lease word read during a watch. -/
def Block.watchWord (b : Block) (p : Nat) (w : BitVec 64) : Block :=
  let t := (b.part p).tw
  let b := b.modTw p fun t => { t with lease := w }
  if !t.watching then b
  else if leaseReleased w || (!leaseValid w && (b.cfg p).home) then b.takeLease p
  else if t.wasShadow && leaseValid w && leaseHolder w == b.twin.side then
    ((b.holdLease p w .solo).takeOver p true).runAlone p
  else match t.watch with
    | none => b.modTw p fun t => { t with watch := some (w, b.now, b.now + 100) }
    | some (w0, t0, _) =>
      if w ≠ w0 then b.modTw p fun t => { t with watching := false, watch := none, role := .standby, wasShadow := false }
      else if t0 + 1000 ≤ b.now then b.takeLease p
      else b.modTw p fun t => { t with watch := some (w0, t0, b.now + 100) }

/-- LEASE_WATCH_READ: the response of the read that is outstanding, or a read that is due and its response; after 1,000 ticks
unchanged the lease is taken. -/
def Block.watchRead (b : Block) (p : Nat) (w : BitVec 64) : Block :=
  let t := (b.part p).tw
  if !b.paired p then b
  else if b.awaits (.leaseRead p) then (b.arrived (.leaseRead p)).watchWord p w
  else if !t.watching then b
  else match t.watch with
    | none => ((b.readLease p).arrived (.leaseRead p)).watchWord p w
    | some (_, t0, due) =>
      if t0 + 1000 ≤ b.now then b.takeLease p
      else if due ≤ b.now then ((b.readLease p).arrived (.leaseRead p)).watchWord p w
      else b

/-- LEASE_WATCH_READ. -/
def execLeaseWatchRead (part : Nat) (word : BitVec 64) (s : State) : Host.Outcome State Fault Refusal :=
  s.run fun b => b.watchRead part word

/-- LEASE_TAKE_RESPONSE: the take succeeds where the old value is the one expected; the partition is adopted and runs alone
here. -/
def Block.takeResponse (b : Block) (p : Nat) (old : BitVec 64) : Block :=
  let t := (b.part p).tw
  if !b.awaits (.leaseTake p) then b.discard (· == .leaseTake p) else
  let b := b.arrived (.leaseTake p)
  match t.offered with
  | none => b
  | some w =>
    if old ≠ t.lease then b.modTw p fun t => { t with role := .standby, lease := old, offered := none, retryAt := none, wasShadow := false }
    else
      let b : Block := { b with twin := { b.twin with takeovers := satAdd 16 b.twin.takeovers 1 } }
      let b := (b.modRec fun c => { c with failovers := satAdd 32 c.failovers 1 }).noteTwin p 2
      ((b.holdLease p w .solo).takeOver p t.wasShadow).runAlone p

/-- LEASE_TAKE_RESPONSE. -/
def execLeaseTakeResponse (part : Nat) (old : BitVec 64) (s : State) : Host.Outcome State Fault Refusal :=
  s.run fun b => b.takeResponse part old

end Sys2Proof.Machine
end

