-- ==== Sys2Proof/Machine/MPort.lean ====
section
/-! DEFINITION. Error responses and missing responses on the master ports (02 R41), and the outcome each kind of request
has. -/

namespace Sys2Proof.Machine

open Sys2Proof

/-- The bit of AV_MPORT_ERR of an error response to a request kind, within a port's four. -/
def ReqKind.errBit : ReqKind → Nat
  | .read => 0
  | .write => 1
  | .cas => 2

/-- The case is set in AV_MPORT_ERR, counted and noted (R41). -/
def Block.recordFailure (b : Block) (r : Request) (timedOut : Bool) : Block :=
  let i := if timedOut then 3 else r.kind.errBit
  let b := { b with mport := { b.mport with err := b.mport.err ||| BitVec.ofNat 8 (2 ^ (i + 4 * r.port)) } }
  (b.countPort r.port).noteRec 0x0061 0 r.port i

/-- An entry in a stage completes ST_SG_FAULT (05 R119): engine 0xFF before dispatch, its own afterwards. -/
def Block.sgFault (b : Block) (k : Nat) (i : Index) (stage : Stage) (cause : Nat) (r : Request) (timedOut : Bool) : Block :=
  match b.entry? k i with
  | none => b
  | some e =>
    if e.stage = stage then
      b.finish e St.sgFault (sgDetail cause r.port timedOut) e.engine 0 (BitVec.ofNat 64 r.addr)
    else b

/-- A request of a raw channel fails (06 R135, R137): ERR and its cause, or, after DISABLE, one response fewer. -/
def Block.chanFailed (b : Block) (ch cause : Nat) (r : Request) (timedOut : Bool) : Block :=
  match (b.chan ch).run with
  | none => b
  | some x => if x.stopped then b.settleChan ch else b.chanError ch (sgDetail cause r.port timedOut) r.addr

/-- A failed interrupt message is reissued once after a tick, then dropped and recorded. -/
def Block.irqFailed (b : Block) (v : Nat) (r : Request) : Block :=
  if r.again then b.noteRec 0x0061 2 r.port 5
  else b.modVec v fun x => { x with reissue := x.reissue ++ [(b.now + 1, r.port, r.addr, r.data)] }

/-- The last response of work that was cut off leaves its channel idle (06 R134). -/
def Block.lateOutcome (b : Block) (was : Purpose) : Block :=
  match was with
  | .chanSrcList ch | .chanDstList ch | .chanRead ch _ | .chanWrite ch _ | .chanReadback ch => b.settleChan ch
  | _ => b

/-- What a failed request does to the work it serves. -/
def Block.failedOutcome (b : Block) (r : Request) (timedOut : Bool) : Block :=
  match r.purpose with
  | .fetch k | .poll k => b.fetchFailed k r
  | .completion k _ | .shadow k => b.writeFailed k r
  | .srcList k i => b.sgFault k i .lists 1 r timedOut
  | .dstList k i => b.sgFault k i .lists 2 r timedOut
  | .gather k i => b.sgFault k i .gather 3 r timedOut
  | .aux k i => b.sgFault k i .gather 4 r timedOut
  | .output k i => b.sgFault k i .writing 5 r timedOut
  | .readback k i => b.sgFault k i .readback 6 r timedOut
  | .irq v => b.irqFailed v r
  | .leaseRead _ => b
  | .leaseRenew p | .leaseTake p | .leaseGive p => b.leaseFailed p
  | .image => if b.img.st = 2 then b.failLoad 1 0 else b
  | .chanSrcList ch => b.chanFailed ch 1 r timedOut
  | .chanDstList ch => b.chanFailed ch 2 r timedOut
  | .chanRead ch _ => b.chanFailed ch 3 r timedOut
  | .chanWrite ch _ => b.chanFailed ch 5 r timedOut
  | .chanReadback ch => b.chanFailed ch 6 r timedOut
  | .discarded w => b.lateOutcome w

/-- A request has failed: recorded, its outcome, and the release of a partition whose twin is SHADOW (14 R329). -/
def Block.portFailed (b : Block) (r : Request) (timedOut : Bool) : Block :=
  (((b.retireReq r).recordFailure r timedOut).failedOutcome r timedOut).releaseFor r

/-- The outstanding request of an id; none while PORST_N is asserted, when every response is ignored (R42). -/
def Block.request? (b : Block) (id : Nat) : Option Request :=
  if b.mode.porstLow then none else b.mport.outst.find? fun r => r.id == id

/-- MPORT_ERROR_RESPONSE. -/
def execMportErrorResponse (req : Nat) (s : State) : Host.Outcome State Fault Refusal :=
  s.run fun b => match b.request? req with
    | some r => b.portFailed r false
    | none => b

/-- MPORT_TIMEOUT: 10,000 ticks after issue. -/
def execMportTimeout (req : Nat) (s : State) : Host.Outcome State Fault Refusal :=
  s.run fun b => match b.request? req with
    | some r => if r.issued + 10000 ≤ b.now then b.portFailed r true else b
    | none => b

/-- What the acceptance of a write does to the work that it serves: the read-back that follows the last output write (R40, 06
R133), the shadow word and the message that follow a completion (04 R84), the end of a fault (04 R91). -/
def Block.acceptedOutcome (b : Block) (r : Request) : Block :=
  match r.purpose with
  | .output k i => b.outputAccepted k i
  | .completion k _ | .shadow k => b.orderedAccepted k r
  | .chanWrite ch _ => b.chanAccepted ch r.len
  | .discarded w => b.lateOutcome w
  | _ => b

/-- WRITE_RESPONSE: the fabric accepts one outstanding write of a port (log entry 16). -/
def Block.writeAccepted (b : Block) (port req : Nat) : Block :=
  match b.request? req with
  | some r => if r.kind = .write ∧ r.port = port then (b.retireReq r).acceptedOutcome r else b
  | none => b

/-- WRITE_RESPONSE. -/
def execWriteResponse (port req : Nat) (s : State) : Host.Outcome State Fault Refusal :=
  s.run fun b => b.writeAccepted port req

end Sys2Proof.Machine
end

