-- ==== Sys2Proof/Machine/PayRun.lean ====
section
/-! DEFINITION. The runs of the payment firmware (11 R236, R239, R246 to R257). A row of a function stands for its firmware up to its
next call or channel block, and, once all have been made, up to its end (log entry 22). -/

namespace Sys2Proof.Machine

open Sys2Proof

/-- What the firmware of a function does next: a call, with the bay entry of its key, or a read of host memory into the channel
window. -/
inductive PayStep where
  | call (key : Option Nat) (r : CallRec)
  | read (addr n : Nat)
  deriving DecidableEq, Repr

/-! ## Calls (R257, 12 R280) -/

/-- Bank offsets at which the firmware of a function has its calls' output, and its fill (log entry 22). -/
def outputAt : Nat := 0x500
def fillAt : Nat := 0x600

/-- A call whose output of n bytes goes to the bank. -/
def toBank (target op : Nat) (src : Bytes) (n : Nat) (aux : Bytes := []) (param : Nat := 0) : CallRec :=
  { target, op, input := none, outEntry := 15, outKey := false, dstArea := 0, dstOff := outputAt, dstLen := n, src, aux, param }

/-- A derivation of n bytes of key into a bay entry. -/
def toBay (op : Nat) (src : Bytes) (n entry : Nat) (param : Nat := 0) : CallRec :=
  { toBank 5 op src n [] param with outEntry := entry, outKey := true }

/-- The target of a cipher's calls. -/
def cipherTarget (aes : Bool) : Nat := if aes then 1 else 2

/-- The cipher of a PIN format under a key. -/
def formatCipher (f : Nat) (key : Bytes) : Modes.Cipher := if f = 4 then Modes.aes key else Modes.tdea key

/-- The decryption of a PIN block of a format under the key in a bay entry: two chained AES blocks for format 4. -/
def openCalls (f entry : Nat) (key : Bytes) (pan : List Nat) (blk : Bytes) : List PayStep :=
  if f = 4 then
    [.call (some entry) (toBank 1 2 blk 16), .call (some entry) (toBank 1 2 (xorB ((Modes.aes key).dec blk) (Pay.panField 4 pan)) 16)]
  else [.call (some entry) (toBank 2 2 blk 8)]

/-- The encryption of a PIN field of a format. -/
def sealCalls (f entry : Nat) (pan : List Nat) (x : Bytes) : List PayStep :=
  if f = 4 then [.call (some entry) (toBank 1 8 x 16 (Pay.panField 4 pan))]
  else [.call (some entry) (toBank 2 1 (if f = 0 ∨ f = 3 then xorB x (Pay.panField f pan) else x) 8)]

/-- The draw of a format's fill, at the priority of signature nonces (R243). -/
def fillCalls (f : Nat) : List PayStep :=
  if Pay.fillBytes f = 0 then [] else [.call none { toBank 8 1 [] (Pay.fillBytes f) [] 3 with dstOff := fillAt }]

/-- A PIN block opened under one key and sealed under another, with the fill between (R246 steps 3 to 6). -/
def Entry.translateCalls (e : Entry) (fi inE : Nat) (inKey : Bytes) (fo outE : Nat) (src : Bytes) : List PayStep :=
  let x := Pay.pinOpen fi (formatCipher fi inKey) e.pan src
  openCalls fi inE inKey e.pan src ++ fillCalls fo ++ sealCalls fo outE e.pan (Pay.pinField fo (Pay.pinDigits x) e.rnd)

/-- The key serial number of a DUKPT function. -/
def Entry.ksn (e : Entry) : Bytes := e.aux.take (if e.d.dukptAes then 12 else 10)

/-- KEY_TYPE of a DUKPT function; a value that is not permitted runs on as AES-128 (R239). -/
def Entry.keyType (e : Entry) : Nat := let t := (nth 0 e.aux 0x0D).toNat; if upTo 2 4 t then t else 2

/-- The number of a working key's use as a call names it. -/
def useNumber : Pay.Use → Nat
  | .pin => 1
  | .mac false => 2
  | .mac true => 3
  | .data false => 4
  | .data true => 5

/-- Operation, data, length and PARAM of the derivations of a DUKPT function (R251): the initial key, a step for each one bit of
the counter, the working key. -/
def Entry.derivations (e : Entry) (use : Pay.Use) (typ : Nat) : List (Nat × Bytes × Nat × Nat) :=
  let ksn := e.ksn
  let c := Pay.counter e.d.dukptAes ksn
  if e.d.dukptAes then
    let data := fun (usage typ : Nat) (tail : Bytes) => (5, [1, 1] ++ toBE 2 usage ++ toBE 2 typ ++ toBE 2 (64 * typ) ++ tail, 8 * typ, 0)
    let device := slice 4 4 ksn
    [data 0x8001 4 (ksn.take 8)] ++ (Pay.counterSteps 32 c).map (fun x => data 0x8000 4 (device ++ toBE 4 x)) ++
      [data (Pay.aesUsage use) typ (device ++ slice 8 4 ksn)]
  else
    let base := ofBE ksn / 2 ^ 21 * 2 ^ 21
    [(3, ksn, 16, 0)] ++ (Pay.counterSteps 21 c).map (fun x => (4, (toBE 10 (base + x)).drop 2, 16, 0)) ++ [(4, zeros 8, 16, useNumber use)]

/-- Derivations as calls: each takes the key that the one before left, the first that of K1; two bay entries take turns. -/
def chainCalls (first : Nat) (l : List (Nat × Bytes × Nat × Nat)) : List PayStep :=
  l.zipIdx.map fun x =>
    .call (some (if x.2 = 0 then 0 else first + (x.2 - 1) % 2)) (toBay x.1.1 x.1.2.1 x.1.2.2.1 (first + x.2 % 2) x.1.2.2.2)

/-- The bay entry that a chain of n derivations leaves its key in. -/
def chainEnd (first n : Nat) : Nat := first + (n - 1) % 2

/-- Derivations of an EMV function (R253): the ICC master key, and the session key where the method has one. -/
def Entry.emvDerivations (e : Entry) : List (Nat × Bytes × Nat × Nat) :=
  let m := e.d.var % 16
  let l := e.pan ++ Pay.nibbles (slice 0x10 1 e.aux)
  let n := if m = 2 then (e.payKey 0).length else 16
  let digits := if m = 2 then 32 else 16
  let l := l.drop (l.length - digits)
  [(6, Pay.ofNibbles (List.replicate (digits - l.length) 0 ++ l), n, 0)] ++ (if m = 1 then [] else [(7, slice 0x11 2 e.aux, n, 0)])

/-- The MAC of an EMV function over data. -/
def Entry.emvMacCall (e : Entry) (data : Bytes) (n : Nat) : PayStep :=
  .call (some (chainEnd 2 e.emvDerivations.length))
    (if e.d.var % 16 = 2 then toBank 1 5 data n else toBank 2 7 data n [] (at_ 8 2))

/-- The second call of EMV_ARPC_GENERATE: an encryption for method 1, a MAC for method 2 (R254). -/
def Entry.arpcCall (e : Entry) : PayStep :=
  let arqc := slice 0x18 8 e.aux
  if e.d.var / 16 = 0 then
    let aes := e.d.var % 16 == 2
    let n := if aes then 16 else 8
    .call (some (chainEnd 2 e.emvDerivations.length)) (toBank (cipherTarget aes) 1 (fit n (xorB arqc (fit 8 (slice 0x20 2 e.aux)))) n)
  else e.emvMacCall (arqc ++ slice 0x20 4 e.aux ++ slice 0x24 (nth 0 e.aux 0x2C).toNat e.aux) 4

/-- The block that PIN_VERIFY encrypts under K2 (R247). -/
def Entry.verifyBlock (e : Entry) (src : Bytes) : Bytes :=
  if e.d.var / 16 = 0 then slice 0x10 8 e.aux
  else
    let f := e.d.var % 16
    let pin := Pay.pinDigits (Pay.pinOpen f (formatCipher f (e.payKey 0)) e.pan src)
    fit 8 (Pay.ofNibbles (Pay.rightmost 11 e.pan ++ [(nth 0 e.aux 0x10).toNat % 16] ++ fitDigits pin))
where
  /-- The first four digits, zeros after a shorter PIN. -/
  fitDigits (pin : List Nat) : List Nat := (pin ++ [0, 0, 0, 0]).take 4

/-- The calls of a function other than SLH_VERIFY in order (R257): they do not depend on whether a check has failed (R239), but a
record that fails leaves K2 of EMV_SESSION_DERIVE unwritten. -/
def Entry.payCalls (e : Entry) (src : Bytes) : List PayStep :=
  let d := e.d
  let aes := d.dukptAes
  let fo := (e.formats.2).getD 0
  let dukpt := fun (first : Nat) (use : Pay.Use) (typ : Nat) =>
    (chainCalls first (e.derivations use typ), chainEnd first (e.derivations use typ).length)
  let len := (nth 0 e.aux 0x0F).toNat
  match d.op with
  | 0x01 => e.translateCalls (d.var % 16) 0 (e.payKey 0) fo 1 src
  | 0x02 => openCalls (d.var % 16) 0 (e.payKey 0) e.pan src ++ [.call (some 1) (toBank 2 1 (e.verifyBlock src) 8)]
  | 0x10 =>
    let (l, w) := dukpt 1 (.data e.response) e.keyType
    l ++ [.call (some w) { toBank (cipherTarget aes) 4 src src.length (slice 0x10 (if aes then 16 else 8) e.aux) with dstArea := 2, dstOff := 0 }]
  | 0x11 =>
    let (l, w) := dukpt 2 .pin 2
    l ++ e.translateCalls (if aes then 4 else (nth 0 e.aux 0x0E).toNat % 4) w (e.dukptKey .pin 2) fo 1 src
  | 0x12 =>
    let (l, w) := dukpt 1 (.mac e.response) e.keyType
    l ++ [.call (some w) (if aes then toBank 1 5 src (max 1 (min 16 len)) else toBank 2 7 src (max 1 (min 8 len)) [] (at_ 8 1))]
  | 0x20 | 0x22 => chainCalls 2 e.emvDerivations ++ [e.emvMacCall src 8]
  | 0x21 => chainCalls 2 e.emvDerivations ++ [e.emvMacCall src 8, e.arpcCall]
  | 0x23 => chainCalls 2 e.emvDerivations ++
      (if e.recordFault.isSome then [] else [.call none { toBank 7 1 [] 0 with outEntry := chainEnd 2 e.emvDerivations.length }])
  | 0x30 =>
    let aes := upTo 3 5 (e.payCode 0)
    let b := if aes then 16 else 8
    [.call (some 0) (if d.var = 0 then toBank (cipherTarget aes) 1 (zeros b) b else toBank (cipherTarget aes) 5 (zeros b) 5)]
  | _ => []

/-! ## SLH_VERIFY (R256) -/

/-- The parameter set of an SLH_VERIFY descriptor. -/
def Desc.slhSet (d : Desc) : Slh.Params := nth (Slh.Params.mk false 0 0 0 0 0 0) (Slh.sizes (d.var % 2 == 1)) ((d.var - 1) / 2)

/-- Windows of 16 KiB in which the signature is read. -/
def Entry.windows (e : Entry) : Nat := ceilDiv (ofLE (slice 8 4 e.aux)) 16384

/-- Step i of SLH_VERIFY: the signature's windows, then H hash calls. What each hash call hashes and where its output goes are
the firmware's affair and come with the command; the verdict is that of FIPS 205 (log entry 22). -/
def Entry.slhStep (e : Entry) (i : Nat) (hashed : Bytes) (off : Nat) : Option PayStep :=
  let len := ofLE (slice 8 4 e.aux)
  let n := slhN e.d.var
  let sha2 := e.d.var % 2 == 1
  if i < e.windows then some (.read (ofLE (e.aux.take 8) + 16384 * i) (min 16384 (len - 16384 * i)))
  else if i < e.windows + Cost.slhCalls e.d.var then
    let r := if sha2 then toBank 3 1 hashed 32 [] 2 else toBank 4 2 hashed n [] 10
    some (.call none { r with dstOff := min off (4096 - r.dstLen) })
  else none

/-- Step i of a function's run; none when all its calls have been made. The last two are SLH_VERIFY's. -/
def Entry.payStep (e : Entry) (src : Bytes) (i : Nat) (hashed : Bytes := []) (off : Nat := outputAt) : Option PayStep :=
  if e.d.op = 0x40 then e.slhStep i hashed off else (e.payCalls src)[i]?

/-! ## Runs -/

/-- The 32-byte channel block that reads n bytes at an address into the window (12 R281). -/
def windowBlock (addr n : Nat) : Bytes := toBE 8 addr ++ zeros 8 ++ toBE 4 n ++ toBE 4 4 ++ zeros 8

/-- The refusal of check 5 that a function's firmware has found when it draws fill: of its record, or of the PIN field that it
has decrypted. -/
def Entry.refused (e : Entry) (src : Bytes) : Option Result :=
  match e.recordFault with
  | some (st, det) => some (Result.bad st det)
  | none => let r := e.payResult src []; if r.status = St.ok then none else some r

/-- The function of context c makes its next call or channel block. One that needs the window while another context holds it
waits. -/
def Block.payPost (b : Block) (u : Nat) (c : Fin 8) (e : Entry) (src : Bytes) (s : PayStep) : Block :=
  let count := fun (b : Block) => b.modCx u c fun x => { x with run := x.run + 1 }
  match s with
  | .call key r =>
    let input := match key with | some i => Table.get none (b.cx u c).bay i | none => none
    let b := if r.target = 8 then b.modEntry e.ring e.sub fun e => { e with res := e.refused src } else b
    (count b).postCall u c { r with input } false
  | .read addr n => if b.windowHeld u c then b else (count b).pushBlock u c (windowBlock addr n) true

/-- What the last block of the function read is taken out of the window. -/
def Block.payTaken (b : Block) (u : Nat) (c : Fin 8) (e : Entry) (src : Bytes) : Bytes :=
  let x := b.cx u c
  match (if x.run = 0 then none else e.payStep src (x.run - 1)) with
  | some (.read _ n) => x.got ++ bankRead (b.core u).window 0 n
  | _ => x.got

/-- The function's last channel block ended with ERR: ST_SG_FAULT, with the channel's cause where the read itself failed, and the
address of the failing request (R256, 05 R115, R119, 06 R135). -/
def Block.payReadFault (b : Block) (u : Nat) (c : Fin 8) (e : Entry) (src : Bytes) : Option Result :=
  let x := b.cx u c
  match (if x.run = 0 then none else e.payStep src (x.run - 1)) with
  | some (.read addr _) =>
    if x.mcs.getLsbD 1 then
      let cause := field x.mcs.toNat 15 8
      let read := cause % 64 == 3
      some { status := St.sgFault, detail := if read then cause else 3
             result := BitVec.ofNat 64 (if read then (b.chan (b.fwChan u)).errAddr else addr) }
    else none
  | _ => none

/-- A payment function runs on (R236, R239, R242): its keys' attributes come first; it waits for the call or channel block that
is outstanding; it makes the next; after the last it ends with the refusal of its record or with its result. -/
def Block.payOn (b : Block) (u : Nat) (c : Fin 8) (op : Nat) (hashed : Bytes := []) (off : Nat := outputAt) : Block :=
  match b.onCore u c op with
  | none => b
  | some e =>
    let x := b.cx u c
    if x.call.isSome || x.block then b else
    let src := b.input e
    match (if x.run = 0 then b.payAttr e else none), b.payReadFault u c e src with
    | some det, _ => b.endPay u c e (Result.bad St.keyUsage det)
    | none, some r => b.endPay u c e r
    | none, none =>
      let got := b.payTaken u c e src
      let e' := { e with rnd := bankRead x.bank fillAt (Pay.fillBytes ((e.formats.2).getD 0)) }
      match (if op = 0x40 && e.fieldFault then none else e'.payStep src x.run hashed off) with
      | some s => (b.modCx u c fun x => { x with got }).payPost u c e src s
      | none => match e.recordFault with
        | some (st, det) => b.endPay u c e (Result.bad st det)
        | none => b.endPay u c e (e'.payResult src got)

/-- PIN_TRANSLATE. -/
def execPinTranslate (core ctx : Nat) (s : State) : Host.Outcome State Fault Refusal := s.run fun b => b.payOn (core - 188) (ctxIx ctx) 0x01

/-- PIN_VERIFY. -/
def execPinVerify (core ctx : Nat) (s : State) : Host.Outcome State Fault Refusal := s.run fun b => b.payOn (core - 188) (ctxIx ctx) 0x02

/-- DUKPT_DECRYPT. -/
def execDukptDecrypt (core ctx : Nat) (s : State) : Host.Outcome State Fault Refusal := s.run fun b => b.payOn (core - 188) (ctxIx ctx) 0x10

/-- DUKPT_PIN_TRANSLATE. -/
def execDukptPinTranslate (core ctx : Nat) (s : State) : Host.Outcome State Fault Refusal := s.run fun b => b.payOn (core - 188) (ctxIx ctx) 0x11

/-- DUKPT_MAC_VERIFY. -/
def execDukptMacVerify (core ctx : Nat) (s : State) : Host.Outcome State Fault Refusal := s.run fun b => b.payOn (core - 188) (ctxIx ctx) 0x12

/-- EMV_ARQC_VERIFY. -/
def execEmvArqcVerify (core ctx : Nat) (s : State) : Host.Outcome State Fault Refusal := s.run fun b => b.payOn (core - 188) (ctxIx ctx) 0x20

/-- EMV_ARPC_GENERATE. -/
def execEmvArpcGenerate (core ctx : Nat) (s : State) : Host.Outcome State Fault Refusal := s.run fun b => b.payOn (core - 188) (ctxIx ctx) 0x21

/-- EMV_SCRIPT_MAC. -/
def execEmvScriptMac (core ctx : Nat) (s : State) : Host.Outcome State Fault Refusal := s.run fun b => b.payOn (core - 188) (ctxIx ctx) 0x22

/-- EMV_SESSION_DERIVE. -/
def execEmvSessionDerive (core ctx : Nat) (s : State) : Host.Outcome State Fault Refusal := s.run fun b => b.payOn (core - 188) (ctxIx ctx) 0x23

/-- KCV. -/
def execKcv (core ctx : Nat) (s : State) : Host.Outcome State Fault Refusal := s.run fun b => b.payOn (core - 188) (ctxIx ctx) 0x30

/-- SLH_VERIFY. -/
def execSlhVerify (core ctx : Nat) (hashed : Bytes) (off : Nat) (s : State) : Host.Outcome State Fault Refusal :=
  s.run fun b => b.payOn (core - 188) (ctxIx ctx) 0x40 hashed off

end Sys2Proof.Machine
end

