-- ==== Sys2Proof/Machine/RegRead.lean ====
section
/-! DEFINITION. Reads of the register aperture (02 R32 to R36, 00 R8, R9): the value of every register from the state, and
the fields that a read clears. A register is named by the address of its 64-bit word; a 32-bit register is the low half of
one. -/

namespace Sys2Proof.Machine

open Sys2Proof

/-- A register word from its fields, each a lowest bit, a width and a value. -/
def packed (fs : List (Nat × Nat × Nat)) : Nat := sumBy (fun x => at_ x.1 (x.2.2 % 2 ^ x.2.1)) fs

/-- A word of n equal fields of w bits. -/
def packedBy (w n : Nat) (f : Nat → Nat) : Nat := packed ((List.range n).map fun i => (w * i, w, f i))

/-- A number in two's complement of w bits. -/
def signed (w : Nat) (x : Int) : Nat := (BitVec.ofInt w x).toNat

/-- A count that shows at most 2^w - 1. -/
def capped (w n : Nat) : Nat := min n (2 ^ w - 1)

/-! ## Identity and capabilities (02 R34, 03 R63) -/

/-- AV_ID of revision B0. -/
def idWord : Nat := packed [(0, 4, 0), (4, 4, 2), (8, 16, 0x0960), (24, 8, 0x7E), (32, 32, 0x57414C58)]

/-- The body of capability k in 32-bit words (08 R194, 09 R213, 11 R259, 16 R355). -/
def Block.capBody (f : Fuses) (b : Block) (k : Nat) : List Nat :=
  let image := fun (n : Nat) => if b.mode.imgLoaded then n else 0
  match k with
  | 1 => [idWord % 2 ^ 32, idWord / 2 ^ 32, f.serial.toNat % 2 ^ 32, f.serial.toNat / 2 ^ 32]
  | 2 => [65536, 1048576, 4]
  | 3 => [1, 65535, image (b.img.inForce.rings.filter fun r => r.2.pollAllowed).length]
  | 4 => [image b.img.inForce.pers.length, 0x2300]
  | 5 => [16384, 0xFF]
  | 6 => [0x77]
  | 7 => [image (Config.firmwareWord b.img.imageId 0).toNat, image (Config.firmwareWord b.img.imageId 1).toNat]
  | 8 => [1, 0x6000]
  | 9 => [16, 0x3000]
  | 10 => [f.fusedOff.toNat, 0x300000]
  | 11 => [65536, 0x200000]
  | 12 => [0x2000]
  | 13 => [0x4000]
  | _ => []

/-- A word of the first 4 KiB of the global window. -/
def Block.identityReg (f : Fuses) (b : Block) (a : Nat) : Nat :=
  if a = 0 then idWord
  else if a = 8 then 0x100
  else if a < 0x100 ∨ 0x100 + 13 * 0x40 ≤ a then 0
  else
    let k := (a - 0x100) / 0x40 + 1
    let o := (a - 0x100) % 0x40
    if o = 0 then packed [(0, 16, k), (16, 8, 1), (32, 32, 0x40)]
    else if o = 8 then (if k = 13 then 0 else 0x100 + k * 0x40)
    else
      let body := b.capBody f k
      packed [(0, 32, nth 0 body ((o - 16) / 4)), (32, 32, nth 0 body ((o - 16) / 4 + 1))]

/-! ## Modes (03 R57, 13 R309) -/

/-- AV_MODE, AV_GLOBAL_STATUS and AV_RESET. -/
def Block.modeReg (f : Fuses) (b : Block) (a : Nat) : Nat :=
  let m := b.mode
  match a with
  | 0x1000 => packed [(0, 3, m.mode.code), (3, 1, flag m.transition.isSome), (8, 1, flag m.reqRefused), (12, 4, m.lockCause)]
  | 0x1008 => packed [(0, 1, flag m.ready), (1, 1, flag m.halted), (4, 4, m.haltCause), (8, 3, m.bootStep), (11, 1, flag m.henSeeded),
      (12, 1, flag m.imgLoaded), (13, 1, flag m.calDone), (14, 1, flag b.degraded), (15, 1, flag f.factoryOpen)]
  | 0x1010 => packed [(8, 1, flag m.warm.isSome), (9, 1, flag m.handoverFailed), (16, 16, m.warmCount)]
  | _ => 0

/-! ## Health, store, lanes, units (03, 06, 07 R167, 08 R194, 09 R213, 10 R233, 11 R259) -/

/-- The six counts of AV_AVAIL and AV_SPARES. -/
def sixCounts (l : List Nat) : Nat :=
  packed [(0, 8, nth 0 l 0), (8, 8, nth 0 l 1), (16, 8, nth 0 l 2), (24, 8, nth 0 l 3), (32, 8, nth 0 l 4), (40, 2, nth 0 l 5)]

/-- AV_PERS of index i. -/
def Block.persReg (b : Block) (i : Nat) : Nat :=
  match b.persCfg? i with
  | none => 0
  | some c =>
    let s := b.persState i
    packed [(0, 16, c.id), (16, 8, (b.dataLanes.filter fun l => (b.lane l).role == .data i).length), (24, 8, s.target),
      (32, 16, capped 16 s.queue.length), (48, 1, flag (c.maskOrder == 2)), (49, 1, flag (b.unservable i)), (50, 7, s.minNow)]

/-- AV_LANE_ASSIGN of lane l. -/
def Block.assignByte (b : Block) (l : Nat) : Nat :=
  let x := b.lane l
  if !b.inService l then 0xFF
  else if x.switchTo.isSome then 0xFD
  else match x.role with
    | .data p => p
    | .loading _ | .keyLoading => 0xFD
    | .key => 0xFE
    | .none => 0xFF

/-- Lanes in service. -/
def Block.lanesInService (b : Block) : List Nat := laneType.units.filter b.inService

/-- AV_KEY_STATS (10 R233). -/
def Block.keyStats (b : Block) : Nat :=
  let count := fun (p : SlotRec → Bool) => (b.keys.slots.filter fun x => p x.2).length
  packed [(0, 16, count fun s => s.st == .live || s.st == .reserved), (16, 16, count fun s => s.st != .empty),
    (32, 8, capped 8 (count fun s => s.st == .draining && s.chain != 0)), (40, 8, capped 8 b.keys.queue.length), (48, 16, b.keys.authFail)]

/-- Units of a type with a job. -/
def Block.busyUnits (b : Block) (t : UnitType) : Nat := (t.units.filter fun u => (b.mathUnit u).job.isSome).length

/-- Functions dispatched and not completed. -/
def Block.functions (b : Block) : Nat := sumBy (fun k => (k.2.ctxs.toList.filter fun c => c.fn.isSome).length) b.pay.cores

/-- The registers of the health range. -/
def Block.healthReg (b : Block) (a : Nat) : Nat :=
  let h := b.health
  let ln := b.lanes
  let ox := b.ox
  let lt := b.lat
  match a with
  | 0x2000 => sixCounts b.avail
  | 0x2008 => if b.mode.bistDone then sixCounts ([laneType, oxType, latType, drakeType, bankType].map fun t => b.countUnits t .spare) else 0
  | 0x2010 => packed [(0, 16, h.quarantines), (16, 16, h.retestPass), (32, 16, h.retirements), (48, 16, h.promotions)]
  | 0x2200 => packed [(0, 32, b.store.corrected), (32, 16, b.store.uncorrectable), (48, 8, b.store.lastBank)]
  | 0x2208 => packed [(0, 24, b.allocKib), (24, 24, (b.poolLines - b.poolUsed) / 16),
      (48, 12, (b.partitions.filter fun p => (b.stagingWait p).isSome).length)]
  | 0x2500 => packed [(0, 16, ln.switches), (16, 16, ln.starve), (32, 8, ln.lastSwitched), (40, 24, ln.evaluations)]
  | 0x2508 => packed [(0, 16, ln.single), (16, 16, ln.double), (32, 16, ln.reenc), (48, 7, ln.lastLane)]
  | 0x2510 => packed [
      (0, 8, (b.lanesInService.filter fun l => (b.lane l).seedAsked && decide (2 ^ 16 ≤ (b.lane l).blocks)).length),
      (8, 8, (b.lanesInService.filter fun l => decide (maskLimit ≤ (b.lane l).blocks)).length), (16, 32, ln.reseeds)]
  | 0x2600 => packed [(0, 8, b.busyUnits oxType), (8, 4, b.longActive), (16, 24, capped 24 ox.queue.length),
      (40, 8, if b.longActive < 8 then 0 else capped 8 (ox.queue.filter fun i => b.longJob i.job).length)]
  | 0x2608 => packed [(0, 16, ox.single), (16, 16, ox.double), (32, 16, ox.recheck), (48, 8, ox.lastUnit)]
  | 0x2610 => packed [(0, 32, ox.validation), (32, 16, ox.timeouts), (48, 16, ox.entropy)]
  | 0x2618 => packed [(0, 32, ox.candidates), (32, 16, ox.primes), (48, 8, ox.max100ms)]
  | 0x2700 => packed [(0, 8, b.busyUnits latType), (16, 24, capped 24 lt.queue.length)]
  | 0x2708 => packed [(0, 16, lt.single), (16, 16, lt.double), (32, 16, lt.recheck), (48, 8, lt.lastUnit)]
  | 0x2710 => packed [(0, 32, lt.validation), (32, 16, lt.timeouts), (48, 16, lt.entropy)]
  | 0x2718 => packed [(0, 32, lt.signs), (32, 16, lt.maxIter), (48, 16, lt.over32)]
  | 0x2800 => b.keyStats
  | 0x2900 => packed [(0, 8, b.functions), (16, 24, capped 24 b.pay.queue.length), (40, 8, b.pay.lastTrapCore), (48, 8, b.pay.lastTrapCause)]
  | 0x2908 => packed [(0, 16, b.pay.formatRefused), (16, 16, b.pay.pinMismatch), (32, 16, b.pay.dukptExhausted), (48, 8, b.pay.traps),
      (56, 8, b.pay.coreRetries)]
  | a =>
    if 0x2100 ≤ a ∧ a ≤ 0x2140 then packedBy 2 32 fun i => (b.unit (32 * ((a - 0x2100) / 8) + i)).st.code
    else if 0x2210 ≤ a ∧ a ≤ 0x2228 then
      let i := (a - 0x2210) / 8
      let r := nth (0, 0) b.img.inForce.storeMap i
      packed [(0, 32, r.1), (32, 32, if i = 0 then r.2 - 768 * b.store.reduced else r.2)]
    else if 0x2300 ≤ a ∧ a ≤ 0x24F8 then b.persReg ((a - 0x2300) / 8)
    else if 0x2520 ≤ a ∧ a ≤ 0x2588 then packedBy 8 8 fun i => b.assignByte ((a - 0x2520) + i)
    else 0

/-! ## HEN (15 R349) -/

/-- The registers of HEN that a read leaves as they are. -/
def Block.henReg (b : Block) (a : Nat) : Nat :=
  let h := b.hen
  let waiting := fun (p : Nat) => capped 12 (h.waiting.filter fun r => r.prio == p).length
  match a with
  | 0x3000 => packed [(0, 1, flag (h.phase == .running && !h.testEn)), (1, 1, flag (h.insts.all fun i => i.seeded)), (2, 1, flag (h.phase == .stopped)),
      (3, 1, flag h.startupFail), (4, 1, h.failSource), (5, 2, h.failTest), (7, 1, flag h.testEn), (8, 1, flag h.rngEmpty),
      (16, 7, h.pool.length)]
  | 0x3010 => packed [(0, 16, h.rct0), (16, 16, h.apt0), (32, 16, h.rct1), (48, 16, h.apt1)]
  | 0x3018 => packed [(0, 32, h.reseeds), (32, 16, h.prReseeds), (48, 16, h.deadline)]
  | 0x3020 => packed [(0, 12, waiting 1), (12, 12, waiting 2), (24, 12, waiting 3), (36, 12, waiting 4), (48, 12, waiting 5)]
  | 0x3028 => packed [(0, 1, flag h.testEn), (1, 2, h.sources.toNat), (4, 1, flag h.rawSel), (8, 1, flag h.testRefused)]
  | 0x3030 => h.pattern.toNat
  | _ => 0

/-! ## Time base, governors (01 R22, 13 R309, 18 R395) -/

/-- AV_TIME_STATUS, AV_TIME_LAG and AV_TICK. -/
def Block.timeReg (b : Block) (a : Nat) : Nat :=
  let t := b.time
  match a with
  | 0x4000 => packed [(0, 1, flag t.timeValid), (1, 1, flag t.synced), (2, 1, flag t.holdover), (3, 1, flag t.hold), (4, 1, flag t.slew),
      (8, 1, flag t.holdoverSeen), (9, 1, flag t.backSeen), (10, 1, flag t.jumpSeen), (11, 1, flag t.slewSeen)]
  | 0x4008 => t.lag
  | 0x4010 => t.sched.toNat
  | _ => 0

/-- The hottest sensor of a list of sensors and its number. -/
def Power.hottest (w : Power) (ss : List Nat) : Nat × Int :=
  match argMax (fun i => nth 0 w.tj i) ss with
  | some i => (i, nth 0 w.tj i)
  | none => (0, 0)

/-- A byte of AV_DOMAIN_FREQ. -/
def Power.freqByte (w : Power) (d : Nat) : Nat :=
  if d = 139 then 0xFF else if 139 < d ∨ w.stopped.contains d then 0 else nth 0 w.freq d

/-- The registers of the governors range. -/
def Block.governorReg (b : Block) (a : Nat) : Nat :=
  let q := b.sched
  let w := b.power
  let view := b.part q.qosSel.toNat
  match a with
  | 0x5040 => packed [(0, 7, q.satFrame.toNat), (8, 7, q.satPeriod.toNat), (32, 32, q.satFrames)]
  | 0x5048 => q.qosSel.toNat
  | 0x5088 => q.frames.toNat
  | 0x5100 => packed [(0, 8, w.code), (8, 8, w.codeMin), (16, 8, w.codeMax), (24, 1, flag w.pllUnlock), (25, 1, flag !w.raising.isEmpty),
      (32, 16, w.codeChanges)]
  | 0x5108 =>
    let x := w.hottest (List.range 32)
    packed [(0, 16, signed 16 x.2), (16, 3, x.1 / 4), (24, 8, packedBy 1 8 fun r => flag (decide (nth 16 w.ceiling r < 16))),
      (32, 8, packedBy 1 8 fun r => flag (nth false w.clamped r)), (48, 16, w.clamps)]
  | a =>
    if 0x5000 ≤ a ∧ a ≤ 0x5030 then
      let c := (a - 0x5000) / 8
      packed [(0, 32, nth 0 q.caps c / Cost.ns), (32, 16, b.classUnits c),
        (48, 16, (b.partitions.filter fun p => b.waitsFor p == some c).length)]
    else if 0x5050 ≤ a ∧ a ≤ 0x5080 then
      let c := (a - 0x5050) / 8
      packed [(0, 32, signed 32 (nth 0 view.balance c / Cost.ns)), (32, 32, nth 0 view.alloc c / Cost.ns)]
    else if a = 0x5110 ∨ a = 0x5118 then
      packedBy 16 4 fun r => signed 16 (w.hottest ((List.range 4).map fun s => 4 * (4 * ((a - 0x5110) / 8) + r) + s)).2
    else if 0x5200 ≤ a ∧ a ≤ 0x5288 then packedBy 8 8 fun i => if b.gatedNow ((a - 0x5200) + i) then 0 else w.freqByte ((a - 0x5200) + i)
    else 0

/-! ## Twin port (14 R335) -/

/-- Words of the commit entries of partition p that have been sent and not acknowledged. -/
def Block.backlog (b : Block) (p : Nat) : Nat :=
  let filling := fun (e : Entry) => b.twin.fill.any fun i => i.ring == e.ring && i.subIndex == e.sub
  sumBy (fun e => match e.done with
    | some c => 2 + sumBy Delta.words (e.deltas c.status)
    | none => 0) (b.entries.filter fun e => e.part == p && e.stage == .commit && !filling e)

/-- A copy of state to or from the twin is in progress. -/
def Block.copying (b : Block) : Bool := b.pairedParts.any fun p => b.role p == .syncSource || b.role p == .syncTarget

/-- The registers of the twin port. -/
def Block.twinReg (b : Block) (a : Nat) : Nat :=
  let t := b.twin
  let p := t.sel.toNat
  match a with
  | 0x6000 => packed [(0, 1, flag t.linkUp), (1, 1, flag t.session.isSome), (2, 1, flag t.record), (3, 1, t.side), (4, 1, flag t.lost),
      (5, 1, flag (t.hs.isSome || b.copying)), (6, 1, flag t.detaching), (7, 1, flag (t.peer.isSome && !t.qualifies)),
      (8, 1, flag t.lossSeen), (9, 1, flag t.fencedSeen), (10, 1, flag t.authFail), (16, 16, t.hbAge)]
  | 0x6008 => t.serial.toNat
  | 0x6010 => at_ 15 t.leaseBase.toNat
  | 0x6018 => p
  | 0x6020 => packed [(0, 3, (b.role p).code), (3, 1, flag (b.cfg p).home), (8, 16, leaseEpoch (b.part p).tw.lease), (32, 32, capped 32 (b.backlog p))]
  | 0x6028 => packed [(0, 16, t.takeovers), (16, 16, t.handovers), (32, 16, t.releases), (48, 16, t.fences)]
  | 0x6030 => packed [(0, 16, t.crcErr), (16, 16, t.tagErr), (32, 16, t.replays), (48, 16, t.sessions)]
  | 0x6038 => packed [(0, 32, t.bpTicks), (32, 32, t.commits)]
  | _ => 0

/-! ## Ports, raw channels, image load (02, 06, 03) -/

/-- The port and time-input error registers. -/
def Block.portReg (b : Block) (a : Nat) : Nat :=
  let p := b.sport
  match a with
  | 0x7000 => packed [(0, 1, flag p.sizeErr), (1, 1, flag p.alignErr), (2, 1, flag p.ownerErr), (4, 12, p.firstTag), (32, 29, p.firstAddr)]
  | 0x7008 => p.count
  | 0x7010 => b.mport.err.toNat
  | 0x7018 => packed [(0, 32, b.mport.count0), (32, 32, b.mport.count1)]
  | 0x7020 => packed [(0, 16, b.time.badNs), (16, 16, b.time.stbTimeouts)]
  | _ => 0

/-- A register of raw channel k. -/
def Block.chanWord (b : Block) (k off : Nat) : Nat :=
  let c := b.chan k
  match off with
  | 0x00 => c.src.toNat
  | 0x08 => c.dst.toNat
  | 0x10 => c.count.toNat
  | 0x18 => packed [(2, 1, flag c.srcSg), (3, 1, flag c.dstSg), (4, 3, c.swap), (8, 1, flag (c.irqEn && decide (k < 48))), (16, 14, c.vector),
      (32, 12, c.part)]
  | 0x20 => packed [(0, 1, flag c.run.isSome), (1, 1, flag c.done), (2, 1, flag c.err), (3, 1, flag c.disabled), (4, 1, flag c.descending),
      (5, 1, flag c.startRefused), (6, 1, flag c.busyWrite), (7, 1, c.port), (8, 8, c.cause)]
  | 0x28 => c.errAddr
  | _ => 0

/-- The image load registers. -/
def Block.imageReg (f : Fuses) (b : Block) (a : Nat) : Nat :=
  let i := b.img
  match a with
  | 0x10000 => at_ 6 i.addr.toNat
  | 0x10008 => packed [(8, 1, flag i.startRefused)]
  | 0x10010 => packed [(0, 4, i.st), (8, 8, i.reason), (16, 16, i.loads)]
  | 0x10018 => i.imageId.toNat
  | 0x10020 => packed [(0, 7, f.rollback), (8, 1, flag i.advanceTo.isSome)]
  | 0x10028 => i.faultOff
  | _ => 0

/-! ## Interrupts (02 R43, 13 R300, R302) -/

/-- A word of the vector table: message address, then message data and vector control. -/
def Block.vectorReg (b : Block) (a : Nat) : Nat :=
  let x := b.vec ((a - 0x100000) / 16)
  if a % 16 = 0 then x.addr.toNat else packed [(0, 32, x.data.toNat), (32, 1, flag x.masked)]

/-- A word of the moderation table. -/
def Block.moderationReg (b : Block) (a : Nat) : Nat :=
  let x := b.vec ((a - 0x180000) / 16)
  if a % 16 = 0 then packed [(0, 16, x.countThresh), (32, 32, x.timeThresh)]
  else packed [(0, 16, x.pending), (32, 1, flag x.wake), (33, 1, flag x.woke), (34, 1, flag x.due)]

/-- A word of the pending bit array. -/
def Block.pbaReg (b : Block) (a : Nat) : Nat := packedBy 1 64 fun i => flag (decide (0 < (b.vec (8 * (a - 0x140000) + i)).pending))

/-! ## Sentinel and recorder (16 R367, 17 R382) -/

/-- The sentinel registers. -/
def Block.ganderReg (f : Fuses) (b : Block) (a : Nat) : Nat :=
  let g := b.gander
  let bits := fun (p : SrcRec → Bool) => packedBy 1 19 fun s => flag (p (nth {} g.sources s))
  match a with
  | 0x300000 =>
    let ceremony := g.openCeremony b.now
    packed [(0, 1, flag g.vencPresent), (1, 1, flag g.lockLatch), (2, 1, flag g.eraseLatch), (3, 1, flag g.masterKey.isSome),
      (4, 1, flag g.bootstrap), (5, 1, flag g.inverted), (6, 1, flag (g.openNonce b.now).isSome), (7, 1, flag ceremony.isSome),
      (8, 4, (g.cust.filter fun c => c.enrolled).length), (12, 4, match ceremony with | some c => c.shares.length | none => 0),
      (16, 32, g.lockSeq.toNat)]
  | 0x300008 => bits fun s => s.active
  | 0x300010 => bits fun s => s.fired
  | 0x300018 => packed [(0, 16, g.vencMv), (16, 16, g.vbatMv), (32, 16, signed 16 g.temp)]
  | 0x300020 => packed [(0, 8, packedBy 1 8 fun n => flag (g.cfgOf f (4 + n)).prbs), (8, 8, g.lastLoop), (16, 32, g.mismatches)]
  | 0x300200 => packed [(9, 1, flag g.fuseDone), (10, 1, flag g.fuseRefused)]
  | a =>
    if 0x300100 ≤ a ∧ a ≤ 0x300190 then
      let s := (a - 0x300100) / 8
      let c := g.cfgOf f s
      packed [(0, 2, c.response), (2, 2, f.floorOf s), (4, 1, flag (f.fusedOff.getLsbD s)), (5, 1, flag c.prbs), (6, 1, flag c.fromImage)]
    else if 0x300300 ≤ a ∧ a ≤ 0x300338 then
      let c := nth {} g.cust ((a - 0x300300) / 8)
      if c.enrolled then
        packed [(0, 1, 1), (1, 1, flag c.mldsa), (32, 32, ofLE ((Hash.hash .sha3_256 c.ecKey).take 4))]
      else 0
    else 0

/-- The recorder registers. -/
def Block.recorderReg (b : Block) (a : Nat) : Nat :=
  let r := b.recorder
  let c := r.copy
  match a with
  | 0x230000 => packed [(0, 1, flag r.committing.isSome), (1, 1, flag r.bank), (2, 1, flag r.noneValidSeen), (3, 1, flag (decide (512 < c.sev3.length))),
      (4, 1, flag c.reserveLock), (5, 1, flag r.commitFail), (16, 10, c.sev3.length),
      (32, 32, match (if r.bank then r.bankB else r.bankA) with | some x => x.seq | none => 0)]
  | 0x230008 => packed [(0, 32, c.opMinutes), (32, 32, c.powerCycles)]
  | 0x230018 => packed [(0, 32, c.archived), (32, 1, flag r.refused)]
  | 0x230020 => packed [(0, 32, r.dropped), (32, 16, c.sev3Lost)]
  | 0x230028 => packed [(0, 32, r.commitsA), (32, 32, r.commitsB)]
  | _ => 0

/-! ## Pages (02 R35, R36, 04 R96, 13 R309, 10 R230) -/

/-- PART_STATUS. -/
def Block.partStatus (b : Block) (p : Nat) : Nat :=
  let q := b.part p
  packed [(0, 1, flag (b.mode.ready && b.enabled p)), (1, 1, flag q.halted), (2, 1, flag q.resetting.isSome), (3, 1, flag q.asleep),
    (4, 1, flag (b.cfg p).paired), (5, 1, flag (b.executes p)), (6, 1, flag (b.waitsFor p).isSome), (7, 1, flag (b.stagingWait p).isSome),
    (8, 1, flag q.saturated), (16, 16, q.haltRing), (32, 16, q.abortDropped), (48, 16, q.resets)]

/-- A register of the page of partition p. AV_KM_LOCK reads zero in STANDBY (14 R321). -/
def Block.partReg (b : Block) (p off : Nat) : Nat :=
  let q := b.part p
  let l := q.lock
  match off with
  | 0x00 => packed [(8, 1, flag q.resetRefused)]
  | 0x08 =>
    if b.role p = .standby then 0
    else packed [(0, 16, if l.held then l.holder else 0), (20, 1, flag l.held), (21, 1, flag l.contended), (22, 1, flag l.expired),
      (23, 1, flag l.badReq), (32, 24, l.lease), (56, 8, l.acquisitions)]
  | 0x10 => b.partStatus p
  | 0x18 => if !b.enabled p then 0 else packed [(0, 24, b.quotaKib p), (24, 24, ceilDiv (b.reserved p) 16), (48, 16, b.floorKib p)]
  | 0x20 => packed [(0, 1, flag q.asleep), (16, 16, q.sleeps)]
  | 0x28 => Table.get 0 b.earlyWrites p
  | 0x30 => Table.get 0 b.ownerWrites p
  | _ => 0

/-- A register of the page of ring pair k. In STANDBY what the ring holds reads zero (14 R321). -/
def Block.ringReg (b : Block) (k off : Nat) : Nat :=
  let r := b.ring k
  let vec := match b.ringVector k with | some v => b.vec v | none => {}
  let shown := fun (n : Nat) => if b.role (b.ownerD k) = .standby then 0 else n
  match off with
  | 0x00 => shown r.p.toNat
  | 0x08 => shown (packed [(0, 32, r.c.toNat), (32, 32, (b.fetchedTo k).toNat)])
  | 0x10 => shown r.d.toNat
  | 0x18 => shown r.q.toNat
  | 0x20 => shown (packed [(16, 5, r.subLog2), (24, 5, r.cmpLog2), (32, 14, r.vector), (47, 1, flag r.poll), (48, 16, r.pollN)])
  | 0x28 => shown (packed [(0, 3, r.st.code), (3, 1, flag (b.stalled k)), (4, 1, flag r.chain.isSome), (5, 1, flag r.fetchErr),
      (6, 1, flag r.cmpErr), (8, 4, r.setupCause), (12, 1, flag r.setupErr), (13, 1, flag r.dbStale), (14, 1, flag r.dbIgnored),
      (15, 1, flag r.pushDropped), (16, 1, flag r.cmpBad), (40, 24, r.stallTicks)])
  | 0x30 => shown (packed [(0, 32, r.retracted), (32, 32, r.retractP.toNat)])
  | 0x40 => packed [(0, 16, vec.countThresh), (32, 16, vec.pending)]
  | 0x48 => vec.timeThresh
  | _ => 0

/-! ## The aperture (02 R32, R33) -/

/-- What an address of the aperture belongs to. -/
inductive Target where
  | window
  | part (p off : Nat)
  | ring (k off : Nat)
  | reserved
  deriving DecidableEq, Repr

/-- The target of an address. -/
def target (addr : Nat) : Target :=
  if addr < 0x1000000 then .window
  else if addr < 0x2000000 then .part ((addr - 0x1000000) / 0x1000) (addr % 0x1000)
  else if addr < 0x10000000 then .reserved
  else .ring ((addr - 0x10000000) / 0x1000) (addr % 0x1000)

/-- The value of the 64-bit word at an aligned address of the global window. -/
def Block.windowReg (f : Fuses) (b : Block) (a : Nat) : Nat :=
  if a < 0x1000 then b.identityReg f a
  else if a < 0x2000 then b.modeReg f a
  else if a < 0x3000 then b.healthReg a
  else if a < 0x4000 then b.henReg a
  else if a < 0x5000 then b.timeReg a
  else if a < 0x6000 then b.governorReg a
  else if a < 0x7000 then b.twinReg a
  else if a < 0x8000 then b.portReg a
  else if a < 0xA000 then b.chanWord ((a - 0x8000) / 0x80) (a % 0x80)
  else if 0x10000 ≤ a ∧ a < 0x20000 then b.imageReg f a
  else if 0x100000 ≤ a ∧ a < 0x140000 then b.vectorReg a
  else if 0x140000 ≤ a ∧ a < 0x140800 then b.pbaReg a
  else if 0x180000 ≤ a ∧ a < 0x1C0000 then b.moderationReg a
  else if 0x230000 ≤ a ∧ a < 0x230030 then b.recorderReg a
  else if 0x300000 ≤ a ∧ a < 0x310000 then b.ganderReg f a
  else 0

/-! ## Fields that a read clears (00 R8) -/

/-- An RC field: its lowest and highest bit, and what clearing it does. -/
structure RcField where
  lo : Nat
  hi : Nat
  clear : Block → Block

/-- The RC fields of the health range. -/
def healthRc (a : Nat) : List RcField :=
  let hl := fun (lo hi : Nat) (g : Health → Health) => RcField.mk lo hi fun b => { b with health := g b.health }
  let ln := fun (lo hi : Nat) (g : Lanes → Lanes) => RcField.mk lo hi fun b => { b with lanes := g b.lanes }
  let ox := fun (lo hi : Nat) (g : Ox → Ox) => RcField.mk lo hi fun b => { b with ox := g b.ox }
  let lt := fun (lo hi : Nat) (g : Lat → Lat) => RcField.mk lo hi fun b => { b with lat := g b.lat }
  let py := fun (lo hi : Nat) (g : Pay → Pay) => RcField.mk lo hi fun b => { b with pay := g b.pay }
  match a with
  | 0x2010 => [hl 0 15 ({ · with quarantines := 0 }), hl 16 31 ({ · with retestPass := 0 }), hl 32 47 ({ · with retirements := 0 }),
      hl 48 63 ({ · with promotions := 0 })]
  | 0x2200 => [⟨0, 31, fun b => { b with store := { b.store with corrected := 0 } }⟩,
      ⟨32, 47, fun b => { b with store := { b.store with uncorrectable := 0 } }⟩]
  | 0x2500 => [ln 0 15 ({ · with switches := 0 }), ln 16 31 ({ · with starve := 0 })]
  | 0x2508 => [ln 0 15 ({ · with single := 0 }), ln 16 31 ({ · with double := 0 }), ln 32 47 ({ · with reenc := 0 })]
  | 0x2510 => [ln 16 47 ({ · with reseeds := 0 })]
  | 0x2608 => [ox 0 15 ({ · with single := 0 }), ox 16 31 ({ · with double := 0 }), ox 32 47 ({ · with recheck := 0 })]
  | 0x2610 => [ox 0 31 ({ · with validation := 0 }), ox 32 47 ({ · with timeouts := 0 }), ox 48 63 ({ · with entropy := 0 })]
  | 0x2618 => [ox 0 31 ({ · with candidates := 0 }), ox 32 47 ({ · with primes := 0 })]
  | 0x2708 => [lt 0 15 ({ · with single := 0 }), lt 16 31 ({ · with double := 0 }), lt 32 47 ({ · with recheck := 0 })]
  | 0x2710 => [lt 0 31 ({ · with validation := 0 }), lt 32 47 ({ · with timeouts := 0 }), lt 48 63 ({ · with entropy := 0 })]
  | 0x2718 => [lt 0 31 ({ · with signs := 0 }), lt 48 63 ({ · with over32 := 0 })]
  | 0x2800 => [⟨48, 63, fun b => { b with keys := { b.keys with authFail := 0 } }⟩]
  | 0x2908 => [py 0 15 ({ · with formatRefused := 0 }), py 16 31 ({ · with pinMismatch := 0 }), py 32 47 ({ · with dukptExhausted := 0 }),
      py 48 55 ({ · with traps := 0 }), py 56 63 ({ · with coreRetries := 0 })]
  | _ => []

/-- The RC fields of the rest of the global window. -/
def windowRc (a : Nat) : List RcField :=
  let hn := fun (lo hi : Nat) (g : Hen → Hen) => RcField.mk lo hi fun b => { b with hen := g b.hen }
  let tw := fun (lo hi : Nat) (g : Twin → Twin) => RcField.mk lo hi fun b => { b with twin := g b.twin }
  match a with
  | 0x3010 => [hn 0 15 ({ · with rct0 := 0 }), hn 16 31 ({ · with apt0 := 0 }), hn 32 47 ({ · with rct1 := 0 }), hn 48 63 ({ · with apt1 := 0 })]
  | 0x3018 => [hn 0 31 ({ · with reseeds := 0 }), hn 32 47 ({ · with prReseeds := 0 }), hn 48 63 ({ · with deadline := 0 })]
  | 0x5040 => [⟨32, 63, fun b => { b with sched := { b.sched with satFrames := 0 } }⟩]
  | 0x5100 => [⟨32, 47, fun b => { b with power := { b.power with codeChanges := 0 } }⟩]
  | 0x5108 => [⟨48, 63, fun b => { b with power := { b.power with clamps := 0 } }⟩]
  | 0x6028 => [tw 0 15 ({ · with takeovers := 0 }), tw 16 31 ({ · with handovers := 0 }), tw 32 47 ({ · with releases := 0 }),
      tw 48 63 ({ · with fences := 0 })]
  | 0x6030 => [tw 0 15 ({ · with crcErr := 0 }), tw 16 31 ({ · with tagErr := 0 }), tw 32 47 ({ · with replays := 0 }),
      tw 48 63 ({ · with sessions := 0 })]
  | 0x6038 => [tw 0 31 ({ · with bpTicks := 0 }), tw 32 63 ({ · with commits := 0 })]
  | 0x7008 => [⟨0, 31, fun b => { b with sport := { b.sport with count := 0 } }⟩]
  | 0x7018 => [⟨0, 31, fun b => { b with mport := { b.mport with count0 := 0 } }⟩, ⟨32, 63, fun b => { b with mport := { b.mport with count1 := 0 } }⟩]
  | 0x7020 => [⟨0, 15, fun b => { b with time := { b.time with badNs := 0 } }⟩, ⟨16, 31, fun b => { b with time := { b.time with stbTimeouts := 0 } }⟩]
  | 0x230020 => [⟨0, 31, fun b => { b with recorder := { b.recorder with dropped := 0 } }⟩, ⟨32, 47, fun b => b.modRec ({ · with sev3Lost := 0 })⟩]
  | 0x300020 => [⟨16, 47, fun b => { b with gander := { b.gander with mismatches := 0 } }⟩]
  | a => if 0x2000 ≤ a ∧ a < 0x3000 then healthRc a else []

/-- The RC fields of a partition page. -/
def partRc (p off : Nat) : List RcField :=
  match off with
  | 0x08 => [⟨56, 63, fun b => b.modPart p fun q => { q with lock := { q.lock with acquisitions := 0 } }⟩]
  | 0x10 => [⟨32, 47, fun b => b.modPart p ({ · with abortDropped := 0 })⟩]
  | 0x20 => [⟨16, 31, fun b => b.modPart p ({ · with sleeps := 0 })⟩]
  | 0x30 => [⟨0, 31, fun b => { b with ownerWrites := Table.set 0 b.ownerWrites p 0 }⟩]
  | _ => []

/-- The RC field of a ring page. -/
def ringRc (k off : Nat) : List RcField :=
  if off = 0x28 then [⟨40, 63, fun b => b.modRing k ({ · with stallTicks := 0 })⟩] else []

/-- The fields that lie wholly within bits [hi:lo] are cleared. -/
def Block.clearRc (b : Block) (fs : List RcField) (lo hi : Nat) : Block :=
  fs.foldl (fun b x => if lo ≤ x.lo ∧ x.hi ≤ hi then x.clear b else b) b

/-- A read of size bytes at offset o of a 64-bit word: its value, and the RC fields it covers cleared. -/
def Block.readWord (b : Block) (word o size : Nat) (fs : List RcField) : Block :=
  let v := if size = 8 then word else (word >>> (8 * o)) % 2 ^ 32
  (b.clearRc fs (8 * o) (8 * o + 8 * size - 1)).answer v

/-! ## Reads with an effect of their own (15 R346, R347, R349) -/

/-- A read of AV_HEN_RAW: 32 raw bits leave the queue where it holds them; with none the field holds zero, as a read field does. -/
def Block.readRaw (b : Block) (o size : Nat) : Block :=
  let h := b.hen
  if !h.testEn || decide (h.raw.length < 4) then b.answer 0
  else if o = 4 then b.answer 1
  else
    Block.answer { b with hen := { h with raw := h.raw.drop 4 } } (ofLE (h.raw.take 4) + (if size = 8 then 2 ^ 32 else 0))

/-- A read of AV_HEN_COND: 8 bytes of conditioned output; a 32-bit read shows half of them and removes none. -/
def Block.readCond (b : Block) (o size : Nat) : Block :=
  let h := b.hen
  let shown := fun (v : Nat) => if size = 8 then v else (v >>> (8 * o)) % 2 ^ 32
  if !h.testEn || decide (h.cond.length < 8) then b.answer 0
  else Block.answer (if size = 8 then { b with hen := { h with cond := h.cond.drop 8 } } else b) (shown (ofLE (h.cond.take 8)))

end Sys2Proof.Machine
end

