-- ==== Sys2Proof/Machine/Registers.lean ====
section
/-! DEFINITION. Accesses of the slave port (02 R28 to R30, 00 R6, R8): writes of every register, reads, and the accesses
that are refused. -/

namespace Sys2Proof.Machine

open Sys2Proof

/-! ## Writes of a 64-bit word -/

/-- What a write of size bytes at offset o brings to its 64-bit word: the bits it reaches and their values. -/
structure Wr where
  mask : BitVec 64
  data : BitVec 64
  deriving DecidableEq, Repr

/-- The write of size bytes of data at an address. -/
def Wr.of (addr size : Nat) (data : BitVec 64) : Wr :=
  if size = 8 then ⟨-1, data⟩
  else
    let m : BitVec 64 := 0xFFFFFFFF#64 <<< (8 * (addr % 8))
    ⟨m, (data <<< (8 * (addr % 8))) &&& m⟩

/-- A 1 written to bit i. -/
def Wr.one (w : Wr) (i : Nat) : Bool := w.data.getLsbD i

/-- The write reaches bits [31:0]. -/
def Wr.low (w : Wr) : Bool := w.mask.getLsbD 0

/-- The write reaches bits [63:32]. -/
def Wr.high (w : Wr) : Bool := w.mask.getLsbD 32

/-- A word with the bits that the write reaches. -/
def Wr.merge (w : Wr) (old : BitVec 64) : BitVec 64 := (old &&& ~~~w.mask) ||| w.data

/-- A W1C flag after the write. -/
def Wr.w1c (w : Wr) (i : Nat) (x : Bool) : Bool := x && !w.one i

/-- Bits [31:0] as written. -/
def Wr.word (w : Wr) : Nat := w.data.toNat % 2 ^ 32

/-! ## The global window -/

/-- AV_MODE, AV_RESET: the W1C bit, then the request; WARM with HANDOVER hands over first. -/
def Block.modeWrite (b : Block) (a : Nat) (w : Wr) : Block :=
  match a with
  | 0x1000 =>
    let b : Block := { b with mode := { b.mode with reqRefused := w.w1c 8 b.mode.reqRefused } }
    b.requestMode (field w.word 6 4)
  | 0x1010 =>
    let b : Block := { b with mode := { b.mode with handoverFailed := w.w1c 9 b.mode.handoverFailed } }
    if w.one 0 && w.one 1 then b.warmHandover
    else if w.one 0 then (if b.mode.warm.isSome then b else b.cutForWarm)
    else b
  | _ => b

/-- The HEN registers: RNG_EMPTY, AV_HEN_TEST, AV_HEN_PATTERN. -/
def Block.henWrite (b : Block) (a : Nat) (w : Wr) : Block :=
  match a with
  | 0x3000 => { b with hen := { b.hen with rngEmpty := w.w1c 8 b.hen.rngEmpty } }
  | 0x3028 => if w.low then b.writeHenTest w.data else b
  | 0x3030 => if b.mode.mode = .factory then { b with hen := { b.hen with pattern := w.merge b.hen.pattern } } else b
  | _ => b

/-- The W1C flags of AV_TIME_STATUS. -/
def Block.timeWrite (b : Block) (a : Nat) (w : Wr) : Block :=
  if a = 0x4000 then
    b.modTime fun t => { t with holdoverSeen := w.w1c 8 t.holdoverSeen, backSeen := w.w1c 9 t.backSeen
                                jumpSeen := w.w1c 10 t.jumpSeen, slewSeen := w.w1c 11 t.slewSeen }
  else b

/-- AV_QOS_SEL and PLL_UNLOCK. -/
def Block.governorWrite (b : Block) (a : Nat) (w : Wr) : Block :=
  match a with
  | 0x5048 => { b with sched := { b.sched with qosSel := (w.merge (b.sched.qosSel.setWidth 64)).setWidth 12 } }
  | 0x5100 => { b with power := { b.power with pllUnlock := w.w1c 24 b.power.pllUnlock } }
  | _ => b

/-- The twin port's W1C flags and AV_TWIN_SEL. -/
def Block.twinWrite (b : Block) (a : Nat) (w : Wr) : Block :=
  let t := b.twin
  match a with
  | 0x6000 => { b with twin := { t with lossSeen := w.w1c 8 t.lossSeen, fencedSeen := w.w1c 9 t.fencedSeen, authFail := w.w1c 10 t.authFail } }
  | 0x6018 => { b with twin := { t with sel := (w.merge (t.sel.setWidth 64)).setWidth 12 } }
  | _ => b

/-- The port error flags. -/
def Block.portWrite (b : Block) (a : Nat) (w : Wr) : Block :=
  match a with
  | 0x7000 => { b with sport := { b.sport with
      sizeErr := w.w1c 0 b.sport.sizeErr, alignErr := w.w1c 1 b.sport.alignErr, ownerErr := w.w1c 2 b.sport.ownerErr } }
  | 0x7010 => { b with mport := { b.mport with err := b.mport.err &&& ~~~(w.data.setWidth 8) } }
  | _ => b

/-- A register of a raw channel of partition 0 (06 R130, R134, R137). -/
def Block.chanRegWrite (b : Block) (ch off : Nat) (w : Wr) : Block :=
  let c := b.chan ch
  let rw := fun (f : Channel → Channel) => b.modChan ch (if c.run.isSome then ({ · with busyWrite := true }) else f)
  match off with
  | 0x00 => rw fun c => { c with src := w.merge c.src }
  | 0x08 => rw fun c => { c with dst := w.merge c.dst }
  | 0x10 => if w.low then rw fun c => { c with count := (w.merge (c.count.setWidth 64)).setWidth 32 } else b
  | 0x18 => b.muleCtl ch (w.merge (BitVec.ofNat 64 (b.chanWord ch 0x18)))
  | 0x20 => b.modChan ch fun c => { c with
      done := w.w1c 1 c.done, err := w.w1c 2 c.err, disabled := w.w1c 3 c.disabled, startRefused := w.w1c 5 c.startRefused
      busyWrite := w.w1c 6 c.busyWrite }
  | _ => b

/-- AV_IMG_ADDR and AV_IMG_CTRL. -/
def Block.imageWrite (b : Block) (a : Nat) (w : Wr) : Block :=
  match a with
  | 0x10000 =>
    let old : BitVec 64 := b.img.addr.setWidth 64 <<< 6
    { b with img := { b.img with addr := ((w.merge old) >>> 6).setWidth 58 } }
  | 0x10008 =>
    let b : Block := { b with img := { b.img with startRefused := w.w1c 8 b.img.startRefused } }
    if w.one 0 then b.startImage else b
  | _ => b

/-- The recorder registers: W1C flags, COMMIT, UP_TO. -/
def Block.recorderWrite (b : Block) (a : Nat) (w : Wr) : Block :=
  match a with
  | 0x230000 => { b with recorder := { b.recorder with
      noneValidSeen := w.w1c 2 b.recorder.noneValidSeen, commitFail := w.w1c 5 b.recorder.commitFail } }
  | 0x230010 => if w.one 0 then b.startCommit else b
  | 0x230018 =>
    if w.low then b.archiveWrite w.data.toNat else { b with recorder := { b.recorder with refused := w.w1c 32 b.recorder.refused } }
  | _ => b

/-- The sentinel registers: FIRED and AV_GANDER_FUSE. -/
def Block.ganderWrite (f : Fuses) (b : Block) (a : Nat) (w : Wr) : Block :=
  match a with
  | 0x300010 =>
    let ss := b.gander.sources.zipIdx.map fun x => ({ x.1 with fired := w.w1c x.2 x.1.fired } : SrcRec)
    { b with gander := { b.gander with sources := ss } }
  | 0x300200 => if w.low then Block.fuseWrite f b w.word else b
  | _ => b

/-- A write of the global window by partition 0, at the address of a 64-bit word. -/
def Block.windowWord (f : Fuses) (b : Block) (a o size : Nat) (data : BitVec 64) (w : Wr) : Block :=
  if 0x1000 ≤ a ∧ a < 0x2000 then b.modeWrite a w
  else if 0x3000 ≤ a ∧ a < 0x4000 then b.henWrite a w
  else if 0x4000 ≤ a ∧ a < 0x5000 then b.timeWrite a w
  else if 0x5000 ≤ a ∧ a < 0x6000 then b.governorWrite a w
  else if 0x6000 ≤ a ∧ a < 0x7000 then b.twinWrite a w
  else if 0x7000 ≤ a ∧ a < 0x8000 then b.portWrite a w
  else if 0x8000 ≤ a ∧ a < 0xA000 then b.chanRegWrite ((a - 0x8000) / 0x80) (a % 0x80) w
  else if 0x10000 ≤ a ∧ a < 0x20000 then b.imageWrite a w
  else if 0x100000 ≤ a ∧ a < 0x140000 then b.vecTable ((a - 0x100000) / 16) (a % 16 + o) size data
  else if 0x180000 ≤ a ∧ a < 0x1C0000 then b.modTable ((a - 0x180000) / 16) (a % 16 + o) size data
  else if 0x230000 ≤ a ∧ a < 0x230030 then b.recorderWrite a w
  else if 0x300000 ≤ a ∧ a < 0x310000 then Block.ganderWrite f b a w
  else b

/-! ## Pages -/

/-- A register of the page of partition p. -/
def Block.partPageWrite (b : Block) (p off : Nat) (w : Wr) : Block :=
  match off with
  | 0x00 =>
    let b := b.modPart p fun q => { q with resetRefused := w.w1c 8 q.resetRefused }
    if w.one 0 then b.writePartReset p else b
  | 0x08 =>
    let b := if w.high then b.lockHigh p (w.data.toNat / 2 ^ 32) else b
    if w.low then b.lockLow p w.word else b
  | 0x20 => if !w.low then b else if w.one 0 then b.sleep p else b.wakeUp p
  | _ => b

/-- A register of the page of ring pair k below the push window. -/
def Block.ringPageWrite (b : Block) (k off : Nat) (w : Wr) : Block :=
  let v : Index := w.data.setWidth 32
  match off with
  | 0x00 => if w.low then b.doorbellWrite k v else b
  | 0x10 => if w.low then b.consumeRing k v else b
  | 0x20 =>
    let b := b.modRing k RingRec.discardPush
    let b := if w.one 0 then b.enableRing k else b
    if w.one 1 then b.stopWrite k else b
  | 0x28 => b.modRing k fun r => { r with
      fetchErr := w.w1c 5 r.fetchErr, cmpErr := w.w1c 6 r.cmpErr, setupErr := w.w1c 12 r.setupErr, dbStale := w.w1c 13 r.dbStale
      dbIgnored := w.w1c 14 r.dbIgnored, pushDropped := w.w1c 15 r.pushDropped, cmpBad := w.w1c 16 r.cmpBad }
  | 0x30 => if w.low then b.retractWrite k v else b
  | 0x40 => if w.low then b.modCount k w.word else b
  | 0x48 => if w.low then b.modTicks k w.word else b
  | _ => b

/-! ## Refused accesses (R28, R29, R6) -/

/-- An offset in the push window of a ring page. -/
def inPush (off : Nat) : Bool := decide (0x100 ≤ off) && decide (off < 0x200)

/-- A 32-bit write to the push window, by an owner after READY: discarded, SIZE_ERR, no ERROR response. -/
def Block.shortPush (b : Block) (k off tag : Nat) : Block :=
  b.ringWrite k tag off fun b => b.badAccess (ringPage k + off) tag false

/-- An earlier write to the register at an address is on its way to the twin and has not taken effect (14 R321): a later access
waits for it (R30, R31). -/
def Block.heldRegister (b : Block) (addr : Nat) : Bool :=
  match target addr with
  | .part p off =>
    (off / 8 == 0 && b.forwarding (StateItem.resets p)) || (off / 8 == 1 && b.forwarding (StateItem.locks p))
  | .ring k off =>
    (off / 8 == 4 && b.forwarding (StateItem.stops k)) || (off / 8 == 6 && b.forwarding (StateItem.retracts k))
  | _ => false

/-- REGISTER_WRITE: an access of the slave port that writes. -/
def Block.portStore (f : Fuses) (b : Block) (addr size tag : Nat) (data : BitVec 64) : Block :=
  b.access addr size tag true fun b => b.accessUnless (b.heldRegister addr) fun b =>
    let w := Wr.of addr size data
    match target addr with
    | .reserved => b.okWrite
    | .window =>
      if 0x8000 ≤ addr ∧ addr < 0xA000 then
        b.chanWriteBy ((addr - 0x8000) / 0x80) tag (addr % 0x80) fun b =>
          b.chanRegWrite ((addr - 0x8000) / 0x80) (addr % 0x80 / 8 * 8) w
      else b.globalWrite tag addr fun b => Block.windowWord f b (addr / 8 * 8) (addr % 8) size data w
    | .part p off => b.partWrite p tag off fun b => b.partPageWrite p (off / 8 * 8) w
    | .ring k off =>
      if inPush off then
        if size = 4 then b.shortPush k off tag
        else b.ringWrite k tag off fun b => b.windowWrite k ((off - 0x100) / 0x40) (off % 0x40 / 8) data
      else b.ringWrite k tag off fun b => b.ringPageWrite k (off / 8 * 8) w

/-- REGISTER_WRITE. -/
def execRegisterWrite (addr size tag : Nat) (data : BitVec 64) (s : State) : Host.Outcome State Fault Refusal :=
  s.runF fun f b => Block.portStore f b addr size tag data

/-! ## Reads -/

/-- A read of the global window by partition 0. -/
def Block.windowRead (f : Fuses) (b : Block) (addr size : Nat) : Block :=
  let a := addr / 8 * 8
  if a = 0x3008 then b.readRng addr size
  else if a = 0x3038 then b.readRaw (addr % 8) size
  else if a = 0x3040 then b.readCond (addr % 8) size
  else if inRecorder a ∧ !(decide (0x230000 ≤ a) && decide (a < 0x230030)) then b.recRead a
  else b.readWord (b.windowReg f a) (addr % 8) size (windowRc a)

/-- RC_FIELD_READ: an access of the slave port that reads. Before READY the pages read zero. -/
def Block.portLoad (f : Fuses) (b : Block) (addr size tag : Nat) : Block :=
  b.access addr size tag false fun b => b.accessUnless (b.heldRegister addr) fun b =>
    match target addr with
    | .reserved => b.answer 0
    | .window => if tag = 0 then Block.windowRead f b addr size else b.refuseOwner addr tag false
    | .part p off =>
      if !b.mode.ready then b.answer 0
      else if tag = 0 ∨ (tag = p ∧ b.enabled p) then b.readWord (b.partReg p (off / 8 * 8)) (off % 8) size (partRc p (off / 8 * 8))
      else b.refuseOwner addr tag false
    | .ring k off =>
      if !b.mode.ready then b.answer 0
      else if tag = 0 ∨ b.owner k = some tag then b.readWord (b.ringReg k (off / 8 * 8)) (off % 8) size (ringRc k (off / 8 * 8))
      else b.refuseOwner addr tag false

/-- RC_FIELD_READ. -/
def execRcFieldRead (addr size tag : Nat) (s : State) : Host.Outcome State Fault Refusal :=
  s.runF fun f b => Block.portLoad f b addr size tag

/-- SPORT_BAD_ACCESS (R29). -/
def execSportBadAccess (addr size tag : Nat) (write : Bool) (s : State) : Host.Outcome State Fault Refusal :=
  s.run fun b =>
    b.access addr size tag write fun b => match target addr with
      | .ring k off => if write && size == 4 && inPush off then b.shortPush k off tag else b
      | _ => b

/-- Whether R28 refuses an access: a foreign page after READY, the global window with a tag, or a write to a firmware
channel (06 R129). -/
def Block.foreign (b : Block) (addr tag : Nat) (write : Bool) : Bool :=
  match target addr with
  | .window => tag != 0 || (write && decide (0x9800 ≤ addr) && decide (addr < 0xA000))
  | .part p _ => b.mode.ready && !(tag == 0 || (tag == p && b.enabled p))
  | .ring k _ => b.mode.ready && !(tag == 0 || b.owner k == some tag)
  | .reserved => false

/-- OWNER_ERR (R28). -/
def execOwnerErr (addr size tag : Nat) (write : Bool) (s : State) : Host.Outcome State Fault Refusal :=
  s.run fun b => b.access addr size tag write fun b => if b.foreign addr tag write then b.refuseOwner addr tag write else b

/-- EARLY_WRITE (00 R6). -/
def execEarlyWrite (addr size tag : Nat) (s : State) : Host.Outcome State Fault Refusal :=
  s.run fun b => b.access addr size tag true fun b => match target addr with
    | .part _ _ | .ring _ _ => if b.mode.ready then b else b.okWrite.countEarly tag
    | _ => b

end Sys2Proof.Machine
end

