-- ==== Sys2Proof/Machine/Dispatch.lean ====
section
/-! DEFINITION. Which meaning each command has: one arm for each row of the table. -/

namespace Sys2Proof.Machine

open Sys2Proof

/-- The effect of a command on everything but the queue. -/
def exec (i : Instr) (s : State) : Host.Outcome State Fault Refusal :=
  match i with
  | .timeSample sec ns valid => Sys2Proof.Machine.execTimeSample sec ns valid s
  | .stbTimeout => Sys2Proof.Machine.execStbTimeout s
  | .registerWrite addr size tag data => Sys2Proof.Machine.execRegisterWrite addr size tag data s
  | .rcFieldRead addr size tag => Sys2Proof.Machine.execRcFieldRead addr size tag s
  | .sportBadAccess addr size tag write => Sys2Proof.Machine.execSportBadAccess addr size tag write s
  | .ownerErr addr size tag write => Sys2Proof.Machine.execOwnerErr addr size tag write s
  | .earlyWrite addr size tag => Sys2Proof.Machine.execEarlyWrite addr size tag s
  | .mportErrorResponse req => Sys2Proof.Machine.execMportErrorResponse req s
  | .mportTimeout req => Sys2Proof.Machine.execMportTimeout req s
  | .irqMessageReissue vec => Sys2Proof.Machine.execIrqMessageReissue vec s
  | .porstAssert => Sys2Proof.Machine.execPorstAssert s
  | .resetRelease => Sys2Proof.Machine.execResetRelease s
  | .warm tag => Sys2Proof.Machine.execWarm tag s
  | .handover tag => Sys2Proof.Machine.execHandover tag s
  | .warmHandoverTimeout => Sys2Proof.Machine.execWarmHandoverTimeout s
  | .warmResetDrainEnd => Sys2Proof.Machine.execWarmResetDrainEnd s
  | .partReset part tag => Sys2Proof.Machine.execPartReset part tag s
  | .partitionResetEnd part => Sys2Proof.Machine.execPartitionResetEnd part s
  | .abortCompletionDrop ring => Sys2Proof.Machine.execAbortCompletionDrop ring s
  | .bistDone failed => Sys2Proof.Machine.execBistDone failed s
  | .henWarmupEnd => Sys2Proof.Machine.execHenWarmupEnd s
  | .henStartupTestEnd failTest failSource raw => Sys2Proof.Machine.execHenStartupTestEnd failTest failSource raw s
  | .henSeeded => Sys2Proof.Machine.execHenSeeded s
  | .imageLoadStart tag => Sys2Proof.Machine.execImageLoadStart tag s
  | .imageFetchStart => Sys2Proof.Machine.execImageFetchStart s
  | .imageChecks readOk image => Sys2Proof.Machine.execImageChecks readOk image s
  | .fuseAdvanceStep => Sys2Proof.Machine.execFuseAdvanceStep s
  | .endOfBoot => Sys2Proof.Machine.execEndOfBoot s
  | .calDone => Sys2Proof.Machine.execCalDone s
  | .requestOperational tag => Sys2Proof.Machine.execRequestOperational tag s
  | .requestMaintenance tag => Sys2Proof.Machine.execRequestMaintenance tag s
  | .modeRequestRefused tag request => Sys2Proof.Machine.execModeRequestRefused tag request s
  | .maintenanceDrainEnd => Sys2Proof.Machine.execMaintenanceDrainEnd s
  | .operationalReturn => Sys2Proof.Machine.execOperationalReturn s
  | .retestComplete unit pass => Sys2Proof.Machine.execRetestComplete unit pass s
  | .periodicSelfTest unit pass => Sys2Proof.Machine.execPeriodicSelfTest unit pass s
  | .storeScrub bank corrected => Sys2Proof.Machine.execStoreScrub bank corrected s
  | .storeUncorrectableError bank region index sub => Sys2Proof.Machine.execStoreUncorrectableError bank region index sub s
  | .bankMigrationDone bank => Sys2Proof.Machine.execBankMigrationDone bank s
  | .enable ring tag => Sys2Proof.Machine.execEnable ring tag s
  | .stop ring tag => Sys2Proof.Machine.execStop ring tag s
  | .doorbell ring tag value => Sys2Proof.Machine.execDoorbell ring tag value s
  | .setupRecordWrite ring tag word value => Sys2Proof.Machine.execSetupRecordWrite ring tag word value s
  | .pushWrite ring tag slot word value => Sys2Proof.Machine.execPushWrite ring tag slot word value s
  | .retract ring tag value => Sys2Proof.Machine.execRetract ring tag value s
  | .consume ring tag value => Sys2Proof.Machine.execConsume ring tag value s
  | .modCountWrite ring tag value => Sys2Proof.Machine.execModCountWrite ring tag value s
  | .modTimeWrite ring tag value => Sys2Proof.Machine.execModTimeWrite ring tag value s
  | .modTableWrite vec offset size tag data => Sys2Proof.Machine.execModTableWrite vec offset size tag data s
  | .vectorTableWrite vec offset size tag data => Sys2Proof.Machine.execVectorTableWrite vec offset size tag data s
  | .partitionSleep part tag => Sys2Proof.Machine.execPartitionSleep part tag s
  | .partitionWake part tag => Sys2Proof.Machine.execPartitionWake part tag s
  | .modTimeExpiry vec => Sys2Proof.Machine.execModTimeExpiry vec s
  | .turnGrant => Sys2Proof.Machine.execTurnGrant s
  | .pollDue ring => Sys2Proof.Machine.execPollDue ring s
  | .fetchDataReturn ring data => Sys2Proof.Machine.execFetchDataReturn ring data s
  | .pollBurstReturn ring data => Sys2Proof.Machine.execPollBurstReturn ring data s
  | .fetchRepeat ring => Sys2Proof.Machine.execFetchRepeat ring s
  | .faultRepeat ring => Sys2Proof.Machine.execFaultRepeat ring s
  | .creditAdmit part => Sys2Proof.Machine.execCreditAdmit part s
  | .stagingGrant part => Sys2Proof.Machine.execStagingGrant part s
  | .sgListReadReturn ring sub srcList dstList => Sys2Proof.Machine.execSgListReadReturn ring sub srcList dstList s
  | .gatherReadReturn ring sub src aux => Sys2Proof.Machine.execGatherReadReturn ring sub src aux s
  | .writeResponse port req => Sys2Proof.Machine.execWriteResponse port req s
  | .readbackReturn ring sub => Sys2Proof.Machine.execReadbackReturn ring sub s
  | .serviceFrame => Sys2Proof.Machine.execServiceFrame s
  | .adaptationPeriod => Sys2Proof.Machine.execAdaptationPeriod s
  | .acquire part tag data => Sys2Proof.Machine.execAcquire part tag data s
  | .release part tag data => Sys2Proof.Machine.execRelease part tag data s
  | .lockLeaseExpiry part => Sys2Proof.Machine.execLockLeaseExpiry part s
  | .descriptorTimeLimit ring sub => Sys2Proof.Machine.execDescriptorTimeLimit ring sub s
  | .laneDispatch pers => Sys2Proof.Machine.execLaneDispatch pers s
  | .laneMismatch lane reencOnly => Sys2Proof.Machine.execLaneMismatch lane reencOnly s
  | .laneWorkDone lane => Sys2Proof.Machine.execLaneWorkDone lane s
  | .personalityLoadDone lane => Sys2Proof.Machine.execPersonalityLoadDone lane s
  | .balancerEvaluation => Sys2Proof.Machine.execBalancerEvaluation s
  | .starvationSwitch pers => Sys2Proof.Machine.execStarvationSwitch pers s
  | .oxDispatch => Sys2Proof.Machine.execOxDispatch s
  | .oxValidationReport unit => Sys2Proof.Machine.execOxValidationReport unit s
  | .oxSelfCheckMismatch unit => Sys2Proof.Machine.execOxSelfCheckMismatch unit s
  | .oxJobDone unit => Sys2Proof.Machine.execOxJobDone unit s
  | .unitWipeDone unit clean => Sys2Proof.Machine.execUnitWipeDone unit clean s
  | .latDispatch => Sys2Proof.Machine.execLatDispatch s
  | .latCheckPhaseEnd unit => Sys2Proof.Machine.execLatCheckPhaseEnd unit s
  | .latSelfCheckMismatch unit => Sys2Proof.Machine.execLatSelfCheckMismatch unit s
  | .latJobDone unit => Sys2Proof.Machine.execLatJobDone unit s
  | .payDispatch => Sys2Proof.Machine.execPayDispatch s
  | .coreFault core => Sys2Proof.Machine.execCoreFault core s
  | .watchdogExpiry core => Sys2Proof.Machine.execWatchdogExpiry core s
  | .keyLaneDispatch => Sys2Proof.Machine.execKeyLaneDispatch s
  | .eraseDrainEnd slot => Sys2Proof.Machine.execEraseDrainEnd slot s
  | .nop ring sub => Sys2Proof.Machine.execNop ring sub s
  | .encrypt lane => Sys2Proof.Machine.execEncrypt lane s
  | .decrypt lane => Sys2Proof.Machine.execDecrypt lane s
  | .hash lane => Sys2Proof.Machine.execHash lane s
  | .hashVerify lane => Sys2Proof.Machine.execHashVerify lane s
  | .macGenerate lane => Sys2Proof.Machine.execMacGenerate lane s
  | .macVerify lane => Sys2Proof.Machine.execMacVerify lane s
  | .xof lane => Sys2Proof.Machine.execXof lane s
  | .modAdd unit => Sys2Proof.Machine.execModAdd unit s
  | .modSub unit => Sys2Proof.Machine.execModSub unit s
  | .modMul unit => Sys2Proof.Machine.execModMul unit s
  | .modExp unit => Sys2Proof.Machine.execModExp unit s
  | .modInv unit => Sys2Proof.Machine.execModInv unit s
  | .rsaEncrypt unit => Sys2Proof.Machine.execRsaEncrypt unit s
  | .rsaVerify unit => Sys2Proof.Machine.execRsaVerify unit s
  | .rsaDecrypt unit => Sys2Proof.Machine.execRsaDecrypt unit s
  | .rsaSign unit => Sys2Proof.Machine.execRsaSign unit s
  | .rsaKeygen unit => Sys2Proof.Machine.execRsaKeygen unit s
  | .ecdsaSign unit => Sys2Proof.Machine.execEcdsaSign unit s
  | .ecdsaVerify unit => Sys2Proof.Machine.execEcdsaVerify unit s
  | .ecdh unit => Sys2Proof.Machine.execEcdh unit s
  | .ecKeygen unit => Sys2Proof.Machine.execEcKeygen unit s
  | .eddsaSign unit => Sys2Proof.Machine.execEddsaSign unit s
  | .eddsaVerify unit => Sys2Proof.Machine.execEddsaVerify unit s
  | .xdh unit => Sys2Proof.Machine.execXdh unit s
  | .edwardsKeygen unit => Sys2Proof.Machine.execEdwardsKeygen unit s
  | .kemKeygen unit => Sys2Proof.Machine.execKemKeygen unit s
  | .kemEncaps unit => Sys2Proof.Machine.execKemEncaps unit s
  | .kemDecaps unit => Sys2Proof.Machine.execKemDecaps unit s
  | .dsaKeygen unit => Sys2Proof.Machine.execDsaKeygen unit s
  | .dsaSign unit => Sys2Proof.Machine.execDsaSign unit s
  | .dsaVerify unit => Sys2Proof.Machine.execDsaVerify unit s
  | .pinTranslate core ctx => Sys2Proof.Machine.execPinTranslate core ctx s
  | .pinVerify core ctx => Sys2Proof.Machine.execPinVerify core ctx s
  | .dukptDecrypt core ctx => Sys2Proof.Machine.execDukptDecrypt core ctx s
  | .dukptPinTranslate core ctx => Sys2Proof.Machine.execDukptPinTranslate core ctx s
  | .dukptMacVerify core ctx => Sys2Proof.Machine.execDukptMacVerify core ctx s
  | .emvArqcVerify core ctx => Sys2Proof.Machine.execEmvArqcVerify core ctx s
  | .emvArpcGenerate core ctx => Sys2Proof.Machine.execEmvArpcGenerate core ctx s
  | .emvScriptMac core ctx => Sys2Proof.Machine.execEmvScriptMac core ctx s
  | .emvSessionDerive core ctx => Sys2Proof.Machine.execEmvSessionDerive core ctx s
  | .kcv core ctx => Sys2Proof.Machine.execKcv core ctx s
  | .slhVerify core ctx hashed off => Sys2Proof.Machine.execSlhVerify core ctx hashed off s
  | .keyImport lane => Sys2Proof.Machine.execKeyImport lane s
  | .keyExport lane => Sys2Proof.Machine.execKeyExport lane s
  | .keyGenerate lane => Sys2Proof.Machine.execKeyGenerate lane s
  | .keyDerive lane => Sys2Proof.Machine.execKeyDerive lane s
  | .keyErase lane => Sys2Proof.Machine.execKeyErase lane s
  | .keyQuery lane => Sys2Proof.Machine.execKeyQuery lane s
  | .twinAttach lane => Sys2Proof.Machine.execTwinAttach lane s
  | .twinDetach lane => Sys2Proof.Machine.execTwinDetach lane s
  | .challenge lane => Sys2Proof.Machine.execChallenge lane s
  | .unlock lane => Sys2Proof.Machine.execUnlock lane s
  | .enrol lane => Sys2Proof.Machine.execEnrol lane s
  | .revoke lane => Sys2Proof.Machine.execRevoke lane s
  | .mkBegin lane => Sys2Proof.Machine.execMkBegin lane s
  | .mkShare lane => Sys2Proof.Machine.execMkShare lane s
  | .rngGenerate ring sub => Sys2Proof.Machine.execRngGenerate ring sub s
  | .generatePr ring sub => Sys2Proof.Machine.execGeneratePr ring sub s
  | .copy ring sub => Sys2Proof.Machine.execCopy ring sub s
  | .fill ring sub => Sys2Proof.Machine.execFill ring sub s
  | .callComplete core ctx => Sys2Proof.Machine.execCallComplete core ctx s
  | .mov core g d src => Sys2Proof.Machine.execMov core g d src s
  | .add core g d src => Sys2Proof.Machine.execAdd core g d src s
  | .sub core g d src => Sys2Proof.Machine.execSub core g d src s
  | .and core g d src => Sys2Proof.Machine.execAnd core g d src s
  | .or core g d src => Sys2Proof.Machine.execOr core g d src s
  | .xor core g d src => Sys2Proof.Machine.execXor core g d src s
  | .shl core g d imm => Sys2Proof.Machine.execShl core g d imm s
  | .shr core g d imm => Sys2Proof.Machine.execShr core g d imm s
  | .sar core g d imm => Sys2Proof.Machine.execSar core g d imm s
  | .rol core g d imm => Sys2Proof.Machine.execRol core g d imm s
  | .bswap core g d => Sys2Proof.Machine.execBswap core g d s
  | .mul core g d src => Sys2Proof.Machine.execMul core g d src s
  | .movi core g d imm => Sys2Proof.Machine.execMovi core g d imm s
  | .movu core g d imm => Sys2Proof.Machine.execMovu core g d imm s
  | .addi core g d imm => Sys2Proof.Machine.execAddi core g d imm s
  | .andi core g d imm => Sys2Proof.Machine.execAndi core g d imm s
  | .ori core g d imm => Sys2Proof.Machine.execOri core g d imm s
  | .xori core g d imm => Sys2Proof.Machine.execXori core g d imm s
  | .cmp core g d src pair cond => Sys2Proof.Machine.execCmp core g d src pair cond s
  | .cmpi core g d cond pair imm => Sys2Proof.Machine.execCmpi core g d cond pair imm s
  | .ldw core g d src c post disp => Sys2Proof.Machine.execLdw core g d src c post disp s
  | .ldh core g d src c post disp => Sys2Proof.Machine.execLdh core g d src c post disp s
  | .ldb core g d src c post disp => Sys2Proof.Machine.execLdb core g d src c post disp s
  | .stw core g d src c post disp => Sys2Proof.Machine.execStw core g d src c post disp s
  | .sth core g d src c post disp => Sys2Proof.Machine.execSth core g d src c post disp s
  | .stb core g d src c post disp => Sys2Proof.Machine.execStb core g d src c post disp s
  | .dadd core g d src pair => Sys2Proof.Machine.execDadd core g d src pair s
  | .dadc core g d src pair => Sys2Proof.Machine.execDadc core g d src pair s
  | .dsub core g d src pair => Sys2Proof.Machine.execDsub core g d src pair s
  | .dsbb core g d src pair => Sys2Proof.Machine.execDsbb core g d src pair s
  | .daddn core g d src => Sys2Proof.Machine.execDaddn core g d src s
  | .dsubn core g d src => Sys2Proof.Machine.execDsubn core g d src s
  | .daa core g d src => Sys2Proof.Machine.execDaa core g d src s
  | .dbin core g d src => Sys2Proof.Machine.execDbin core g d src s
  | .next core g d src byReg pos => Sys2Proof.Machine.execNext core g d src byReg pos s
  | .nins core g d src byReg pos => Sys2Proof.Machine.execNins core g d src byReg pos s
  | .nshl core g d src => Sys2Proof.Machine.execNshl core g d src s
  | .branch core g imm => Sys2Proof.Machine.execBranch core g imm s
  | .call core g imm => Sys2Proof.Machine.execCall core g imm s
  | .jrJump core g src => Sys2Proof.Machine.execJrJump core g src s
  | .jrCall core g src => Sys2Proof.Machine.execJrCall core g src s
  | .loop core g src le => Sys2Proof.Machine.execLoop core g src le s
  | .loopi core g count le => Sys2Proof.Machine.execLoopi core g count le s
  | .rpt core g count => Sys2Proof.Machine.execRpt core g count s
  | .mfr core g d num => Sys2Proof.Machine.execMfr core g d num s
  | .mtr core g src num => Sys2Proof.Machine.execMtr core g src num s
  | .post core g d => Sys2Proof.Machine.execPost core g d s
  | .mbr core g d => Sys2Proof.Machine.execMbr core g d s
  | .mch core g d => Sys2Proof.Machine.execMch core g d s
  | .ctlNop core g => Sys2Proof.Machine.execCtlNop core g s
  | .ret core g => Sys2Proof.Machine.execRet core g s
  | .trapi core g n => Sys2Proof.Machine.execTrapi core g n s
  | .sev core g pos all event => Sys2Proof.Machine.execSev core g pos all event s
  | .wfe core g d mask => Sys2Proof.Machine.execWfe core g d mask s
  | .waitt core g src => Sys2Proof.Machine.execWaitt core g src s
  | .done core g src => Sys2Proof.Machine.execDone core g src s
  | .eret core g => Sys2Proof.Machine.execEret core g s
  | .emulationVector core => Sys2Proof.Machine.execEmulationVector core s
  | .contextResume core => Sys2Proof.Machine.execContextResume core s
  | .waittReached core ctx => Sys2Proof.Machine.execWaittReached core ctx s
  | .muleStart ch tag data => Sys2Proof.Machine.execMuleStart ch tag data s
  | .muleDisable ch tag data => Sys2Proof.Machine.execMuleDisable ch tag data s
  | .channelListReadReturn ch srcList dstList => Sys2Proof.Machine.execChannelListReadReturn ch srcList dstList s
  | .chunkReadReturn ch m data => Sys2Proof.Machine.execChunkReadReturn ch m data s
  | .channelDone ch => Sys2Proof.Machine.execChannelDone ch s
  | .channelBlockStart core => Sys2Proof.Machine.execChannelBlockStart core s
  | .henHealthAlarm source test => Sys2Proof.Machine.execHenHealthAlarm source test s
  | .conditionerOutput raw => Sys2Proof.Machine.execConditionerOutput raw s
  | .drbgRequestDone inst => Sys2Proof.Machine.execDrbgRequestDone inst s
  | .drbgReseedDeadline inst => Sys2Proof.Machine.execDrbgReseedDeadline inst s
  | .rngDataRead addr size tag => Sys2Proof.Machine.execRngDataRead addr size tag s
  | .henTestWrite tag data => Sys2Proof.Machine.execHenTestWrite tag data s
  | .hello hdr msg => Sys2Proof.Machine.execHello hdr msg s
  | .kex hdr kem point => Sys2Proof.Machine.execKex hdr kem point s
  | .confirm hdr value => Sys2Proof.Machine.execConfirm hdr value s
  | .heartbeat hdr msg => Sys2Proof.Machine.execHeartbeat hdr msg s
  | .faultNotice hdr cause parts => Sys2Proof.Machine.execFaultNotice hdr cause parts s
  | .commit hdr items => Sys2Proof.Machine.execCommit hdr items s
  | .commitAck hdr seqs => Sys2Proof.Machine.execCommitAck hdr seqs s
  | .state hdr item => Sys2Proof.Machine.execState hdr item s
  | .syncData hdr item => Sys2Proof.Machine.execSyncData hdr item s
  | .syncDone hdr part => Sys2Proof.Machine.execSyncDone hdr part s
  | .handoverBegin hdr part => Sys2Proof.Machine.execHandoverBegin hdr part s
  | .handoverDone hdr part epoch => Sys2Proof.Machine.execHandoverDone hdr part epoch s
  | .detach hdr => Sys2Proof.Machine.execDetach hdr s
  | .syncCopyEnd part => Sys2Proof.Machine.execSyncCopyEnd part s
  | .heartbeatSend => Sys2Proof.Machine.execHeartbeatSend s
  | .helloSend => Sys2Proof.Machine.execHelloSend s
  | .twinLoss => Sys2Proof.Machine.execTwinLoss s
  | .twLinkUpChange up => Sys2Proof.Machine.execTwLinkUpChange up s
  | .replayTimeout => Sys2Proof.Machine.execReplayTimeout s
  | .commitFlush => Sys2Proof.Machine.execCommitFlush s
  | .sessionRekey => Sys2Proof.Machine.execSessionRekey s
  | .leaseRenewal part => Sys2Proof.Machine.execLeaseRenewal part s
  | .leaseRenewalResponse part old => Sys2Proof.Machine.execLeaseRenewalResponse part old s
  | .leaseRenewalRetry part => Sys2Proof.Machine.execLeaseRenewalRetry part s
  | .leaseOutputStop part => Sys2Proof.Machine.execLeaseOutputStop part s
  | .leaseFenced part => Sys2Proof.Machine.execLeaseFenced part s
  | .leaseWatchRead part word => Sys2Proof.Machine.execLeaseWatchRead part word s
  | .leaseTakeResponse part old => Sys2Proof.Machine.execLeaseTakeResponse part old s
  | .handoverTimeout part => Sys2Proof.Machine.execHandoverTimeout part s
  | .caseAlarm n => Sys2Proof.Machine.execCaseAlarm n s
  | .meshAlarm n mismatches => Sys2Proof.Machine.execMeshAlarm n mismatches s
  | .meshBurst mismatches vbatMv temp bondOpen => Sys2Proof.Machine.execMeshBurst mismatches vbatMv temp bondOpen s
  | .vencAlarm mv => Sys2Proof.Machine.execVencAlarm mv s
  | .vbatAlarm mv => Sys2Proof.Machine.execVbatAlarm mv s
  | .tempAlarm temp => Sys2Proof.Machine.execTempAlarm temp s
  | .clkGlitch => Sys2Proof.Machine.execClkGlitch s
  | .voltGlitch => Sys2Proof.Machine.execVoltGlitch s
  | .bondAlarm => Sys2Proof.Machine.execBondAlarm s
  | .cellExhaustion mv => Sys2Proof.Machine.execCellExhaustion mv s
  | .vencAbsent mv => Sys2Proof.Machine.execVencAbsent mv s
  | .vencUp mv cfgOk cellKept => Sys2Proof.Machine.execVencUp mv cfgOk cellKept s
  | .ganderEvaluation => Sys2Proof.Machine.execGanderEvaluation s
  | .storeInversion => Sys2Proof.Machine.execStoreInversion s
  | .fuseBlow tag data => Sys2Proof.Machine.execFuseBlow tag data s
  | .fuseBlowDone => Sys2Proof.Machine.execFuseBlowDone s
  | .nonceExpiry => Sys2Proof.Machine.execNonceExpiry s
  | .ceremonyExpiry => Sys2Proof.Machine.execCeremonyExpiry s
  | .opMinute => Sys2Proof.Machine.execOpMinute s
  | .extremesSample ts tj venc vbat => Sys2Proof.Machine.execExtremesSample ts tj venc vbat s
  | .recCommit tag => Sys2Proof.Machine.execRecCommit tag s
  | .deferredCommit => Sys2Proof.Machine.execDeferredCommit s
  | .recCommitDone ok => Sys2Proof.Machine.execRecCommitDone ok s
  | .archive tag upTo => Sys2Proof.Machine.execArchive tag upTo s
  | .recWordRead addr size tag => Sys2Proof.Machine.execRecWordRead addr size tag s
  | .thermalStep sensors => Sys2Proof.Machine.execThermalStep sensors s
  | .thermalClamp sensor temp => Sys2Proof.Machine.execThermalClamp sensor temp s
  | .thermalClampLift region sensors => Sys2Proof.Machine.execThermalClampLift region sensors s
  | .dvfsReading needs => Sys2Proof.Machine.execDvfsReading needs s
  | .frequencyRaise domain => Sys2Proof.Machine.execFrequencyRaise domain s
  | .pllUnlock domains => Sys2Proof.Machine.execPllUnlock domains s
  | .pllLock domains => Sys2Proof.Machine.execPllLock domains s
  | .sourceInactive source => Sys2Proof.Machine.execSourceInactive source s
  | .mportPairedNoResponse req => Sys2Proof.Machine.execMportPairedNoResponse req s
  | .releaseAckWaitEnd part => Sys2Proof.Machine.execReleaseAckWaitEnd part s
  | .vcoreCodeStepDue => Sys2Proof.Machine.execVcoreCodeStepDue s

end Sys2Proof.Machine
end

