-- ==== Sys2Proof/Safety.lean ====
section
/-! DEFINITION. The terms that the statements use: what the one-time state keeps, when a DRAKE core issues an instruction, and what
an instruction leaves as it was. -/

namespace Sys2Proof.Machine

open Sys2Proof

/-! ## One-time state -/

/-- What the one-time state of a later moment keeps of an earlier one: the fuse counter never falls (03 R55), a sentinel source's
floor never falls and a source fused off stays so (16 R355), and nothing else of it changes. -/
structure Fuses.Grown (old new : Fuses) : Prop where
  rollback : old.rollback ≤ new.rollback
  floor : ∀ i, nth 0 old.floor i ≤ nth 0 new.floor i
  fusedOff : ∀ i, old.fusedOff.getLsbD i = true → new.fusedOff.getLsbD i = true
  rest : new = { old with rollback := new.rollback, floor := new.floor, fusedOff := new.fusedOff }

/-! ## K14 -/

/-- Core u issues instruction i from its context c: the core is in service and runs c, c is ready, and the words at its PC spell i
with a true guard (12 R260, R265). -/
structure Block.Issues (b : Block) (i : Instr) (u : Nat) (c : Fin 8) : Prop where
  inService : b.inService (188 + u) = true
  running : (b.core u).running = some c
  ready : (b.cx u c).st = .ready
  spelled : b.instrAt u (b.cx u c).pc = some i
  guard : (b.cx u c).pred (K14.guardOf (b.word14 (b.cx u c).pc)) = true

/-- Context c of core u with the cycles of the instruction at its PC counted (12 R285). -/
def Block.counted (b : Block) (u : Nat) (c : Fin 8) : Ctx14 :=
  { b.cx u c with cycles := (b.cx u c).cycles + b.sizeAt (b.cx u c).pc }

/-- The number that names the undefined reads of the instruction that issues next (log entry 5). -/
def Block.drawn (b : Block) : Nat := b.free + 1

/-- From state s to state t nothing changes but context c of core u and the counter of free values. -/
structure OnlyContext (s t : State) (u : Nat) (c : Fin 8) : Prop where
  state : t = { s with blk := { s.blk with pay := { s.blk.pay with cores := t.blk.pay.cores }, free := t.blk.free } }
  core : ∀ v, t.blk.core v = { s.blk.core v with ctxs := (t.blk.core v).ctxs }
  context : ∀ v d, ¬ (v = u ∧ d = c) → t.blk.cx v d = s.blk.cx v d

/-- The block as the meaning of an instruction issued from context c of core u finds it: its number drawn, its cycles counted. -/
def Block.begun (b : Block) (u : Nat) (c : Fin 8) : Block :=
  b.tick.modCx u c fun x => { x with cycles := x.cycles + b.sizeAt (b.cx u c).pc }

/-- Instruction i, issued from context c of core u, completes: the context becomes what f makes of it, moved on past the
instruction, and nothing else changes. -/
def Completes (s : State) (i : Instr) (u : Nat) (c : Fin 8) (f : Ctx14 → Ctx14) : Prop :=
  ∃ t, exec i s = .next t ∧ OnlyContext s t u c ∧
    t.blk.cx u c = (f (s.blk.counted u c)).advance s.blk.drawn (s.blk.sizeAt (s.blk.cx u c).pc)

/-- Where core u issues i from context c, i completes as `Completes` says. -/
def Does (s : State) (i : Instr) (u : Nat) (c : Fin 8) (f : Ctx14 → Ctx14) : Prop := s.blk.Issues i u c → Completes s i u c f

/-- Instruction i, issued from context c of core u, traps with a cause (12 R284). -/
def Traps (s : State) (i : Instr) (u : Nat) (c : Fin 8) (cause : Nat) : Prop :=
  exec i s = .next { s with blk := (s.blk.begun u c).trap u c cause }

/-! ## Accesses of the slave port -/

/-- A write with a tag to the page of ring pair k is taken: the block is out of reset and READY, and the tag is 0 or the owner's
(00 R6, 02 R28). -/
structure Block.TakesRingWrite (b : Block) (k tag : Nat) : Prop where
  up : b.mode.porstLow = false
  ready : b.mode.ready = true
  owns : tag = 0 ∨ b.owner k = some tag

/-- A write with a tag to the page of partition p is taken. -/
structure Block.TakesPartWrite (b : Block) (p tag : Nat) : Prop where
  up : b.mode.porstLow = false
  ready : b.mode.ready = true
  owns : tag = 0 ∨ (tag = p ∧ b.enabled p = true)

/-- The state after an accepted write that has changed nothing yet: the response channel answers OK (02 R28). -/
def State.okWrite (s : State) : State := { s with blk := s.blk.okWrite }

/-- From s to t an accepted write changes nothing but ring pair k. -/
structure OnlyRing (s t : State) (k : Nat) : Prop where
  state : t = { s with blk := { s.blk.okWrite with rings := t.blk.rings } }
  ring : ∀ j, j ≠ k → t.blk.ring j = s.blk.ring j

/-- From s to t an accepted write changes nothing but partition p. -/
structure OnlyPart (s t : State) (p : Nat) : Prop where
  state : t = { s with blk := { s.blk.okWrite with parts := t.blk.parts } }
  part : ∀ q, q ≠ p → t.blk.part q = s.blk.part q

/-! ## Engines -/

/-- From s to t nothing changes but the entry of ring pair k and index i. -/
structure OnlyEntry (s t : State) (k : Nat) (i : Index) : Prop where
  state : t = { s with blk := { s.blk with entries := t.blk.entries } }
  entry : ∀ j x, ¬ (j = k ∧ x = i) → t.blk.entry? j x = s.blk.entry? j x

/-- Command c computes: entry e takes result r, and nothing else changes. -/
def Computes (s : State) (c : Instr) (e : Entry) (r : Result) : Prop :=
  ∃ t, exec c s = .next t ∧ OnlyEntry s t e.ring e.sub ∧ t.blk.entry? e.ring e.sub = some { e with res := some r }

/-- An engine works on entry e, dispatched and without a result, of a family and operation. -/
structure Block.WorksOn (b : Block) (job : Option Job) (family op : Nat) (e : Entry) : Prop where
  job : job = some (.entry e.ring e.sub)
  held : b.entry? e.ring e.sub = some e
  stage : e.stage = .dispatched
  fresh : e.res = none
  family : e.d.family = family
  op : e.d.op = op

end Sys2Proof.Machine
end

