-- ==== Sys2Proof/WellFormed.lean ====
section
/-! DEFINITION. Well-formed commands: every operand lies in the range of what it names. Units are named by the unit
numbers of AV_UNIT_STATE (03): lanes 0 to 111, OX units 112 to 167, lattice units 168 to 187, DRAKE cores 188 to 205,
store banks 206 to 273. -/

namespace Sys2Proof

/-- Whether each operand of a command lies in the range of what it names: 65,536 rings, 4,096 partitions and tags,
16,384 vectors, an aperture of 512 MiB (02 R32), and for a K14 instruction no reserved encoding (12 R265 to R270). -/
def Instr.wf : Instr → Bool
  | .timeSample sec ns _ => decide (sec < 281474976710656) && decide (ns < 4294967296)
  | .stbTimeout => true
  | .registerWrite addr size tag _ => decide (addr < 536870912) && (size == 4 || size == 8) && decide (tag < 4096)
  | .rcFieldRead addr size tag => decide (addr < 536870912) && (size == 4 || size == 8) && decide (tag < 4096)
  | .sportBadAccess addr _ tag _ => decide (addr < 536870912) && decide (tag < 4096)
  | .ownerErr addr size tag _ => decide (addr < 536870912) && (size == 4 || size == 8) && decide (tag < 4096)
  | .earlyWrite addr size tag => decide (addr < 536870912) && (size == 4 || size == 8) && decide (tag < 4096)
  | .mportErrorResponse _ => true
  | .mportTimeout _ => true
  | .irqMessageReissue vec => decide (vec < 16384)
  | .porstAssert => true
  | .resetRelease => true
  | .warm tag => decide (tag < 4096)
  | .handover tag => decide (tag < 4096)
  | .warmHandoverTimeout => true
  | .warmResetDrainEnd => true
  | .partReset part tag => decide (part < 4096) && decide (tag < 4096)
  | .partitionResetEnd part => decide (part < 4096)
  | .abortCompletionDrop ring => decide (ring < 65536)
  | .bistDone failed => failed.all (fun u => decide (u < 274))
  | .henWarmupEnd => true
  | .henStartupTestEnd _ _ _ => true
  | .henSeeded => true
  | .imageLoadStart tag => decide (tag < 4096)
  | .imageFetchStart => true
  | .imageChecks _ _ => true
  | .fuseAdvanceStep => true
  | .endOfBoot => true
  | .calDone => true
  | .requestOperational tag => decide (tag < 4096)
  | .requestMaintenance tag => decide (tag < 4096)
  | .modeRequestRefused tag request => decide (tag < 4096) && decide (request < 8)
  | .maintenanceDrainEnd => true
  | .operationalReturn => true
  | .retestComplete unit _ => decide (unit < 274)
  | .periodicSelfTest unit _ => decide (unit < 274)
  | .storeScrub bank _ => decide (206 ≤ bank ∧ bank < 274)
  | .storeUncorrectableError bank region _ _ => decide (206 ≤ bank ∧ bank < 274) && decide (region < 4)
  | .bankMigrationDone bank => decide (206 ≤ bank ∧ bank < 274)
  | .enable ring tag => decide (ring < 65536) && decide (tag < 4096)
  | .stop ring tag => decide (ring < 65536) && decide (tag < 4096)
  | .doorbell ring tag _ => decide (ring < 65536) && decide (tag < 4096)
  | .setupRecordWrite ring tag word _ => decide (ring < 65536) && decide (tag < 4096) && decide (word < 8)
  | .pushWrite ring tag slot word _ => decide (ring < 65536) && decide (tag < 4096) && decide (slot < 4) && decide (word < 8)
  | .retract ring tag _ => decide (ring < 65536) && decide (tag < 4096)
  | .consume ring tag _ => decide (ring < 65536) && decide (tag < 4096)
  | .modCountWrite ring tag _ => decide (ring < 65536) && decide (tag < 4096)
  | .modTimeWrite ring tag _ => decide (ring < 65536) && decide (tag < 4096)
  | .modTableWrite vec offset size tag _ => decide (vec < 16384) && decide (offset < 16) && (size == 4 || size == 8) && decide (tag < 4096)
  | .vectorTableWrite vec offset size tag _ => decide (vec < 16384) && decide (offset < 16) && (size == 4 || size == 8) && decide (tag < 4096)
  | .partitionSleep part tag => decide (part < 4096) && decide (tag < 4096)
  | .partitionWake part tag => decide (part < 4096) && decide (tag < 4096)
  | .modTimeExpiry vec => decide (vec < 16384)
  | .turnGrant => true
  | .pollDue ring => decide (ring < 65536)
  | .fetchDataReturn ring _ => decide (ring < 65536)
  | .pollBurstReturn ring _ => decide (ring < 65536)
  | .fetchRepeat ring => decide (ring < 65536)
  | .faultRepeat ring => decide (ring < 65536)
  | .creditAdmit part => decide (part < 4096)
  | .stagingGrant part => decide (part < 4096)
  | .sgListReadReturn ring _ _ _ => decide (ring < 65536)
  | .gatherReadReturn ring _ _ _ => decide (ring < 65536)
  | .writeResponse port _ => decide (port < 2)
  | .readbackReturn ring _ => decide (ring < 65536)
  | .serviceFrame => true
  | .adaptationPeriod => true
  | .acquire part tag _ => decide (part < 4096) && decide (tag < 4096)
  | .release part tag _ => decide (part < 4096) && decide (tag < 4096)
  | .lockLeaseExpiry part => decide (part < 4096)
  | .descriptorTimeLimit ring _ => decide (ring < 65536)
  | .laneDispatch pers => decide (pers < 64)
  | .laneMismatch lane _ => decide (lane < 112)
  | .laneWorkDone lane => decide (lane < 112)
  | .personalityLoadDone lane => decide (lane < 112)
  | .balancerEvaluation => true
  | .starvationSwitch pers => decide (pers < 64)
  | .oxDispatch => true
  | .oxValidationReport unit => decide (112 ≤ unit ∧ unit < 168)
  | .oxSelfCheckMismatch unit => decide (112 ≤ unit ∧ unit < 168)
  | .oxJobDone unit => decide (112 ≤ unit ∧ unit < 168)
  | .unitWipeDone unit _ => decide (112 ≤ unit ∧ unit < 188)
  | .latDispatch => true
  | .latCheckPhaseEnd unit => decide (168 ≤ unit ∧ unit < 188)
  | .latSelfCheckMismatch unit => decide (168 ≤ unit ∧ unit < 188)
  | .latJobDone unit => decide (168 ≤ unit ∧ unit < 188)
  | .payDispatch => true
  | .coreFault core => decide (188 ≤ core ∧ core < 206)
  | .watchdogExpiry core => decide (188 ≤ core ∧ core < 206)
  | .keyLaneDispatch => true
  | .eraseDrainEnd slot => decide (slot < 32768)
  | .nop ring _ => decide (ring < 65536)
  | .encrypt lane => decide (lane < 112)
  | .decrypt lane => decide (lane < 112)
  | .hash lane => decide (lane < 112)
  | .hashVerify lane => decide (lane < 112)
  | .macGenerate lane => decide (lane < 112)
  | .macVerify lane => decide (lane < 112)
  | .xof lane => decide (lane < 112)
  | .modAdd unit => decide (112 ≤ unit ∧ unit < 168)
  | .modSub unit => decide (112 ≤ unit ∧ unit < 168)
  | .modMul unit => decide (112 ≤ unit ∧ unit < 168)
  | .modExp unit => decide (112 ≤ unit ∧ unit < 168)
  | .modInv unit => decide (112 ≤ unit ∧ unit < 168)
  | .rsaEncrypt unit => decide (112 ≤ unit ∧ unit < 168)
  | .rsaVerify unit => decide (112 ≤ unit ∧ unit < 168)
  | .rsaDecrypt unit => decide (112 ≤ unit ∧ unit < 168)
  | .rsaSign unit => decide (112 ≤ unit ∧ unit < 168)
  | .rsaKeygen unit => decide (112 ≤ unit ∧ unit < 168)
  | .ecdsaSign unit => decide (112 ≤ unit ∧ unit < 168)
  | .ecdsaVerify unit => decide (112 ≤ unit ∧ unit < 168)
  | .ecdh unit => decide (112 ≤ unit ∧ unit < 168)
  | .ecKeygen unit => decide (112 ≤ unit ∧ unit < 168)
  | .eddsaSign unit => decide (112 ≤ unit ∧ unit < 168)
  | .eddsaVerify unit => decide (112 ≤ unit ∧ unit < 168)
  | .xdh unit => decide (112 ≤ unit ∧ unit < 168)
  | .edwardsKeygen unit => decide (112 ≤ unit ∧ unit < 168)
  | .kemKeygen unit => decide (168 ≤ unit ∧ unit < 188)
  | .kemEncaps unit => decide (168 ≤ unit ∧ unit < 188)
  | .kemDecaps unit => decide (168 ≤ unit ∧ unit < 188)
  | .dsaKeygen unit => decide (168 ≤ unit ∧ unit < 188)
  | .dsaSign unit => decide (168 ≤ unit ∧ unit < 188)
  | .dsaVerify unit => decide (168 ≤ unit ∧ unit < 188)
  | .pinTranslate core ctx => decide (188 ≤ core ∧ core < 206) && decide (ctx < 8)
  | .pinVerify core ctx => decide (188 ≤ core ∧ core < 206) && decide (ctx < 8)
  | .dukptDecrypt core ctx => decide (188 ≤ core ∧ core < 206) && decide (ctx < 8)
  | .dukptPinTranslate core ctx => decide (188 ≤ core ∧ core < 206) && decide (ctx < 8)
  | .dukptMacVerify core ctx => decide (188 ≤ core ∧ core < 206) && decide (ctx < 8)
  | .emvArqcVerify core ctx => decide (188 ≤ core ∧ core < 206) && decide (ctx < 8)
  | .emvArpcGenerate core ctx => decide (188 ≤ core ∧ core < 206) && decide (ctx < 8)
  | .emvScriptMac core ctx => decide (188 ≤ core ∧ core < 206) && decide (ctx < 8)
  | .emvSessionDerive core ctx => decide (188 ≤ core ∧ core < 206) && decide (ctx < 8)
  | .kcv core ctx => decide (188 ≤ core ∧ core < 206) && decide (ctx < 8)
  | .slhVerify core ctx hashed off => decide (188 ≤ core ∧ core < 206) && decide (ctx < 8) && decide (hashed.length ≤ 4096 ∧ off + 32 ≤ 4096)
  | .keyImport lane => decide (lane < 112)
  | .keyExport lane => decide (lane < 112)
  | .keyGenerate lane => decide (lane < 112)
  | .keyDerive lane => decide (lane < 112)
  | .keyErase lane => decide (lane < 112)
  | .keyQuery lane => decide (lane < 112)
  | .twinAttach lane => decide (lane < 112)
  | .twinDetach lane => decide (lane < 112)
  | .challenge lane => decide (lane < 112)
  | .unlock lane => decide (lane < 112)
  | .enrol lane => decide (lane < 112)
  | .revoke lane => decide (lane < 112)
  | .mkBegin lane => decide (lane < 112)
  | .mkShare lane => decide (lane < 112)
  | .rngGenerate ring _ => decide (ring < 65536)
  | .generatePr ring _ => decide (ring < 65536)
  | .copy ring _ => decide (ring < 65536)
  | .fill ring _ => decide (ring < 65536)
  | .callComplete core ctx => decide (188 ≤ core ∧ core < 206) && decide (ctx < 8)
  | .mov core _ _ _ => decide (188 ≤ core ∧ core < 206)
  | .add core _ _ _ => decide (188 ≤ core ∧ core < 206)
  | .sub core _ _ _ => decide (188 ≤ core ∧ core < 206)
  | .and core _ _ _ => decide (188 ≤ core ∧ core < 206)
  | .or core _ _ _ => decide (188 ≤ core ∧ core < 206)
  | .xor core _ _ _ => decide (188 ≤ core ∧ core < 206)
  | .shl core _ _ _ => decide (188 ≤ core ∧ core < 206)
  | .shr core _ _ _ => decide (188 ≤ core ∧ core < 206)
  | .sar core _ _ _ => decide (188 ≤ core ∧ core < 206)
  | .rol core _ _ _ => decide (188 ≤ core ∧ core < 206)
  | .bswap core _ _ => decide (188 ≤ core ∧ core < 206)
  | .mul core _ _ _ => decide (188 ≤ core ∧ core < 206)
  | .movi core _ _ _ => decide (188 ≤ core ∧ core < 206)
  | .movu core _ _ _ => decide (188 ≤ core ∧ core < 206)
  | .addi core _ _ _ => decide (188 ≤ core ∧ core < 206)
  | .andi core _ _ _ => decide (188 ≤ core ∧ core < 206)
  | .ori core _ _ _ => decide (188 ≤ core ∧ core < 206)
  | .xori core _ _ _ => decide (188 ≤ core ∧ core < 206)
  | .cmp core _ _ _ pair _ => decide (188 ≤ core ∧ core < 206) && pair != 0
  | .cmpi core _ _ _ pair _ => decide (188 ≤ core ∧ core < 206) && pair != 0
  | .ldw core _ _ _ _ _ _ => decide (188 ≤ core ∧ core < 206)
  | .ldh core _ _ _ _ _ _ => decide (188 ≤ core ∧ core < 206)
  | .ldb core _ _ _ _ _ _ => decide (188 ≤ core ∧ core < 206)
  | .stw core _ _ _ _ _ _ => decide (188 ≤ core ∧ core < 206)
  | .sth core _ _ _ _ _ _ => decide (188 ≤ core ∧ core < 206)
  | .stb core _ _ _ _ _ _ => decide (188 ≤ core ∧ core < 206)
  | .dadd core _ _ _ pair => decide (188 ≤ core ∧ core < 206) && pair != 0
  | .dadc core _ _ _ pair => decide (188 ≤ core ∧ core < 206) && pair != 0
  | .dsub core _ _ _ pair => decide (188 ≤ core ∧ core < 206) && pair != 0
  | .dsbb core _ _ _ pair => decide (188 ≤ core ∧ core < 206) && pair != 0
  | .daddn core _ _ _ => decide (188 ≤ core ∧ core < 206)
  | .dsubn core _ _ _ => decide (188 ≤ core ∧ core < 206)
  | .daa core _ _ _ => decide (188 ≤ core ∧ core < 206)
  | .dbin core _ _ _ => decide (188 ≤ core ∧ core < 206)
  | .next core _ _ _ _ _ => decide (188 ≤ core ∧ core < 206)
  | .nins core _ _ _ _ _ => decide (188 ≤ core ∧ core < 206)
  | .nshl core _ _ _ => decide (188 ≤ core ∧ core < 206)
  | .branch core _ _ => decide (188 ≤ core ∧ core < 206)
  | .call core _ _ => decide (188 ≤ core ∧ core < 206)
  | .jrJump core _ _ => decide (188 ≤ core ∧ core < 206)
  | .jrCall core _ _ => decide (188 ≤ core ∧ core < 206)
  | .loop core _ _ _ => decide (188 ≤ core ∧ core < 206)
  | .loopi core _ _ _ => decide (188 ≤ core ∧ core < 206)
  | .rpt core _ _ => decide (188 ≤ core ∧ core < 206)
  | .mfr core _ _ _ => decide (188 ≤ core ∧ core < 206)
  | .mtr core _ _ _ => decide (188 ≤ core ∧ core < 206)
  | .post core _ _ => decide (188 ≤ core ∧ core < 206)
  | .mbr core _ _ => decide (188 ≤ core ∧ core < 206)
  | .mch core _ _ => decide (188 ≤ core ∧ core < 206)
  | .ctlNop core _ => decide (188 ≤ core ∧ core < 206)
  | .ret core _ => decide (188 ≤ core ∧ core < 206)
  | .trapi core _ _ => decide (188 ≤ core ∧ core < 206)
  | .sev core _ _ _ _ => decide (188 ≤ core ∧ core < 206)
  | .wfe core _ _ mask => decide (188 ≤ core ∧ core < 206) && mask != 0
  | .waitt core _ _ => decide (188 ≤ core ∧ core < 206)
  | .done core _ _ => decide (188 ≤ core ∧ core < 206)
  | .eret core _ => decide (188 ≤ core ∧ core < 206)
  | .emulationVector core => decide (188 ≤ core ∧ core < 206)
  | .contextResume core => decide (188 ≤ core ∧ core < 206)
  | .waittReached core ctx => decide (188 ≤ core ∧ core < 206) && decide (ctx < 8)
  | .muleStart ch tag _ => decide (ch < 64) && decide (tag < 4096)
  | .muleDisable ch tag _ => decide (ch < 64) && decide (tag < 4096)
  | .channelListReadReturn ch _ _ => decide (ch < 64)
  | .chunkReadReturn ch _ _ => decide (ch < 64)
  | .channelDone ch => decide (ch < 64)
  | .channelBlockStart core => decide (188 ≤ core ∧ core < 206)
  | .henHealthAlarm source test => decide (source < 2) && (test == 1 || test == 2)
  | .conditionerOutput _ => true
  | .drbgRequestDone inst => decide (inst < 16)
  | .drbgReseedDeadline inst => decide (inst < 16)
  | .rngDataRead addr size tag => decide (addr < 536870912) && (size == 4 || size == 8) && decide (tag < 4096)
  | .henTestWrite tag _ => decide (tag < 4096)
  | .hello _ _ => true
  | .kex _ kem point => (kem.length == 1184 || kem.length == 1088) && point.length == 96
  | .confirm _ value => value.length == 32
  | .heartbeat _ _ => true
  | .faultNotice _ _ _ => true
  | .commit _ _ => true
  | .commitAck _ _ => true
  | .state _ _ => true
  | .syncData _ _ => true
  | .syncDone _ part => decide (part < 4096)
  | .handoverBegin _ part => decide (part < 4096)
  | .handoverDone _ part _ => decide (part < 4096)
  | .detach _ => true
  | .syncCopyEnd part => decide (part < 4096)
  | .heartbeatSend => true
  | .helloSend => true
  | .twinLoss => true
  | .twLinkUpChange _ => true
  | .replayTimeout => true
  | .commitFlush => true
  | .sessionRekey => true
  | .leaseRenewal part => decide (part < 4096)
  | .leaseRenewalResponse part _ => decide (part < 4096)
  | .leaseRenewalRetry part => decide (part < 4096)
  | .leaseOutputStop part => decide (part < 4096)
  | .leaseFenced part => decide (part < 4096)
  | .leaseWatchRead part _ => decide (part < 4096)
  | .leaseTakeResponse part _ => decide (part < 4096)
  | .handoverTimeout part => decide (part < 4096)
  | .caseAlarm n => decide (n < 4)
  | .meshAlarm n _ => decide (n < 8)
  | .meshBurst mismatches _ _ _ => mismatches.length == 8
  | .vencAlarm _ => true
  | .vbatAlarm _ => true
  | .tempAlarm _ => true
  | .clkGlitch => true
  | .voltGlitch => true
  | .bondAlarm => true
  | .cellExhaustion _ => true
  | .vencAbsent _ => true
  | .vencUp _ _ _ => true
  | .ganderEvaluation => true
  | .storeInversion => true
  | .fuseBlow tag _ => decide (tag < 4096)
  | .fuseBlowDone => true
  | .nonceExpiry => true
  | .ceremonyExpiry => true
  | .opMinute => true
  | .extremesSample _ _ _ _ => true
  | .recCommit tag => decide (tag < 4096)
  | .deferredCommit => true
  | .recCommitDone _ => true
  | .archive tag _ => decide (tag < 4096)
  | .recWordRead addr size tag => decide (addr < 536870912) && size == 8 && decide (tag < 4096)
  | .thermalStep sensors => sensors.length == 32
  | .thermalClamp sensor _ => decide (sensor < 32)
  | .thermalClampLift region sensors => decide (region < 8) && sensors.length == 4
  | .dvfsReading needs => needs.length == 140
  | .frequencyRaise domain => decide (domain < 139)
  | .pllUnlock domains => domains.all (fun d => decide (d < 139))
  | .pllLock domains => domains.all (fun d => decide (d < 139))
  | .sourceInactive source => decide (source < 19)
  | .mportPairedNoResponse _ => true
  | .releaseAckWaitEnd part => decide (part < 4096)
  | .vcoreCodeStepDue => true

end Sys2Proof
end

