-- ==== Sys2Proof/Certificates/Slice0/Obligations.lean ====
section
/-! DEFINITION. The statements for the provers. -/

open Sys2Proof Sys2Proof.Machine

/-- A step takes the command at the front of the queue and runs it on the state with the queue's rest. -/
def Obligations.StepRunsFront : Prop :=
  ∀ (c : Instr) (s : State), step { s with pending := c :: s.pending } = exec c s


/-! ## K14 (12) -/

/-- The register instructions of K14 (12 R266): each writes its result to d, and nothing but the issuing context changes. MUL's
result is late by a distance of 2 (12 R271). -/
def Obligations.K14RegisterInstructions : Prop :=
  ∀ (s : State) (u : Nat) (c : Fin 8) (g d r : BitVec 3) (n : BitVec 5) (imm : BitVec 14),
    let k := 188 + u
    let w := s.blk.drawn
    Does s (.mov k g d r) u c (fun x => x.writeG d (x.readG w r)) ∧
    Does s (.add k g d r) u c (fun x => x.writeG d (x.readG w d + x.readG w r)) ∧
    Does s (.sub k g d r) u c (fun x => x.writeG d (x.readG w d - x.readG w r)) ∧
    Does s (.and k g d r) u c (fun x => x.writeG d (x.readG w d &&& x.readG w r)) ∧
    Does s (.or k g d r) u c (fun x => x.writeG d (x.readG w d ||| x.readG w r)) ∧
    Does s (.xor k g d r) u c (fun x => x.writeG d (x.readG w d ^^^ x.readG w r)) ∧
    Does s (.shl k g d n) u c (fun x => x.writeG d (x.readG w d <<< n.toNat)) ∧
    Does s (.shr k g d n) u c (fun x => x.writeG d (x.readG w d >>> n.toNat)) ∧
    Does s (.sar k g d n) u c (fun x => x.writeG d ((x.readG w d).sshiftRight n.toNat)) ∧
    Does s (.rol k g d n) u c (fun x => x.writeG d ((x.readG w d).rotateLeft n.toNat)) ∧
    Does s (.bswap k g d) u c (fun x => x.writeG d
      ((x.readG w d).extractLsb' 0 8 ++ (x.readG w d).extractLsb' 8 8 ++ (x.readG w d).extractLsb' 16 8 ++
        (x.readG w d).extractLsb' 24 8)) ∧
    Does s (.mul k g d r) u c (fun x => x.produce d (x.readG w d * x.readG w r) 2) ∧
    Does s (.movi k g d imm) u c (fun x => x.writeG d (imm.signExtend 32)) ∧
    Does s (.movu k g d imm) u c (fun x => x.writeG d ((x.readG w d).extractLsb' 0 18 ++ imm)) ∧
    Does s (.addi k g d imm) u c (fun x => x.writeG d (x.readG w d + imm.signExtend 32)) ∧
    Does s (.andi k g d imm) u c (fun x => x.writeG d (x.readG w d &&& imm.signExtend 32)) ∧
    Does s (.ori k g d imm) u c (fun x => x.writeG d (x.readG w d ||| imm.signExtend 32)) ∧
    Does s (.xori k g d imm) u c (fun x => x.writeG d (x.readG w d ^^^ imm.signExtend 32))

/-- CMP and CMPI write their predicate pair with the condition of their code and its complement (12 R268); the pair
value 0 is reserved. A predicate pair (12 R264, R268): its even predicate takes the condition and its odd one the complement, every other predicate
stays, P0 reads true and P1 false; nothing else of the context changes. -/
def Obligations.K14Compares : Prop :=
  (∀ (s : State) (u : Nat) (c : Fin 8) (g d r cond : BitVec 3) (pair : BitVec 2) (imm : BitVec 12),
     let k := 188 + u
     let w := s.blk.drawn
     let holds := fun (a v : BitVec 32) => match cond.toNat with
       | 0 => decide (a = v)
       | 1 => decide (a.toInt < v.toInt)
       | 2 => decide (a.toNat < v.toNat)
       | 3 => decide (a.toInt ≤ v.toInt)
       | 4 => decide (a.toNat ≤ v.toNat)
       | 5 => decide (a &&& v ≠ 0)
       | 6 => decide (digitValue (digits a) < digitValue (digits v))
       | _ => (List.range 8).all fun i => !v.getLsbD i || decide (nibble a i ≤ 9)
     Does s (.cmp k g d r pair cond) u c (fun x => x.setPair pair (holds (x.readG w d) (x.readG w r))) ∧
     Does s (.cmpi k g d cond pair imm) u c (fun x => x.setPair pair (holds (x.readG w d) (imm.signExtend 32))) ∧
     (Instr.cmp k g d r 0 cond).wf = false ∧ (Instr.cmpi k g d cond 0 imm).wf = false ∧
     (∀ k' w x, K14.decode k' w x ≠ some (.cmp k g d r 0 cond) ∧ K14.decode k' w x ≠ some (.cmpi k g d cond 0 imm))) ∧
  (∀ (x : Ctx14) (pair : BitVec 2) (v : Bool) (q : BitVec 3), pair ≠ 0 →
     let y := x.setPair pair v
     y.pred 0 = true ∧ y.pred 1 = false ∧
     (q.toNat = 2 * pair.toNat → y.pred q = v) ∧
     (q.toNat = 2 * pair.toNat + 1 → y.pred q = !v) ∧
     (q.toNat / 2 ≠ pair.toNat → y.pred q = x.pred q) ∧
     y = { x with p := y.p })

/-- Registers and late results (12 R264, R271): a register reads as it was last written; one whose producer's distance has not
passed reads a value that nothing fixes, and the result arrives once it has. The end of an instruction (12 R272 to R274): a repetition under RPT keeps the PC; a branch takes its target after its delay
slot; otherwise the PC moves past the instruction's words, or back to the start of a loop whose end it stands at, LC counting
down, and a loop at its last pass is left. -/
def Obligations.InstructionEnd : Prop :=
  (∀ (x : Ctx14) (n m : Nat) (d q : BitVec 3) (v : BitVec 32) (dist : Nat),
     (x.late = [] → (x.writeG d v).readG n q = if q = d then v else x.readG n q) ∧
     ((x.produce d v dist).readG n d = Config.earlyRead (16 * n + d.toNat)) ∧
     (q ≠ d → (x.produce d v dist).readG n q = x.readG n q) ∧
     (x.late = [] → 0 < dist → (x.produce d v dist).tickLate n =
       { x with late := [{ reg := d, value := v, left := dist }] }) ∧
     (∀ left, 1 < left → ({ x with late := [{ reg := d, value := v, left }] } : Ctx14).tickLate n =
       { x with late := [{ reg := d, value := v, left := left - 1 }] }) ∧
     (({ x with late := [{ reg := d, value := v, left := 1 }] } : Ctx14).tickLate n).readG m q =
       if q = d then v else ({ x with late := [] } : Ctx14).readG m q) ∧
  (∀ (x : Ctx14) (n words : Nat), x.late = [] →
     let y := x.advance n words
     y.g = x.g ∧ y.p = x.p ∧
     (1 < x.rpt → y = { x with rpt := x.rpt - 1 }) ∧
     (x.rpt ≤ 1 → ∀ target, x.delay = some target → (∀ l ∈ x.loops.head?, l.le ≠ x.pc) →
       y = { x with rpt := 0, delay := none, pc := target }) ∧
     (x.rpt ≤ 1 → x.delay = none → (∀ l ∈ x.loops.head?, l.le ≠ x.pc) →
       y = { x with rpt := 0, pc := x.pc + BitVec.ofNat 14 words }) ∧
     (x.rpt ≤ 1 → x.delay = none → ∀ l rest, x.loops = l :: rest → l.le = x.pc → 1 < l.lc.toNat →
       y = { x with rpt := 0, pc := l.ls, loops := { l with lc := l.lc - 1 } :: rest }) ∧
     (x.rpt ≤ 1 → x.delay = none → ∀ l rest, x.loops = l :: rest → l.le = x.pc → l.lc.toNat ≤ 1 →
       y = { x with rpt := 0, pc := x.pc + BitVec.ofNat 14 words, loops := rest }))

/-- Loads (12 R261, R269, R271): an aligned access reads its bytes big-endian, zero-extended, late by a distance of 2; with POST the
base moves on by the size unless it is the destination; a misaligned access traps with cause 0x05. Stores (12 R261, R269): an aligned access of a size writes the low bytes of d, big-endian, at the offset, in the context's bank,
or in bank 0 from context 0; every other byte of that bank and every other bank stays; POST moves the base on. A misaligned access
traps with cause 0x05, and an aligned store to bank 0 from another context with cause 0x06. -/
def Obligations.K14Memory : Prop :=
  (∀ (s : State) (u : Nat) (c : Fin 8) (g d r : BitVec 3) (common post : Bool) (disp : BitVec 12),
     let w := s.blk.drawn
     ∀ load size, (load, size) ∈ [(Instr.ldw, 4), (Instr.ldh, 2), (Instr.ldb, 1)] →
       let i := load (188 + u) g d r common post disp
       let x := s.blk.counted u c
       let off := (x.readG w r + disp.setWidth 32).toNat % 4096
       s.blk.Issues i u c →
         (off % size = 0 → Completes s i u c fun x =>
           (if post ∧ r ≠ d then x.writeG r (x.readG w r + BitVec.ofNat 32 size) else x).produce d
             (BitVec.ofNat 32 (ofBE (bankRead (s.blk.bankOf u c common) off size))) 2) ∧
         (off % size ≠ 0 → Traps s i u c 0x05)) ∧
  (∀ (s : State) (u : Nat) (c : Fin 8) (g d r : BitVec 3) (common post : Bool) (disp : BitVec 12),
     let w := s.blk.drawn
     ∀ store size, (store, size) ∈ [(Instr.stw, 4), (Instr.sth, 2), (Instr.stb, 1)] →
       let i := store (188 + u) g d r common post disp
       let x := s.blk.counted u c
       let off := (x.readG w r + disp.setWidth 32).toNat % 4096
       let own := fun (b : Block) => b.bankOf u c false
       s.blk.Issues i u c →
         (off % size = 0 → ¬ (common = true ∧ c ≠ 0) → ∃ t, exec i s = .next t ∧
           bankRead (own t.blk) off size = toBE size (x.readG w d).toNat ∧
           (∀ a, a < off ∨ off + size ≤ a → Table.get 0 (own t.blk) a = Table.get 0 (own s.blk) a) ∧
           (c ≠ 0 → (t.blk.core u).common = (s.blk.core u).common) ∧
           (∀ v e, ¬ (v = u ∧ e = c) → t.blk.cx v e = s.blk.cx v e) ∧
           (∀ v, v ≠ u → t.blk.core v = s.blk.core v) ∧
           t.blk.core u = { s.blk.core u with ctxs := (t.blk.core u).ctxs, common := (t.blk.core u).common } ∧
           t = { s with blk := { s.blk with pay := { s.blk.pay with cores := t.blk.pay.cores }, free := t.blk.free } } ∧
           { t.blk.cx u c with bank := x.bank } =
             (if post then x.writeG r (x.readG w r + BitVec.ofNat 32 size) else x).advance w (s.blk.sizeAt x.pc)) ∧
         (off % size ≠ 0 → Traps s i u c 0x05) ∧
         (off % size = 0 → common = true → c ≠ 0 → Traps s i u c 0x06))

/-- Packed decimal and nibble instructions (12 R270). Digits are nibbles read modulo 10. A nibble put in a register (12 R270): the nibble at its position reads back, the seven others stay. -/
def Obligations.K14Decimal : Prop :=
  (∀ (s : State) (u : Nat) (c : Fin 8) (g d r pos : BitVec 3) (pair : BitVec 2) (byReg : Bool),
     let k := 188 + u
     let w := s.blk.drawn
     let val := fun (v : BitVec 32) => digitValue (digits v)
     let carry := fun (x : Ctx14) => if x.p.getLsbD (2 * pair.toNat) then 1 else 0
     let place := fun (x : Ctx14) => if byReg then (x.readG w pos).toNat % 8 else pos.toNat
     Does s (.dadd k g d r pair) u c (fun x =>
       let n := val (x.readG w d) + val (x.readG w r)
       (x.writeG d (packDigits (n % 10 ^ 8))).setPair pair (decide (10 ^ 8 ≤ n))) ∧
     Does s (.dadc k g d r pair) u c (fun x =>
       let n := val (x.readG w d) + val (x.readG w r) + carry x
       (x.writeG d (packDigits (n % 10 ^ 8))).setPair pair (decide (10 ^ 8 ≤ n))) ∧
     Does s (.dsub k g d r pair) u c (fun x =>
       let n : Int := (val (x.readG w d) : Int) - val (x.readG w r)
       (x.writeG d (packDigits (n % 10 ^ 8).toNat)).setPair pair (decide (n < 0))) ∧
     Does s (.dsbb k g d r pair) u c (fun x =>
       let n : Int := (val (x.readG w d) : Int) - val (x.readG w r) - carry x
       (x.writeG d (packDigits (n % 10 ^ 8).toNat)).setPair pair (decide (n < 0))) ∧
     Does s (.daddn k g d r) u c (fun x => x.writeG d (digitwise (fun a v => a + v) (x.readG w d) (x.readG w r))) ∧
     Does s (.dsubn k g d r) u c (fun x => x.writeG d (digitwise (fun a v => a + 10 - v) (x.readG w d) (x.readG w r))) ∧
     Does s (.daa k g d r) u c (fun x => x.writeG d (packDigits ((x.readG w d).toNat % 10 ^ 8))) ∧
     Does s (.dbin k g d r) u c (fun x => x.writeG d (BitVec.ofNat 32 (val (x.readG w d)))) ∧
     Does s (.next k g d r byReg pos) u c (fun x => x.writeG d (BitVec.ofNat 32 ((x.readG w r).toNat / 16 ^ place x % 16))) ∧
     Does s (.nins k g d r byReg pos) u c (fun x => x.writeG d (putNibble (x.readG w d) (place x) (x.readG w r).toNat)) ∧
     Does s (.nshl k g d r) u c (fun x => x.writeG d ((x.readG w d).extractLsb' 0 28 ++ (x.readG w r).extractLsb' 0 4))) ∧
  (∀ (d : BitVec 32) (p q v : Nat), p < 8 → q < 8 →
     nibble (putNibble d p v) q = if q = p then v % 16 else nibble d q)


/-- Branches (12 R266, R272): outside a loop's end and a delay slot, B, CALL, JR and RET go on to their delay slot with their target
pending; CALL and the calling JR set LK to the address after the slot. In a delay slot they trap with cause 0x04. Loops and RPT (12 R273, R274): with no loop active and no delay slot, LOOP and LOOPI with a count above 0 and an end behind them
push the loop (LS after the instruction, LE, LC), a count of 0 goes on past the end's instruction, and an end that does not lie
behind them traps with cause 0x03; a fifth loop traps with cause 0x02. RPT repeats the instruction that follows, or
traps with cause 0x01 where that may not be repeated. A count field of 0 stands for 64. -/
def Obligations.K14BranchesAndLoops : Prop :=
  (∀ (s : State) (u : Nat) (c : Fin 8) (g r : BitVec 3) (imm : BitVec 14),
     let k := 188 + u
     let x := s.blk.counted u c
     let slot := x.pc + BitVec.ofNat 14 (s.blk.sizeAt x.pc)
     let after := slot + BitVec.ofNat 14 (s.blk.sizeAt slot)
     let goes := fun (i : Instr) (target : BitVec 14) (link : Bool) => s.blk.Issues i u c →
       ((∀ l ∈ x.loops.head?, l.le ≠ x.pc ∧ l.le ≠ slot) → x.delay = none → ∃ t, exec i s = .next t ∧ OnlyContext s t u c ∧
         t.blk.cx u c = { x.tickLate s.blk.drawn with
           pc := slot, delay := some target, rpt := 0, lk := if link then after else x.lk }) ∧
       ((∀ l ∈ x.loops.head?, l.le ≠ x.pc ∧ l.le ≠ slot) → x.delay.isSome = true → Traps s i u c 0x04) ∧
       ((∃ l, x.loops.head? = some l ∧ (l.le = x.pc ∨ l.le = slot)) → Traps s i u c 0x03)
     goes (.branch k g imm) imm false ∧ goes (.call k g imm) imm true ∧
     goes (.jrJump k g r) ((x.readG s.blk.drawn r).setWidth 14) false ∧
     goes (.jrCall k g r) ((x.readG s.blk.drawn r).setWidth 14) true ∧
     goes (.ret k g) x.lk false) ∧
  (∀ (s : State) (u : Nat) (c : Fin 8) (g r : BitVec 3) (n : BitVec 6) (le : BitVec 14),
     let k := 188 + u
     let w := s.blk.drawn
     let x := s.blk.counted u c
     let count := if n = 0 then 64 else n.toNat
     let loops := fun (i : Instr) (m : Nat) => s.blk.Issues i u c → x.delay = none →
       (x.loops = [] → x.pc.toNat < le.toNat → 0 < m → ∃ t, exec i s = .next t ∧ OnlyContext s t u c ∧
         t.blk.cx u c = { x.advance w (s.blk.sizeAt x.pc) with
           loops := [{ ls := (x.advance w (s.blk.sizeAt x.pc)).pc, le, lc := BitVec.ofNat 32 m }] }) ∧
       (x.loops = [] → x.pc.toNat < le.toNat → m = 0 → ∃ t, exec i s = .next t ∧ OnlyContext s t u c ∧
         t.blk.cx u c = { x.advance w (s.blk.sizeAt x.pc) with pc := le + BitVec.ofNat 14 (s.blk.sizeAt le) }) ∧
       (x.loops = [] → le.toNat ≤ x.pc.toNat → Traps s i u c 0x03) ∧
       (x.loops.length = 4 → 0 < m → Traps s i u c 0x02)
     loops (.loop k g r le) (x.readG w r).toNat ∧ loops (.loopi k g n le) count ∧
     (s.blk.Issues (.rpt k g n) u c → x.delay = none → x.loops = [] →
       (∀ j, s.blk.instrAt u (x.pc + 1) = some j → unrepeatable j = false → ∃ t, exec (.rpt k g n) s = .next t ∧
         OnlyContext s t u c ∧ t.blk.cx u c = { x.tickLate w with pc := x.pc + 1, rpt := count }) ∧
       (∀ j, s.blk.instrAt u (x.pc + 1) = some j → unrepeatable j = true → Traps s (.rpt k g n) u c 0x01) ∧
       (s.blk.instrAt u (x.pc + 1) = none → Traps s (.rpt k g n) u c 0x01)))

/-- Special registers (12 R275): MFR reads LK, BK, the innermost loop, its depth, TK, EV, EPC, ECAUSE, the function's operation,
MCS, the context and position, and the features; MTR writes LK, LS, LE, LC (0 as 1) and EPC and takes a loop off by LPOP. Every other
number traps with cause 0x07, and so does a write of a loop register with no loop active. -/
def Obligations.K14SpecialRegisters : Prop :=
  ∀ (s : State) (u : Nat) (c : Fin 8) (g d : BitVec 3) (num : BitVec 6),
    let k := 188 + u
    let w := s.blk.drawn
    let x := s.blk.counted u c
    let reads := fun (n : Nat) (v : BitVec 32) => num.toNat = n → Does s (.mfr k g d num) u c fun y => y.writeG d v
    let writes := fun (n : Nat) (f : BitVec 32 → Ctx14 → Ctx14) => num.toNat = n →
      Does s (.mtr k g d num) u c fun y => f (y.readG w d) y
    reads 0x00 (x.lk.setWidth 32) ∧ reads 0x01 (BitVec.ofNat 32 c) ∧
    (∀ l rest, x.loops = l :: rest →
      reads 0x02 (l.ls.setWidth 32) ∧ reads 0x03 (l.le.setWidth 32) ∧ reads 0x04 l.lc ∧
      writes 0x02 (fun v y => { y with loops := { l with ls := v.setWidth 14 } :: rest }) ∧
      writes 0x03 (fun v y => { y with loops := { l with le := v.setWidth 14 } :: rest }) ∧
      writes 0x04 (fun v y => { y with loops := { l with lc := if v = 0 then 1 else v } :: rest }) ∧
      writes 0x05 (fun _ y => { y with loops := rest })) ∧
    (x.loops = [] → reads 0x02 0 ∧ reads 0x03 0 ∧ reads 0x04 0 ∧
      (s.blk.Issues (.mtr k g d num) u c → num.toNat ∈ [2, 3, 4, 5] → Traps s (.mtr k g d num) u c 0x07)) ∧
    reads 0x06 (BitVec.ofNat 32 x.loops.length) ∧ reads 0x07 (s.blk.time.sched.setWidth 32) ∧ reads 0x08 (x.ev.setWidth 32) ∧
    reads 0x09 (x.epc.setWidth 32) ∧ reads 0x0A (x.ecause.setWidth 32) ∧ reads 0x0C x.mcs ∧
    reads 0x0B (BitVec.ofNat 32 (if c = 0 then 0 else x.op + 2 ^ 8 * x.var + 2 ^ 16 * x.part)) ∧
    reads 0x0D (BitVec.ofNat 32 (c + 2 ^ 8 * s.blk.position u)) ∧
    reads 0x10 0x1F ∧ reads 0x11 0x08044000 ∧ reads 0x12 0x00100184 ∧ reads 0x13 0 ∧
    writes 0x00 (fun v y => { y with lk := v.setWidth 14 }) ∧ writes 0x09 (fun v y => { y with epc := v.setWidth 14 }) ∧
    (s.blk.Issues (.mfr k g d num) u c → num.toNat = 0x05 ∨ num.toNat = 0x0E ∨ num.toNat = 0x0F ∨ 0x14 ≤ num.toNat →
      Traps s (.mfr k g d num) u c 0x07) ∧
    (s.blk.Issues (.mtr k g d num) u c → num.toNat ∈ [1, 6, 7, 8] ∨ 0x0A ≤ num.toNat → Traps s (.mtr k g d num) u c 0x07)

/-- POST and MCH (12 R279, R281, R282): with no call outstanding a POST whose block passes its checks posts the call; with one
outstanding it traps with cause 0x08, with a block that fails with cause 0x09. An MCH with no channel block outstanding queues a block
that passes its checks, takes the window where the block names it and suspends where another context holds it, and otherwise traps with
cause 0x0A or 0x0B. MBR reads the latched result word of the last call, late
by a distance of 4 (12 R271, R279). CALL_COMPLETE (12 R279, 11 R236): a call that its target has served places its output, latches the result word with the output's
length, is no longer outstanding, and sets EV.CALL. One that its target refused ends the function, whose descriptor completes with the
target's status and the core as its engine; a draw that HEN could not serve gives way to the refusal of check 5 that the function has
found (05 R116). -/
def Obligations.K14CallsAndBlocks : Prop :=
  (∀ (s : State) (u : Nat) (c : Fin 8) (g d : BitVec 3),
     let k := 188 + u
     let w := s.blk.drawn
     let x := s.blk.counted u c
     let b := s.blk.begun u c
     let words := s.blk.sizeAt x.pc
     let call := (b.block32 u c (x.readG w d)).bind (b.readCall u c)
     let block := b.mchBlock u c (x.readG w d)
     Does s (.mbr k g d) u c (fun x => x.produce d x.result 4) ∧
     (s.blk.Issues (.post k g d) u c →
       (x.call = none → ∀ r window, call = some (r, window) → exec (.post k g d) s =
         .next { s with blk := (b.modCx u c fun x => x.advance w words).postCall u c r window }) ∧
       (x.call.isSome = true → Traps s (.post k g d) u c 0x08) ∧
       (x.call = none → call = none → Traps s (.post k g d) u c 0x09)) ∧
     (s.blk.Issues (.mch k g d) u c →
       (x.block = false → ∀ blk, block = some blk →
         let window := (sidesOf blk).srcSel = 1 ∨ (sidesOf blk).dstSel = 1
         let held := ∃ h, (s.blk.core u).holder = some h ∧ h ≠ c
         (¬ (window ∧ held) →
           ∃ t, exec (.mch k g d) s = .next t ∧ (t.blk.core u).blocks = (s.blk.core u).blocks ++ [(c, blk)] ∧
             (window → (t.blk.core u).holder = some c) ∧ (¬ window → (t.blk.core u).holder = (s.blk.core u).holder) ∧
             t.blk.cx u c = Ctx14.advance { x with block := true } w words ∧
             (∀ v e, ¬ (v = u ∧ e = c) → t.blk.cx v e = s.blk.cx v e) ∧ (∀ v, v ≠ u → t.blk.core v = s.blk.core v) ∧
             t = { s with blk := { s.blk with pay := { s.blk.pay with cores := t.blk.pay.cores }, free := t.blk.free } }) ∧
         (window → held → exec (.mch k g d) s = .next { s with blk := b.suspend u c (.waitWindow d) })) ∧
       (x.block = true → Traps s (.mch k g d) u c 0x0A) ∧
       (x.block = false → block = none → Traps s (.mch k g d) u c 0x0B))) ∧
  (∀ (s : State) (u : Nat) (c : Fin 8) (r : CallRec), (s.blk.cx u c).call = some r → r.ready = true →
     (r.failed = none →
       let b := (s.blk.placeOutput u c r r.output).modCx u c fun x =>
         { x with call := none, result := BitVec.ofNat 32 (2 ^ 16 * r.output.length) }
       exec (.callComplete (188 + u) c) s = .next { s with blk := (b.setEvent u c 0).tryDone u c }) ∧
     (∀ st det fn e, r.failed = some (st, det) → (s.blk.cx u c).fn = some fn → s.blk.entry? fn.1 fn.2 = some e →
       let q := e.failedWith st det
       let b := (s.blk.endFunction u c).finish e q.1 q.2 (188 + u) 0 0
       exec (.callComplete (188 + u) c) s = .next { s with blk := b }))

/-- Control (12 R267, R277, R278, R284, R286): NOP only passes; TRAPI traps with cause 0x10 + n; WFE takes pending events of its mask
or suspends its context; WAITT passes once the schedule tick has reached its target and suspends before; ERET returns to EPC from
emulation and traps with cause 0x0D outside it. A trap (12 R284): the payment registers name the core and the cause and the recorder notes it; in the service context it stops the
service context, and a function's descriptor completes ST_FIRMWARE_TRAP with the cause and the core. -/
def Obligations.K14Control : Prop :=
  (∀ (s : State) (u : Nat) (c : Fin 8) (g d : BitVec 3) (mask : BitVec 10),
     let k := 188 + u
     let w := s.blk.drawn
     let x := s.blk.counted u c
     let quiet := x.delay = none ∧ x.loops = []
     let suspends := fun (i : Instr) (st : CtxSt) => ∃ t, exec i s = .next t ∧
       t.blk.cx u c = { x.settle w with st, cycles := 0 } ∧ (t.blk.core u).running = none ∧
       (∀ v e, ¬ (v = u ∧ e = c) → t.blk.cx v e = s.blk.cx v e) ∧ (∀ v, v ≠ u → t.blk.core v = s.blk.core v) ∧
       t = { s with blk := { s.blk with pay := { s.blk.pay with cores := t.blk.pay.cores }, free := t.blk.free } }
     Does s (.ctlNop k g) u c id ∧
     (s.blk.Issues (.trapi k g d) u c → quiet → Traps s (.trapi k g d) u c (0x10 + d.toNat)) ∧
     (x.ev &&& mask ≠ 0 → Does s (.wfe k g d mask) u c
       fun x => { x.writeG d ((x.ev &&& mask).setWidth 32) with ev := x.ev &&& ~~~mask }) ∧
     (x.ev &&& mask = 0 → s.blk.Issues (.wfe k g d mask) u c → suspends (.wfe k g d mask) (.waitEvent d mask)) ∧
     ((s.blk.time.sched.setWidth 32 - x.readG w d).toNat < 2 ^ 31 → Does s (.waitt k g d) u c id) ∧
     (2 ^ 31 ≤ (s.blk.time.sched.setWidth 32 - x.readG w d).toNat → s.blk.Issues (.waitt k g d) u c →
       suspends (.waitt k g d) (.waitTime (x.readG w d))) ∧
     (s.blk.Issues (.eret k g) u c → quiet → x.emulating = true → ∃ t, exec (.eret k g) s = .next t ∧ OnlyContext s t u c ∧
       t.blk.cx u c = { x.tickLate w with pc := x.epc, emulating := false, rpt := 0 }) ∧
     (s.blk.Issues (.eret k g) u c → quiet → x.emulating = false → Traps s (.eret k g) u c 0x0D)) ∧
  (∀ (s : State) (u : Nat) (c : Fin 8) (g n : BitVec 3), s.blk.Issues (.trapi (188 + u) g n) u c →
     (s.blk.cx u c).delay = none → (s.blk.cx u c).loops = [] →
     let b := s.blk.begun u c
     let noted := Block.note { b with pay := { b.pay with lastTrapCore := 188 + u, lastTrapCause := 0x10 + n.toNat } }
       0x0033 2 (188 + u) (0x10 + n.toNat)
     (c = 0 → exec (.trapi (188 + u) g n) s = .next { s with blk := noted.stopService u }) ∧
     (∀ fn e, c ≠ 0 → (s.blk.cx u c).fn = some fn → (noted.endFunction u c).entry? fn.1 fn.2 = some e →
       exec (.trapi (188 + u) g n) s =
         .next { s with blk := (noted.endFunction u c).finish e St.firmwareTrap (0x10 + n.toNat) (188 + u) 0 0 }))

/-- A reserved encoding with a true guard (12 R286): outside a delay slot and emulation the context takes the emulation vector: EPC and
ECAUSE name the words, and it goes on at 0x0004. A core that issues from no context takes the ready function context with the next
higher number after the last, wrapping from 7 to 1, and context 0 where there is none (12 R260); after a jump of the schedule tick
it first takes the contexts whose targets the jump has passed, in order of target (12 R288). Events (12 R277, R278): SEV sets an event of context 0 of the core at a position, or of every core in service; a WFE that waits
for an event takes it and goes on; a suspended WAITT goes on once its target is reached. -/
def Obligations.K14EventsAndResume : Prop :=
  (∀ (s : State) (u : Nat) (c : Fin 8), s.blk.inService (188 + u) = true →
     ((s.blk.core u).running = some c → (s.blk.cx u c).st = .ready → s.blk.instrAt u (s.blk.cx u c).pc = none →
       (s.blk.cx u c).pred (K14.guardOf (s.blk.word14 (s.blk.cx u c).pc)) = true → (s.blk.cx u c).delay = none →
       (s.blk.cx u c).emulating = false → ∃ t, exec (.emulationVector (188 + u)) s = .next t ∧ OnlyContext s t u c ∧
         t.blk.cx u c =
           let x := s.blk.counted u c
           { x.settle s.blk.drawn with
             epc := x.pc, ecause := s.blk.word14 (x.pc + 1) ++ s.blk.word14 x.pc, pc := 4, emulating := true, emuPc := x.pc, rpt := 0 }) ∧
     ((s.blk.core u).running = none → (s.blk.core u).jumped = [] → (s.blk.cx u c).st = .ready →
       (c = 0 → ∀ e, e ≠ 0 → (s.blk.cx u e).st ≠ .ready) →
       (c ≠ 0 → ∀ e, e ≠ 0 → e ≠ c → (s.blk.cx u e).st = .ready →
         (c.val + 7 - ((s.blk.core u).last.val + 1)) % 7 < (e.val + 7 - ((s.blk.core u).last.val + 1)) % 7) →
       ∃ t, exec (.contextResume (188 + u)) s = .next t ∧ (t.blk.core u).running = some c ∧
         (t.blk.core u).last = c ∧
         t.blk.cx u c = { (s.blk.cx u c).settle s.blk.free with cycles := 0 } ∧
         (∀ v e, ¬ (v = u ∧ e = c) → t.blk.cx v e = s.blk.cx v e) ∧ (∀ v, v ≠ u → t.blk.core v = s.blk.core v) ∧
         t = { s with blk := { s.blk with pay := { s.blk.pay with cores := t.blk.pay.cores } } }) ∧
     (∀ target rest, (s.blk.core u).running = none → (s.blk.core u).jumped = c :: rest → c ≠ 0 → c ∉ rest →
       (s.blk.cx u c).st = .waitTime target → s.blk.reached target = true →
       ∃ t, exec (.contextResume (188 + u)) s = .next t ∧ (t.blk.core u).running = some c ∧ (t.blk.core u).jumped = rest ∧
         t.blk.cx u c = { (Ctx14.advance { s.blk.cx u c with st := .ready } s.blk.free 1).settle s.blk.free with cycles := 0 } ∧
         (∀ v e, ¬ (v = u ∧ e = c) → t.blk.cx v e = s.blk.cx v e) ∧ (∀ v, v ≠ u → t.blk.core v = s.blk.core v) ∧
         t = { s with blk := { s.blk with pay := { s.blk.pay with cores := t.blk.pay.cores } } })) ∧
  (∀ (s : State) (u : Nat) (c : Fin 8) (g : BitVec 3) (pos : BitVec 4) (e : BitVec 3),
     let frame := fun (t : State) =>
       (∀ v, t.blk.core v = { s.blk.core v with ctxs := (t.blk.core v).ctxs }) ∧
       t = { s with blk := { s.blk with pay := { s.blk.pay with cores := t.blk.pay.cores }, free := t.blk.free } }
     (∀ all, s.blk.Issues (.sev (188 + u) g pos all e) u c → ∃ t, exec (.sev (188 + u) g pos all e) s = .next t ∧ frame t ∧
       (∀ v, v < 18 → ¬ (v = u ∧ c = 0) → (all = true ∧ s.blk.inService (188 + v) = true ∨ all = false ∧ s.blk.coreAt pos.toNat = some v) →
         t.blk.cx v 0 = (s.blk.cx v 0).event s.blk.drawn (2 + e.toNat)) ∧
       (∀ v, v ≠ u → ¬ (all = true ∧ s.blk.inService (188 + v) = true ∨ all = false ∧ s.blk.coreAt pos.toNat = some v) →
         t.blk.cx v 0 = s.blk.cx v 0) ∧
       (∀ v f, f ≠ 0 → ¬ (v = u ∧ f = c) → t.blk.cx v f = s.blk.cx v f) ∧
       (c ≠ 0 → t.blk.cx u c = (s.blk.counted u c).advance s.blk.drawn (s.blk.sizeAt (s.blk.cx u c).pc))) ∧
     (∀ (x : Ctx14) (n bit : Nat), bit < 10 → (x.event n bit).ev.getLsbD bit =
       (match x.st with | .waitEvent _ mask => !mask.getLsbD bit | _ => true)) ∧
     (∀ t, (s.blk.cx u c).st = .waitTime t → (s.blk.time.sched.setWidth 32 - t).toNat < 2 ^ 31 →
       ∃ t', exec (.waittReached (188 + u) c) s = .next t' ∧ OnlyContext s t' u c ∧
         t'.blk.cx u c = Ctx14.advance { s.blk.cx u c with st := .ready } s.blk.free 1))

/-- DONE (12 R283): with a call or a channel block outstanding the context waits; from the service context a status word of 0 stops the
service context and any other traps with cause 0x0C; a function that ends with ST_OK and an OUT_LEN within DST_LEN leaves the first
OUT_LEN bytes of DST as its output, RESULT as its bank gives it and the detail of its status word; one that ends with another status that is allowed leaves the status
and its detail and no output; a status that is not allowed traps with cause 0x0C. -/
def Obligations.K14Done : Prop :=
  ∀ (s : State) (u : Nat) (c : Fin 8) (g r : BitVec 3),
    let i := Instr.done (188 + u) g r
    let x := s.blk.counted u c
    let v := x.readG s.blk.drawn r
    let b := s.blk.begun u c
    s.blk.Issues i u c → x.delay = none → x.loops = [] →
      (x.call.isSome = true ∨ x.block = true → exec i s = .next { s with blk := b.suspend u c (.waitDone r) }) ∧
      (x.call = none → x.block = false → c = 0 → v = 0 → exec i s = .next { s with blk := b.stopService u }) ∧
      (x.call = none → x.block = false → c = 0 → v ≠ 0 → Traps s i u 0 0x0C) ∧
      (∀ fn e, x.call = none → x.block = false → c ≠ 0 → x.fn = some fn → s.blk.entry? fn.1 fn.2 = some e →
        let len := ofBE (bankRead x.bank 0x480 4)
        let old : Result := e.res.getD {}
        let ends := fun (r : Result) =>
          let f : Entry := { e with res := some r }
          let b' := ((b.endFunction u c).modEntry e.ring e.sub fun _ => f).executed f 0
          exec i s = .next { s with blk := b' }
        (v.toNat % 256 = 0 → len ≤ e.d.dstLen → ends
          { old with status := 0, detail := v.toNat / 256 % 256, out := fit len e.dst, result := BitVec.ofNat 64 (ofLE (bankRead x.bank 0x488 8)) }) ∧
        (v.toNat % 256 ∈ [0x12, 0x22, 0x31, 0x70, 0x71, 0x72] → ends
          { old with status := v.toNat % 256, detail := v.toNat / 256 % 256, out := [], result := 0 }) ∧
        (v.toNat % 256 = 0 → e.d.dstLen < len → Traps s i u c 0x0C) ∧
        (v.toNat % 256 ∉ [0x00, 0x12, 0x22, 0x31, 0x70, 0x71, 0x72] → Traps s i u c 0x0C))

/-- K14 words are read as they are written (12 R265 to R270): the word and extension word of every well-formed instruction spell that
instruction, whatever word follows one without an extension. No two words spell one K14 instruction (12 R265 to R270): words that spell an instruction are the words it is written as. -/
def Obligations.K14WordsAgree : Prop :=
  (∀ (i : Instr) (w x y : K14.Word14), i.wf = true → K14.encode i = some (w, x) → (K14.hasExt w = true → y = x) →
     ∃ k, 188 ≤ k ∧ k < 206 ∧ K14.decode k w y = some i) ∧
  (∀ (k : Nat) (w x : K14.Word14) (i : Instr), K14.decode k w x = some i →
     K14.encode i = some (w, if K14.hasExt w then x else 0))


/-! ## The slave port and the master ports (00, 02) -/

/-- Accesses of an unsupported size or alignment (02 R29; a 32-bit read of the recorder window is one, 17 R380): ERROR response,
SIZE_ERR or ALIGN_ERR set and counted, with address and tag where no error bit stood, and nothing else changes but the recorder. A
32-bit write to the push window that its owner makes sets SIZE_ERR and answers OK. An access with a tag that does not own its target,
and a write to a firmware channel (02 R28, 06 R129): OWNER_ERR set and counted, an OK response that reads zero; a write is
counted for its tag; nothing else changes. A write to a partition or ring page before READY (00 R6): an OK response, discarded, and counted for its tag and in the recorder. -/
def Obligations.RefusedAccesses : Prop :=
  (∀ (s : State) (addr size tag : Nat) (write : Bool), s.blk.mode.porstLow = false →
     let p := s.blk.sport
     let clear := p.sizeErr = false ∧ p.alignErr = false ∧ p.ownerErr = false
     let refused := fun (sizeErr alignErr ok : Bool) => ∃ t, exec (.sportBadAccess addr size tag write) s = .next t ∧
       t = { s with blk := { s.blk with sport := t.blk.sport, recorder := t.blk.recorder } } ∧
       t.blk.sport.sizeErr = (p.sizeErr || sizeErr) ∧ t.blk.sport.alignErr = (p.alignErr || alignErr) ∧
       t.blk.sport.ownerErr = p.ownerErr ∧ t.blk.sport.count = min (p.count + 1) (2 ^ 32 - 1) ∧
       t.blk.sport.lastOk = ok ∧ t.blk.sport.lastRead = 0 ∧ t.blk.sport.taken = true ∧
       (clear → t.blk.sport.firstAddr = addr ∧ t.blk.sport.firstTag = tag) ∧
       (¬ clear → t.blk.sport.firstAddr = p.firstAddr ∧ t.blk.sport.firstTag = p.firstTag)
     (size ≠ 4 → size ≠ 8 → refused true false false) ∧
     (size = 4 → write = false → 0x200000 ≤ addr → addr < 0x300000 → refused true false false) ∧
     (size = 8 ∨ size = 4 ∧ (write = true ∨ addr < 0x200000 ∨ 0x300000 ≤ addr) → addr % size ≠ 0 → refused false true false) ∧
     (∀ k off, write = true → size = 4 → k < 65536 → addr = 0x10000000 + 0x1000 * k + off → 0x100 ≤ off → off < 0x200 →
       off % 4 = 0 → s.blk.TakesRingWrite k tag → refused true false true)) ∧
  ((∀ (s : State) (addr size tag : Nat) (write : Bool), s.blk.mode.porstLow = false →
      size = 8 ∨ size = 4 ∧ (write = true ∨ addr < 0x200000 ∨ 0x300000 ≤ addr) → addr % size = 0 →
      (addr < 0x1000000 ∧ (tag ≠ 0 ∨ write = true ∧ 0x9800 ≤ addr ∧ addr < 0xA000) ∨
        (∃ p off, addr = 0x1000000 + 0x1000 * p + off ∧ p < 4096 ∧ off < 0x1000 ∧ s.blk.mode.ready = true ∧ tag ≠ 0 ∧
          (tag ≠ p ∨ s.blk.enabled p = false)) ∨
        (∃ k off, addr = 0x10000000 + 0x1000 * k + off ∧ off < 0x1000 ∧ s.blk.mode.ready = true ∧ tag ≠ 0 ∧ s.blk.owner k ≠ some tag)) →
      ∃ t, exec (.ownerErr addr size tag write) s = .next t ∧
        t = { s with blk := { s.blk with sport := t.blk.sport, ownerWrites := t.blk.ownerWrites } } ∧
        t.blk.sport.ownerErr = true ∧ t.blk.sport.count = min (s.blk.sport.count + 1) (2 ^ 32 - 1) ∧
        t.blk.sport.lastOk = true ∧ t.blk.sport.lastRead = 0 ∧ t.blk.sport.taken = true ∧
        t.blk.sport.sizeErr = s.blk.sport.sizeErr ∧ t.blk.sport.alignErr = s.blk.sport.alignErr ∧
        (∀ n, Table.get 0 t.blk.ownerWrites n = if write = true ∧ n = tag then min (Table.get 0 s.blk.ownerWrites n + 1) (2 ^ 32 - 1)
          else Table.get 0 s.blk.ownerWrites n)) ∧
   (∀ (s : State) (addr size tag : Nat), s.blk.mode.porstLow = false → s.blk.mode.ready = false →
      (size = 4 ∨ size = 8) → addr % size = 0 → (0x1000000 ≤ addr ∧ addr < 0x2000000 ∨ 0x10000000 ≤ addr) → ∃ t, exec (.earlyWrite addr size tag) s = .next t ∧
        t = { s with blk := { s.blk.okWrite with earlyWrites := t.blk.earlyWrites, recorder := t.blk.recorder } } ∧
        t.blk.recorder.copy.earlyWrites = min (s.blk.recorder.copy.earlyWrites + 1) (2 ^ 32 - 1) ∧
        ∀ n, Table.get 0 t.blk.earlyWrites n =
          if n = tag then min (Table.get 0 s.blk.earlyWrites n + 1) (2 ^ 32 - 1) else Table.get 0 s.blk.earlyWrites n))

/-- Writes of registers without a row of their own, and reads of RC fields, by partition 0 (00 R8, 02 R30): a W1C flag clears where a 1
is written, a read-write field takes the bits that the access reaches, a read answers the register's value, and an RC field clears only
where the read covers it. -/
def Obligations.RegisterAccess : Prop :=
  ∀ (s : State) (data : BitVec 64), s.blk.mode.porstLow = false →
    let b := s.blk
    let ok := b.okWrite
    (exec (.registerWrite 0x7000 8 0 data) s = .next { s with blk := { ok with sport := { ok.sport with
      sizeErr := b.sport.sizeErr && !data.getLsbD 0, alignErr := b.sport.alignErr && !data.getLsbD 1
      ownerErr := b.sport.ownerErr && !data.getLsbD 2 } } }) ∧
    (exec (.registerWrite 0x5048 8 0 data) s = .next { s with blk := { ok with sched := { b.sched with qosSel := data.setWidth 12 } } }) ∧
    (exec (.registerWrite 0x6018 4 0 data) s = .next { s with blk := { ok with twin := { b.twin with sel := data.setWidth 12 } } }) ∧
    (exec (.registerWrite 0x4000 8 0 data) s = .next { s with blk := { ok with time := { b.time with
      holdoverSeen := b.time.holdoverSeen && !data.getLsbD 8, backSeen := b.time.backSeen && !data.getLsbD 9
      jumpSeen := b.time.jumpSeen && !data.getLsbD 10, slewSeen := b.time.slewSeen && !data.getLsbD 11 } } }) ∧
    (∃ t, exec (.rcFieldRead 0x7008 4 0) s = .next t ∧ t.blk.sport.count = 0 ∧ t.blk.sport.lastOk = true ∧
      t.blk.sport.lastRead = BitVec.ofNat 64 (b.sport.count % 2 ^ 32) ∧
      t = { s with blk := { b with sport := { b.sport with count := 0, lastRead := t.blk.sport.lastRead, lastOk := true, taken := true } } }) ∧
    (∃ t, exec (.rcFieldRead 0x6028 4 0) s = .next t ∧ t.blk.twin.takeovers = 0 ∧ t.blk.twin.handovers = 0 ∧
      t.blk.twin.releases = b.twin.releases ∧ t.blk.twin.fences = b.twin.fences ∧
      t = { s with blk := { b with sport := t.blk.sport, twin := { b.twin with takeovers := 0, handovers := 0 } } })

/-- A master-port request that fails (02 R41): it is outstanding no more, its bit of AV_MPORT_ERR sets, its port's count rises, its
work takes its outcome, and a partition whose twin is SHADOW is released (14 R329); a request that has timed out sets the timeout bit.
A read or write that serves a descriptor completes it ST_SG_FAULT with the request's address and the cause, port and time-out in its
detail (05 R119); work that has been cut off changes nothing more; a failed interrupt message is kept for one tick and then issued once
more, unless its partition may have no output, and a second failure drops it and is recorded. -/
def Obligations.MasterPortFailure : Prop :=
  (∀ (s : State) (r : Request) (timedOut : Bool), s.blk.mode.porstLow = false →
     (s.blk.mport.outst.find? fun x => x.id == r.id) = some r → r.port < 2 → (timedOut = true → r.issued + 10000 ≤ s.blk.time.interval) →
     let c : Instr := if timedOut then .mportTimeout r.id else .mportErrorResponse r.id
     let which := if timedOut then 3 else match r.kind with | .read => 0 | .write => 1 | .cas => 2
     let failed := (s.blk.retireReq r).recordFailure r timedOut
     exec c s = .next { s with blk := (failed.failedOutcome r timedOut).releaseFor r } ∧
     (failed.mport.err = s.blk.mport.err ||| BitVec.ofNat 8 (2 ^ (which + 4 * r.port)) ∧
       failed.mport.outst = s.blk.mport.outst.filter (fun x => x.id != r.id) ∧
       failed.mport.count0 = (if r.port = 0 then min (s.blk.mport.count0 + 1) (2 ^ 32 - 1) else s.blk.mport.count0) ∧
       failed.mport.count1 = (if r.port = 0 then s.blk.mport.count1 else min (s.blk.mport.count1 + 1) (2 ^ 32 - 1)) ∧
       failed = { s.blk with mport := failed.mport, recorder := failed.recorder }) ∧
     (∀ k i e cause, s.blk.entry? k i = some e →
       ((r.purpose, cause, e.stage) ∈ ([(.srcList k i, 1, .lists), (.dstList k i, 2, .lists), (.gather k i, 3, .gather),
         (.aux k i, 4, .gather), (.output k i, 5, .writing), (.readback k i, 6, .readback)] : List (Purpose × Nat × Stage))) →
       failed.failedOutcome r timedOut =
         failed.finish e St.sgFault (cause + 64 * r.port + if timedOut then 128 else 0) e.engine 0 (BitVec.ofNat 64 r.addr)) ∧
     (s.blk.role r.part ≠ .home →
       (∀ k i, r.purpose = .discarded (.gather k i) → exec c s = .next { s with blk := failed }) ∧
       (∀ v, r.purpose = .irq v →
         (r.again = false → exec c s = .next { s with blk := failed.modVec v fun x =>
           { x with reissue := x.reissue ++ [(s.blk.time.interval + 1, r.port, r.addr, r.data)] } }) ∧
         (r.again = true → exec c s = .next { s with blk := failed.noteRec 0x0061 2 r.port 5 })))) ∧
  (∀ (s : State) (v port addr due : Nat) (data : Bytes) (rest : List (Nat × Nat × Nat × Bytes)),
     (s.blk.vec v).reissue = (due, port, addr, data) :: rest → due ≤ s.blk.time.interval →
     (s.blk.muted v = false → ∃ t, exec (.irqMessageReissue v) s = .next t ∧
       (t.blk.vec v) = { s.blk.vec v with reissue := rest } ∧ (∀ w, w ≠ v → t.blk.vec w = s.blk.vec w) ∧
       t.blk.bus = s.blk.bus ++ [.write port ((s.blk.vecOwner v).getD 0) 0xFFFF addr true data] ∧
       (∃ r, t.blk.mport.outst = s.blk.mport.outst ++ [r] ∧ r.purpose = .irq v ∧ r.again = true ∧ r.addr = addr ∧ r.data = data) ∧
       t = { s with blk := { s.blk with irq := t.blk.irq, bus := t.blk.bus, mport := t.blk.mport } }) ∧
     (s.blk.muted v = true → exec (.irqMessageReissue v) s = .next s))

/-! ## Time (01, 02) -/

/-- Time samples (02 R44, R45): a sample with TIME_VALID and nanoseconds out of range is counted and changes nothing else; one with
TIME_VALID 0 ends the use of time and begins holdover; 20 ticks without an accepted sample do so too and are counted; while PORST_N
is low a sample changes nothing (02 R47). Steps of the schedule tick (01 R20): outside a hold and a slew an accepted sample, d ahead of the schedule tick, is absorbed for d
from -1 to 1, begins a hold for d of -2 or less, makes the tick jump for d of 2 to 1,000, where the contexts whose timed waits the
jump passes are lined up in order of target, and begins a slew above. The interval clock does not change. A tick (01 R17, R20), which a step on an empty queue is
by the model's choice (log entry 2): the interval clock takes one; the schedule tick takes one, none in a hold, two once in 100 in a slew, and absorbs
a difference of one at the end of 1,000 ticks; while PORST_N is low only the interval clock runs. -/
def Obligations.TimeSamples : Prop :=
  (∀ (s : State) (sec ns : Nat), s.blk.mode.porstLow = true → ∀ valid, exec (.timeSample sec ns valid) s = .next s) ∧
  (∀ (s : State) (sec ns : Nat), s.blk.mode.porstLow = false →
     (1000000000 ≤ ns → exec (.timeSample sec ns true) s =
       .next { s with blk := { s.blk with time := { s.blk.time with badNs := min (s.blk.time.badNs + 1) (2 ^ 16 - 1) } } }) ∧
     (∃ t, exec (.timeSample sec ns false) s = .next t ∧ t.blk.time.timeValid = false ∧ t.blk.time.sinceSample = 0 ∧
       (s.blk.time.holdover = false → t.blk.time.holdover = true ∧ t.blk.time.holdoverSeen = true ∧ t.blk.time.hold = false ∧
         t.blk.time.slew = false) ∧
       t.blk.time.sched = s.blk.time.sched ∧ t.blk.time.interval = s.blk.time.interval ∧ t.blk.time.badNs = s.blk.time.badNs ∧
       t = { s with blk := { s.blk with time := t.blk.time, recorder := t.blk.recorder } }) ∧
     (s.blk.time.timeValid = true → 20 ≤ s.blk.time.sinceSample → ∃ t, exec .stbTimeout s = .next t ∧
       t.blk.time.timeValid = false ∧ t.blk.time.stbTimeouts = min (s.blk.time.stbTimeouts + 1) (2 ^ 16 - 1) ∧
       (s.blk.time.holdover = false → t.blk.time.holdover = true ∧ t.blk.time.holdoverSeen = true) ∧
       t.blk.time.sched = s.blk.time.sched ∧ t = { s with blk := { s.blk with time := t.blk.time, recorder := t.blk.recorder } })) ∧
  (∀ (s : State) (sec ns : Nat), s.blk.mode.porstLow = false → ns < 1000000000 → s.blk.time.synced = true → s.blk.time.hold = false → s.blk.time.slew = false →
     let ext := BitVec.ofNat 64 (sec * 1000000 + ns / 1000)
     let d : Int := (ext.toNat : Int) - s.blk.time.sched.toNat
     ∃ t, exec (.timeSample sec ns true) s = .next t ∧ t.blk.time.ext = ext ∧ t.blk.time.timeValid = true ∧
       t.blk.time.holdover = false ∧ t.blk.time.sinceSample = 0 ∧ t.blk.time.interval = s.blk.time.interval ∧
       (-1 ≤ d ∧ d ≤ 1 → t.blk.time.sched = s.blk.time.sched ∧ t.blk.time.hold = false ∧ t.blk.time.slew = false ∧
         t.blk.time.absorb = d) ∧
       (d ≤ -2 → t.blk.time.hold = true ∧ t.blk.time.backSeen = true ∧ t.blk.time.sched = s.blk.time.sched) ∧
       (2 ≤ d ∧ d ≤ 1000 → t.blk.time.sched = ext ∧ t.blk.time.jumpSeen = true ∧ t.blk.time.hold = false ∧ t.blk.time.slew = false) ∧
       (1000 < d → t.blk.time.slew = true ∧ t.blk.time.slewSeen = true ∧ t.blk.time.sched = s.blk.time.sched) ∧
       (∀ v, t.blk.core v = if 2 ≤ d ∧ d ≤ 1000 then (s.blk.core v).jump (s.blk.time.sched.setWidth 32) d.toNat else s.blk.core v) ∧
       t = { s with blk := { s.blk with
         time := t.blk.time, recorder := t.blk.recorder, pay := { s.blk.pay with cores := t.blk.pay.cores } } }) ∧
  (∀ (s : State), s.pending = [] → (∀ u, (s.blk.mathUnit u).fatal = none) → ∃ t, step s = .next t ∧ t.pending = [] ∧ t.fuses = s.fuses ∧
     let x := s.blk.time
     t.blk.time.interval = x.interval + 1 ∧
     (s.blk.mode.porstLow = true → t.blk.time.sched = x.sched) ∧
     (s.blk.mode.porstLow = false →
       (x.holdover = true → t.blk.time.sched = x.sched + 1) ∧
       (x.holdover = false → x.hold = true → t.blk.time.sched = x.sched) ∧
       (x.holdover = false → x.hold = false → x.slew = true → t.blk.time.sched = x.sched + (if x.slewPhase = 99 then 2 else 1)) ∧
       (x.holdover = false → x.hold = false → x.slew = false → t.blk.time.sched =
         x.sched + 1 + (if x.absorbLeft = 1 then BitVec.ofInt 64 x.absorb else 0))))


/-! ## Ring pairs (04) -/

/-- Set-up and ENABLE (04 R70, R71): a word of the record is stored while the ring is DISABLED; an ENABLE whose record passes every
check latches it, sets P, C and F to SUB_START and Q and D to CMP_START and enters RUNNING; one whose record fails sets SETUP_ERR with the first
failed check and stays DISABLED; both clear the record. In another state ENABLE discards the push slots and sets SETUP_ERR with cause 8.
While an earlier STOP of the ring is on its way to the twin, ENABLE is not accepted (02 R30). -/
def Obligations.RingSetup : Prop :=
  ∀ (s : State) (k tag word : Nat) (value : BitVec 64), s.blk.TakesRingWrite k tag →
    let r := s.blk.ring k
    let start := (nth 0 r.setup 4).setWidth 32
    let cmp := ((nth 0 r.setup 4) >>> 32).setWidth 32
    (r.st = .disabled → word < 8 → ∃ t, exec (.setupRecordWrite k tag word value) s = .next t ∧ OnlyRing s t k ∧
      t.blk.ring k = { r with setup := r.setup.set word value, setupMask := r.setupMask ||| BitVec.ofNat 8 (2 ^ word) }) ∧
    let waits := s.blk.forwarding (StateItem.stops k)
    (waits = true → exec (.enable k tag) s = .next { s with blk := s.blk.notTaken }) ∧
    (waits = false → r.st = .disabled → s.blk.setupCause k = 0 → ∃ t, exec (.enable k tag) s = .next t ∧ OnlyRing s t k ∧
      (t.blk.ring k).st = .running ∧ (t.blk.ring k).p = start ∧ (t.blk.ring k).c = start ∧ (t.blk.ring k).f = start ∧
      (t.blk.ring k).q = cmp ∧ (t.blk.ring k).d = cmp ∧ (t.blk.ring k).subBase = nth 0 r.setup 0 ∧
      (t.blk.ring k).cmpBase = nth 0 r.setup 1 ∧ (t.blk.ring k).shadow = nth 0 r.setup 2 ∧
      (t.blk.ring k).setup = List.replicate 8 0 ∧ (t.blk.ring k).setupMask = 0) ∧
    (waits = false → r.st = .disabled → s.blk.setupCause k ≠ 0 → ∃ t, exec (.enable k tag) s = .next t ∧ OnlyRing s t k ∧
      t.blk.ring k = { r with setupErr := true, setupCause := s.blk.setupCause k, setup := List.replicate 8 0, setupMask := 0 }) ∧
    (r.setupMask ≠ 0xFF → s.blk.setupCause k = 1) ∧
    (r.setupMask = 0xFF → (field (r.sw 3) 4 0 < 4 ∨ 20 < field (r.sw 3) 4 0) → s.blk.setupCause k = 2) ∧
    (waits = false → (r.st = .running ∨ r.st = .halted ∨ r.st = .fault ∨
        r.st = .stopping ∧ (s.blk.role (s.blk.ownerD k)).executes = true) → ∃ t, exec (.enable k tag) s = .next t ∧ OnlyRing s t k ∧
      t.blk.ring k = { r.discardPush with setupErr := true, setupCause := 8 })

/-- Doorbells (04 R76), with s and p the distances of the value and of P from C: on a RUNNING ring without polling of a partition that
this block executes a value beyond P within the ring's size becomes P, one behind P sets DB_STALE, one beyond the size overruns; on a polling
ring, and in DISABLED, STOPPING and HALTED, it sets DB_IGNORED. A doorbell discards push words under way. Push writes (04 R78) on a RUNNING ring without polling that this block executes: a word that is not the eighth of its slot is
kept; the eighth commits the slot, which empties, takes index P and, where it is the slot of P, the mode allows fetching and the completion
reservation has room, is fetched, and examined once the entries before it are in the block; where one of these fails the bytes are
dropped and the entry stays submitted. A polling ring and one in another state drop the word. -/
def Obligations.Submission : Prop :=
  (∀ (st : State) (k tag : Nat) (value : BitVec 64), st.blk.TakesRingWrite k tag →
     (st.blk.role (st.blk.ownerD k)).executes = true →
     let r := st.blk.ring k
     let v : Index := value.setWidth 32
     let s := (v - r.c).toNat
     let p := (r.p - r.c).toNat
     let becomes := fun (r' : RingRec) => ∃ t, exec (.doorbell k tag value) st = .next t ∧ OnlyRing st t k ∧ t.blk.ring k = r'
     ((r.st = .running ∨ r.st = .fault) → r.poll = false →
       (p ≤ s → s ≤ 2 ^ r.subLog2 → becomes { r.discardPush with p := v }) ∧
       (s < p → s ≤ 2 ^ r.subLog2 → becomes { r.discardPush with dbStale := true }) ∧
       (2 ^ r.subLog2 < s → exec (.doorbell k tag value) st =
         .next { st with blk := (st.blk.okWrite.modRing k RingRec.discardPush).overrun k v })) ∧
     ((r.st = .running ∨ r.st = .fault) → r.poll = true → becomes { r.discardPush with dbIgnored := true }) ∧
     (r.st = .disabled ∨ r.st = .stopping ∨ r.st = .halted → becomes { r.discardPush with dbIgnored := true })) ∧
  (∀ (s : State) (k tag slot word : Nat) (value : BitVec 64), s.blk.TakesRingWrite k tag → slot < 4 → word < 8 →
     (s.blk.role (s.blk.ownerD k)).executes = true →
     let r := s.blk.ring k
     let old := nth {} r.push slot
     let mask := old.mask ||| BitVec.ofNat 8 (2 ^ word)
     let words := old.words.set word value
     let i := Instr.pushWrite k tag slot word value
     (r.st = .running → r.poll = false → mask ≠ 0xFF → ∃ t, exec i s = .next t ∧ OnlyRing s t k ∧
       t.blk.ring k = { r with push := r.push.set slot { words, mask } }) ∧
     (r.st = .running → r.poll = false → mask = 0xFF → (r.p + 1 - r.c).toNat ≤ 2 ^ r.subLog2 →
       (slot ≠ r.p.toNat % 4 ∨ s.blk.fetchAllowed (s.blk.ownerD k) = false ∨ s.blk.room k = 0) → ∃ t, exec i s = .next t ∧ OnlyRing s t k ∧
         t.blk.ring k = { r with push := r.push.set slot {}, p := r.p + 1, pushDropped := true }) ∧
     (r.st = .running → r.poll = false → mask = 0xFF → (r.p + 1 - r.c).toNat ≤ 2 ^ r.subLog2 → slot = r.p.toNat % 4 →
       s.blk.fetchAllowed (s.blk.ownerD k) = true → 1 ≤ s.blk.room k →
       let b := (s.blk.okWrite.modRing k fun r => { r with push := r.push.set slot {} }).modRing k fun q => { q with p := r.p + 1 }
       let raw := words.flatMap fun w => toLE 8 w.toNat
       let e : Entry := { ring := k, sub := r.p, part := s.blk.ownerD k, raw, d := Desc.ofBytes raw, stage := .ahead,
                          fetchedAt := s.blk.time.interval }
       let b : Block := { b with entries := s.blk.entries ++ [e] }
       exec i s = .next { s with blk := b.absorb k } ∧ (r.burst.isSome = true → exec i s = .next { s with blk := b })) ∧
     ((r.st = .running ∧ r.poll = true ∨ r.st = .stopping ∨ r.st = .halted ∨ r.st = .fault) → ∃ t, exec i s = .next t ∧
       OnlyRing s t k ∧ t.blk.ring k = { r with pushDropped := true }))

/-- Retraction (04 R81), on a partition whose outcomes take effect on this block alone: with r, f and p the distances of the value, F and
P from C (F past the entries that were pushed ahead), a value behind P withdraws the entries from C + max(r, f) on, and any other value, state or a polling ring withdraws nothing. STOP (04 R90) on a partition whose outcomes take effect on this block alone: a RUNNING ring with nothing fetched, nothing held and no
completion or shadow write outstanding becomes DISABLED, its submitted entries withdrawn and reported, its key-management lock released; a DISABLED, STOPPING or HALTED ring only
loses push words under way. Consumption on a ring of a STANDBY partition (14 R320, R321): D takes the value unchecked, the block holding no Q to
check it against, which is the model's reading (log entry 80). -/
def Obligations.RetractionAndStop : Prop :=
  (∀ (st : State) (k tag : Nat) (value : BitVec 64), st.blk.TakesRingWrite k tag → st.blk.route (st.blk.ownerD k) = .apply →
     st.blk.forwarding (StateItem.retracts k) = false →
     let r := st.blk.ring k
     let d := fun (i : Index) => (i - r.c).toNat
     let f := d (st.blk.fetchedTo k)
     let v : Index := value.setWidth 32
     let stallMark := r.stallMark || st.blk.stalled k
     ((r.st = .running ∨ r.st = .fault) → r.poll = false → d v < d r.p → ∃ t, exec (.retract k tag value) st = .next t ∧
       OnlyRing st t k ∧ t.blk.ring k = { r.discardPush with
         p := r.c + BitVec.ofNat 32 (max (d v) f), retracted := d r.p - max (d v) f
         retractP := r.c + BitVec.ofNat 32 (max (d v) f), stallMark }) ∧
     ((¬ (r.st = .running ∨ r.st = .fault) ∨ r.poll = true ∨ d r.p ≤ d v) → ∃ t, exec (.retract k tag value) st = .next t ∧
       OnlyRing st t k ∧ t.blk.ring k = { r.discardPush with retracted := 0, retractP := r.p, stallMark })) ∧
  (∀ (s : State) (k tag : Nat), s.blk.TakesRingWrite k tag → s.blk.route (s.blk.ownerD k) = .apply →
     s.blk.forwarding (StateItem.stops k) = false →
     let r := s.blk.ring k
     let p := s.blk.ownerD k
     (r.st = .running → (∀ e ∈ s.blk.entries, e.ring ≠ k) → r.burst = none → r.held = [] → r.failedW = [] → r.sig = [] →
       s.blk.writing k = false → ∃ t, exec (.stop k tag) s = .next t ∧ (t.blk.ring k).st = .disabled ∧ (t.blk.ring k).p = r.f ∧ (t.blk.ring k).f = r.f ∧
         (t.blk.ring k).retracted = (r.p - r.f).toNat ∧ (t.blk.ring k).retractP = r.f ∧ (t.blk.ring k).q = r.q ∧
         (t.blk.ring k).chain = none ∧ (t.blk.ring k).kept = [] ∧ (∀ j, j ≠ k → t.blk.ring j = s.blk.ring j) ∧
         t.blk.part p = (if (s.blk.part p).lock.held = true ∧ (s.blk.part p).lock.holder = k then
           { s.blk.part p with lock := { (s.blk.part p).lock with held := false, holder := 0 } } else s.blk.part p) ∧
         (∀ q, q ≠ p → t.blk.part q = s.blk.part q) ∧
         t = { s with blk := { s.blk.okWrite with rings := t.blk.rings, parts := t.blk.parts } }) ∧
     (r.st = .disabled ∨ r.st = .stopping ∨ r.st = .halted → ∃ t, exec (.stop k tag) s = .next t ∧ OnlyRing s t k ∧
       t.blk.ring k = r.discardPush)) ∧
  (∀ (s : State) (k tag : Nat) (value : BitVec 64), s.blk.TakesRingWrite k tag → s.blk.role (s.blk.ownerD k) = .standby →
    exec (.consume k tag value) s =
      .next { s with blk := ((s.blk.okWrite.markStall k).modRing k fun r => { r with d := value.setWidth 32 }).flushHeld k })

/-- Consumption (04 R85) on a ring of a partition that is not STANDBY: a value within Q becomes D, and completions that wait for room follow, none where
none
is held; a stall that the consumption may end counts for its tick (04 R83); one beyond Q is ignored and sets CMP_BAD. -/
def Obligations.Consumption : Prop :=
  ∀ (s : State) (k tag : Nat) (value : BitVec 64), s.blk.TakesRingWrite k tag → s.blk.role (s.blk.ownerD k) ≠ .standby →
    let r := s.blk.ring k
    let v : Index := value.setWidth 32
    let fits := (v - r.d).toNat ≤ (r.q - r.d).toNat
    (fits → exec (.consume k tag value) s = .next { s with blk :=
      ((s.blk.okWrite.markStall k).modRing k fun r => { r with d := v }).flushHeld k }) ∧
    (fits → r.held = [] → r.st ≠ .stopping → ∃ t, exec (.consume k tag value) s = .next t ∧ OnlyRing s t k ∧
      t.blk.ring k = { r with d := v, stallMark := r.stallMark || s.blk.stalled k }) ∧
    (¬ fits → ∃ t, exec (.consume k tag value) s = .next t ∧ OnlyRing s t k ∧ t.blk.ring k = { r with cmpBad := true })

/-- Polling and turns (04 R77, R80, 13 R296, R297): a polling ring's poll falls due once its interval has passed; the ring engine grants
the one eligible ring of the one eligible partition its turn, and the ring fetches a burst from F of at most BURST entries, limited by the
completion reservation and the chain; F passes the burst. Fetched and polled data (04 R77, R80): the data of a fetch burst of one entry ends
the burst, and the entry is validated at its index; the data of a poll burst whose first entry does not carry the phase of its index is
accepted not at all. Failed requests of a ring (04 R91): one tick after a failed fetch its reads are issued again, and after a failed
completion or shadow write that write is; in FAULT the failed write is repeated every 1,000 ticks, and a failed fetch forms a new burst from
F; the ring returns to RUNNING when the repeat is accepted. -/
def Obligations.Fetching : Prop :=
  (∀ (s : State) (k p : Nat),
     let r := s.blk.ring k
     let n := s.blk.burstCount k
     (r.st = .running → r.poll = true → r.pollDue = false → r.burst = none → r.pollAt ≤ s.blk.time.interval →
       ∃ t, exec (.pollDue k) s = .next t ∧ t.blk.ring k = { r with pollDue := true } ∧ (∀ j, j ≠ k → t.blk.ring j = s.blk.ring j) ∧
         t = { s with blk := { s.blk with rings := t.blk.rings } }) ∧
     (s.blk.partitions = [p] → s.blk.partEligible p = true → (s.blk.part p).inRound = false → s.blk.liveRings p = [k] →
       s.blk.ringEligible k = true → r.inRound = false → s.blk.waitingPushes k = [] → r.poll = false → 0 < n →
       ∃ t, exec .turnGrant s = .next t ∧ (t.blk.ring k).f = r.f + BitVec.ofNat 32 n ∧
         (t.blk.ring k).burst = some { first := r.f, count := n, poll := false, at_ := s.blk.time.interval, order := s.blk.sched.admitted } ∧
         (t.blk.ring k).p = r.p ∧ (t.blk.ring k).c = r.c ∧ (t.blk.ring k).st = .running ∧
         (∀ j, j ≠ k → t.blk.ring j = s.blk.ring j) ∧ (∀ q, q ≠ p → t.blk.part q = s.blk.part q) ∧
         t = { s with blk := { s.blk with rings := t.blk.rings, parts := t.blk.parts, sched := t.blk.sched, mport := t.blk.mport, bus := t.blk.bus } })) ∧
  ((∀ (s : State) (k : Nat) (data : Bytes) (u : Burst), (s.blk.ring k).burst = some u → (s.blk.ring k).burstWaits = false →
      u.locked = false →
      (u.poll = false → u.count = 1 → data.length = 64 → (∀ c ∈ (s.blk.ring k).tw.committed, c.2.2 ≠ u.first) →
        let b := ((s.blk.arrived (.fetch k)).modRing k fun r => { r with burst := none, failedF := none }).resumeRing k
        let b := (b.accept k u.first data false u.at_ u.order).absorb k
        exec (.fetchDataReturn k data) s = .next { s with blk := (b.modRing k fun r => { r with c := b.release k }).settleRing k }) ∧
      (u.poll = true → (s.blk.ring k).st = .running →
        flag (bit (word32 data 0) 31) ≠ phaseOf (s.blk.ring k).subLog2 (s.blk.ring k).f → data.length = 64 * u.count →
        ∃ t, exec (.pollBurstReturn k data) s = .next t ∧ (t.blk.ring k).f = (s.blk.ring k).f ∧ (t.blk.ring k).p = (s.blk.ring k).p ∧
          (t.blk.ring k).burst = none ∧ (t.blk.ring k).pollAt = u.at_ + (s.blk.ring k).pollN ∧ t.blk.entries = s.blk.entries ∧
          (∀ j, j ≠ k → t.blk.ring j = s.blk.ring j))) ∧
   (∀ (s : State) (k : Nat) (x : Failed), x.out = false → x.due ≤ s.blk.time.interval →
      let r := s.blk.ring k
      let p := s.blk.ownerD k
      let others := fun (t : State) => (∀ j, j ≠ k → t.blk.ring j = s.blk.ring j) ∧
        t = { s with blk := { s.blk with rings := t.blk.rings, mport := t.blk.mport, bus := t.blk.bus, sched := t.blk.sched } }
      let written := fun (c : Instr) => ∃ t, exec c s = .next t ∧ others t ∧
        t.blk.ring k = { r with failedW := [{ x with out := true, req := s.blk.mport.nextId }] } ∧
        t.blk.bus = s.blk.bus ++ [.write x.port p k x.addr true x.data]
      (r.failedF = some x → x.twice = false → r.failedW = [] → ∃ t, exec (.fetchRepeat k) s = .next t ∧ others t ∧
        t.blk.ring k = { r with failedF := some { x with out := true, reads := [] } } ∧
        t.blk.bus = s.blk.bus ++ x.reads.map fun q => .read q.1 p k false q.2.1 q.2.2) ∧
      (r.failedW = [x] → x.twice = false → r.failedF = none → (s.blk.part p).tw.stopped = false → written (.fetchRepeat k)) ∧
      (r.failedW = [x] → x.twice = true → r.failedF = none → (s.blk.part p).tw.stopped = false → written (.faultRepeat k)) ∧
      (r.st = .fault → r.failedF = some x → x.twice = true → r.failedW = [] → r.burst = none → r.poll = false →
        s.blk.fetchAllowed p = true → 0 < s.blk.burstCount k → ∃ t, exec (.faultRepeat k) s = .next t ∧
        others t ∧ t.blk.ring k = { r with
          failedF := some { x with due := s.blk.time.interval + 1000, out := true, reads := [] }
          f := r.f + BitVec.ofNat 32 (s.blk.burstCount k)
          burst := some { first := r.f, count := s.blk.burstCount k, poll := false, at_ := s.blk.time.interval
                          order := s.blk.sched.admitted } })) ∧
   (∀ (s : State) (k : Nat) (x : Failed) (q : Request), s.blk.mode.porstLow = false →
      (s.blk.mport.outst.find? fun y => y.id == q.id) = some q → q.kind = .write → q.purpose = .shadow k →
      (s.blk.ring k).st = .fault → (s.blk.ring k).failedW = [x] → x.out = true → x.req = q.id → (s.blk.ring k).failedF = none →
      (s.blk.ring k).stopAfter = false → (s.blk.ring k).held = [] → ∃ t, exec (.writeResponse q.port q.id) s = .next t ∧
        t.blk.ring k = { s.blk.ring k with failedW := [], st := .running } ∧ (∀ j, j ≠ k → t.blk.ring j = s.blk.ring j) ∧
        t = { s with blk := { s.blk with rings := t.blk.rings, mport := t.blk.mport } }))


/-! ## Interrupts and the key-management lock (02, 10, 13) -/

/-- Moderation (13 R299 to R301): MOD_COUNT and MOD_TIME of a ring whose owner owns its vector, and a write of partition 0 to a vector's
moderation entry, set the thresholds; with nothing pending, or the message due already, nothing else follows. -/
def Obligations.InterruptModeration : Prop :=
  ∀ (s : State) (k v tag : Nat) (value : BitVec 64),
    let x := s.blk.vec v
    let only := fun (t : State) => (∀ w, w ≠ v → t.blk.vec w = s.blk.vec w) ∧ t = { s with blk := { s.blk.okWrite with irq := t.blk.irq } }
    (s.blk.TakesRingWrite k tag → s.blk.ringVector k = some v → (x.pending = 0 ∨ x.due = true) →
      (∃ t, exec (.modCountWrite k tag value) s = .next t ∧ only t ∧ t.blk.vec v = { x with countThresh := value.toNat % 2 ^ 16 }) ∧
      (∃ t, exec (.modTimeWrite k tag value) s = .next t ∧ only t ∧ t.blk.vec v = { x with timeThresh := value.toNat % 2 ^ 32 })) ∧
    (s.blk.mode.porstLow = false → (x.pending = 0 ∨ x.due = true) →
      (∃ t, exec (.modTableWrite v 0 8 0 value) s = .next t ∧ only t ∧
        t.blk.vec v = { x with countThresh := value.toNat % 2 ^ 16, timeThresh := value.toNat / 2 ^ 32 }) ∧
      (∃ t, exec (.modTableWrite v 12 4 0 value) s = .next t ∧ only t ∧ t.blk.vec v = { x with wake := value.getLsbD 0 }))

/-- Interrupt messages (02 R43, 13 R301 to R303): a vector whose pending completions reach the count threshold, or whose first waits the
time threshold, sends its message on the port of its last completion, unless it is masked, muted, due already or its partition sleeps, when
the message is held, or its address is misaligned, when the attempt is counted and the message held. A write of partition 0 to a vector's
table entry sets the words that it covers, of the control word the mask bit alone, and lets go a message that its mask or its misaligned
address held. Partition sleep (13 R303): going to sleep counts and sends the message of a vector that may wake the partition and has
completions pending, once in the sleep; waking sends what a vector holds and clears WOKE. -/
def Obligations.InterruptMessages : Prop :=
  (∀ (s : State) (v : Nat),
     let x := s.blk.vec v
     let p := (s.blk.vecOwner v).getD 0
     let reached := 0 < x.pending ∧ (max x.countThresh 1 ≤ x.pending ∨ x.firstAt + x.timeThresh ≤ s.blk.time.interval)
     let only := fun (t : State) => (∀ w, w ≠ v → t.blk.vec w = s.blk.vec w) ∧
       t = { s with blk := { s.blk with sport := t.blk.sport, irq := t.blk.irq, mport := t.blk.mport, bus := t.blk.bus } }
     let sent := fun (t : State) (data : BitVec 32) => t.blk.bus = s.blk.bus ++ [.write x.port p 0xFFFF x.addr.toNat true (toLE 4 data.toNat)]
     (¬ reached ∨ x.due = true → exec (.modTimeExpiry v) s = .next s) ∧
     (reached → x.due = false →
       (x.ctl.getLsbD 0 = false → s.blk.muted v = false → (s.blk.part p).asleep = false → x.addr.toNat % 4 = 0 →
         ∃ t, exec (.modTimeExpiry v) s = .next t ∧ only t ∧ sent t x.data ∧ t.blk.vec v = { x with pending := 0, due := false }) ∧
       (x.ctl.getLsbD 0 = false → s.blk.muted v = false → (s.blk.part p).asleep = false → x.addr.toNat % 4 ≠ 0 →
         exec (.modTimeExpiry v) s = .next { s with blk :=
           ((s.blk.modVec v fun x => { x with due := true }).countPort x.port).noteRec 0x0061 0 x.port 4 }) ∧
       ((x.ctl.getLsbD 0 = true ∨ s.blk.muted v = true ∨ (s.blk.part p).asleep = true) →
         ∃ t, exec (.modTimeExpiry v) s = .next t ∧ only t ∧ t.blk.bus = s.blk.bus ∧ t.blk.vec v = { x with due := true })) ∧
     (s.blk.mode.porstLow = false → ∀ (off size : Nat) (data : BitVec 64) (y : IrqVec),
       ((off, size, y) ∈ [(0, 8, { x with addr := data }), (0, 4, { x with addr := x.addr.extractLsb' 32 32 ++ data.setWidth 32 }),
         (4, 4, { x with addr := (data.setWidth 32 : BitVec 32) ++ x.addr.setWidth 32 }), (8, 4, { x with data := data.setWidth 32 }),
         (8, 8, { x with data := data.setWidth 32, ctl := if data.getLsbD 32 then 1 else 0 }),
         (12, 4, { x with ctl := if data.getLsbD 0 then 1 else 0 })]) →
       let b := s.blk.okWrite.modVec v fun _ => y
       let held := x.ctl.getLsbD 0 = true ∨ x.addr.toNat % 4 ≠ 0
       exec (.vectorTableWrite v off size 0 data) s = .next { s with blk := if held then b.releaseVec v else b }) ∧
     (s.blk.mode.porstLow = false → x.ctl.getLsbD 0 = true → x.due = true → s.blk.muted v = false → (s.blk.part p).asleep = false →
       x.addr.toNat % 4 = 0 → ∀ data : BitVec 64, data.getLsbD 0 = false → ∃ t, exec (.vectorTableWrite v 12 4 0 data) s = .next t ∧ only t ∧
         sent t x.data ∧ t.blk.vec v = { x with ctl := 0, pending := 0, due := false })) ∧
  (∀ (s : State) (p tag : Nat), s.blk.TakesPartWrite p tag →
     let b := s.blk.okWrite
     let slept := b.modPart p fun q => { q with asleep := true, sleeps := min (q.sleeps + 1) (2 ^ 16 - 1) }
     let woken := b.modPart p fun q => { q with asleep := false }
     let wakes := fun (b : Block) (v : Nat) =>
       let b := b.modVec v fun x => { x with woke := false }
       if (b.vec v).due then b.releaseVec v else b.examineVec v
     ((s.blk.part p).asleep = true → exec (.partitionSleep p tag) s = .next { s with blk := b }) ∧
     ((s.blk.part p).asleep = false → exec (.partitionSleep p tag) s =
       .next { s with blk := (s.blk.vecsOf p).foldl Block.releaseVec slept }) ∧
     ((s.blk.part p).asleep = false → exec (.partitionWake p tag) s = .next { s with blk := b }) ∧
     ((s.blk.part p).asleep = true → exec (.partitionWake p tag) s =
       .next { s with blk := (s.blk.vecsOf p).foldl wakes woken })) ∧
  (∀ (s : State) (p tag v : Nat), s.blk.TakesPartWrite p tag → s.blk.vecsOf p = [v] → s.blk.vecOwner v = some p →
     (s.blk.vec v).ctl.getLsbD 0 = false → (s.blk.vec v).addr.toNat % 4 = 0 → 0 < (s.blk.vec v).pending →
     (s.blk.part p).tw.stopped = false →
     let x := s.blk.vec v
     let msg : Sent := .write x.port p 0xFFFF x.addr.toNat true (toLE 4 x.data.toNat)
     let only := fun (t : State) => (∀ w, w ≠ v → t.blk.vec w = s.blk.vec w) ∧ (∀ q, q ≠ p → t.blk.part q = s.blk.part q) ∧
       t = { s with blk := { s.blk.okWrite with parts := t.blk.parts, irq := t.blk.irq, mport := t.blk.mport, bus := t.blk.bus } }
     ((s.blk.part p).asleep = false → ∃ t, exec (.partitionSleep p tag) s = .next t ∧ only t ∧
       t.blk.part p = { s.blk.part p with asleep := true, sleeps := min ((s.blk.part p).sleeps + 1) (2 ^ 16 - 1) } ∧
       (x.wake = true → x.woke = false →
         t.blk.bus = s.blk.bus ++ [msg] ∧ t.blk.vec v = { x with pending := 0, due := false, woke := true }) ∧
       (x.wake = false ∨ x.woke = true → t.blk.bus = s.blk.bus ∧ t.blk.vec v = x)) ∧
     ((s.blk.part p).asleep = true → x.due = true → ∃ t, exec (.partitionWake p tag) s = .next t ∧ only t ∧
       t.blk.part p = { s.blk.part p with asleep := false } ∧ t.blk.bus = s.blk.bus ++ [msg] ∧
       t.blk.vec v = { x with pending := 0, due := false, woke := false }))

/-- The key-management lock (10 R230, R231) of a partition whose outcomes take effect on this block alone: an ACQUIRE for a RUNNING ring of
the partition takes a free lock, renews the ring's own and sets CONTENDED on another's; a RELEASE by the holder frees it, and any other sets
BAD_REQ; a lease whose last tick has passed (log entry 109) frees it with EXPIRED. The lease lasts LEASE ticks, 100,000 for 0 and at least 1,000. -/
def Obligations.KeyManagementLock : Prop :=
  ∀ (s : State) (p tag k lease : Nat), s.blk.TakesPartWrite p tag → s.blk.route p = .apply → s.blk.owner k = some p →
    (s.blk.ring k).st = .running → k < 65536 → lease < 2 ^ 24 → s.blk.forwarding (StateItem.locks p) = false →
    let q := s.blk.part p
    let data := BitVec.ofNat 64 (k + 2 ^ 32 * lease)
    let ticks := if lease = 0 then 100000 else max lease 1000
    let becomes := fun (c : Instr) (l : KmLock) => ∃ t, exec c s = .next t ∧ OnlyPart s t p ∧ t.blk.part p = { q with lock := l }
    (q.lock.held = false → becomes (.acquire p tag data) { q.lock with
      held := true, holder := k, ends := s.blk.time.interval + ticks, lease := lease
      acquisitions := min (q.lock.acquisitions + 1) (2 ^ 8 - 1) }) ∧
    (q.lock.held = true → q.lock.holder = k → becomes (.acquire p tag data) { q.lock with ends := s.blk.time.interval + ticks, lease := lease }) ∧
    (q.lock.held = true → q.lock.holder ≠ k → becomes (.acquire p tag data) { q.lock with lease := lease, contended := true }) ∧
    (q.lock.held = true → q.lock.holder = k → becomes (.release p tag data) { q.lock with lease := lease, held := false, holder := 0 }) ∧
    (q.lock.held = false ∨ q.lock.holder ≠ k → becomes (.release p tag data) { q.lock with lease := lease, badReq := true }) ∧
    (q.lock.held = true → q.lock.ends < s.blk.time.interval → exec (.lockLeaseExpiry p) s = .next { s with blk :=
      (s.blk.modPart p fun q => { q with lock := { q.lock with held := false, holder := 0, expired := true } }).note 0x0063 0 p q.lock.holder })


/-! ## Dispatch and completion (01, 04, 05, 06, 13) -/

/-- A completion (04 R82 to R86, 05 R113): on a ring that holds none, with no failed write and no stop of output, it is written at once as 32
bytes at Q, an ordered write; Q moves on, and the completion waits for its acceptance. The status word carries status, detail, the phase of Q,
the block's side and the engine. When the write is accepted the shadow word with the index after it and C follows, an ordered write; where the
completion raises no vector, nothing else goes out. -/
def Obligations.CompletionWritten : Prop :=
  (∀ (b : Block) (c : Completion),
    let r := b.ring c.ring
    let p := b.ownerD c.ring
    r.held = [] → r.failedW = [] → r.st = .running → (b.part p).tw.stopped = false → c.bytes = none → c.slot = none →
    c.overrun = false → b.entry? c.ring c.sub = none →
    let b' := b.emit c
    let raises := c.irq || c.status == St.aborted || c.status == St.chainAborted
    let word := c.status % 256 + 2 ^ 8 * (c.detail % 256) + 2 ^ 16 * ((1 - r.q.toNat / 2 ^ r.cmpLog2 % 2) % 2) + 2 ^ 17 * (b.twin.side % 2)
      + 2 ^ 24 * (c.engine % 256)
    (b'.ring c.ring).q = r.q + 1 ∧ (b'.ring c.ring).held = [] ∧ (b'.ring c.ring).d = r.d ∧ (b'.ring c.ring).p = r.p ∧
    (b'.ring c.ring).sig = r.sig ++ [{ q := r.q, raises, port := c.port }] ∧
    b'.bus = b.bus ++ [
      .write c.port p c.ring (r.cmpBase.toNat + 32 * (r.q.toNat % 2 ^ r.cmpLog2)) true
        (toLE 8 c.tag.toNat ++ toLE 4 word ++ toLE 4 c.outLen ++ toLE 4 c.sub.toNat ++ toLE 4 (b.time.sched.toNat % 2 ^ 32) ++
          toLE 8 c.result.toNat)] ∧
    (∀ j, j ≠ c.ring → b'.ring j = b.ring j) ∧ b'.entries = b.entries ∧
    b' = { b with rings := b'.rings, mport := b'.mport, bus := b'.bus, pay := b'.pay }) ∧
  (∀ (s : State) (k : Nat) (q : Request) (x : Signal), s.blk.mode.porstLow = false →
    (s.blk.mport.outst.find? fun y => y.id == q.id) = some q → q.kind = .write → q.purpose = .completion k x.q →
    let r := s.blk.ring k
    let p := s.blk.ownerD k
    r.sig = [x] → x.raises = false → r.st = .running → r.held = [] → r.failedW = [] → (s.blk.part p).tw.stopped = false →
    ∃ t, exec (.writeResponse q.port q.id) s = .next t ∧ t.blk.ring k = { r with sig := [] } ∧ (∀ j, j ≠ k → t.blk.ring j = s.blk.ring j) ∧
      t.blk.bus = s.blk.bus ++ [.write x.port p k r.shadow.toNat true (toLE 4 (x.q + 1).toNat ++ toLE 4 r.c.toNat)] ∧
      t = { s with blk := { s.blk with rings := t.blk.rings, mport := t.blk.mport, bus := t.blk.bus } })

/-- Class credit (13 R294, R295, 05 R116): a partition's next entry that passes check 2 is charged its cost where its class balance is above
zero, or borrows where the class is lendable, and then waits for staging lines; it waits for credit otherwise; one that fails is refused ST_LENGTH with the detail and the length it needs. Staging and gathering (06 R124, R128): where the requirement may be reserved, an entry with one contiguous input and no auxiliary input
takes its lines and its input is read over the port with less to write; one without any input is staged at once. -/
def Obligations.CreditAndStaging : Prop :=
  (∀ (s : State) (p : Nat) (e : Entry), s.blk.stagingWait p = none → s.blk.creditNext p = some e → s.blk.entry? e.ring e.sub = some e →
     let alg := s.blk.codeOf p e.d.k1
     let c := e.d.engineClass
     let pers := s.blk.persOf e alg
     let order2 := match s.blk.persCfg? pers with | some c => c.maskOrder == 2 | none => false
     let cost := e.d.cost alg order2 (s.blk.ownSlot p e.d.k1)
     let waits := fun (t : State) (charged : Bool) =>
       t.blk.entry? e.ring e.sub = some { e with
         stage := .staging, cost, cls := c, charged, borrowed := !charged, waitSince := s.blk.time.interval, alg, pers } ∧
       (∀ q, q ≠ p → t.blk.part q = s.blk.part q) ∧
       t = { s with blk := { s.blk with parts := t.blk.parts, entries := t.blk.entries } }
     (∀ detail need, s.blk.check2 e alg = some (detail, need) →
       exec (.creditAdmit p) s = .next { s with blk := s.blk.refuse e St.length detail (BitVec.ofNat 64 need) }) ∧
     (s.blk.check2 e alg = none → 0 < nth 0 (s.blk.part p).balance c → ∃ t, exec (.creditAdmit p) s = .next t ∧ waits t true ∧
       nth 0 (t.blk.part p).balance c = nth 0 (s.blk.part p).balance c - cost ∧
       (∀ d, d ≠ c → nth 0 (t.blk.part p).balance d = nth 0 (s.blk.part p).balance d)) ∧
     (s.blk.check2 e alg = none → nth 0 (s.blk.part p).balance c ≤ 0 → s.blk.mayBorrow p c = true →
       ∃ t, exec (.creditAdmit p) s = .next t ∧ waits t false ∧ (t.blk.part p).balance = (s.blk.part p).balance) ∧
     (s.blk.check2 e alg = none → nth 0 (s.blk.part p).balance c ≤ 0 → s.blk.mayBorrow p c = false →
       exec (.creditAdmit p) s = .next s)) ∧
  (∀ (s : State) (p : Nat) (e : Entry), s.blk.stagingWait p = some e → s.blk.entry? e.ring e.sub = some e →
     s.blk.mayReserve p e.d.stagingLines = true → e.d.srcSg = false → e.d.dstSg = false → e.d.srcPrev = false → e.d.rangeFault = none →
     e.d.auxLen = 0 → 0 < e.d.srcLen → ∃ t, exec (.stagingGrant p) s = .next t ∧
       t.blk.entry? e.ring e.sub = some { e with stage := .gather, lines := e.d.stagingLines } ∧
       t.blk.bus = s.blk.bus ++ ((pieces e.d.srcAddr e.d.srcLen).map fun x =>
         .read (if s.blk.queuedOn 1 < s.blk.queuedOn 0 then 1 else 0) e.part e.ring false x.1 x.2) ∧
       t = { s with blk := { s.blk with entries := t.blk.entries, mport := t.blk.mport, bus := t.blk.bus } })

/-- Input (05 R101, 06 R128): lists that fail a test refuse their descriptor and, where it is malformed, halt its partition; good lists begin the
gathering; the last input byte stages the descriptor: MULE's work waits for its turn, and other work enters its engine's queue. -/
def Obligations.InputReturns : Prop :=
  ∀ (s : State) (k : Nat) (i : Index) (e : Entry), s.blk.entry? k i = some e →
    (∀ srcL dstL, e.stage = .lists →
      let b := (s.blk.arrived (.srcList k i)).arrived (.dstList k i)
      (∀ f addr off, e.d.readLists srcL dstL = .error (f, addr, off) → f.status ≠ St.malformed →
        exec (.sgListReadReturn k i srcL dstL) s = .next { s with blk := b.refuse e f.status f.detail (BitVec.ofNat 64 (addr + 16 * f.index)) }) ∧
      (∀ src dst, e.d.readLists srcL dstL = .ok (src, dst) → e.d.srcSg = true → e.d.dstSg = false →
        let f : Entry := { e with srcList := src, dstList := dst, lines := e.lines - (64 - ceilDiv (16 * src.length) 64) }
        exec (.sgListReadReturn k i srcL dstL) s = .next { s with blk := (b.modEntry k i fun _ => f).startGather f })) ∧
    (∀ src aux, e.stage = .gather → src.length = (if e.d.srcPrev then 0 else e.d.srcLen) → aux.length = e.d.auxLen →
      let b := (s.blk.arrived (.gather k i)).arrived (.aux k i)
      (e.d.family = Fam.move → ∃ t, exec (.gatherReadReturn k i src aux) s = .next t ∧
        t.blk.entry? k i = some { e with src, aux, stage := .queued } ∧
        t = { s with blk := { s.blk with entries := t.blk.entries, mport := t.blk.mport } }) ∧
      (e.d.family = Fam.pk → exec (.gatherReadReturn k i src aux) s =
        .next { s with blk := (b.modEntry k i fun _ => { e with src, aux }).queueEntry e.ring e.sub }))

/-- Output (02 R40, 01 R13): once every output write has been accepted the line of the last byte is read back, over the port chosen when the
descriptor was executed, and the read-back scatters the descriptor, which completes with its result. The time limit (01 R18): a descriptor
that still runs 20,000,000 ticks after its dispatch completes ST_TIMEOUT with its engine's index; an OX or lattice result that stands in the
tick of the limit is kept (08 R193, 09 R212). -/
def Obligations.OutputAndTimeLimit : Prop :=
  (∀ (s : State) (k : Nat) (i : Index) (e : Entry) (r : Result), s.blk.entry? k i = some e → e.res = some r →
     (∀ q : Request, s.blk.mode.porstLow = false → (s.blk.mport.outst.find? fun y => y.id == q.id) = some q → q.kind = .write →
       q.purpose = .output k i → e.stage = .writing →
       ((s.blk.retireReq q).awaits (.output k i) = true → exec (.writeResponse q.port q.id) s = .next { s with blk := s.blk.retireReq q }) ∧
       ((s.blk.retireReq q).awaits (.output k i) = false → e.d.dstSg = false → 0 < r.out.length → r.out.length ≤ e.d.dstLen →
         ∃ t, exec (.writeResponse q.port q.id) s = .next t ∧ t.blk.entry? k i = some { e with stage := .readback } ∧
           t.blk.bus = s.blk.bus ++ [.read e.outPort e.part k false ((e.d.dstAddr + r.out.length - 1) / 64 * 64) 64] ∧
           t = { s with blk := { s.blk with entries := t.blk.entries, mport := t.blk.mport, bus := t.blk.bus } })) ∧
     (e.stage = .readback → r.key = none → r.ctx = none → exec (.readbackReturn k i) s =
       .next { s with blk := (s.blk.arrived (.readback k i)).finish e r.status r.detail e.engine r.out.length r.result })) ∧
  (∀ (s : State) (k : Nat) (i : Index) (e : Entry) (at_ : Nat), s.blk.entry? k i = some e → e.dispatchedAt = some at_ →
     (e.stage = .dispatched ∨ e.stage = .queued) →
     let late := fun (b : Block) => exec (.descriptorTimeLimit k i) s = .next { s with blk := b.finish e St.timeout 1 e.engine 0 0 }
     (at_ + 20000000 ≤ s.blk.time.interval → e.d.family ≠ Fam.pk → e.d.family ≠ Fam.lat → late s.blk) ∧
     (at_ + 20000000 < s.blk.time.interval ∨ at_ + 20000000 = s.blk.time.interval ∧ e.resultStands = false →
       (e.d.family = Fam.pk → late { s.blk with ox := { s.blk.ox with timeouts := min (s.blk.ox.timeouts + 1) (2 ^ 16 - 1) } }) ∧
       (e.d.family = Fam.lat → late { s.blk with lat := { s.blk.lat with timeouts := min (s.blk.lat.timeouts + 1) (2 ^ 16 - 1) } })) ∧
     (e.resultStands = true → at_ + 20000000 = s.blk.time.interval → exec (.descriptorTimeLimit k i) s = .next s) ∧
     (s.blk.time.interval < at_ + 20000000 → exec (.descriptorTimeLimit k i) s = .next s))

/-- Work without an engine (05 R103, R112): a NOP whose order permits it leaves with RESULT equal to PARAM; COPY writes its input to its
destination, byte-swapped within units as VARIANT says, and FILL writes PARAM's eight bytes, repeated to DST_LEN and swapped alike; a length that
is no multiple of the unit is refused ST_LENGTH with detail 2. The swap of MOVE (05 R112): VARIANT 0 leaves the bytes, 1 reverses each 2, 2 each 4, 4 each 8, and 3 exchanges the halves of each 4; a
swap made twice gives the bytes back. -/
def Obligations.NopAndMove : Prop :=
  (∀ (s : State) (k : Nat) (i : Index) (e : Entry), s.blk.entry? k i = some e → e.stage = .queued → s.blk.ordered e = true →
     e.ring = k → e.sub = i → e.d.var ≤ 4 →
     let unit := match e.d.var with | 1 => 2 | 2 => 4 | 3 => 4 | 4 => 8 | _ => 1
     let writes := fun (c : Instr) (out : Bytes) => ∃ t f, exec c s = .next t ∧ t.blk.entry? k i = some f ∧ f.stage = .writing ∧
       f.res = some { out := out } ∧ f.engine = 0xF0 ∧ f.d = e.d ∧ f.port = some s.blk.pickPort ∧
       t = { s with blk := { s.blk with entries := t.blk.entries, mport := t.blk.mport, bus := t.blk.bus, keys := t.blk.keys
                                        parts := t.blk.parts, rings := t.blk.rings } }
     (e.d.family = Fam.nop → e.d.dstKeep = false →
       let f : Entry := { e with stage := .dispatched, engine := 0xF1, dispatchedAt := some s.blk.time.interval
                                 res := some { result := BitVec.ofNat 64 e.d.param } }
       let b := ((s.blk.modEntry k i fun _ => f).leaveEngine f 0).modEntry k i fun e => { e with port := some s.blk.pickPort }
       let b := b.finish { f with port := some s.blk.pickPort } 0 0 0xF1 0 (BitVec.ofNat 64 e.d.param)
       exec (.nop k i) s = .next { s with blk := b }) ∧
     (e.d.family = Fam.move → e.d.op = 1 → e.d.dstKeep = false → e.d.srcPrev = false → e.d.dstLen = e.src.length → 0 < e.d.dstLen →
       e.d.dstLen % unit = 0 → writes (.copy k i) (swapUnits e.d.var e.src)) ∧
     (e.d.family = Fam.move → e.d.op = 2 → e.d.dstKeep = false → 0 < e.d.dstLen → e.d.dstLen % unit = 0 →
       writes (.fill k i) (swapUnits e.d.var
         ((List.replicate ((e.d.dstLen + 7) / 8) (toLE 8 e.d.param)).flatten.take e.d.dstLen))) ∧
     (e.d.family = Fam.move → e.d.op = 2 → e.d.dstLen % unit ≠ 0 →
       exec (.fill k i) s = .next { s with blk := s.blk.refuse e St.length 2 0 })) ∧
  (∀ (a b c d e f g h : Byte) (bs : Bytes),
     swapUnits 0 bs = bs ∧ (swapUnits 1 ([a, b] ++ bs) = [b, a] ++ swapUnits 1 bs) ∧
     (swapUnits 2 ([a, b, c, d] ++ bs) = [d, c, b, a] ++ swapUnits 2 bs) ∧
     (swapUnits 3 ([a, b, c, d] ++ bs) = [c, d, a, b] ++ swapUnits 3 bs) ∧
     (swapUnits 4 ([a, b, c, d, e, f, g, h] ++ bs) = [h, g, f, e, d, c, b, a] ++ swapUnits 4 bs) ∧
     ∀ v, v ≤ 4 → bs.length % 8 = 0 → swapUnits v (swapUnits v bs) = bs)

/-- Service frames and adaptation (13 R292, R293, R298): 50 ticks after the last, a frame begins: it is counted and capacities are computed from the
units in service; the allocations raise the balances, none above its allocation. At the end of 1,000 frames SAT_PERIOD names the classes that were
saturated in more than 500 of them. -/
def Obligations.ServiceFrames : Prop :=
  ∀ (s : State),
    (s.blk.mode.ready = true → s.blk.sched.frameAt + 50 ≤ s.blk.time.interval → ∃ t, exec .serviceFrame s = .next t ∧
      t.blk.sched.frames = s.blk.sched.frames + 1 ∧ t.blk.sched.frameAt = s.blk.time.interval ∧
      t.blk.sched.caps = (List.range 7).map s.blk.capacity ∧ t.blk.sched.periodFrames = s.blk.sched.periodFrames + 1 ∧
      (∀ p ∈ s.blk.partitions, (t.blk.part p).spent = List.replicate 7 0 ∧
        List.Forall₂ (fun (x : Int) (a : Nat) => x ≤ a) (t.blk.part p).balance ((t.blk.part p).alloc.take (t.blk.part p).balance.length)) ∧
      t = { s with blk := { s.blk with sched := t.blk.sched, parts := t.blk.parts, recorder := t.blk.recorder } }) ∧
    (1000 ≤ s.blk.sched.periodFrames → s.blk.sched.satCount.length = 7 → ∃ t, exec .adaptationPeriod s = .next t ∧
      (∀ c, c < 7 → t.blk.sched.satPeriod.getLsbD c = decide (500 < nth 0 s.blk.sched.satCount c)) ∧ t.blk.sched.periodFrames = 0 ∧
      t.blk.sched.satCount = List.replicate 7 0 ∧
      t = { s with blk := { s.blk with sched := { s.blk.sched with
        satPeriod := t.blk.sched.satPeriod, satCount := t.blk.sched.satCount, periodFrames := 0 } } })


/-! ## Engines (05, 07, 08, 09) -/

/-- Ciphers (05 R104, 07 R146): a dispatched SYM descriptor on a lane is given the output of its mode under the key it copied; a
decryption in GCM or CCM whose tag differs is given ST_TAG_MISMATCH and no output. A stream starts from AUX or, in a later stage, from its context,
and leaves behind the context that its stage gives. The stream modes undo themselves (07 R146): for a cipher whose two directions undo each other on blocks, a CBC decryption gives
back what CBC encrypted; CFB, OFB and CTR give back every byte string, whatever its length. -/
def Obligations.LaneCiphers : Prop :=
  (∀ (s : State) (l : Nat) (e : Entry),
     let d := e.d
     let key := e.key1.slotRec
     let c := Modes.cipherOf key.code key.secret
     let src := s.blk.input e
     let start := if d.continues then (e.ctx.getD {}).state else e.aux
     let stream := fun (x : Bytes × Bytes) => ({ out := x.1, ctx := e.nextCtx key.code e.key1.gen src.length x.2 } : Result)
     let iv := e.aux.take (field d.param 7 0)
     let aad := src.take d.aadLen
     let data := src.drop d.aadLen
     let tag := slice (field d.param 7 0) d.tagLen e.aux
     (s.blk.WorksOn (s.blk.lane l).job Fam.sym 1 e →
       (d.var = 0 → Computes s (.encrypt l) e (stream (Modes.ecb c.enc c.b src, []))) ∧
       (d.var = 1 → Computes s (.encrypt l) e (stream (Modes.cbcEnc c start src))) ∧
       (d.var = 2 → Computes s (.encrypt l) e (stream (Modes.cfb c 1 false start src))) ∧
       (d.var = 3 → Computes s (.encrypt l) e (stream (Modes.cfb c c.b false start src))) ∧
       (d.var = 4 → Computes s (.encrypt l) e (stream (Modes.ofb c start src))) ∧
       (d.var = 5 → Computes s (.encrypt l) e (stream (Modes.ctr c (field d.param 7 0) start src))) ∧
       (d.var = 6 → Computes s (.encrypt l) e
         { out := Modes.gcmCrypt c iv data ++ (Modes.gcmTag c iv aad (Modes.gcmCrypt c iv data)).take d.tagLen }) ∧
       (d.var = 7 → Computes s (.encrypt l) e { out := Modes.ccmCrypt c iv data ++ Modes.ccmTag c iv aad data d.tagLen })) ∧
     (s.blk.WorksOn (s.blk.lane l).job Fam.sym 2 e →
       (d.var = 0 → Computes s (.decrypt l) e (stream (Modes.ecb c.dec c.b src, []))) ∧
       (d.var = 1 → Computes s (.decrypt l) e (stream (Modes.cbcDec c start src))) ∧
       (d.var = 2 → Computes s (.decrypt l) e (stream (Modes.cfb c 1 true start src))) ∧
       (d.var = 3 → Computes s (.decrypt l) e (stream (Modes.cfb c c.b true start src))) ∧
       (d.var = 4 → Computes s (.decrypt l) e (stream (Modes.ofb c start src))) ∧
       (d.var = 5 → Computes s (.decrypt l) e (stream (Modes.ctr c (field d.param 7 0) start src))) ∧
       (d.var = 6 → (Modes.gcmTag c iv aad data).take d.tagLen = tag → Computes s (.decrypt l) e { out := Modes.gcmCrypt c iv data }) ∧
       (d.var = 6 → (Modes.gcmTag c iv aad data).take d.tagLen ≠ tag → Computes s (.decrypt l) e { status := 0x30, detail := 1 }) ∧
       (d.var = 7 → Modes.ccmTag c iv aad (Modes.ccmCrypt c iv data) d.tagLen = tag →
         Computes s (.decrypt l) e { out := Modes.ccmCrypt c iv data }) ∧
       (d.var = 7 → Modes.ccmTag c iv aad (Modes.ccmCrypt c iv data) d.tagLen ≠ tag →
         Computes s (.decrypt l) e { status := 0x30, detail := 2 }))) ∧
  (∀ (c : Modes.Cipher) (iv data : Bytes), 0 < c.b → (∀ x, x.length = c.b → (c.enc x).length = c.b) → iv.length = c.b →
     ((∀ x, x.length = c.b → c.dec (c.enc x) = x) → data.length % c.b = 0 → (Modes.cbcDec c iv (Modes.cbcEnc c iv data).1).1 = data) ∧
     (Modes.cfb c c.b true iv (Modes.cfb c c.b false iv data).1).1 = data ∧
     (Modes.cfb c 1 true iv (Modes.cfb c 1 false iv data).1).1 = data ∧
     (Modes.ofb c iv (Modes.ofb c iv data).1).1 = data ∧
     (∀ bits, (Modes.ctr c bits iv (Modes.ctr c bits iv data).1).1 = data))

/-- Digests and MACs (05 R105 to R107, 07 R147): a HASH/MAC descriptor of one stage gives the hash, the extendable output or the MAC of its
input, shortened to DST_LEN; a verification compares all of AUX and gives ST_VERIFY_FAIL with detail 1 for a hash and 2 for a MAC; a first or
middle stage gives nothing but its next context. -/
def Obligations.LaneDigests : Prop :=
  ∀ (s : State) (l : Nat) (e : Entry),
    let d := e.d
    let key := e.key1.slotRec
    let src := s.blk.input e
    let runs := fun (op : Nat) => s.blk.WorksOn (s.blk.lane l).job Fam.hash op e
    let whole := d.stage = 0 ∧ d.ctxUse = false
    let c := Modes.cipherOf key.code key.secret
    let mac := if d.var = 0x20 then Modes.cmac c src
      else if d.var = 0x21 then Modes.mac1Finish c (field d.param 9 8) (zeros (if algTdea key.code then 8 else 16)) src src.length
      else Modes.mac3Finish key.secret (field d.param 9 8) (zeros (if algTdea key.code then 8 else 16)) src src.length
    (∀ h, Hash.ofCode (d.var % 16) = some h →
      (runs 1 → whole → Computes s (.hash l) e { out := Hash.xof h src d.dstLen }) ∧
      (runs 5 → whole → Computes s (.xof l) e { out := Hash.xof h src d.dstLen }) ∧
      (runs 2 → whole → Hash.xof h src d.dstLen = e.aux → Computes s (.hashVerify l) e {}) ∧
      (runs 2 → whole → Hash.xof h src d.dstLen ≠ e.aux → Computes s (.hashVerify l) e { status := 0x31, detail := 1 }) ∧
      (runs 3 → whole → d.var < 0x20 → Computes s (.macGenerate l) e { out := (Hash.hmac h key.secret src).take (d.macLen key.code) }) ∧
      (runs 4 → whole → d.var < 0x20 → (Hash.hmac h key.secret src).take (d.macLen key.code) = e.aux → Computes s (.macVerify l) e {}) ∧
      (runs 4 → whole → d.var < 0x20 → (Hash.hmac h key.secret src).take (d.macLen key.code) ≠ e.aux →
        Computes s (.macVerify l) e { status := 0x31, detail := 2 }) ∧
      (runs 1 → d.stage = 1 → ∃ ctx, e.nextCtx key.code e.key1.gen src.length (Hash.update h (Hash.init h) src) = some ctx ∧
        Computes s (.hash l) e { ctx := some ctx })) ∧
    (d.var = 0x20 ∨ d.var = 0x21 ∨ d.var = 0x22 → 1 ≤ key.code →
      (runs 3 → whole → Computes s (.macGenerate l) e { out := mac.take (d.macLen key.code) }) ∧
      (runs 4 → whole → mac.take (d.macLen key.code) = e.aux → Computes s (.macVerify l) e {}) ∧
      (runs 4 → whole → mac.take (d.macLen key.code) ≠ e.aux → Computes s (.macVerify l) e { status := 0x31, detail := 2 }))

/-- Modular arithmetic (08 R172, R175, R177, R180): on a job that check 5 has passed, the five operations give the sum, difference, product and power
of their operands modulo n and the inverse, in 4 × WORDS bytes, most significant first; where no inverse exists the job gives ST_OPERAND_RANGE
with detail 5. Check 5 passes exactly moduli and operands in range. -/
def Obligations.ModularArithmetic : Prop :=
  ∀ (s : State) (u op : Nat) (e : Entry),
    let j := s.blk.pkJob e
    let k := 4 * e.d.words
    let n := ofBE (e.aux.take k)
    let a := ofBE ((s.blk.input e).take k)
    let b := ofBE ((s.blk.input e).drop k)
    let gives := fun (c : Instr) (x : Nat) => Computes s c e { out := toBE k x }
    s.blk.WorksOn (s.blk.mathJob u) Fam.pk op e → (s.blk.mathUnit u).checked = true → j.refusal = none →
      (op = 1 → gives (.modAdd u) ((a + b) % n)) ∧
      (op = 2 → ∃ x, x < n ∧ (x + b) % n = a % n ∧ gives (.modSub u) x) ∧
      (op = 3 → gives (.modMul u) (a * b % n)) ∧
      (op = 4 → gives (.modExp u) (a ^ b % n)) ∧
      (op = 5 → Nat.gcd a n = 1 → ∃ x, x < n ∧ a * x % n = 1 ∧ gives (.modInv u) x) ∧
      (op = 5 → Nat.gcd a n ≠ 1 → Computes s (.modInv u) e { status := 0x40, detail := 5 })

/-- OX and lattice operations (08 R168 to R192, 09 R195 to R207): a job whose check phase has passed it and whose random bytes have arrived is
given its result, and an OX job that still lacks them asks HEN for them; nothing else changes. RSA encryption, decryption, signature and
verification, the elliptic and Edwards operations, ML-KEM and ML-DSA. -/
def Obligations.PublicKeyOperations : Prop :=
  ∀ (s : State) (u : Nat) (e : Entry),
    let j := s.blk.pkJob e
    let runs := fun (family op : Nat) => s.blk.WorksOn (s.blk.mathJob u) family op e ∧ (s.blk.mathUnit u).checked = true
    let asks := fun (c : Instr) (prio n : Nat) => e.asked = false → s.blk.hen.phase ≠ .stopped → ∃ t, exec c s = .next t ∧
      t.blk.hen.waiting = s.blk.hen.waiting ++ [{ prio, bytes := n, asked := s.blk.time.interval, who := .entry e.ring e.sub }] ∧
      t.blk.entry? e.ring e.sub = some { e with asked := true } ∧
      t = { s with blk := { s.blk with entries := t.blk.entries, hen := { s.blk.hen with waiting := t.blk.hen.waiting } } }
    (∀ x ∈ [((0x10 : Nat), Instr.rsaEncrypt u), (0x11, .rsaVerify u), (0x12, .rsaDecrypt u), (0x13, .rsaSign u), (0x20, .ecdsaSign u),
        (0x21, .ecdsaVerify u), (0x22, .ecdh u), (0x23, .ecKeygen u), (0x30, .eddsaSign u), (0x31, .eddsaVerify u), (0x32, .xdh u),
        (0x33, .edwardsKeygen u)],
      runs Fam.pk x.1 → j.refusal = none →
        (j.needs e.rnd = none → Computes s x.2 e (j.result e.rnd)) ∧
        (∀ prio n, j.needs e.rnd = some (prio, n) → asks x.2 prio n)) ∧
    (∀ x ∈ [((0x01 : Nat), Instr.kemKeygen u), (0x02, .kemEncaps u), (0x03, .kemDecaps u), (0x11, .dsaKeygen u), (0x12, .dsaSign u),
        (0x13, .dsaVerify u)],
      runs Fam.lat x.1 →
        ∀ r, (∀ y, e.d.latDraw = some y → y.2 ≤ e.rnd.length) → e.latResult (s.blk.input e) = some r → Computes s x.2 e r) ∧
    (runs Fam.pk 0x14 → j.refusal = none → e.rnd.length < 2 * e.d.words → asks (.rsaKeygen u) 2 (2 * e.d.words)) ∧
    (∀ p q, runs Fam.pk 0x14 → j.refusal = none → 2 * e.d.words ≤ e.rnd.length →
      (e.tryCandidate e.d.words (ofBE e.aux)).primes = [p, q] → ∃ t f r, exec (.rsaKeygen u) s = .next t ∧
        t.blk.entry? e.ring e.sub = some f ∧ f.res = some r ∧
        r.out = (Rsa.keyOf p q (ofBE e.aux) (4 * e.d.words)).2.take (4 * e.d.words) ∧
        t = { s with blk := { s.blk with entries := t.blk.entries, ox := { s.blk.ox with
          candidates := t.blk.ox.candidates, primes := t.blk.ox.primes } } })


/-! ## Lanes and units (07 R141 to R145, R152 to R160, 08 R169, R175, R184 to R188, 09 R202, R209, R210) -/

/-- Lane dispatch (07 R152, R153, R156): the first entry of a personality's queue that its order rules let go is put to the tests of check 2
that wait for dispatch and to check 4, for the lane idle longest of those that carry the personality and have masks: a refusal completes it,
otherwise the lane takes it, with the mask blocks that it needs, copies its key and holds a reference on the slot. -/
def Obligations.LaneDispatch : Prop :=
  ∀ (s : State) (l p k : Nat) (sub : Index) (pre post : List QItem) (i : QItem) (e : Entry),
    let b := s.blk
    (b.persState p).queue = pre ++ i :: post → (∀ y ∈ pre, b.mayDispatch y.job = false) → b.mayDispatch i.job = true → i.retry = false →
    i.job = .entry k sub → b.entry? k sub = some e → e.refsHeld = false → b.unservable p = false →
    argMin (fun m => ((b.lane m).idleSince : Int)) (((b.carriers p).filter fun m => !(i.excluded.contains m)).filter fun m =>
      (b.lane m).job.isNone && (b.lane m).hasMasks (b.maskNeed i.job)) = some l →
    (∀ st det r, (b.lateCheck2 e).or (b.laneFault e) = some (st, det, r) →
      exec (.laneDispatch p) s = .next { s with blk := (b.unqueue i.job).refuse e st det r }) ∧
    (b.lateCheck2 e = none → b.laneFault e = none → e.dispatchedAt = none → ∃ t, exec (.laneDispatch p) s = .next t ∧
      t.blk.entry? k sub = some { e with
        stage := .dispatched, engine := l, dispatchedAt := some b.time.interval, res := none, refsHeld := true
        keys := if e.d.keyed then [b.copyKey e.d.k1] else [], ctx := if e.d.continues then some (b.ctx e.d.ctx).c else none } ∧
      (t.blk.lane l).job = some i.job ∧ (t.blk.lane l).startedAt = b.time.interval ∧
      (t.blk.lane l).blocks = (b.lane l).blocks + b.maskNeed i.job ∧ (∀ m, m ≠ l → t.blk.lane m = b.lane m) ∧
      (∀ y ∈ (t.blk.persState p).queue, y.job ≠ i.job) ∧
      (e.d.keyed = true → (t.blk.slot e.d.k1.slot).refs = (b.slot e.d.k1.slot).refs + 1) ∧
      t = { s with blk := { b with
        entries := t.blk.entries, lanes := t.blk.lanes, keys := t.blk.keys, hen := { b.hen with waiting := t.blk.hen.waiting }
        ox := { b.ox with queue := t.blk.ox.queue }, lat := { b.lat with queue := t.blk.lat.queue }
        pay := { b.pay with queue := t.blk.pay.queue } } })

/-- Lanes at work (01 R25, 07 R143, R144, R158, R165): a lane that is done releases its result with the time used; a first mismatch sends its job
to a retry that excludes the lane, and the retry's own ends the job ST_FAULT_DETECTED and quarantines both lanes; a load that is due puts the lane in
service for its personality; a starved personality takes a lane from the donor with the largest excess. The balancer (07 R142, R143): 50,000 ticks after the last evaluation, targets are set and at most SWITCH_LIMIT lanes are switched; a
period without demand keeps each personality's current count as its target; busy times start over. A governor that comes after the balancer in
the order of 01 R26 and has acted in the tick puts the evaluation off. -/
def Obligations.LanesAtWork : Prop :=
  (∀ (s : State) (l p : Nat) (j : Job),
     let b := s.blk
     let x := b.lane l
     let now := b.time.interval
     let onlyLane := fun (t : State) => (∀ m, m ≠ l → t.blk.lane m = b.lane m) ∧
       t = { s with blk := { b with lanes := { b.lanes with units := t.blk.lanes.units, starve := t.blk.lanes.starve } } }
     (∀ e r, x.role = .data p → x.job = some e.job → b.entry? e.ring e.sub = some e → e.res = some r → x.jobMism = none →
       exec (.laneWorkDone l) s = .next { s with blk :=
         ((b.freeLane l).modPers p fun y => { y with busy := y.busy + (x.cost - x.counted) }).executed e (b.laneCost p e.job) }) ∧
     (x.job = some j → x.jobMism = none → exec (.laneMismatch l false) s = .next { s with blk :=
       ((Block.freeUnit { b with lanes := { b.lanes with lastLane := l } } j).retryJob j (x.jobRetry ++ [l]) (some now)).note 0x0031 1 l 1 }) ∧
     (∀ t0 f, x.job = some j → x.jobMism = some t0 → x.jobRetry = [f] →
       let c : Block := Block.freeUnit { b with lanes := { b.lanes with lastLane := l } } j
       let c : Block := { c with lanes := { c.lanes with double := min (c.lanes.double + 1) (2 ^ 16 - 1) } }
       exec (.laneMismatch l false) s = .next { s with blk := (((c.failJob j 0x60 1 l).note 0x0031 2 l 1).quarantine f).quarantine l }) ∧
     (b.inService l = true → x.loadAt ≤ now → x.role = .loading p → ∃ t, exec (.personalityLoadDone l) s = .next t ∧ onlyLane t ∧
       t.blk.lane l = { x with role := .data p, idleSince := now }) ∧
     (b.inService l = true → x.loadAt ≤ now → x.role = .keyLoading → ∃ t, exec (.personalityLoadDone l) s = .next t ∧ onlyLane t ∧
       t.blk.lane l = { x with role := .key, idleSince := now }) ∧
     (∀ q, b.starved p = true → b.minDonor p = some q → b.donorLane q = some l → ∃ t, exec (.starvationSwitch p) s = .next t ∧
       onlyLane t ∧ t.blk.lanes.starve = min (b.lanes.starve + 1) (2 ^ 16 - 1) ∧
       t.blk.lane l = if x.job.isNone then x.load p now else { x with switchTo := some p })) ∧
  (∀ (s : State), s.blk.governorFree 4 = false → exec .balancerEvaluation s = .next s) ∧
  (∀ (s : State), s.blk.mode.ready = true → s.blk.governorFree 4 = true → s.blk.lanes.evalAt + 50000 ≤ s.blk.time.interval → ∃ t, exec .balancerEvaluation s = .next t ∧
     t.blk.lanes.evalAt = s.blk.time.interval ∧ t.blk.lanes.evaluations = min (s.blk.lanes.evaluations + 1) (2 ^ 24 - 1) ∧
     t.blk.lanes.lastSwitched ≤ s.blk.img.inForce.switchLimit ∧
     t.blk.lanes.switches = min (s.blk.lanes.switches + t.blk.lanes.lastSwitched) (2 ^ 16 - 1) ∧
     (∀ p, (t.blk.persState p).busy = 0) ∧
     (∀ p, p < t.blk.lanes.pers.length → (laneType.units.foldl Block.countLane s.blk).demand.sum = 0 → (t.blk.persState p).target = (s.blk.persLanes p).length) ∧
     t = { s with blk := { s.blk with lanes := t.blk.lanes, sched := { s.blk.sched with governor := (s.blk.time.interval, 4) } } })

/-- Mathematical units (08 R169, R175, R184 to R188, 09 R202, R209, R210): an OX or lattice unit takes the first entry of its queue that may
go; the report of its check phase passes a job on or refuses it, and a lattice job then draws its random bytes or ends where HEN is stopped; a
first self-check mismatch sends a job to a retry on another unit, and one with no other unit, or on a retry, is final: the job ends with the
tick (log entry 115); a finished job releases its result with the time used; a wipe that ends frees the unit, and a verifying one that finds
a byte that is not zero quarantines it. -/
def Obligations.UnitsAtWork : Prop :=
  ∀ (s : State) (u k : Nat) (sub : Index) (e : Entry),
    let b := s.blk
    let x := b.mathUnit u
    let now := b.time.interval
    let isOx := 112 ≤ u ∧ u < 168
    let onlyUnit := fun (t : State) => (∀ v, 112 ≤ v → v ≠ u → t.blk.mathUnit v = b.mathUnit v) ∧
      t = { s with blk := { b with ox := { b.ox with units := t.blk.ox.units }, lat := { b.lat with units := t.blk.lat.units } } }
    let takes := fun (t : State) (i : QItem) (keys : List KeyCopy) =>
      t.blk.entry? k sub = some { e with stage := .dispatched, engine := u, dispatchedAt := some now, res := none, refsHeld := true
                                         keys := keys, ctx := none } ∧
      (t.blk.mathUnit u).job = some i.job ∧ (t.blk.mathUnit u).startedAt = now ∧ (t.blk.mathUnit u).jobs = x.jobs + 1 ∧
      (t.blk.mathUnit u).checked = false ∧ (t.blk.mathUnit u).fatal = none ∧ (∀ y ∈ t.blk.ox.queue ++ t.blk.lat.queue, y.job ≠ i.job) ∧
      t = { s with blk := { b with
        entries := t.blk.entries, keys := t.blk.keys, hen := { b.hen with waiting := t.blk.hen.waiting }
        lanes := { b.lanes with pers := t.blk.lanes.pers }, pay := { b.pay with queue := t.blk.pay.queue }
        ox := { b.ox with units := t.blk.ox.units, queue := t.blk.ox.queue }
        lat := { b.lat with units := t.blk.lat.units, queue := t.blk.lat.queue } } }
    b.entry? k sub = some e →
    (∀ pre post i, i.job = .entry k sub → (∀ y ∈ pre, b.mayDispatch y.job = false) → b.mayDispatch i.job = true → i.retry = false →
      e.refsHeld = false → e.dispatchedAt = none →
      (b.ox.queue = pre ++ i :: post → b.longJob i.job = false → b.unitFor oxType i = some u → b.oxFault e = none → ∃ t,
        exec .oxDispatch s = .next t ∧ takes t i (if e.d.pkKeyed then [b.copyKey e.d.k1] else [])) ∧
      (b.lat.queue = pre ++ i :: post → b.unitFor latType i = some u → b.latFault e = none → ∃ t,
        exec .latDispatch s = .next t ∧ takes t i (if e.d.latKeyed then [b.copyKey e.d.k1] else []))) ∧
    (x.job = some (.entry k sub) → x.fatal = none → e.stage = .dispatched →
      let freed : Block := b.freeUnit (.entry k sub)
      let counted := fun (c : Block) (det : Nat) => (c.countMath u 0 0 1).note 0x0031 2 u det
      let retries := (((b.lastMath u).freeUnit (.entry k sub)).note 0x0031 1 u 3).retryJob (.entry k sub) (x.jobRetry ++ [u]) (some now)
      let final := fun (severity d : Nat) => ((b.lastMath u).note 0x0031 severity u 3).modMath u fun y => { y with fatal := some d }
      let other := fun (lo hi : Nat) => ∃ v, lo ≤ v ∧ v < hi ∧ v ≠ u ∧ b.inService v = true
      (isOx → (b.pkJob e).refusal = none → ∃ t, exec (.oxValidationReport u) s = .next t ∧ onlyUnit t ∧
        t.blk.mathUnit u = { x with checked := true }) ∧
      (∀ st det, isOx → (b.pkJob e).refusal = some (st, det) → x.jobMism = none →
        let c : Block := if st = 0x60 then counted freed det else freed
        let c : Block := { c with ox := { c.ox with validation := min (c.ox.validation + 1) (2 ^ 32 - 1) } }
        exec (.oxValidationReport u) s = .next { s with blk := c.finish e st det u 0 0 }) ∧
      (168 ≤ u → x.checked = false → e.latRefusal = none → e.d.latDraw = none → ∃ t, exec (.latCheckPhaseEnd u) s = .next t ∧ onlyUnit t ∧
        t.blk.mathUnit u = { x with checked := true }) ∧
      (∀ prio n, 168 ≤ u → x.checked = false → e.latRefusal = none → e.d.latDraw = some (prio, n) → e.asked = false →
        let c : Block := b.modMath u fun y => { y with checked := true }
        let asks := (c.ask prio n (.entry e.ring e.sub)).modEntry e.ring e.sub fun f => { f with asked := true }
        (b.hen.phase ≠ .stopped → exec (.latCheckPhaseEnd u) s = .next { s with blk := asks }) ∧
        (b.hen.phase = .stopped → exec (.latCheckPhaseEnd u) s = .next { s with blk := c.noEntropy e.job 1 e.engine })) ∧
      (∀ st det, 168 ≤ u → x.checked = false → e.latRefusal = some (st, det) → x.jobMism = none →
        let c : Block := { freed with lat := { freed.lat with validation := min (freed.lat.validation + 1) (2 ^ 32 - 1) } }
        let c : Block := if e.d.op = 0x02 then c else counted c det
        exec (.latCheckPhaseEnd u) s = .next { s with blk := c.finish e st det u 0 0 }) ∧
      (isOx → x.jobMism = none → other 112 168 → exec (.oxSelfCheckMismatch u) s = .next { s with blk := retries }) ∧
      (168 ≤ u → x.jobMism = none → other 168 188 → exec (.latSelfCheckMismatch u) s = .next { s with blk := retries }) ∧
      (isOx → x.jobMism = none → ¬ other 112 168 → exec (.oxSelfCheckMismatch u) s = .next { s with blk := final 1 7 }) ∧
      (168 ≤ u → x.jobMism = none → ¬ other 168 188 → exec (.latSelfCheckMismatch u) s = .next { s with blk := final 1 7 }) ∧
      (isOx → x.jobMism.isSome = true → exec (.oxSelfCheckMismatch u) s = .next { s with blk := final 2 3 }) ∧
      (168 ≤ u → x.jobMism.isSome = true → exec (.latSelfCheckMismatch u) s = .next { s with blk := final 2 3 }) ∧
      (∀ r, isOx → e.res = some r → e.d.op ≠ 0x14 → x.jobMism = none →
        exec (.oxJobDone u) s = .next { s with blk := freed.executed e ((b.pkJob e).time r.out.length) }) ∧
      (∀ r at_, isOx → e.res = some r → e.d.op = 0x14 → x.jobMism = none → e.dispatchedAt = some at_ →
        let c : Block := { b with ox := { b.ox with max100ms := max b.ox.max100ms (min 200 ((now - at_) / 100000)) } }
        exec (.oxJobDone u) s = .next { s with blk := (c.freeUnit (.entry k sub)).executed e (b.mathSpent u) }) ∧
      (∀ r, 168 ≤ u → e.res = some r → x.jobMism = none →
        let iter := r.result.toNat % 2 ^ 16
        let c : Block := if e.d.op = 0x12 ∧ r.status = 0 then { b with lat := b.lat.signed iter } else b
        let c : Block := (c.freeUnit (.entry k sub)).executed e (Cost.lat e.d (some iter) * Cost.cycle)
        exec (.latJobDone u) s = .next { s with blk := c })) ∧
    (112 ≤ u → x.wiping = true → b.mode.wiping = false → ∀ clean : Bool,
      let c : Block := b.modMath u fun y => { y with wiping := false, verify := false, cutFor := none }
      (x.verify = false ∨ clean = true → exec (.unitWipeDone u clean) s = .next { s with blk := c }) ∧
      (x.verify = true → clean = false → (b.unit u).st ≠ .spare → exec (.unitWipeDone u clean) s = .next { s with blk := c.quarantine u }))


/-! ## Payment functions (11) -/

/-- Payment dispatch and faults (11 R234, R235, R238, 12 R263, R285): the first entry of the PAY queue that may go starts in the lowest free
context of the core with the most free banks, at the address of its operation, with its descriptor and keys copied; a refusal of check 4 completes it.
A fault of a core without functions quarantines it, and a context that has issued 65,536 cycles is such a fault. -/
def Obligations.PaymentDispatch : Prop :=
  ∀ (s : State) (u k : Nat) (sub : Index) (c : Fin 8) (e : Entry) (pre post : List QItem) (i : QItem),
    let b := s.blk
    (b.pay.queue = pre ++ i :: post → (∀ y ∈ pre, b.mayDispatch y.job = false) → b.mayDispatch i.job = true → i.job = .entry k sub →
      b.entry? k sub = some e → e.dispatchedAt = none → e.refsHeld = false →
      argMax (fun v => ((b.core v).freeCtxs.length : Int)) (b.payCores i) = some u → (b.core u).freeCtxs.head? = some c →
      (∀ st det r, b.payFault e = some (st, det, r) → exec .payDispatch s = .next { s with blk := (b.unqueue i.job).refuse e st det r }) ∧
      (b.payFault e = none → ∃ t, exec .payDispatch s = .next t ∧
        t.blk.entry? k sub = some { e with stage := .dispatched, engine := 188 + u, dispatchedAt := some b.time.interval, res := none
                                           keys := b.payCopies e, refsHeld := true, ctx := none } ∧
        (t.blk.cx u c).st = .ready ∧ (t.blk.cx u c).pc = BitVec.ofNat 14 (0x100 + 2 * e.d.op) ∧ (t.blk.cx u c).fn = some (k, sub) ∧
        (t.blk.cx u c).bay = startBay e.d (b.payCopies e) ∧ (t.blk.cx u c).g = Vector.replicate 8 0 ∧
        (∀ v d, ¬ (v = u ∧ d = c) → t.blk.cx v d = b.cx v d) ∧ (∀ y ∈ t.blk.pay.queue, y.job ≠ i.job) ∧
        t = { s with blk := { b with
          entries := t.blk.entries, keys := t.blk.keys, lanes := { b.lanes with pers := t.blk.lanes.pers }
          ox := { b.ox with queue := t.blk.ox.queue }, lat := { b.lat with queue := t.blk.lat.queue }
          pay := { b.pay with queue := t.blk.pay.queue, cores := t.blk.pay.cores } } })) ∧
    (b.inService (188 + u) = true → (∀ d, (b.cx u d).fn = none) →
      exec (.coreFault (188 + u)) s = .next { s with blk := (b.endFunction u 0).quarantine (188 + u) }) ∧
    ((b.core u).running = some c → 65536 ≤ (b.cx u c).cycles → exec (.watchdogExpiry (188 + u)) s = exec (.coreFault (188 + u)) s) ∧
    ((b.core u).running = some c → (b.cx u c).cycles < 65536 → exec (.watchdogExpiry (188 + u)) s = .next s)

/-- Payment functions (11 R236, R239, R242 to R257): a function waits for the call or channel block that is outstanding; its keys' attributes
come first; it makes the next of its calls and channel blocks; after the last it ends with the refusal of its record or with its result, and
its bank and bay are zeroed: PIN blocks opened and sealed again, reference PINs and PIN verification values, DUKPT decryption and MACs, EMV
cryptograms, keys and check values. SLH_VERIFY (11 R256) reads the signature in windows of 16 KiB through the core's channel, makes its hash
calls on what its firmware gives them and ends with ST_OK or ST_VERIFY_FAIL with detail 0x0A; a failed read ends it ST_SG_FAULT with the channel's cause and the address of the
failing request. -/
def Obligations.PaymentFunctions : Prop :=
  ∀ (s : State) (u x : Nat) (c : Fin 8) (k : Nat) (i : Index) (e : Entry) (hashed : Bytes) (off : Nat),
     let b := s.blk
     let src := b.input e
     let y := b.cx u c
     let fill := bankRead y.bank 0x600 (Pay.fillBytes ((e.formats.2).getD 0))
     let next := if e.d.op = 0x40 ∧ e.fieldFault = true then none else Entry.payStep { e with rnd := fill } src y.run hashed off
     let ends := fun (cmd : Instr) (r : Result) => exec cmd s = .next { s with blk := b.endPay u c e r }
     let verdict := fun (ok : Bool) (st det : Nat) => if ok then ({} : Result) else { status := st, detail := det }
     let runs := fun (op : Nat) => e.d.op = op ∧ y.call = none ∧ y.block = false ∧ (y.run = 0 → b.payAttr e = none) ∧
       b.payReadFault u c e src = none
     let sound := fun (op : Nat) => runs op ∧ next = none ∧ e.recordFault = none
     let m := e.d.var % 16
     let c1 := Modes.cipherOf (e.payCode 0) (e.payKey 0)
     let c2 := Modes.cipherOf (e.payCode 1) (e.payKey 1)
     let under := fun (key : Bytes) => if e.d.dukptAes then Modes.aes key else Modes.tdea key
     let arqc := slice 0x18 8 e.aux
     c = ctxIx x → y.fn = some (k, i) → b.entry? k i = some e → e.stage = .dispatched →
     (∀ z ∈ [((0x01 : Nat), Instr.pinTranslate (188 + u) x), (0x02, .pinVerify (188 + u) x), (0x10, .dukptDecrypt (188 + u) x),
         (0x11, .dukptPinTranslate (188 + u) x), (0x12, .dukptMacVerify (188 + u) x), (0x20, .emvArqcVerify (188 + u) x),
         (0x21, .emvArpcGenerate (188 + u) x), (0x22, .emvScriptMac (188 + u) x), (0x23, .emvSessionDerive (188 + u) x),
         (0x30, .kcv (188 + u) x), (0x40, .slhVerify (188 + u) x hashed off)],
       (e.d.op = z.1 → (y.call.isSome = true ∨ y.block = true) → exec z.2 s = .next s) ∧
       (∀ det, e.d.op = z.1 → y.call = none → y.block = false → y.run = 0 → b.payAttr e = some det →
         ends z.2 { status := 0x22, detail := det }) ∧
       (∀ step, runs z.1 → next = some step →
         let b := b.modCx u c fun w => { w with got := b.payTaken u c e src }
         exec z.2 s = .next { s with blk := b.payPost u c e src step }) ∧
       (∀ st det, runs z.1 → next = none → e.recordFault = some (st, det) → ends z.2 { status := st, detail := det })) ∧
     (∀ fi fo o, sound 0x01 → e.formats = (some fi, some fo) → o = Pay.pinOpen fi c1 e.pan src →
       (Pay.pinFault fi o = none → ends (.pinTranslate (188 + u) x) { out := Pay.pinSeal fo c2 e.pan (Pay.pinField fo (Pay.pinDigits o) fill) }) ∧
       (∀ det, Pay.pinFault fi o = some det → ends (.pinTranslate (188 + u) x) { status := 0x70, detail := det })) ∧
     (∀ n pin, sound 0x02 → e.d.var < 16 → Pay.pinFault m (Pay.pinOpen m c1 e.pan src) = none → n = (nth 0 e.aux 0x18).toNat →
       pin = Pay.pinDigits (Pay.pinOpen m c1 e.pan src) → ends (.pinVerify (188 + u) x) (verdict (decide (n ≤ pin.length) && pin.take n ==
         Pay.referencePin c2 ((e.payKey 2).map (·.toNat)) (slice 0x10 8 e.aux) n ((Pay.nibbles (slice 0x19 6 e.aux)).take n)) 0x71 1)) ∧
     (sound 0x02 → 16 ≤ e.d.var → Pay.pinFault m (Pay.pinOpen m c1 e.pan src) = none → ends (.pinVerify (188 + u) x)
       (verdict (Pay.pvv c2 e.pan (nth 0 e.aux 0x10).toNat (Pay.pinDigits (Pay.pinOpen m c1 e.pan src)) == Pay.nibbles (slice 0x11 2 e.aux)) 0x71 1)) ∧
     (∀ w, w = under (e.dukptKey (.data e.response) (nth 0 e.aux 0x0D).toNat) →
       sound 0x10 → ends (.dukptDecrypt (188 + u) x) { out := (Modes.cbcDec w (slice 0x10 w.b e.aux) src).1 }) ∧
     (∀ fi fo o, sound 0x11 → e.formats = (some fi, some fo) → o = Pay.pinOpen fi (under (e.dukptKey .pin 2)) e.pan src →
       Pay.pinFault fi o = none → ends (.dukptPinTranslate (188 + u) x) { out := Pay.pinSeal fo c2 e.pan (Pay.pinField fo (Pay.pinDigits o) fill) }) ∧
     (sound 0x12 → e.d.dukptAes = true → ends (.dukptMacVerify (188 + u) x)
       (verdict ((Modes.cmac (Modes.aes (e.dukptKey (.mac e.response) (nth 0 e.aux 0x0D).toNat)) src).take (nth 0 e.aux 0x0F).toNat ==
         slice 0x30 (nth 0 e.aux 0x0F).toNat e.aux) 0x31 8)) ∧
     (sound 0x12 → e.d.dukptAes = false → ends (.dukptMacVerify (188 + u) x)
       (verdict ((Modes.mac3Finish (e.dukptKey (.mac e.response) (nth 0 e.aux 0x0D).toNat) 1 (zeros 8) src src.length).take
         (nth 0 e.aux 0x0F).toNat == slice 0x30 (nth 0 e.aux 0x0F).toNat e.aux) 0x31 8)) ∧
     (sound 0x20 → ends (.emvArqcVerify (188 + u) x) (verdict (Pay.emvMac m e.emvKey src == arqc) 0x31 7)) ∧
     (sound 0x21 → Pay.emvMac m e.emvKey src ≠ arqc → ends (.emvArpcGenerate (188 + u) x) { status := 0x31, detail := 7 }) ∧
     (sound 0x21 → Pay.emvMac m e.emvKey src = arqc → e.d.var / 16 = 0 →
       ends (.emvArpcGenerate (188 + u) x) { out := Pay.arpc m 0 e.emvKey arqc (slice 0x20 2 e.aux) }) ∧
     (sound 0x21 → Pay.emvMac m e.emvKey src = arqc → e.d.var / 16 = 1 → ends (.emvArpcGenerate (188 + u) x)
       { out := Pay.arpc m 1 e.emvKey arqc (slice 0x20 4 e.aux ++ slice 0x24 (nth 0 e.aux 0x2C).toNat e.aux) }) ∧
     (sound 0x22 → ends (.emvScriptMac (188 + u) x) { out := Pay.emvMac m e.emvKey src }) ∧
     (sound 0x23 → ends (.emvSessionDerive (188 + u) x) (e.res.getD {})) ∧
     (sound 0x30 → ends (.kcv (188 + u) x) { result := BitVec.ofNat 64 (ofLE (Pay.kcv e.d.var (e.payCode 0) (e.payKey 0))) }) ∧
     (sound 0x40 →
       let n := slhN e.d.var
       let ctx := e.aux.drop (16 + 2 * n)
       let set := nth (Slh.Params.mk false 0 0 0 0 0 0) (Slh.sizes (e.d.var % 2 == 1)) ((e.d.var - 1) / 2)
       ends (.slhVerify (188 + u) x hashed off) (verdict (Slh.verify set (slice 16 (2 * n) e.aux) ([0, byte ctx.length] ++ ctx ++ src)
         (b.payTaken u c e src)) 0x31 10)) ∧
     (∀ j, e.d.op = 0x40 → j < e.windows → e.payStep src j = some (.read (ofLE (e.aux.take 8) + 16384 * j)
       (min 16384 (ofLE (slice 8 4 e.aux) - 16384 * j)))) ∧
     (∀ j addr n, e.d.op = 0x40 → y.call = none → y.block = false → (y.run = 0 → b.payAttr e = none) → y.run = j + 1 →
       e.payStep src j = some (.read addr n) → y.mcs.getLsbD 1 = true → field y.mcs.toNat 15 8 % 64 = 3 →
       ends (.slhVerify (188 + u) x hashed off)
         { status := 0x12, detail := field y.mcs.toNat 15 8, result := BitVec.ofNat 64 (b.chan (b.fwChan u)).errAddr })


/-! ## Keys and dual control (10, 16 R361 to R365) -/

/-- Key-management operations (10 R222 to R228, 07 R149) on a key lane: IMPORT opens a key block under the partition's key-encryption
key and plans its slot; EXPORT wraps a slot; GENERATE reserves a slot or draws a key; DERIVE derives one; QUERY gives the attribute record; ERASE
empties a reserved slot, ends at once on an empty one, and sets a live chain DRAINING: the ERASE leaves its lane and waits, and a key generation
dispatched for that slot will find it erased (08 R190). -/
def Obligations.KeyOperations : Prop :=
  ∀ (s : State) (l : Nat) (e : Entry),
    let b := s.blk
    let runs := fun (op : Nat) => b.WorksOn (b.lane l).job Fam.key op e
    let src := b.input e
    let i := e.d.k1.slot
    (runs 1 → b.gander.masterKey = none → Computes s (.keyImport l) e { status := 0x80, detail := 2 }) ∧
    (∀ mk f, runs 1 → b.gander.masterKey = some mk → KeyBlock.unwrap (kekOf mk e.part) src = .error f → f.1 = 0x23 →
      Computes s (.keyImport l) e { status := 0x23, detail := f.2 }) ∧
    (∀ mk h key words, runs 1 → b.gander.masterKey = some mk → KeyBlock.unwrap (kekOf mk e.part) src = .ok (h, key) →
      h.attrFault key.length = none → b.ownFault e.part i h.usage = none → (h.codes key.length).headD 0 ≠ 0x20 →
      KeyBlock.importWords h ((h.codes key.length).headD 0) key.length = some words → b.chainFault i (chainSlots (key.length, 0)) = none →
      KeyBlock.keyInRange ((h.codes key.length).headD 0) key [] = true → ∃ r, Computes s (.keyImport l) e { key := some (i, r) } ∧
        r.st = .live ∧ r.secret = key ∧ r.pub = [] ∧ r.code = (h.codes key.length).headD 0 ∧ r.usage = h.usage ∧ r.mode = h.mode ∧
        r.exportc = h.exportc ∧ r.kvn = h.kvn ∧ r.chain = chainSlots (key.length, 0)) ∧
    (runs 2 → ∃ t r, exec (.keyExport l) s = .next t ∧ t.blk.entry? e.ring e.sub = some { e with res := some r } ∧
      (bit e.d.param 32 = false → b.gander.masterKey = none → r = { status := 0x80, detail := 2 }) ∧
      t = { s with blk := { b with entries := t.blk.entries, free := b.free + 5 } }) ∧
    (∀ x, runs 3 → b.attrPlan e 0 e.d.k1 false = .ok x →
      (KeyBlock.drawn x.slotRec.code = false → Computes s (.keyGenerate l) e { key := some (i, x.slotRec) }) ∧
      (KeyBlock.drawn x.slotRec.code = true → x.slotRec.code ≠ 0x60 → x.len ≤ e.rnd.length →
        Computes s (.keyGenerate l) e { key := some (i, filled x.slotRec (e.rnd.take x.len) []) })) ∧
    (∀ x, runs 4 → b.attrPlan e 1 e.d.k2 true = .ok x → Computes s (.keyDerive l) e
      { key := some (e.d.k2.slot, filled x.slotRec (Modes.kdf e.d.var e.key1.slotRec.secret src (8 * x.len)) []) }) ∧
    (runs 5 → (b.slot i).st = .empty → Computes s (.keyErase l) e {}) ∧
    (runs 5 → (b.slot i).st = .reserved → Computes s (.keyErase l) e { key := some (i, { chain := (b.slot i).chain, gen := (b.slot i).gen }) }) ∧
    (runs 5 → (b.slot i).st = .live → (b.lane l).jobMism = none → ∃ t, exec (.keyErase l) s = .next t ∧
      (∀ n, n < max (b.slot i).chain 1 → (t.blk.slot (i + n)).st = .draining ∧ (t.blk.slot (i + n)).refs = (b.slot (i + n)).refs) ∧
      (∀ n, n < i ∨ i + max (b.slot i).chain 1 ≤ n → t.blk.slot n = b.slot n) ∧
      t.blk.keys.drains = b.keys.drains ++ [(i, e.ring, e.sub)] ∧ t.blk.lane l = (b.lane l).freed b.time.interval ∧
      (∀ k sub, t.blk.entry? k sub = (b.entry? k sub).map fun x =>
        if k = e.ring ∧ sub = e.sub then { x with used := some (b.usedBy x) }
        else if x.wasDispatched ∧ x.d.generatesInto = some i then { x with erased := true } else x) ∧
      t = { s with blk := { b with lanes := { b.lanes with units := t.blk.lanes.units }, entries := t.blk.entries
                                   keys := { b.keys with slots := t.blk.keys.slots, drains := t.blk.keys.drains } } }) ∧
    (runs 6 → Computes s (.keyQuery l) e { out := b.attributeRecord i })

/-- The key lane pair and the slots (07 R154, 10 R215, R220 to R222): with both key lanes idle a lane that did not serve the last request takes
the first that may go; a chain is written with the head's next generation, which wraps from 0xFFFF to 1, its references kept, continuations marked
and the surplus slots of a longer old chain emptied; a drain ends when no reference is left: every slot of the chain becomes EMPTY, its generation
kept. -/
def Obligations.KeySlots : Prop :=
  (∀ (s : State) (l m k : Nat) (sub : Index) (i : QItem) (e : Entry),
    let b := s.blk
    b.keys.queue.find? b.keyReady = some i → i.job = .entry k sub → i.retry = false → i.excluded = [] → b.entry? k sub = some e →
    e.stage = .queued → e.dispatchedAt = none → e.refsHeld = false → b.keyLanes = [l, m] → l ≠ m → (b.lane l).job = none →
    (b.lane m).job = none → (b.lane l).role = .key → (b.lane l).hasMasks (b.keyMasks i) = true → b.keys.lastLane ≠ l →
    b.lateLength e = none → b.keyOpFault e = none → ∃ t, exec .keyLaneDispatch s = .next t ∧
      t.blk.entry? k sub = some { e with stage := .dispatched, engine := l, dispatchedAt := some b.time.interval, res := none
                                         keys := b.keyOpCopies e, refsHeld := true, ctx := none } ∧
      (t.blk.lane l).job = some i.job ∧ (t.blk.lane l).startedAt = b.time.interval ∧ (∀ x, x ≠ l → t.blk.lane x = b.lane x) ∧
      (∀ y ∈ t.blk.keys.queue, y.job ≠ i.job) ∧ t.blk.keys.lastLane = l) ∧
  (∀ (b : Block) (head : Nat) (r : SlotRec), 1 ≤ r.chain →
    let old := b.slot head
    let length := if old.st = .live ∨ old.st = .reserved then old.chain else 0
    let b' := b.writeChain head r
    b'.slot head = { r with gen := (if old.gen % 65536 = 65535 then 1 else old.gen % 65536 + 1), refs := old.refs, head := 0 } ∧
    (∀ n, 1 ≤ n → n < r.chain → b'.slot (head + n) = { st := .continuation, gen := (b.slot (head + n)).gen, head := head }) ∧
    (∀ n, r.chain ≤ n → n < length → b'.slot (head + n) = { gen := (b.slot (head + n)).gen }) ∧
    (∀ n, n < head ∨ head + max r.chain length ≤ n → b'.slot n = b.slot n) ∧
    b' = { b with keys := { b.keys with slots := b'.keys.slots } }) ∧
  (∀ (s : State) (head : Nat), (s.blk.slot head).st = .draining → (s.blk.slot head).chain ≠ 0 → (s.blk.slot head).refs = 0 →
    (∀ d ∈ s.blk.keys.drains, d.1 ≠ head) → ∃ t, exec (.eraseDrainEnd head) s = .next t ∧
      (∀ n, n < (s.blk.slot head).chain → t.blk.slot (head + n) = { gen := (s.blk.slot (head + n)).gen }) ∧
      (∀ n, n < head ∨ head + (s.blk.slot head).chain ≤ n → t.blk.slot n = s.blk.slot n) ∧
      t = { s with blk := { s.blk with keys := { s.blk.keys with slots := t.blk.keys.slots } } })

/-- Challenges, custodians and the master-key ceremony (16 R361 to R365): CHALLENGE gives the serial, LOCK_SEQ and a fresh nonce, which one
dual-control operation consumes; UNLOCK, ENROL and REVOKE without a nonce fail with detail 0x0E and, with the signatures they need, clear the latches (UNLOCK, which without a master key enters ZEROIZED, where every key-management lock is
released), enrol and revoke; MK_BEGIN opens a ceremony for M from 2 to 8; an accepted share is counted, and the M-th whose key check value agrees installs
the key; nonce and ceremony expire. -/
def Obligations.DualControl : Prop :=
  ∀ (s : State) (l : Nat) (e : Entry),
    let b := s.blk
    let g := b.gander
    let now := b.time.interval
    let runs := fun (op : Nat) => b.WorksOn (b.lane l).job Fam.key op e
    let src := b.input e
    let gives := fun (t : State) (r : Result) => t.blk.entry? e.ring e.sub = some { e with res := some r } ∧
      t = { s with blk := { b with entries := t.blk.entries, gander := t.blk.gander, mode := t.blk.mode, recorder := t.blk.recorder
                                   free := t.blk.free } }
    let signed := fun (n : Bytes) (purpose : Nat) (subject : Bytes) => dualMessage purpose s.fuses.serial g.lockSeq n subject
    (runs 0x30 → 32 ≤ e.rnd.length → ∃ t, exec (.challenge l) s = .next t ∧
      gives t { out := toBE 8 s.fuses.serial.toNat ++ toBE 4 g.lockSeq.toNat ++ zeros 4 ++ e.rnd.take 32 } ∧
      t.blk.gander = { g with nonce := some (e.rnd.take 32, now) } ∧ t.blk.mode = b.mode) ∧
    (∀ x ∈ [((0x31 : Nat), Instr.unlock l), (0x32, .enrol l), (0x33, .revoke l)], runs x.1 → g.openNonce now = none → ∃ t,
      exec x.2 s = .next t ∧ gives t { status := 0x22, detail := 0x0E } ∧ t.blk.gander = g ∧ t.blk.mode = b.mode) ∧
    (∀ n, g.openNonce now = some n →
      (runs 0x31 → g.threatened s.fuses = false → b.recorder.copy.reserveLock = false →
        g.signFault (sigRecords 2 src) none none (signed n 1 (zeros 32)) = none → ∃ t, exec (.unlock l) s = .next t ∧
          t.blk.entry? e.ring e.sub = some { e with res := some {} } ∧
          t.blk.gander = { g with lockLatch := false, eraseLatch := false, nonce := none } ∧
          t.blk.mode = { b.mode with mode := if g.masterKey.isSome then .operational else .zeroized } ∧
          (∀ p, t.blk.part p = if g.masterKey = none ∧ p ∈ b.partitions
            then { b.part p with lock := { (b.part p).lock with held := false, holder := 0 } } else b.part p) ∧
          t = { s with blk := { b with entries := t.blk.entries, gander := t.blk.gander, mode := t.blk.mode, recorder := t.blk.recorder
                                       free := t.blk.free, parts := t.blk.parts } }) ∧
      (∀ i c own, runs 0x32 → enrolmentOf e.aux = (i, c) → i < 8 → (g.custodian i).enrolled = false → g.knows c = false →
        (sigRecords (src.length / 4736) src).reverse.find? (fun r => r.index == i) = some own →
        g.signFault (eraseFirst (fun r => r.index == i) (sigRecords (src.length / 4736) src).reverse).reverse none (some (own, c))
          (signed n 2 (Hash.hash .sha3_256 e.aux)) = none → ∃ t, exec (.enrol l) s = .next t ∧ gives t {} ∧
          t.blk.gander = { g with cust := g.cust.set i c, nonce := none } ∧ t.blk.mode = b.mode) ∧
      (∀ i, runs 0x33 → i = ofLE (e.aux.take 1) → (g.custodian i).enrolled = true → 3 ≤ g.enrolled →
        g.signFault (sigRecords 2 src) (some i) none (signed n 3 (Hash.hash .sha3_256 e.aux)) = none → ∃ t, exec (.revoke l) s = .next t ∧
          gives t {} ∧ t.blk.gander = { g with cust := g.cust.set i {}, nonce := none } ∧ t.blk.mode = b.mode)) ∧
    (runs 0x34 → field e.d.param 3 0 < 2 ∨ 8 < field e.d.param 3 0 → Computes s (.mkBegin l) e { status := 0x22, detail := 0x0B }) ∧
    (∀ d, runs 0x34 → 2 ≤ field e.d.param 3 0 → field e.d.param 3 0 ≤ 8 → 144 ≤ e.rnd.length →
      Ec.scalarOf Ec.p384 (e.rnd.drop (e.rnd.length - 48)) = some d → ∃ t r c, exec (.mkBegin l) s = .next t ∧ gives t r ∧
        r.out.take 48 = toBE 8 s.fuses.serial.toNat ++ toBE 4 g.lockSeq.toNat ++ zeros 4 ++ e.rnd.take 32 ∧
        t.blk.gander = { g with ceremony := some c } ∧ c.m = field e.d.param 3 0 ∧ c.nonce = e.rnd.take 32 ∧ c.kcv = e.aux.take 5 ∧
        c.scalar = d ∧ c.shares = [] ∧ c.opened = now) ∧
    (runs 0x35 → g.openCeremony now = none → Computes s (.mkShare l) e { status := 0x22, detail := 0x0B }) ∧
    (∀ c x, runs 0x35 → g.openCeremony now = some c → Block.shareOf s.fuses b c src = .ok x →
      let shares := c.shares ++ [x]
      let key := recoverSecret (shares.map (·.2))
      (shares.length < c.m → ∃ t, exec (.mkShare l) s = .next t ∧ gives t { result := BitVec.ofNat 64 (shares.length + 256 * c.m) } ∧
        t.blk.gander = { g with ceremony := some { c with shares } } ∧ t.blk.mode = b.mode) ∧
      (c.m ≤ shares.length → Pay.kcv 1 5 key = c.kcv → ∃ t, exec (.mkShare l) s = .next t ∧
        gives t { result := BitVec.ofNat 64 (shares.length + 256 * c.m) } ∧ t.blk.gander.masterKey = some key ∧
        t.blk.gander.ceremony = none ∧ t.blk.gander.mkInstalled = true ∧ t.blk.gander.bootstrap = false ∧ t.blk.mode.mode = .operational) ∧
      (c.m ≤ shares.length → Pay.kcv 1 5 key ≠ c.kcv → ∃ t, exec (.mkShare l) s = .next t ∧ gives t { status := 0x23, detail := 0x0A } ∧
        t.blk.gander = { g with ceremony := none } ∧ t.blk.mode = b.mode)) ∧
    (∀ n at_, g.nonce = some (n, at_) → at_ + 600000000 ≤ now →
      exec .nonceExpiry s = .next { s with blk := { b with gander := { g with nonce := none } } }) ∧
    (∀ c, g.ceremony = some c → c.opened + 3600000000 ≤ now →
      exec .ceremonyExpiry s = .next { s with blk := { b with gander := { g with ceremony := none } } })


/-! ## Randomness (15) -/

/-- Start-up of HEN (15 R338 to R340, R343): warm-up leads to the start-up tests; outputs that pass instantiate the sixteen instances, two
each, with the personalisation string of serial, instance and warm-reset count, and fill the pool; the seeds then given, every lane and unit is seeded
and HEN runs; a failed test stops it. A conditioned output is the SHA3-256 of 2,048 tested bits; an alarm is counted, and the fourth in 1 ms stops
HEN. -/
def Obligations.EntropySource : Prop :=
  ∀ (s : State),
    let b := s.blk
    let h := b.hen
    let now := b.time.interval
    let becomes := fun (c : Instr) (h' : Hen) => exec c s = .next { s with blk := { b with hen := h' } }
    (h.phase = .warmup → becomes .henWarmupEnd { h with phase := .testing, phaseAt := now }) ∧
    (∀ raw source, h.phase = .testing → 32 ≤ raw.length → (∀ x ∈ raw, x.length = 256) → ∃ h', becomes (.henStartupTestEnd 0 source raw) h' ∧
      h'.phase = .seeding ∧ h'.phaseAt = now ∧ h'.insts.length = 16 ∧ h'.waiting = h.waiting ∧
      h'.pool = ((raw.map (Hash.hash .sha3_256)).drop 32).take 64 ∧
      ∀ i, i < 16 → nth {} h'.insts i = Drbg.instantiate s.fuses.serial.toNat i b.mode.warmCount now
        ((Hash.hash .sha3_256 (nth [] raw (2 * i)) ++ Hash.hash .sha3_256 (nth [] raw (2 * i + 1))).take 48)) ∧
    (∀ raw source test, h.phase = .testing → test ≠ 0 → exec (.henStartupTestEnd test source raw) s =
      .next { s with blk := Block.stopHen s.fuses b (source % 2) (test % 4) }) ∧
    (h.phase = .seeding → ∃ t, exec .henSeeded s = .next t ∧ t.blk.hen.phase = .running ∧ t.blk.hen.phaseAt = now ∧
      t.blk.mode = { b.mode with henSeeded := true, bootStep := max 3 b.mode.bootStep } ∧
      (∀ x ∈ t.blk.gander.seeds, x ≠ 0) ∧ (∀ l, l < 112 → (t.blk.lane l).seeded = true ∧ (t.blk.lane l).blocks = 0) ∧
      (∀ u, 112 ≤ u → u < 188 → (t.blk.mathUnit u).seeded = true ∧ (t.blk.mathUnit u).jobs = 0)) ∧
    (∀ raw : Bytes, h.tests = true → h.testEn = false → raw.length = 256 → h.pool.length < 64 → h.lastOut ≠ Hash.hash .sha3_256 raw →
      becomes (.conditionerOutput raw) { h with lastOut := Hash.hash .sha3_256 raw, pool := h.pool ++ [Hash.hash .sha3_256 raw] }) ∧
    (∀ test, 1 ≤ test → test ≤ 2 → h.tests = true → h.testEn = false → h.phase ≠ .testing →
      let recent := h.alarms0.filter fun t => decide (now < t + 1000)
      (recent.length < 3 → ∃ t, exec (.henHealthAlarm 0 test) s = .next t ∧
        t.blk.hen = { h with
          alarms0 := now :: recent
          rct0 := if test = 1 then min (h.rct0 + 1) (2 ^ 16 - 1) else h.rct0
          apt0 := if test = 1 then h.apt0 else min (h.apt0 + 1) (2 ^ 16 - 1) } ∧
        t = { s with blk := { b with hen := t.blk.hen, recorder := t.blk.recorder } }) ∧
      (3 ≤ recent.length → exec (.henHealthAlarm 0 test) s = .next { s with blk := Block.stopHen s.fuses (b.countAlarm 0 test) 0 test }))

/-- The generator (15 R340 to R342, R346, R347, SP 800-90A): a request of n bytes gives n bytes of AES-256 in counter mode after V and updates the
instance; an instance whose deadline has passed must reseed; an RNG descriptor goes to the instance idle longest, which serves its bytes in requests
of at most 65,536; a read of the register port takes 4 bytes, or 0 with RNG_EMPTY; the test register accepts writes in FACTORY alone. -/
def Obligations.RandomGenerator : Prop :=
  ∀ (s : State) (k : Nat) (i : Index) (e : Entry),
    let b := s.blk
    let h := b.hen
    let now := b.time.interval
    (∀ inst r, b.nextDraw inst = some r → h.phase = .running → inst < h.insts.length → r.who = .entry k i → r.more = 0 → r.pr = false →
      0 < r.bytes → b.entry? k i = some e → e.d.family ≠ Fam.rng →
      let d := nth {} h.insts inst
      d.seeded = true → d.key.length = 32 → d.requests < 2 ^ 20 → d.reseedDue = false → now < d.reseedAt + 10000 → ∃ t, exec (.drbgRequestDone inst) s = .next t ∧
        t.blk.entry? k i = some { e with rnd := e.rnd ++ (d.generate r.bytes).1, asked := false } ∧
        t.blk.hen.insts = h.insts.set inst { (d.generate r.bytes).2 with idleSince := now } ∧
        (d.generate r.bytes).1.length = r.bytes ∧ (d.generate r.bytes).2.requests = d.requests + 1 ∧
        t = { s with blk := { b with entries := t.blk.entries, hen := { h with insts := t.blk.hen.insts, waiting := t.blk.hen.waiting } } }) ∧
    (∀ inst, (nth {} h.insts inst).seeded = true → (nth {} h.insts inst).reseedAt + 10000 ≤ now → exec (.drbgReseedDeadline inst) s =
      .next { s with blk := { b with hen := { h with insts := h.insts.set inst { nth {} h.insts inst with reseedDue := true, byDeadline := true } } } }) ∧
    (∀ op c, (op = 1 ∧ c = Instr.rngGenerate k i ∧ 0 < e.d.dstLen) ∨ (op = 2 ∧ c = Instr.generatePr k i) → b.entry? k i = some e →
      e.d.family = Fam.rng → e.d.op = op → e.stage = .queued → b.ordered e = true → h.phase ≠ .stopped → h.testEn = false →
      ∃ t inst, exec c s = .next t ∧ inst < 16 ∧ (∀ j, j < 16 → (nth {} h.insts inst).idleSince ≤ (nth {} h.insts j).idleSince) ∧
        t.blk.entry? k i = some { e with stage := .dispatched, engine := 0xE0 + inst, dispatchedAt := some now, asked := true } ∧
        t.blk.hen = { h with waiting := h.waiting ++ [{ prio := 4, bytes := min 65536 e.d.dstLen, asked := now, who := .entry k i
                                                        pr := op == 2, inst := some inst, more := e.d.dstLen - min 65536 e.d.dstLen }] } ∧
        t = { s with blk := { b with entries := t.blk.entries, hen := t.blk.hen } }) ∧
    (b.mode.porstLow = false →
      (4 ≤ h.fifo.length → ∃ t, exec (.rngDataRead 0x3008 4 0) s = .next t ∧ t.blk.hen.fifo = h.fifo.drop 4 ∧
        t.blk.sport.lastRead = BitVec.ofNat 64 (ofLE (h.fifo.take 4)) ∧ t.blk.sport.lastOk = true ∧ t.blk.hen.rngEmpty = h.rngEmpty) ∧
      (h.fifo.length < 4 → ∃ t, exec (.rngDataRead 0x3008 4 0) s = .next t ∧ t.blk.hen.fifo = h.fifo ∧ t.blk.sport.lastRead = 0 ∧
        t.blk.hen.rngEmpty = true) ∧
      (∀ data : BitVec 64, b.mode.mode ≠ .factory → exec (.henTestWrite 0 data) s = .next { s with blk := { b.okWrite with hen := { h with
        testRefused := (data.getLsbD 0 || data.getLsbD 1 || data.getLsbD 2 || data.getLsbD 4) || (h.testRefused && !data.getLsbD 8) } } }) ∧
      (∀ data : BitVec 64, b.mode.mode = .factory → data.getLsbD 0 = false → exec (.henTestWrite 0 data) s =
        .next { s with blk := { b.okWrite with hen := { h with testEn := false, sources := data.extractLsb' 1 2, rawSel := data.getLsbD 4
                                                               testRefused := h.testRefused && !data.getLsbD 8 } } }))

/-! ## Raw channels (06 R129 to R137, 12 R281) -/

/-- Raw channels: START of a transfer of up to one chunk without lists reads its source with the channel's partition tag; in a mode that copies
nothing, or while BUSY, it sets START_REFUSED; the chunk that comes back is written; each write accepted takes its bytes off COUNT, and when the
last one of the transfer is accepted the line of its last byte is read back; the read-back completes the channel with DONE and COUNT 0; DISABLE stops
a transfer, its registers undefined and the fields written with it discarded, and the last of its responses frees the channel; lists that fail a test end it with their cause; a firmware
channel starts the block that waits first. -/
def Obligations.RawChannels : Prop :=
  ∀ (s : State) (ch : Nat) (data : BitVec 64), ch < 48 → s.blk.mode.porstLow = false →
    let b := s.blk
    let c := b.chan ch
    let d := (data ||| 1).toNat
    let only := fun (t : State) => (∀ j, j ≠ ch → t.blk.chan j = b.chan j) ∧
      t = { s with blk := { b with sport := t.blk.sport, mule := t.blk.mule, mport := t.blk.mport, bus := t.blk.bus, free := t.blk.free } }
    let part := field d 43 32
    (c.run = none → b.mode.mode.copies = true → c.removed = false → data.getLsbD 1 = false → bit d 2 = false → bit d 3 = false →
      field d 6 4 = 0 → bit d 8 = false → b.enabled part = true → 0 < c.count.toNat → c.count.toNat ≤ 4096 →
      c.src.toNat + c.count.toNat ≤ 2 ^ 64 → c.dst.toNat + c.count.toNat ≤ 2 ^ 64 → ∃ t, exec (.muleStart ch 0 data) s = .next t ∧ only t ∧
        t.blk.bus = b.bus ++ ((pieces c.src.toNat c.count.toNat).map fun x => .read b.pickPort part 0xFFFF false x.1 x.2) ∧
        (t.blk.chan ch).done = false ∧ (t.blk.chan ch).err = false ∧ (t.blk.chan ch).part = part ∧ (t.blk.chan ch).count = c.count ∧
        (t.blk.chan ch).run = some { src := c.src.toNat, dst := c.dst.toNat, count := c.count.toNat, listsRead := true, asked := [0] }) ∧
    (data.getLsbD 1 = false → (c.run.isSome = true ∨ b.mode.mode.copies = false ∨ c.removed = true) → ∃ t,
      exec (.muleStart ch 0 data) s = .next t ∧ only t ∧ t.blk.bus = b.bus ∧ (t.blk.chan ch).startRefused = true ∧
      (t.blk.chan ch).run = c.run) ∧
    (∀ (r : ChanRun) (bs : Bytes), c.run = some r → r.stopped = false → r.readback = false → r.srcSel = 0 → r.dstSel = 0 → r.srcList = [] →
      r.dstList = [] → r.asked = [0] → r.got = [] → r.written = [] → r.count = bs.length → 0 < bs.length → bs.length ≤ 4096 → c.swap = 0 →
      b.awaits (.chanRead ch 0) = true → ∃ t, exec (.chunkReadReturn ch 0 bs) s = .next t ∧ only t ∧
        t.blk.bus = b.bus ++ ((pieces r.dst bs.length).map fun x => .write c.port c.part 0xFFFF x.1 false (slice (x.1 - r.dst) x.2 bs)) ∧
        (t.blk.chan ch).count = c.count ∧
        (t.blk.chan ch).run = some { r with got := [(0, bs)], written := [0], lastWrite := r.dst + bs.length - 1 }) ∧
    (∀ (req : Nat) (q : Request) (m : Nat) (r : ChanRun), b.mport.outst.find? (fun x => x.id == req) = some q → q.kind = .write →
      q.purpose = .chanWrite ch m → c.run = some r →
      (r.stopped = false → (∃ x ∈ b.mport.outst, x.id ≠ req ∧ ∃ k, x.purpose = .chanWrite ch k) → ∃ t,
        exec (.writeResponse q.port req) s = .next t ∧ only t ∧ t.blk.bus = b.bus ∧ t.blk.chan ch = { c with count := c.count - BitVec.ofNat 32 q.len }) ∧
      (r.stopped = false → r.readback = false → r.written.length = r.chunkCount → r.dstSel = 0 → r.count ≠ 0 →
        (∀ x ∈ b.mport.outst, x.id ≠ req → ∀ k, x.purpose ≠ .chanWrite ch k) → ∃ t, exec (.writeResponse q.port req) s = .next t ∧ only t ∧
          t.blk.bus = b.bus ++ [.read c.port c.part 0xFFFF false (r.lastWrite / 64 * 64) 64] ∧ t.blk.awaits (.chanReadback ch) = true ∧
          t.blk.chan ch = { c with count := c.count - BitVec.ofNat 32 q.len, run := some { r with readback := true } }) ∧
      (r.stopped = true → (∀ x ∈ b.mport.outst, x.id ≠ req → x.purpose.ofChan ch = false) → ∃ t, exec (.writeResponse q.port req) s = .next t ∧
        only t ∧ t.blk.bus = b.bus ∧ t.blk.chan ch = { c with run := none })) ∧
    (∀ r, c.run = some r → r.stopped = false → b.awaits (.chanReadback ch) = true → c.irqEn = false → ∃ t, exec (.channelDone ch) s = .next t ∧
      only t ∧ t.blk.bus = b.bus ∧ t.blk.chan ch = { c with done := true, count := 0, run := none }) ∧
    (∀ r, c.run = some r → r.stopped = false → ∃ t, exec (.muleDisable ch 0 data) s = .next t ∧ only t ∧ t.blk.bus = b.bus ∧
      (t.blk.chan ch).disabled = true ∧ (t.blk.chan ch).busyWrite = true ∧ (t.blk.chan ch).src = Config.undefinedReg b.free 0 ∧
      (t.blk.chan ch).run = if b.mport.outst.any fun q => q.purpose.ofChan ch then some { r with stopped := true } else none) ∧
    (∀ r srcL dstL cause a, c.run = some r → r.stopped = false → r.listsRead = false → b.awaits (.chanSrcList ch) = true →
      listsFault ((if c.srcSg then [(r.src, srcL)] else []) ++ (if c.dstSg then [(r.dst, dstL)] else [])) r.count = some (cause, a) →
      cause ≠ 7 → ∃ t, exec (.channelListReadReturn ch srcL dstL) s = .next t ∧ only t ∧ t.blk.bus = b.bus ∧
        (t.blk.chan ch).err = true ∧ (t.blk.chan ch).cause = cause ∧ (t.blk.chan ch).errAddr = a ∧ (t.blk.chan ch).run = none) ∧
    (∀ r srcL, c.run = some r → r.stopped = false → r.listsRead = false → c.srcSg = true → c.dstSg = false →
      b.awaits (.chanSrcList ch) = true → r.dstSel = 0 → listsFault [(r.src, srcL)] r.count = none → r.dst + r.count ≤ 2 ^ 64 →
      let b' := (b.arrived (.chanSrcList ch)).arrived (.chanDstList ch)
      let l := ((listToEnd (listEntries srcL)).getD []).map fun e => (e.1, e.2.1)
      exec (.channelListReadReturn ch srcL []) s =
        .next { s with blk := (b'.modRun ch fun r => { r with listsRead := true, srcList := l, dstList := [] }).startChunks ch }) ∧
    (∀ u x blk rest, (b.core u).blocks = (x, blk) :: rest → (b.core u).busy = false → b.inService (188 + u) = true →
      (b.chan (b.fwChan u)).run = none → b.mode.mode.copies = true →
      let f := sidesOf blk
      let b' := (b.modCore u fun k => { k with busy := true }).modChan (b.fwChan u) fun y => { y with
        src := BitVec.ofNat 64 f.src, dst := BitVec.ofNat 64 f.dst, count := BitVec.ofNat 32 f.count
        srcSg := f.srcSg, dstSg := f.dstSg, swap := f.swap, irqEn := false, part := (b.cx u x).part }
      exec (.channelBlockStart (188 + u)) s = .next { s with blk := b'.startChan (b.fwChan u) f.srcSel f.dstSel })


/-! ## Resets, boot and structure images (02 R47, 03 R51 to R63, 13 R304 to R307) -/

/-- Resets (02 R47, 03 R61, 13 R304, R305): PORST_N low brings every part of the compute die to its reset values, while fuses, sentinel configuration,
master key, recorder contents and the interval clock stay; its release begins the boot and counts a power cycle; a warm reset that has drained, every response in, keeps the schedule tick with
SYNCED, the image address and the early-write counts, and counts itself. -/
def Obligations.Resets : Prop :=
  ∀ (s : State),
    let b := s.blk
    let first : Mode := if s.fuses.factoryOpen then .factory else .configure
    let cleared := fun (t : State) => t.pending = s.pending ∧ t.fuses = s.fuses ∧ t.blk.rings = [] ∧ t.blk.entries = [] ∧ t.blk.ctxs = [] ∧
      t.blk.lanes = {} ∧ t.blk.ox = {} ∧ t.blk.lat = {} ∧ t.blk.keys = {} ∧ t.blk.pay = {} ∧ t.blk.mule = [] ∧ t.blk.irq = [] ∧
      t.blk.hen = {} ∧ t.blk.store = {} ∧ t.blk.sched = {} ∧ t.blk.power = {} ∧ t.blk.sport = {} ∧ t.blk.ownerWrites = [] ∧
      t.blk.time.interval = b.time.interval ∧ t.blk.time.timeValid = false ∧ t.blk.gander = { b.gander with nonce := none, ceremony := none } ∧
      t.blk.recorder.copy = b.recorder.copy ∧ t.blk.img.inForce = {} ∧ t.blk.mport.outst = [] ∧ t.blk.mode.ready = false ∧
      (∀ u, (t.blk.unit u).st = .spare ∨ (t.blk.unit u).st = .retired)
    (b.mode.porstLow = false → ∃ t, exec .porstAssert s = .next t ∧ cleared t ∧ t.blk.mode.porstLow = true ∧ t.blk.time.sched = 0 ∧
      t.blk.time.synced = false ∧ t.blk.parts = [] ∧ t.blk.earlyWrites = [] ∧ t.blk.img = {} ∧ t.blk.mode.mode = first) ∧
    (b.mode.porstLow = true → ∃ t, exec .resetRelease s = .next t ∧ t.blk.mode = { mode := first, releasedAt := b.time.interval } ∧
      t.blk.recorder.copy.powerCycles = min (b.recorder.copy.powerCycles + 1) (2 ^ 32 - 1) ∧
      t = { s with blk := { b with mode := t.blk.mode, gander := t.blk.gander, recorder := t.blk.recorder } }) ∧
    (∀ t0, b.mode.warm = some (false, t0) → b.entries = [] → b.mport.outst = [] →
      (∀ x ∈ b.rings, x.2.burst = none ∧ x.2.held = [] ∧ x.2.failedW = [] ∧ x.2.sig = []) → ∃ t,
      exec .warmResetDrainEnd s = .next t ∧ cleared t ∧ t.blk.time.sched = b.time.sched ∧ t.blk.time.synced = b.time.synced ∧ t.blk.earlyWrites = b.earlyWrites ∧
      t.blk.img.addr = b.img.addr ∧ t.blk.mode.warmCount = min (b.mode.warmCount + 1) (2 ^ 16 - 1) ∧ t.blk.mode.mode = first ∧
      t.blk.mode.warm = none ∧ t.blk.img.st = if s.fuses.factoryOpen = false ∧ b.img.addr ≠ 0 then 1 else 0)

/-- Warm and partition resets under way (13 R305 to R308): WARM cuts all work off, ignored while one is in progress; HANDOVER without a paired partition
does the same; a handover that outlasts 2,000 ticks is given up; PART_RESET cuts the partition's work off, refused while a reset is in progress and without effect
on a partition that is not enabled; when nothing of the partition is left, no entry, no response outstanding and no wipe, its rings are DISABLED and
the reset counts; 1,000 ticks into a reset, completions without room are dropped. -/
def Obligations.ResetsUnderWay : Prop :=
  ∀ (s : State) (p tag : Nat),
    let b := s.blk
    let now := b.time.interval
    (b.mode.porstLow = false → b.mode.warm = none → exec (.warm 0) s = .next { s with blk := b.okWrite.cutForWarm }) ∧
    (b.mode.porstLow = false → b.mode.warm.isSome = true → exec (.warm 0) s = .next s.okWrite) ∧
    (b.mode.porstLow = false → b.pairedParts = [] → exec (.handover 0) s = exec (.warm 0) s) ∧
    (∀ t0, b.mode.warm = some (true, t0) →
      (t0 + 2000 ≤ now → exec .warmHandoverTimeout s =
        .next { s with blk := Block.cutForWarm { b with mode := { b.mode with handoverFailed := true } } }) ∧
      (now < t0 + 2000 → exec .warmHandoverTimeout s = .next s)) ∧
    (b.TakesPartWrite p tag → b.enabled p = true → b.forwarding (StateItem.resets p) = false → b.mode.warm = none →
      (b.part p).resetting = none → b.route p = .apply →
      exec (.partReset p tag) s = .next { s with blk := b.okWrite.beginPartReset p }) ∧
    (b.TakesPartWrite p tag → b.enabled p = false → b.forwarding (StateItem.resets p) = false → exec (.partReset p tag) s = .next s.okWrite) ∧
    (b.TakesPartWrite p tag → b.enabled p = true → b.forwarding (StateItem.resets p) = false →
      ((b.part p).resetting.isSome = true ∨ b.mode.warm.isSome = true) → ∃ t, exec (.partReset p tag) s = .next t ∧ OnlyPart s t p ∧
      t.blk.part p = { b.part p with resetRefused := true }) ∧
    (∀ t0, (b.part p).resetting = some t0 → (∀ e ∈ b.entries, e.part ≠ p) → (∀ r ∈ b.mport.outst, b.ofReset p r = false) →
      b.resetWipes p = false → (∀ k, b.owner k = some p → (b.ring k).burst = none ∧ (b.ring k).held = [] ∧ (b.ring k).failedW = [] ∧
      (b.ring k).sig = []) → ∃ t, exec (.partitionResetEnd p) s = .next t ∧ (∀ k, b.owner k = some p → (t.blk.ring k).st = .disabled) ∧
        (∀ k, b.owner k ≠ some p → t.blk.ring k = b.ring k) ∧ (∀ q, q ≠ p → t.blk.part q = b.part q) ∧
        t.blk.part p = { b.part p with
          resetting := none, halted := false, haltRing := 0, resets := min ((b.part p).resets + 1) (2 ^ 16 - 1) } ∧
        t = { s with blk := { b with rings := t.blk.rings, parts := t.blk.parts } }) ∧
    (∀ k t0, b.mode.warm = none → b.ownerD k = p → (b.part p).resetting = some t0 → t0 + 1000 ≤ now → (b.ring k).held ≠ [] → ∃ t,
      exec (.abortCompletionDrop k) s = .next t ∧ t.blk.ring k = { b.ring k with
        held := [], failedW := []
        sig := (b.ring k).sig.filter fun x => !(b.ring k).failedW.any fun w => w.purpose == .completion k x.q } ∧
      (∀ j, j ≠ k → t.blk.ring j = b.ring j) ∧
      (t.blk.part p).abortDropped = min ((b.part p).abortDropped + (b.ring k).held.length) (2 ^ 16 - 1) ∧
      t = { s with blk := { b with rings := t.blk.rings, parts := t.blk.parts, entries := t.blk.entries, recorder := t.blk.recorder } })

/-- Boot (03 R53 to R64, 01 R11): a clean BIST puts the advertised number of each unit type in service and begins HEN's warm-up; a unit that
fails it is quarantined; an image load is accepted in CONFIGURE alone (refused by a halted block: the model's choice, log entry 105), fetches its
header once HEN is seeded (with ring pair index 0xFFFF: the model's choice, log entry 106), then the rest in address order, and is staged when every
check passes, rejected or malformed with the reason of the
first that fails, a malformed one halting the block; the fuse counter advances one step at a time; the end of boot puts the image in force and leaves CONFIGURE with READY set, for
LOCKED where a latch is set, OPERATIONAL with a master key and ZEROIZED without, every domain at 1.0 GHz or its lower ceiling; calibration raises every domain to its ceiling. -/
def Obligations.Boot : Prop :=
  ∀ (s : State),
    let b := s.blk
    let i := b.img
    let now := b.time.interval
    (b.mode.porstLow = false → b.mode.bistDone = false → b.mode.bootStep = 1 → (∀ u, (b.unit u).st ≠ .retired ∧ (b.unit u).st ≠ .quarantined) → ∃ t,
      exec (.bistDone []) s = .next t ∧
      (∀ u, u < 274 → (t.blk.unit u).st = if u < 98 ∨ (112 ≤ u ∧ u < 160) ∨ (168 ≤ u ∧ u < 184) ∨ (188 ≤ u ∧ u < 204) ∨
        (206 ≤ u ∧ u < 270) then .inService else .spare) ∧
      (t.blk.lane 96).role = .keyLoading ∧ (t.blk.lane 97).role = .keyLoading ∧ t.blk.mode = { b.mode with bistDone := true, bootStep := 2, wiping := false } ∧
      t.blk.hen = { b.hen with phase := .warmup, phaseAt := now } ∧
      t = { s with blk := { b with health := t.blk.health, lanes := t.blk.lanes, mode := t.blk.mode, hen := t.blk.hen } }) ∧
    (∀ failed, b.mode.porstLow = false → b.mode.bistDone = false → b.mode.bootStep = 1 → (∀ u, (b.unit u).st ≠ .retired ∧ (b.unit u).st ≠ .quarantined) → ∃ t,
      exec (.bistDone failed) s = .next t ∧ t.blk.mode.bistDone = true ∧
      ∀ u, u < 274 → ((t.blk.unit u).st = .quarantined ↔ u ∈ failed) ∧ (u ∉ failed → (t.blk.unit u).st = .inService ∨ (t.blk.unit u).st = .spare)) ∧
    (b.mode.porstLow = false →
      (b.mode.mode = .configure → b.mode.halted = false → i.loading = false → i.addr ≠ 0 → exec (.imageLoadStart 0) s =
        .next { s with blk := { b.okWrite with img := { i with st := 1, reason := 0, faultOff := 0, loads := min (i.loads + 1) (2 ^ 16 - 1) } } }) ∧
      ((b.mode.mode ≠ .configure ∨ b.mode.halted = true ∨ i.loading = true ∨ i.addr = 0) → exec (.imageLoadStart 0) s =
        .next { s with blk := { b.okWrite with img := { i with startRefused := true } } })) ∧
    (i.st = 1 → b.mode.henSeeded = true → ∃ t, exec .imageFetchStart s = .next t ∧ t.blk.img = { i with st := 2 } ∧
      t.blk.mode = { b.mode with bootStep := 4 } ∧
      t.blk.bus = b.bus ++ ((pieces (i.addr.toNat * 64) 256).map fun x => .read b.pickPort 0 0xFFFF false x.1 x.2) ∧
      t = { s with blk := { b with img := t.blk.img, mode := t.blk.mode, mport := t.blk.mport, bus := t.blk.bus } }) ∧
    (∀ bytes, i.st = 2 →
      (∃ t, exec (.imageChecks true bytes) s = .next t ∧ match checkImage s.fuses bytes with
        | .ok () => t.blk.img = { i with
            st := 4, staged := some (imageOf bytes)
            advanceTo := if (imageOf bytes).advance = true ∧ s.fuses.rollback < (imageOf bytes).rollback then
              some ((imageOf bytes).rollback, now + 100) else none } ∧ t.blk.mode = { b.mode with bootStep := 5 } ∧
            t.blk.bus = b.bus ++ ((pieces (i.addr.toNat * 64 + 256) (bytes.length - 256)).map fun x => .read b.pickPort 0 0xFFFF false x.1 x.2) ∧
            t = { s with blk := { b with img := t.blk.img, mode := t.blk.mode, mport := t.blk.mport, bus := t.blk.bus } }
        | .error (reason, off) =>
            (5 ≤ reason ∧ reason ≤ 9 → t.blk.img = { i with st := 6, reason := reason, faultOff := 0, staged := none } ∧
              t.blk.mode = { b.mode with bootStep := 3 }) ∧
            ((2 ≤ reason ∧ reason ≤ 4) ∨ 10 ≤ reason → b.pairedParts = [] → b.entries = [] →
              t.blk.img = { i with st := 7, reason := reason, faultOff := off, staged := none } ∧
              t.blk.mode = { b.mode with halted := true, haltCause := 1 })) ∧
      (∃ t, exec (.imageChecks false bytes) s = .next t ∧ t.blk.img = { i with st := 6, reason := 1, faultOff := 0, staged := none } ∧
        t.blk.mode = { b.mode with bootStep := 3 })) ∧
    (∀ r t0, i.advanceTo = some (r, t0) → t0 ≤ now → s.fuses.rollback < r → exec .fuseAdvanceStep s = .next { s with
      fuses := { s.fuses with rollback := s.fuses.rollback + 1 }
      blk := { b with img := { i with advanceTo := if s.fuses.rollback + 1 < r then some (r, now + 100) else none } } }) ∧
    (∀ image, i.staged = some image → i.st = 4 → i.advanceTo = none → b.mode.mode = .configure → ∃ t, exec .endOfBoot s = .next t ∧
      t.blk.img = { i with st := 5, staged := none, inForce := image, imageId := image.imageId } ∧ t.blk.mode.ready = true ∧
      t.blk.mode.bootStep = 0 ∧ t.blk.mode.imgLoaded = true ∧ (∀ d, d < 140 → nth 0 t.blk.power.freq d = min 10 (b.power.ceilingOf d)) ∧
      t.blk.mode.mode = (if b.gander.lockLatch || b.gander.eraseLatch then .locked else if b.gander.masterKey.isSome then .operational
        else .zeroized)) ∧
    (b.mode.ready = true → b.mode.calDone = false → ∃ t, exec .calDone s = .next t ∧ t.blk.mode = { b.mode with calDone := true } ∧
      (∀ d, d < b.power.freq.length → nth 0 t.blk.power.freq d = if d < 139 then b.power.ceilingOf d else nth 0 b.power.freq d) ∧
      t = { s with blk := { b with mode := t.blk.mode, power := { b.power with freq := t.blk.power.freq } } })

/-- Modes and health (03 R59, R64 to R67): OPERATIONAL and MAINTENANCE change by request and drain, and every other request is refused; a retest
that fails retires its unit, and so does the third quarantine in 24 operating hours, otherwise the unit becomes a spare where its type has
one; a self-test is made once in 10,000,000 ticks (before the other governors of its tick: 01 R26, log entry 113); 16 corrected errors of a bank in 1,000 ticks begin its migration, as an uncorrectable one does; a
migrated bank is quarantined. -/
def Obligations.ModesAndHealth : Prop :=
  ∀ (s : State) (u : Nat),
    let b := s.blk
    let m := b.mode
    let r := b.unit u
    let now := b.time.interval
    let asks := fun (c : Instr) (m' : ModeCtl) => exec c s = .next { s with blk := { b.okWrite with mode := m' } }
    (m.porstLow = false →
      (m.mode = .operational → asks (.requestMaintenance 0) { m with transition := some .maintenance }) ∧
      (m.mode = .maintenance → asks (.requestOperational 0) { m with transition := some .operational }) ∧
      (m.mode ≠ .operational → asks (.requestMaintenance 0) { m with reqRefused := true }) ∧
      (m.mode ≠ .maintenance → asks (.requestOperational 0) { m with reqRefused := true }) ∧
      (∀ n, n ≠ 0 → n ≠ 3 → n ≠ 4 → asks (.modeRequestRefused 0 n) { m with reqRefused := true })) ∧
    (m.mode = .operational → m.transition = some .maintenance → (∀ e ∈ b.entries, e.part = 0) → (∀ x ∈ b.rings, x.2.burst = none) →
      exec .maintenanceDrainEnd s = .next { s with blk := { b with mode := { m with mode := .maintenance, transition := none } } }) ∧
    (m.mode = .maintenance → m.transition = some .operational → b.administering = false →
      exec .operationalReturn s = .next { s with blk := { b with mode := { m with mode := .operational, transition := none } } }) ∧
    (r.st = .quarantined → u < 206 →
      (∃ t, exec (.retestComplete u false) s = .next t ∧ t.blk.unit u = { r with st := .retired } ∧
        t.blk.health.retirements = min (b.health.retirements + 1) (2 ^ 16 - 1) ∧ (∀ v, v ≠ u → t.blk.unit v = b.unit v)) ∧
      (3 ≤ (r.quarantines.filter fun x => decide (b.recorder.copy.opMinutes < x + 24 * 60)).length → ∃ t,
        exec (.retestComplete u true) s = .next t ∧ t.blk.unit u = { r with st := .retired } ∧ (∀ v, v ≠ u → t.blk.unit v = b.unit v)) ∧
      ((b.spares (typeOf u)).isEmpty = false →
        (r.quarantines.filter fun x => decide (b.recorder.copy.opMinutes < x + 24 * 60)).length < 3 → ∃ t,
          exec (.retestComplete u true) s = .next t ∧ t.blk.unit u = { r with st := .spare } ∧
          t.blk.health.retestPass = min (b.health.retestPass + 1) (2 ^ 16 - 1) ∧ (∀ v, v ≠ u → t.blk.unit v = b.unit v))) ∧
    (r.st = .inService → b.idle u = true → r.tested + 10000000 ≤ now → b.governorFree 1 = true → ∃ t, exec (.periodicSelfTest u true) s = .next t ∧
      t.blk.unit u = { r with tested := now } ∧ (∀ v, v ≠ u → t.blk.unit v = b.unit v) ∧
      t = { s with blk := { b with health := { b.health with units := t.blk.health.units } } }) ∧
    (let recent := (u, now) :: b.store.bankErrs.filter fun x => decide (now < x.2 + 1000)
     ∃ t, exec (.storeScrub u true) s = .next t ∧ t.blk.store.corrected = min (b.store.corrected + 1) (2 ^ 32 - 1) ∧
      t.blk.store.bankErrs = recent ∧
      (16 ≤ (recent.filter fun x => x.1 == u).length → b.inService u = true → u ∈ t.blk.store.migrating) ∧
      ((recent.filter fun x => x.1 == u).length < 16 → t.blk.store.migrating = b.store.migrating) ∧
      t = { s with blk := { b with store := t.blk.store } }) ∧
    (∀ k i, b.inService u = true → ∃ t, exec (.storeUncorrectableError u 1 k i) s = .next t ∧
      t.blk.store.uncorrectable = min (b.store.uncorrectable + 1) (2 ^ 16 - 1) ∧ t.blk.store.lastBank = u - 206 ∧
      (t.blk.ctx k).invalid = true ∧ u ∈ t.blk.store.migrating) ∧
    (u ∈ b.store.migrating → exec (.bankMigrationDone u) s =
      .next { s with blk := Block.quarantine { b with store := { b.store with migrating := b.store.migrating.filter (· != u) } } u })


/-! ## The twin (14) -/

/-- The handshake (14 R316, R330, R331, 02 R48): TWIN_ATTACH is refused where a session exists and TWIN_DETACH where no pairing record does;
HELLO_SEND, a HELLO that comes first, and the rekey of a session draw 32 bytes for a nonce; the sides follow the serials; a KEX is taken once; the
CONFIRM of the twin is compared: equal, the session is in place and LOST clears; otherwise the handshake ends with AUTH_FAIL; the link signal
alone changes nothing else. -/
def Obligations.TwinHandshake : Prop :=
  ∀ (s : State) (l : Nat) (e : Entry) (hdr : FrameHdr),
    let b := s.blk
    let t0 := b.twin
    let now := b.time.interval
    let other := t0.session
    let fresh : Handshake := { started := now, serial := s.fuses.serial, asked := true }
    let draws := fun (t : State) => t.blk.hen = { b.hen with
      waiting := (b.hen.waiting.filter fun r => r.who != .handshake) ++ [{ prio := 2, bytes := 32, asked := now, who := .handshake }] }
    let only := fun (t : State) => t = { s with blk := { b with twin := t.blk.twin, hen := t.blk.hen } }
    let open_ := b.mode.porstLow = false ∧ t0.linkUp = true ∧ hdr.crcOk = true ∧ other = none
    (b.WorksOn (b.lane l).job Fam.key 0x20 e → other.isSome = true → Computes s (.twinAttach l) e (.bad St.keyUsage 0xA)) ∧
    (b.WorksOn (b.lane l).job Fam.key 0x20 e → (b.lane l).jobMism = none → other = none → t0.linkUp = false → ∃ t,
      exec (.twinAttach l) s = .next t ∧
      t.blk.twin = { t0 with attach := some (BitVec.ofNat 49 (e.d.param / 32768), e.ring, e.sub), shaken := false } ∧
      (t.blk.lane l).job = none ∧ (∀ m, m ≠ l → t.blk.lane m = b.lane m) ∧
      t.blk.entry? e.ring e.sub = some { e with used := some (b.usedBy e) } ∧
      (∀ k sub, (k, sub) ≠ (e.ring, e.sub) → t.blk.entry? k sub = b.entry? k sub) ∧
      t = { s with blk := { b with twin := t.blk.twin, lanes := t.blk.lanes, entries := t.blk.entries } }) ∧
    (b.WorksOn (b.lane l).job Fam.key 0x21 e → t0.record = false → Computes s (.twinDetach l) e (.bad St.keyUsage 0xA)) ∧
    (let c : Block := { b.parkEntry l e with twin := { t0 with detachEntry := some (e.ring, e.sub) } }
     b.WorksOn (b.lane l).job Fam.key 0x21 e → t0.record = true →
      exec (.twinDetach l) s = .next { s with blk := (c.sendFrame 2 fun _ => .detach).proceedDetach }) ∧
    (other = none → b.mayShake = true → t0.helloDue ≤ now → b.hen.phase ≠ .stopped → ∃ t, exec .helloSend s = .next t ∧ only t ∧ draws t ∧
      t.blk.twin = { t0 with helloDue := now + 1000, hs := some fresh }) ∧
    (now < t0.helloDue → exec .helloSend s = .next s) ∧
    (∀ x, other = some x → t0.hs = none → 2 ^ 32 ≤ x.frames ∨ x.began + 3600000000 ≤ now → b.hen.phase ≠ .stopped → ∃ t,
      exec .sessionRekey s = .next t ∧ only t ∧ draws t ∧ t.blk.twin = { t0 with hs := some { fresh with rekey := true } }) ∧
    (∀ msg, open_ → b.mayShake = true → t0.hs = none → b.hen.phase ≠ .stopped → ∃ t, exec (.hello hdr msg) s = .next t ∧ only t ∧ draws t ∧
      t.blk.twin = { t0 with side := if s.fuses.serial.toNat < msg.serial.toNat then 0 else 1, hs := some { fresh with gotHello := some msg } }) ∧
    (∀ msg, open_ → b.mayShake = false → exec (.hello hdr msg) s = .next s) ∧
    (∀ kem point h, open_ → t0.hs = some h →
      (h.gotHello.isSome = true → h.gotKex = none → exec (.kex hdr kem point) s =
        .next { s with blk := Block.hsRun { b with twin := { t0 with hs := some { h with gotKex := some (kem, point) } } } }) ∧
      (h.gotKex.isSome = true → exec (.kex hdr kem point) s = .next { s with blk := b.hsRun })) ∧
    (∀ h own got ok gk k01 k10 c0 c1 digest, open_ → t0.hs = some h → t0.attach = none → h.ownHello = some own → h.gotHello = some got →
      h.ownKex = some ok → h.gotKex = some gk → h.keys = some (k01, k10, c0, c1) → h.rekey = false →
      digest = transcript t0.side own got ok gk →
      (∃ t, exec (.confirm hdr (Hash.hmac .sha256 (if t0.side = 0 then c1 else c0) digest)) s = .next t ∧
        t.blk.twin = { t0 with
          session := some { k01 := k01, k10 := k10, began := now, ackAt := now }, hs := none, lost := false, serial := got.serial
          sessions := min (t0.sessions + 1) (2 ^ 16 - 1), peer := none, heartbeatDue := now, fill := [], unacked := [], parts := [] }) ∧
      (∀ value, value ≠ Hash.hmac .sha256 (if t0.side = 0 then c1 else c0) digest → ∃ t, exec (.confirm hdr value) s = .next t ∧
        t.blk.twin = { t0 with hs := none, authFail := true })) ∧
    (∀ up, exec (.twLinkUpChange up) s = .next { s with blk := { b with twin := { t0 with linkUp := up } } })

/-- Frames of a session (14 R314 to R318, R321, R327, R332, R333): a frame whose CRC fails is counted and discarded, and one whose SEQ is not the
next is discarded; a HEARTBEAT restarts the loss timer; a FAULT_NOTICE and 100 ticks of silence lose the twin, whereupon a partition at home
renews its lease and a shadow watches it; a COMMIT is applied as completions at Q, parts of a split entry held, and acknowledged; an acknowledged frame
releases its completions; forwarded outcomes stop a ring or replace its recorded doorbell on the side that does not execute it; copied state makes
a SYNC_TARGET, and SYNC_DONE its SHADOW; the frames this block sends take the next SEQ. -/
def Obligations.TwinFrames : Prop :=
  ∀ (s : State) (x : Session) (hdr : FrameHdr) (p : Nat),
    let b := s.blk
    let t0 := b.twin
    let now := b.time.interval
    let c : Block := { b with twin := { t0 with session := some { x with seqIn := x.seqIn + 1 } } }
    let sent := fun (y : Session) (words : Nat) => { y with
      seqOut := y.seqOut + 1, frames := y.frames + 1, replay := y.replay ++ [(y.seqOut, words)]
      ackAt := if y.replay.isEmpty then now else y.ackAt }
    let frames : List Instr := [.faultNotice hdr 1 [p], .commitAck hdr [0], .syncDone hdr p, .handoverBegin hdr p, .detach hdr]
    t0.session = some x →
    (x.replay ≠ [] → x.ackAt + 4 ≤ now → exec .replayTimeout s = .next { s with blk := { b with
      bus := b.bus ++ [.replay x.acked]
      twin := { t0 with replays := min (t0.replays + 1) (2 ^ 16 - 1), session := some { x with ackAt := now } } } }) ∧
    (now < x.ackAt + 4 → exec .replayTimeout s = .next s) ∧
    (t0.heartbeatDue ≤ now → exec .heartbeatSend s = .next { s with blk := { b with
      bus := b.bus ++ [.heartbeat { tk := b.time.sched, mode := b.mode.mode.code, avail := b.avail, henStopped := b.hen.phase == .stopped
                                    lost := t0.lost }]
      twin := { t0 with session := some (sent x 3), heartbeatDue := now + 20 } } }) ∧
    (t0.fill = [] → exec .commitFlush s = .next s) ∧
    (t0.fill ≠ [] → ∃ t words, exec .commitFlush s = .next t ∧
      t = { s with blk := { b with bus := b.bus ++ [.commit x.seqOut t0.fill], twin := { t0 with
        session := some (sent x words), fill := []
        unacked := t0.unacked ++ [(x.seqOut, now, (t0.fill.filter fun i => !i.split).map fun i => (i.ring, i.subIndex), false)] } } }) ∧
    (b.lossDue = true → exec .twinLoss s = .next { s with blk := b.twinLost }) ∧
    (b.lossDue = false → exec .twinLoss s = .next s) ∧
    (b.pairedParts = [p] → b.entries = [] → t0.forwarded = [] → t0.attach = none → t0.detaching = false →
      let t := b.twinLost
      t.twin = { t0 with lost := true, lossSeen := true, session := none, hs := none, peer := none, fill := [], unacked := [], parts := [] } ∧
      ((b.part p).tw.role = .home → t.bus = b.bus ++ [.cas 0 p 0xFFFF false (b.leaseAddr p) (b.part p).tw.lease (leaseRenewed (b.part p).tw.lease)] ∧
        (t.part p).tw.atLoss = true ∧ (t.part p).tw.role = .home) ∧
      ((b.part p).tw.role = .shadow → t.bus = b.bus ++ [.read 0 p 0xFFFF false (b.leaseAddr p) 8] ∧ (t.part p).tw.watching = true ∧
        (t.part p).tw.wasShadow = true)) ∧
    (let d := (b.copyOf p).foldl (fun d i => d.sendFrame (SyncItem.words i) fun _ => .syncData i) b
     let seq := match d.twin.session with | some y => y.seqOut | none => 0
     b.toCopy.head? = some p → exec (.syncCopyEnd p) s =
      .next { s with blk := (d.sendFrame 3 fun _ => .syncDone p).modTw p fun t => { t with syncDone := some seq } }) ∧
    (b.toCopy.head? ≠ some p → exec (.syncCopyEnd p) s = .next s) ∧
    (b.mode.porstLow = false → t0.linkUp = true →
      (hdr.crcOk = false → ∀ f ∈ frames, exec f s = .next { s with blk := { b with
        twin := { t0 with crcErr := min (t0.crcErr + 1) (2 ^ 16 - 1) } } }) ∧
      (hdr.crcOk = true → hdr.tagOk = true → hdr.seq.toNat ≠ x.seqIn → ∀ f ∈ frames, exec f s = .next s) ∧
      (hdr.crcOk = true → hdr.tagOk = true → hdr.seq.toNat = x.seqIn → hdr.ack = BitVec.allOnes 64 →
        (∀ msg, (∀ q ∈ b.pairedParts, b.wantsHandover q = false) → exec (.heartbeat hdr msg) s =
          .next { s with blk := { c with twin := { c.twin with hbAge := 0, peer := some msg } } }) ∧
        (∀ cause ps, exec (.faultNotice hdr cause ps) s = .next { s with blk := c.twinLost }) ∧
        (∀ items, let d := (items.foldl Block.takeItem c).sendFrame 3 fun _ => .commitAck [hdr.seq.toNat]
          exec (.commit hdr items) s = .next { s with blk := d }) ∧
        (∀ i : CommitItem, b.ownerD i.ring = p → b.role p = .shadow → t0.parts = [] → i.split = false → i.deltas = [] → ∃ t,
          exec (.commit hdr [i]) s = .next t ∧ t.blk.ring i.ring = (b.ring i.ring).commitEntry i ∧
          (t.blk.ring i.ring).q = i.q + 1 ∧ (∀ j, j ≠ i.ring → t.blk.ring j = b.ring j) ∧
          t.blk.bus = b.bus ++ [.commitAck [hdr.seq.toNat]] ∧
          t = { s with blk := { b with rings := t.blk.rings, bus := t.blk.bus, twin := { t0 with
            session := some (sent { x with seqIn := x.seqIn + 1 } 3) } } }) ∧
        (∀ i : CommitItem, i.split = true → ∃ t, exec (.commit hdr [i]) s = .next t ∧ t.blk.twin.parts = t0.parts ++ [i] ∧
          t.blk.rings = b.rings ∧ t.blk.ctxs = b.ctxs ∧ t.blk.keys = b.keys ∧ t.blk.bus = b.bus ++ [.commitAck [hdr.seq.toNat]]) ∧
        (∀ seqs, (∀ y ∈ b.pairedParts, (b.part y).tw.handover = none) →
          (∀ n at0 ids rest, t0.unacked = (n, at0, ids, false) :: rest → n ∉ seqs →
            let u := t0.unacked.map fun y => (y.1, y.2.1, y.2.2.1, y.2.2.2 || seqs.contains y.1)
            exec (.commitAck hdr seqs) s = .next { s with blk := { c with twin := { c.twin with unacked := u } } }) ∧
          (∀ n at0 a k sub e cpl, t0.unacked = [(n, at0, [(k, sub)], a)] → n ∈ seqs → b.entry? k sub = some e → e.done = some cpl →
            e.stage = .commit → (b.ring k).held = [] →
            let d : Block := { c with twin := { c.twin with unacked := [], commits := min (t0.commits + 1) (2 ^ 32 - 1) } }
            exec (.commitAck hdr seqs) s = .next { s with blk := (d.emit cpl).moveHandovers })) ∧
        (∀ k, b.executes (b.ownerD k) = false →
          (∀ i, exec (.state hdr i) s = .next { s with blk := c.mirrorState i }) ∧
          (∃ t, exec (.state hdr (.stop k)) s = .next t ∧ (∀ j, j ≠ k → t.blk.ring j = b.ring j) ∧
            ((b.ring k).st ≠ .disabled → (t.blk.ring k).st = .stopping) ∧ ((b.ring k).st = .disabled → t.blk.ring k = b.ring k) ∧
            t = { s with blk := { c with rings := t.blk.rings } }) ∧
          (∀ d, ∃ t, exec (.state hdr (.retract k d)) s = .next t ∧ (∀ j, j ≠ k → t.blk.ring j = b.ring j) ∧
            t.blk.ring k = { b.ring k with tw := { (b.ring k).tw with doorbell := d } } ∧ t = { s with blk := { c with rings := t.blk.rings } })) ∧
        (∀ k d, b.executes (b.ownerD k) = true → exec (.state hdr (.retract k d)) s = .next { s with blk := c } ∧
          exec (.state hdr (.stop k)) s = .next { s with blk := c }) ∧
        (∀ item, c.ownerOfItem item = some p → b.paired p = true → b.executes p = false →
          exec (.syncData hdr item) s = .next { s with blk := (c.becomeTarget p).takeCopy item }) ∧
        (∀ item, c.ownerOfItem item = some p → b.executes p = true → exec (.syncData hdr item) s = .next { s with blk := c }) ∧
        (b.role p = .standby → ((c.becomeTarget p).part p).tw.role = .syncTarget) ∧
        (b.role p = .syncTarget → t0.attach = none → ∃ t, exec (.syncDone hdr p) s = .next t ∧ (t.blk.part p).tw.role = .shadow ∧
          (∀ q, q ≠ p → t.blk.part q = b.part q) ∧ t = { s with blk := { c with parts := t.blk.parts } }) ∧
        (b.executes p = true → exec (.syncDone hdr p) s = .next { s with blk := c }) ∧
        exec (.handoverBegin hdr p) s = .next { s with blk := c } ∧
        (t0.record = false → exec (.detach hdr) s = .next { s with blk := c }) ∧
        (t0.record = true → exec (.detach hdr) s = .next { s with blk := c.proceedDetach }) ∧
        (∀ epoch, b.role p ≠ .shadow → exec (.handoverDone hdr p epoch) s = .next { s with blk := c }) ∧
        (∀ epoch, b.role p = .shadow → let d := (c.holdLease p (leaseWord 0 epoch t0.side true false) .home).takeOver p true
          exec (.handoverDone hdr p epoch) s = .next { s with blk := d.settleDetach.settleAttach })))

/-- Leases, handover and release (14 R323 to R329): a renewal swaps in RENEWALS one higher every 500 ticks; the value expected keeps the lease for
another period, another fences the block; a failed swap is repeated; after 700 ticks output stops and after 1,000 the block is fenced; a watched
lease that changes is left alone, and one unchanged for 1,000 ticks is taken with the next EPOCH and this side as HOLDER; the take succeeds where the
old value is the one expected; a handover of 2,000 ticks becomes a release, and a release ends 20 ticks after its start. -/
def Obligations.TwinLeases : Prop :=
  ∀ (s : State) (p : Nat) (w : BitVec 64),
    let b := s.blk
    let tw := (b.part p).tw
    let now := b.time.interval
    let others := fun (t : State) => ∀ q, q ≠ p → t.blk.part q = b.part q
    let swaps := fun (c : Instr) (new : BitVec 64) (tw' : PartTwin) => ∃ t, exec c s = .next t ∧ others t ∧ (t.blk.part p).tw = tw' ∧
      t.blk.bus = b.bus ++ [.cas 0 p 0xFFFF false (b.leaseAddr p) tw.lease new] ∧
      t = { s with blk := { b with parts := t.blk.parts, mport := t.blk.mport, bus := t.blk.bus } }
    let becomes := fun (c : Instr) (tw' : PartTwin) => ∃ t, exec c s = .next t ∧ others t ∧ (t.blk.part p).tw = tw' ∧
      t = { s with blk := { b with parts := t.blk.parts, mport := t.blk.mport } }
    (leaseRenewals (leaseRenewed w) = (leaseRenewals w + 1) % 2 ^ 32 ∧ leaseEpoch (leaseRenewed w) = leaseEpoch w ∧
      leaseHolder (leaseRenewed w) = leaseHolder w ∧ leaseValid (leaseRenewed w) = leaseValid w) ∧
    (b.paired p = true → tw.role.executes = true →
      (tw.offered = none → tw.renewDue ≤ now → swaps (.leaseRenewal p) (leaseRenewed tw.lease)
        { tw with offered := some (leaseRenewed tw.lease), renewDue := now + 500, retryAt := none }) ∧
      (tw.renewedAt + 700 ≤ now → becomes (.leaseOutputStop p) { tw with stopped := true }) ∧
      (now < tw.renewedAt + 700 → exec (.leaseOutputStop p) s = .next s) ∧
      (tw.renewedAt + 1000 ≤ now → exec (.leaseFenced p) s = .next { s with blk := b.fence p }) ∧
      (now < tw.renewedAt + 1000 → exec (.leaseFenced p) s = .next s)) ∧
    (b.paired p = true → tw.offered = some w → b.retryDue p = true → swaps (.leaseRenewalRetry p) w { tw with retryAt := none }) ∧
    (b.awaits (.leaseGive p) = false → b.awaits (.leaseRenew p) = true →
      (tw.stopped = false → tw.atLoss = false → tw.releaseAt = none → tw.handover = none → tw.offered = some w →
        becomes (.leaseRenewalResponse p tw.lease) { tw with lease := w, offered := none, renewedAt := now, retryAt := none }) ∧
      (w ≠ tw.lease → exec (.leaseRenewalResponse p w) s = .next { s with blk := (b.arrived (.leaseRenew p)).fence p })) ∧
    ((b.fence p).twin.fencedSeen = true ∧ ((b.fence p).part p).tw.role = .standby) ∧
    (b.paired p = true → b.awaits (.leaseRead p) = true → tw.watching = true → leaseReleased w = false → leaseValid w = true →
      tw.wasShadow = false →
      (tw.watch = none → becomes (.leaseWatchRead p w) { tw with lease := w, watch := some (w, now, now + 100) }) ∧
      (∀ w0 t0 due, tw.watch = some (w0, t0, due) →
        (w ≠ w0 → becomes (.leaseWatchRead p w) { tw with lease := w, watching := false, watch := none, role := .standby }) ∧
        (w = w0 → now < t0 + 1000 → becomes (.leaseWatchRead p w) { tw with lease := w, watch := some (w, t0, now + 100) }) ∧
        (w = w0 → t0 + 1000 ≤ now → ∃ t, exec (.leaseWatchRead p w) s = .next t ∧ others t ∧
          (t.blk.part p).tw = { tw with lease := w, watching := false, watch := none
                                        offered := some (leaseWord 0 (leaseEpoch w + 1) b.twin.side true false) } ∧
          t.blk.bus = b.bus ++ [.cas 0 p 0xFFFF false (b.leaseAddr p) w (leaseWord 0 (leaseEpoch w + 1) b.twin.side true false)]))) ∧
    (∀ old, b.awaits (.leaseTake p) = true → tw.offered = some w →
      (old ≠ tw.lease → becomes (.leaseTakeResponse p old)
        { tw with role := .standby, lease := old, offered := none, retryAt := none, wasShadow := false }) ∧
      (old = tw.lease → b.liveRings p = [] → b.twin.session = none → b.twin.attach = none → b.twin.detaching = false → ∃ t,
        exec (.leaseTakeResponse p old) s = .next t ∧ others t ∧ (t.blk.part p).tw.role = .solo ∧ (t.blk.part p).tw.lease = w ∧
        (t.blk.part p).tw.renewedAt = now ∧ t.blk.twin = { b.twin with takeovers := min (b.twin.takeovers + 1) (2 ^ 16 - 1) })) ∧
    (∀ t0 x y, tw.handover = some (t0, x, y) →
      (t0 + 2000 ≤ now → exec (.handoverTimeout p) s = .next { s with blk := (b.disown (· == .leaseGive p)).releaseAll [p] 0 }) ∧
      (now < t0 + 2000 → exec (.handoverTimeout p) s = .next s)) ∧
    (∀ t0, tw.releaseAt = some t0 →
      (t0 + 20 ≤ now → exec (.releaseAckWaitEnd p) s = .next { s with blk := (b.endRelease p).settleWarm } ∧
        ((b.endRelease p).part p).tw.role = .standby ∧ ((b.endRelease p).part p).tw.releaseAt = none) ∧
      (now < t0 + 20 → exec (.releaseAckWaitEnd p) s = .next s)) ∧
    (∀ req r, (b.mport.outst.find? fun r => r.id == req) = some r →
      (r.issued + 200 ≤ now → b.role r.part = .home → r.purpose.isWork = true →
        exec (.mportPairedNoResponse req) s = .next { s with blk := b.releaseAll [r.part] 5 }) ∧
      (now < r.issued + 200 → exec (.mportPairedNoResponse req) s = .next s))


/-! ## The sentinel (16) -/

/-- Sources, responses and fuses (16 R350 to R360, R366): a source whose condition holds becomes active and alarms, unless its fuse disables it or it
is active already, and a condition that does not hold does nothing; it goes inactive when the condition ends; an evaluation applies the highest
response once and records the source: NOTE records, LOCK sets its latch, LOCK_SEQ and mode LOCKED with cause 1, the bursts
outstanding being cut off as they return (04 R77, 03 R60), ERASE also zeroes the master key, slots and
contexts with cause 2; cell exhaustion and a mesh burst erase on the cell alone; the store is inverted every 24 hours; a commit of
the recorder under way ends with VENC, and its working copy comes back from the valid bank; a store found lost with MK_INSTALLED set is an ERASE; fuses are blown in FACTORY
alone, 100 ticks each. -/
def Obligations.Sentinel : Prop :=
  ∀ (s : State) (n : Nat),
    let b := s.blk
    let g := b.gander
    let f := s.fuses
    let now := b.time.interval
    let src := fun (i : Nat) => nth {} g.sources i
    let becomes := fun (c : Instr) (g' : Gander) => exec c s = .next { s with blk := { b with gander := g' } }
    let alarms := fun (c : Instr) (i : Nat) (g' : Gander) =>
      ((src i).active = false → (src i).inactiveAt = none → f.disabled i = false → becomes c { g' with
        sources := modNth (fun x => { x with active := true, fired := true }) i g.sources, confirmed := g.confirmed ++ [i] }) ∧
      ((src i).active = true → becomes c g') ∧
      (f.disabled i = true → becomes c g')
    let glitches := fun (c : Instr) (i : Nat) => (src i).active = false → (src i).inactiveAt = none → f.disabled i = false → becomes c { g with
      sources := modNth (fun x => { x with active := true, fired := true, inactiveAt := some now }) i g.sources
      confirmed := g.confirmed ++ [i] }
    let erased : Gander := { g with
      masterKey := none, mkKcv := [], mkLine := 0, lockSeq := g.lockSeq + 1, nonce := none, ceremony := none, applied := 2, eraseLatch := true }
    (g.vencPresent = true →
      alarms (.caseAlarm n) n g ∧
      (∀ k, 8 ≤ k → alarms (.meshAlarm n k) (4 + n) { g with lastLoop := n, mismatches := min (g.mismatches + k) (2 ^ 32 - 1) }) ∧
      (∀ k, 0 < k → k < 8 → becomes (.meshAlarm n k) { g with lastLoop := n, mismatches := min (g.mismatches + k) (2 ^ 32 - 1) }) ∧
      (65000 < n ∨ (4000 ≤ n ∧ n ≤ 8000) → alarms (.vencAlarm n) 12 { g with vencMv := n }) ∧
      (8000 < n → n ≤ 65000 → exec (.vencAlarm n) s = .next s) ∧
      (n < 2200 ∨ 3600 < n → alarms (.vbatAlarm n) 13 { g with vbatMv := n }) ∧
      (2200 ≤ n → n ≤ 3600 → exec (.vbatAlarm n) s = .next s) ∧
      (∀ x : Int, x < -450 ∨ 1300 < x → alarms (.tempAlarm x) 14 { g with temp := x }) ∧
      alarms .bondAlarm 17 g ∧
      (b.mode.porstLow = false → glitches .clkGlitch 15 ∧ glitches .voltGlitch 16) ∧
      (b.mode.porstLow = true → exec .clkGlitch s = .next s ∧ exec .voltGlitch s = .next s) ∧
      (∀ mv, exec (.cellExhaustion mv) s = .next s) ∧
      (∀ mv ok kept, exec (.vencUp mv ok kept) s = .next s) ∧
      (g.confirmed = [n] → n < 19 →
        ((Gander.cfgOf f g n).response = 0 ∨ (Gander.cfgOf f g n).response ≤ g.applied → exec .ganderEvaluation s =
          .next { s with blk := Block.note { b with gander := { g with confirmed := [] } } 0x0001 ((Gander.cfgOf f g n).response + 1) n 0 }) ∧
        (b.mode.mode = .operational → b.entries = [] → b.partitions = [] → b.twin.session = none → g.applied = 0 →
          ((Gander.cfgOf f g n).response = 1 → ∃ t, exec .ganderEvaluation s = .next t ∧
            t.blk.gander = { g with lockSeq := g.lockSeq + 1, lockSeqFlash := g.lockSeq + 1, nonce := none, ceremony := none
                                    lockLatch := true, applied := 1, confirmed := [] } ∧
            t.blk.mode = { b.mode with mode := .locked, transition := none, lockCause := 1 } ∧
            (∀ k, t.blk.ring k = { b.ring k with burst := (b.ring k).burst.map fun u => { u with locked := u.locked || !u.poll } }) ∧
            t = { s with blk := { b with gander := t.blk.gander, mode := t.blk.mode, recorder := t.blk.recorder, rings := t.blk.rings } }) ∧
          ((Gander.cfgOf f g n).response = 2 → b.recorder.copy.sev3.length < 639 → ∃ t, exec .ganderEvaluation s = .next t ∧
            t.blk.gander = { erased with lockSeqFlash := g.lockSeq + 1, mkInstalled := false, confirmed := [] } ∧
            t.blk.mode = { b.mode with mode := .locked, transition := none, lockCause := 2 } ∧ t.blk.ctxs = [] ∧ t.blk.keys.slots = [] ∧
            t.blk.recorder.copy.sev3.length = b.recorder.copy.sev3.length + 1))) ∧
      (n < 4000 → ∃ t, exec (.vencAbsent n) s = .next t ∧ t.blk.gander.vencPresent = false ∧ t.blk.gander.vencMv = n ∧
        (nth {} t.blk.gander.sources 13).active = false ∧ t.blk.recorder.committing = none ∧ t.blk.recorder.deferred = false ∧
        t.blk.gander.masterKey = g.masterKey ∧
        t = { s with blk := { b with gander := t.blk.gander, recorder := t.blk.recorder } })) ∧
    (g.confirmed = [] → exec .ganderEvaluation s = .next s) ∧
    (∀ x : Int, -450 ≤ x → x ≤ 1300 → exec (.tempAlarm x) s = .next s) ∧
    (g.vencPresent = false →
      (n < 2200 → (src 13).active = false → g.applied < 2 → g.cellBuf.length < 16 → becomes (.cellExhaustion n) { erased with
        vbatMv := n, cellBuf := g.cellBuf ++ [(32, 2)]
        sources := modNth (fun x => { x with active := true, fired := true }) 13 g.sources }) ∧
      (2200 ≤ n → exec (.cellExhaustion n) s = .next s) ∧
      (∀ k mv x, 2200 ≤ mv → -450 ≤ x → x ≤ 1300 → 0 < k →
        (k < 4 → becomes (.meshBurst [k] mv x false) { g with
          vbatMv := mv, temp := x, lastLoop := 0, mismatches := min (g.mismatches + k) (2 ^ 32 - 1) }) ∧
        (4 ≤ k → (src 4).active = false → (src 4).inactiveAt = none → f.disabled 4 = false → g.confirmed = [] → g.applied < 2 →
          (Gander.cfgOf f g 4).response = 2 → g.cellBuf.length < 16 → becomes (.meshBurst [k] mv x false) { erased with
            vbatMv := mv, temp := x, lastLoop := 0, mismatches := min (g.mismatches + k) (2 ^ 32 - 1), cellBuf := g.cellBuf ++ [(4, 2)]
            sources := modNth (fun x => { x with active := true, fired := true }) 4 g.sources })) ∧
      (∀ a kept, 4000 ≤ n → g.cellBuf = [] → g.cellOver = [] → b.recorder.bankA = some a → b.recorder.bankB = none → ∃ t,
        exec (.vencUp n true kept) s = .next t ∧
        (kept = true → g.mkInstalled = false → t.blk.gander.vencPresent = true ∧ t.blk.gander.vencMv = n ∧ t.blk.gander.lockSeq = (if g.lockSeq.toNat < g.lockSeqFlash.toNat then g.lockSeqFlash else g.lockSeq) ∧
          t.blk.gander.masterKey = g.masterKey ∧ t.blk.recorder.copy = a ∧ t.blk.recorder.bank = false ∧
          t = { s with blk := { b with gander := t.blk.gander, recorder := t.blk.recorder } }) ∧
        (kept = false → g.mkInstalled = true → g.eraseLatch = false → a.sev3.length < 639 → t.blk.gander.eraseLatch = true ∧
          t.blk.gander.mkInstalled = false ∧ t.blk.gander.masterKey = none ∧ t.blk.recorder.copy.sev3.length = a.sev3.length + 1))) ∧
    ((src n).active = true → n ≠ 15 → n ≠ 16 → n ≠ 18 → ∃ t, exec (.sourceInactive n) s = .next t ∧
      t.blk.gander = { g with
        sources := modNth (fun x => { x with active := false, inactiveAt := some now }) n g.sources, applied := t.blk.gander.applied } ∧
      (t.blk.gander.applied = g.applied ∨ t.blk.gander.applied = 0) ∧
      ((∀ i, i ≠ n → (src i).active = false) → t.blk.gander.applied = 0) ∧ t = { s with blk := { b with gander := t.blk.gander } }) ∧
    ((src n).active = false → exec (.sourceInactive n) s = .next s) ∧
    (now < g.invertedAt + 86400000000 → exec .storeInversion s = .next s) ∧
    (g.invertedAt + 86400000000 ≤ now → g.confirmed = [] → becomes .storeInversion { g with invertedAt := now, inverted := !g.inverted }) ∧
    (∀ act : Nat, n < 19 → b.mode.porstLow = false → 0 < act → act < 4 →
      (b.mode.mode = .factory → g.blow = none → ¬ (act = 3 ∧ n = 17) → ¬ (act = 1 ∧ 1 < f.floorOf n) →
        exec (.fuseBlow 0 (BitVec.ofNat 64 (256 + 32 * act + n))) s =
          .next { s with blk := { b.okWrite with gander := { g with blow := some (n, act, now + 100) } } }) ∧
      (b.mode.mode ≠ .factory → exec (.fuseBlow 0 (BitVec.ofNat 64 (256 + 32 * act + n))) s =
        .next { s with blk := { b.okWrite with gander := { g with fuseRefused := true } } })) ∧
    (∀ act t0, g.blow = some (n, act, t0) →
      (t0 ≤ now → exec .fuseBlowDone s = .next { s with
        fuses := if act = 3 then { f with fusedOff := f.fusedOff ||| BitVec.ofNat 19 (2 ^ n) } else { f with floor := modNth (max · act) n f.floor }
        blk := { b with gander := { g with blow := none, fuseDone := true } } }) ∧
      (now < t0 → exec .fuseBlowDone s = .next s))


/-! ## The event recorder (17) -/

/-- Where a new record of severity 0 to 2 goes (17 R375): the general area has 1,152 slots. While it holds fewer records, the new one takes a free slot;
then it takes the slot of a record of the lowest ID among those of its severity or lower; where there is none it is dropped and counted in
DROPPED. An occurrence makes a new record where it joins none (17 R373), and the record takes NEXT_ID, which then increments. -/
def Obligations.RecordPlacement : Prop :=
  ∀ (b : Block) (kind sev subject detail : Nat),
    let c := b.recorder.copy
    let old := c.general
    let new : Rec := { kind, sev, subject, count := 1, first := c.opMinutes, last := c.opMinutes, cycle := c.powerCycles, detail, id := c.nextId }
    let b' := b.noteLow kind sev subject detail
    let area := b'.recorder.copy.general
    let placed := { b with recorder := { b.recorder with
      copy := { c.counted kind subject with general := area, nextId := (c.nextId + 1) % 2 ^ 32 } } }
    sev ≤ 2 →
    (∀ e ∈ old, ¬ (e.2.kind = kind ∧ e.2.subject = subject ∧ e.2.sev = sev ∧ e.2.first / 60 = c.opMinutes / 60 ∧ e.2.cycle = c.powerCycles)) →
    (old.length < 1152 → b' = placed ∧ ∃ i, i < 1152 ∧ (∀ e ∈ old, e.1 ≠ i) ∧ area = (i, new) :: old) ∧
    (1152 ≤ old.length → (∃ e ∈ old, e.2.sev ≤ sev) → b' = placed ∧
      ∃ v ∈ old, v.2.sev ≤ sev ∧ (∀ e ∈ old, e.2.sev ≤ sev → v.2.id ≤ e.2.id) ∧ ∀ e, e ∈ area ↔ e = (v.1, new) ∨ e ∈ old ∧ e.1 ≠ v.1) ∧
    (1152 ≤ old.length → (∀ e ∈ old, sev < e.2.sev) → b' = { b with recorder := { b.recorder with
      copy := c.counted kind subject, dropped := min (b.recorder.dropped + 1) (2 ^ 32 - 1) } })

/-- The recorder (17 R368, R370, R377, R379, R381): a commit writes the working copy with SEQ one higher to the other bank, a commit that is asked for
meanwhile follows it; a bank that fails program-verify holds no valid commit and the other is kept; each minute counts and each hour commits; a
sample widens the extremes of its hour and of the whole life; records of severity 3 are archived up to an ID, their digest extended, once every one of
them has been read in full, and otherwise the archive is refused; a word of the working copy is read, and marks its record as read. -/
def Obligations.EventRecorder : Prop :=
  ∀ (s : State) (n : Nat),
    let b := s.blk
    let r := b.recorder
    let c := r.copy
    let now := b.time.interval
    let becomes := fun (i : Instr) (r' : Recorder) => exec i s = .next { s with blk := { b with recorder := r' } }
    let toB : Bool := if r.bankA.isNone && r.bankB.isNone then false else !r.bank
    (b.mode.porstLow = false →
      (r.committing = none → exec (.recCommit 0) s = .next { s with blk := { b.okWrite with
        recorder := { r with committing := some ({ c with seq := c.seq + 1 }, toB) } } }) ∧
      (r.committing.isSome = true → exec (.recCommit 0) s = .next { s with blk := { b.okWrite with recorder := { r with queued := true } } })) ∧
    (r.deferred = false → exec .deferredCommit s = .next s) ∧
    (∀ t0, r.deferred = true → r.spacedAt = some t0 →
      (now < t0 + 1000000 → exec .deferredCommit s = .next s) ∧
      (t0 + 1000000 ≤ now → r.committing = none → becomes .deferredCommit { r with
        committing := some ({ c with seq := c.seq + 1 }, toB), spacedAt := some now, deferred := false })) ∧
    (∀ d, r.queued = false →
      (r.committing = some (d, false) → becomes (.recCommitDone true) { r with
        committing := none, commitsA := min (r.commitsA + 1) (2 ^ 32 - 1), bankA := some d, bank := false, copy := { c with seq := d.seq } }) ∧
      (r.committing = some (d, true) → becomes (.recCommitDone true) { r with
        committing := none, commitsB := min (r.commitsB + 1) (2 ^ 32 - 1), bankB := some d, bank := true, copy := { c with seq := d.seq } }) ∧
      (r.committing = some (d, false) → ∃ t, exec (.recCommitDone false) s = .next t ∧ t.blk.recorder.bankA = none ∧
        t.blk.recorder.bankB = r.bankB ∧ t.blk.recorder.bank = r.bank ∧ t.blk.recorder.commitFail = true ∧
        t.blk.recorder.committing = none ∧ t = { s with blk := { b with recorder := t.blk.recorder } })) ∧
    (r.committing = none → exec (.recCommitDone true) s = .next s) ∧
    (b.mode.porstLow = false → r.minuteAt + 60000000 ≤ now →
      let m := min (c.opMinutes + 1) (2 ^ 32 - 1)
      (m % 60 ≠ 0 → becomes .opMinute { r with copy := { c with opMinutes := m }, minuteAt := r.minuteAt + 60000000 }) ∧
      (m % 60 = 0 → r.committing = none → becomes .opMinute { r with
        copy := { c with opMinutes := m }, minuteAt := r.minuteAt + 60000000, hourAt := some now
        committing := some ({ c with opMinutes := m, seq := c.seq + 1 }, toB) })) ∧
    (now < r.minuteAt + 60000000 → exec .opMinute s = .next s) ∧
    (∀ ts tj venc vbat, b.mode.porstLow = false → r.sampleAt + 1000 ≤ now → ∃ t, exec (.extremesSample ts tj venc vbat) s = .next t ∧
      t.blk.gander = { b.gander with vencMv := venc, vbatMv := vbat, temp := ts } ∧ t.blk.recorder.sampleAt = now ∧
      t.blk.recorder.copy.life = c.life.sample ts tj venc vbat ∧
      (let h := c.opMinutes / 60
       let old : Extremes := Table.get {} c.hours (h % 168)
       Table.get {} t.blk.recorder.copy.hours (h % 168) = (if old.hour = h then old else { hour := h }).sample ts tj venc vbat ∧
       ∀ i, i ≠ h % 168 → Table.get {} t.blk.recorder.copy.hours i = Table.get {} c.hours i) ∧
      t = { s with blk := { b with gander := t.blk.gander, recorder := t.blk.recorder } }) ∧
    (∀ ts tj venc vbat, now < r.sampleAt + 1000 → exec (.extremesSample ts tj venc vbat) s = .next s) ∧
    (b.mode.porstLow = false → n < 2 ^ 32 →
      let gone := sortBy (fun x : Rec => x.id) (c.sev3.filter fun x => decide (x.id ≤ n))
      let kept := sortBy (fun x : Rec => x.id) (c.sev3.filter fun x => decide (n < x.id))
      ((∀ x ∈ c.sev3, x.id ≤ n → x.read = 0xF) → ∃ t, exec (.archive 0 (BitVec.ofNat 64 n)) s = .next t ∧
        t.blk.recorder.copy = { c with
          digest := Hash.hash .sha3_256 (c.digest ++ gone.flatMap Rec.bytes), archived := min (c.archived + gone.length) (2 ^ 32 - 1)
          sev3 := kept, reserveLock := c.reserveLock && decide (512 < kept.length) } ∧
        t = { s with blk := { b.okWrite with recorder := t.blk.recorder } }) ∧
      ((∃ x ∈ c.sev3, x.id ≤ n ∧ x.read ≠ 0xF) → exec (.archive 0 (BitVec.ofNat 64 n)) s =
        .next { s with blk := { b.okWrite with recorder := { r with refused := true } } })) ∧
    (b.mode.porstLow = false → n < 8192 → ∃ t, exec (.recWordRead (0x200000 + 8 * n) 8 0) s = .next t ∧
      t.blk.sport.lastRead = BitVec.ofNat 64 (c.word (8 * n)) ∧ t.blk.sport.lastOk = true ∧
      (8 * n < 0xB000 → t.blk.recorder = r) ∧
      (0xB000 ≤ 8 * n → t.blk.recorder = { r with copy := { c with
        sev3 := modNth (fun x => { x with read := x.read ||| BitVec.ofNat 4 (2 ^ (n % 4)) }) ((8 * n - 0xB000) / 32) c.sev3 } }) ∧
      t = { s with blk := { b with sport := t.blk.sport, recorder := t.blk.recorder } })


/-! ## Power and temperature (01 R23, R24, 18 R386, R389, R391, R394) -/

/-- The thermal governor (01 R24): every 1,000 ticks a region with a sensor at 115 °C or more has its ceiling lowered by 100 MHz, down to 400 MHz; one
whose sensors all read below 112 °C, and that is not clamped, has it raised by 100 MHz, up to 1.6 GHz; another keeps it; no domain runs above its
ceiling, the time base's clock excepted, and nothing else of the block changes but its place in the order of the governors: in a tick in which one
that comes after it (01 R26) has acted it is not due, which is the model's choice (log entry 113). -/
def Obligations.ThermalGovernor : Prop :=
  ∀ (s : State) (sensors : List Int) (d r : Nat),
    let b := s.blk
    let w := b.power
    let now := b.time.interval
    let only := fun (t : State) => t = { s with blk := { b with power := t.blk.power, sched := { b.sched with governor := (now, 2) } } }
    (b.mode.porstLow = false → b.governorFree 2 = true → w.thermalAt + 1000 ≤ now → d < 139 → r < 8 → ∃ t, exec (.thermalStep sensors) s = .next t ∧ only t ∧
      t.blk.power.tj = sensors ∧ t.blk.power.thermalAt = now ∧ t.blk.power.code = w.code ∧ t.blk.power.clamped = w.clamped ∧
      ((∃ x ∈ regionSensors sensors r, 1150 ≤ x) → nth 16 t.blk.power.ceiling r = max 4 (nth 16 w.ceiling r - 1)) ∧
      ((∀ x ∈ regionSensors sensors r, x < 1120) → nth false w.clamped r = false →
        nth 16 t.blk.power.ceiling r = min 16 (nth 16 w.ceiling r + 1)) ∧
      ((∀ x ∈ regionSensors sensors r, x < 1150) → (∃ x ∈ regionSensors sensors r, 1120 ≤ x) →
        nth 16 t.blk.power.ceiling r = nth 16 w.ceiling r) ∧
      nth 0 t.blk.power.freq d = min (nth 0 w.freq d) (t.blk.power.ceilingOf d) ∧ nth 0 t.blk.power.freq 139 = nth 0 w.freq 139) ∧
    (now < w.thermalAt + 1000 ∨ b.governorFree 2 = false → exec (.thermalStep sensors) s = .next s)

/-- The governors (01 R23, 18 R386, R389, R391, R394): 125 °C clamps the
region at 400 MHz until every sensor reads below 120 °C; every 1,000 ticks a reading sets a frequency for each domain from its load, within
400 MHz and its ceiling (by a function that the spec leaves open: log entry 48), lowers what runs faster at once, and gates idle domains; the voltage
code follows the needs of the domains that are not gated by at most 8 codes a change, no sooner than 20 µs after the last; a domain rises to the
frequency set for it once the request it waits on is met and held; PLL domains stop and resume, the time base's excepted. That a governor is not due
in a tick in which a later one has acted is the model's choice (log entry 113). -/
def Obligations.PowerGovernors : Prop :=
  ∀ (s : State) (sensors : List Int) (d r : Nat),
    let b := s.blk
    let w := b.power
    let now := b.time.interval
    let only := fun (t : State) => t = { s with blk := { b with power := t.blk.power } }
    let free := ∀ t0, w.changedAt = some t0 → t0 + 20 ≤ now
    let takes := fun (t : State) (code : Nat) => t.blk.power.code = code ∧ t.blk.power.changedAt = some now ∧
      t.blk.power.codeChanges = min (w.codeChanges + 1) (2 ^ 16 - 1) ∧ t.blk.bus = b.bus ++ [.vcoreReq code]
    let goal := fun (x : Nat) => max 4 (min (w.ceilingOf x) (Config.wantedFreq x (nth 0 w.load x)))
    let low := fun (x : Nat) => if x < 139 then min (nth 0 w.freq x) (goal x) else nth 0 w.freq x
    (∀ temp : Int, 1250 ≤ temp → b.mode.porstLow = false → r < 32 → nth false w.clamped (r / 4) = false → 8 ≤ w.clamped.length →
      8 ≤ w.ceiling.length → d < 139 → ∃ t, exec (.thermalClamp r temp) s = .next t ∧ only t ∧
        nth false t.blk.power.clamped (r / 4) = true ∧ t.blk.power.clamps = min (w.clamps + 1) (2 ^ 16 - 1) ∧
        nth 16 t.blk.power.ceiling (r / 4) = 4 ∧ t.blk.power.code = w.code ∧
        nth 0 t.blk.power.freq d = (if regionOf d = r / 4 then min (nth 0 w.freq d) 4 else nth 0 w.freq d) ∧
        (d ∈ t.blk.power.raising ↔ d ∈ w.raising ∧ regionOf d ≠ r / 4)) ∧
    (∀ temp : Int, temp < 1250 → exec (.thermalClamp r temp) s = .next s) ∧
    (b.mode.porstLow = false → (∀ x ∈ sensors, x < 1200) → exec (.thermalClampLift r sensors) s = .next { s with blk := { b with
      power := { w with clamped := w.clamped.set r false, tj := w.tj.take (4 * r) ++ sensors ++ w.tj.drop (4 * r + 4) } } }) ∧
    ((∃ x ∈ sensors, 1200 ≤ x) → exec (.thermalClampLift r sensors) s = .next s) ∧
    (∀ needs, b.governed = true → b.governorFree 3 = true → w.readingAt + 1000 ≤ now → ∃ t, exec (.dvfsReading needs) s = .next t ∧
      t.blk.power.readingAt = now ∧ t.blk.power.want = t.blk.power.wanted needs ∧
      (∀ x, nth 0 t.blk.power.freq x = low x ∧ nth 0 t.blk.power.load x = 0 ∧ (x < 140 → nth 0 t.blk.power.goal x = goal x) ∧
        (x ∈ t.blk.power.gated ↔ x < 94 ∧ x ∉ b.busyDomains ∧ Config.gatesIdle x (nth 0 w.load x) = true) ∧
        (x ∈ t.blk.power.raising ↔ x < 139 ∧ low x < goal x ∧ x ∉ w.stopped)) ∧
      (free → w.code < t.blk.power.want → takes t (min t.blk.power.want (w.code + 8)) ∧ t.blk.power.raisedAt = some now) ∧
      (free → t.blk.power.want < w.code → takes t (max t.blk.power.want (w.code - 8)) ∧ t.blk.power.raisedAt = w.raisedAt) ∧
      (¬ free ∨ t.blk.power.want = w.code → t.blk.power.code = w.code ∧ t.blk.bus = b.bus) ∧
      t = { s with blk := { b with power := t.blk.power, bus := t.blk.bus, sched := { b.sched with governor := (now, 3) } } }) ∧
    (∀ needs, now < w.readingAt + 1000 ∨ b.governorFree 3 = false → exec (.dvfsReading needs) s = .next s) ∧
    (b.governed = true → ∃ t, exec .vcoreCodeStepDue s = .next t ∧ t.blk.power.want = w.want ∧ t.blk.power.raising = w.raising ∧
      t.blk.power.freq = w.freq ∧ t = { s with blk := { b with power := t.blk.power, bus := t.blk.bus } } ∧
      (free → w.code < w.want → takes t (min w.want (w.code + 8))) ∧ (free → w.want < w.code → takes t (max w.want (w.code - 8))) ∧
      (¬ free ∨ w.want = w.code → t = s)) ∧
    (b.governed = true → d ∈ w.raising → d ∉ w.stopped → d < 139 → d < w.freq.length →
      (w.want ≤ w.code → (∀ t0, w.raisedAt = some t0 → t0 + 20 ≤ now) → ∃ t, exec (.frequencyRaise d) s = .next t ∧ only t ∧
        nth 0 t.blk.power.freq d = max (nth 0 w.freq d) (min (nth 0 w.goal d) (w.ceilingOf d)) ∧ (∀ x, x ≠ d → nth 0 t.blk.power.freq x = nth 0 w.freq x) ∧
        d ∉ t.blk.power.raising ∧ t.blk.power.code = w.code) ∧
      (w.code < w.want → exec (.frequencyRaise d) s = .next s)) ∧
    (b.mode.porstLow = false → exec (.pllUnlock [d]) s = .next { s with blk := { b with
      power := { w with pllUnlock := true, stopped := if d = 139 ∨ d ∈ w.stopped then w.stopped else w.stopped ++ [d] } } }) ∧
    (∀ ds, ∃ t, exec (.pllLock ds) s = .next t ∧ only t ∧ (∀ x, x ∈ t.blk.power.stopped ↔ x ∈ w.stopped ∧ x ∉ ds) ∧
      t.blk.power.freq = w.freq ∧ t.blk.power.pllUnlock = w.pllUnlock)


/-! ## The whole block -/

/-- Every step, from every state, takes the command at the front of the queue away and adds none, and keeps the one-time state one-way (03 R55, 16 R355):
the fuse counter never falls, and goes up by one at most; a sentinel floor never falls, and a source fused off stays so; only FUSE_ADVANCE_STEP
and FUSE_BLOW_DONE change any of it, and a blown fuse leaves the fuse counter alone. -/
def Obligations.StepKeepsOneTimeState : Prop :=
  ∀ s t : State, step s = .next t →
    t.pending = s.pending.tail ∧ s.fuses.Grown t.fuses ∧ t.fuses.rollback ≤ s.fuses.rollback + 1 ∧
    (s.pending.head? ≠ some .fuseAdvanceStep → t.fuses.rollback = s.fuses.rollback) ∧
    (s.pending.head? ≠ some .fuseAdvanceStep → s.pending.head? ≠ some .fuseBlowDone → t.fuses = s.fuses)

/-- What reset leaves (02 R47, 03 R59, 13 R304): no command waits, the block is not READY and in CONFIGURE at its first boot step, nothing is in
service, every ring is DISABLED and owned by no partition, no partition is enabled, and no entry, key, session or request is held. That the factory
fuse is blown at reset, so that the mode is CONFIGURE and not FACTORY, is the model's choice (log entry 7). -/
def Obligations.ResetState : Prop :=
  let b := State.reset.blk
  State.reset.pending = [] ∧ b.mode.ready = false ∧ b.mode.mode = .configure ∧ b.mode.bootStep = 1 ∧ (∀ u, b.inService u = false) ∧
    (∀ k, (b.ring k).st = .disabled ∧ b.owner k = none) ∧ (∀ p, b.enabled p = false) ∧ b.entries = [] ∧ b.keys.slots = [] ∧ b.ctxs = [] ∧
    b.twin.session = none ∧ b.mport.outst = [] ∧ b.hen.phase = .off
end

