-- ==== Sys2Proof/Laws/State.lean ====
section
/-! SUPPORT. What each named update of the state leaves as it was, and what reading gives after it, so that no proof unfolds an
update. -/

namespace Sys2Proof

open Sys2Proof

/-! ## Tables -/

theorem Table.get_del {α : Type} (d : α) (t : Table α) (k j : Nat) :
    Table.get d (Table.del t k) j = if k = j then d else Table.get d t j := by
  induction t with
  | nil => simp [Table.del, Table.get]
  | cons e r ih =>
    obtain ⟨i, v⟩ := e
    by_cases h : i = k
    · subst h
      by_cases g : i = j
      · subst g; simpa [Table.del] using ih
      · simp [Table.del, ih, Table.get, g]
    · by_cases g : k = j
      · subst g; simp [Table.del, h, ih, Table.get]
      · simp [Table.del, h, ih, Table.get, g]

theorem Table.get_put {α : Type} (d : α) (t : Table α) (k : Nat) (v : α) (j : Nat) :
    Table.get d (Table.put t k v) j = if k = j then v else Table.get d t j := by
  induction t with
  | nil => simp [Table.put, Table.get]
  | cons e r ih =>
    obtain ⟨i, w⟩ := e
    by_cases h : k < i
    · simp [Table.put, h, Table.get]
    · by_cases g : k = i
      · subst g; by_cases q : k = j <;> simp [Table.put, Table.get, q]
      · by_cases q : i = j
        · subst q; simp [Table.put, h, g, Table.get]
        · simp [Table.put, h, g, Table.get, q, ih]

/-- A table read after a write: the record written at its key, and every other record as it was. -/
@[simp] theorem Table.get_set {α : Type} [DecidableEq α] (d : α) (t : Table α) (k : Nat) (v : α) (j : Nat) :
    Table.get d (Table.set d t k v) j = if k = j then v else Table.get d t j := by
  by_cases h : v = d
  · subst h; simp [Table.set, Table.get_del]
  · simp [Table.set, h, Table.get_put]

@[simp] theorem Table.get_modify {α : Type} [DecidableEq α] (d : α) (t : Table α) (k : Nat) (f : α → α) (j : Nat) :
    Table.get d (Table.modify d t k f) j = if k = j then f (Table.get d t k) else Table.get d t j := by
  simp [Table.modify]

end Sys2Proof

namespace Sys2Proof.Machine

open Sys2Proof

/-! ## Reading after an update -/

@[simp] theorem Block.ring_modRing (b : Block) (k : Nat) f (j : Nat) :
    (b.modRing k f).ring j = if k = j then f (b.ring k) else b.ring j := by simp [Block.ring, Block.modRing]

@[simp] theorem Block.part_modPart (b : Block) (k : Nat) f (j : Nat) :
    (b.modPart k f).part j = if k = j then f (b.part k) else b.part j := by simp [Block.part, Block.modPart]

@[simp] theorem Block.vec_modVec (b : Block) (k : Nat) f (j : Nat) :
    (b.modVec k f).vec j = if k = j then f (b.vec k) else b.vec j := by simp [Block.vec, Block.modVec]

@[simp] theorem Block.slot_modSlot (b : Block) (k : Nat) f (j : Nat) :
    (b.modSlot k f).slot j = if k = j then f (b.slot k) else b.slot j := by simp [Block.slot, Block.modSlot]

@[simp] theorem Block.ctx_modCtx (b : Block) (k : Nat) f (j : Nat) :
    (b.modCtx k f).ctx j = if k = j then f (b.ctx k) else b.ctx j := by simp [Block.ctx, Block.modCtx]

@[simp] theorem Block.chan_modChan (b : Block) (k : Nat) f (j : Nat) :
    (b.modChan k f).chan j = if k = j then f (b.chan k) else b.chan j := by simp [Block.chan, Block.modChan]

@[simp] theorem Block.unit_modUnit (b : Block) (k : Nat) f (j : Nat) :
    (b.modUnit k f).unit j = if k = j then f (b.unit k) else b.unit j := by simp [Block.unit, Block.modUnit]

@[simp] theorem Block.lane_modLane (b : Block) (k : Nat) f (j : Nat) :
    (b.modLane k f).lane j = if k = j then f (b.lane k) else b.lane j := by simp [Block.lane, Block.modLane]

@[simp] theorem Block.oxUnit_modOx (b : Block) (k : Nat) f (j : Nat) :
    (b.modOx k f).oxUnit j = if k = j then f (b.oxUnit k) else b.oxUnit j := by simp [Block.oxUnit, Block.modOx]

@[simp] theorem Block.latUnit_modLat (b : Block) (k : Nat) f (j : Nat) :
    (b.modLat k f).latUnit j = if k = j then f (b.latUnit k) else b.latUnit j := by simp [Block.latUnit, Block.modLat]

@[simp] theorem Block.core_modCore (b : Block) (k : Nat) f (j : Nat) :
    (b.modCore k f).core j = if k = j then f (b.core k) else b.core j := by simp [Block.core, Block.modCore]

@[simp] theorem Block.core_modCx (b : Block) (u : Nat) (c : Fin 8) f (v : Nat) : (b.modCx u c f).core v =
    if u = v then { b.core u with ctxs := (b.core u).ctxs.set c (f (b.cx u c)) } else b.core v := by
  simp [Block.modCx, Block.cx]

@[simp] theorem Block.cx_modCx (b : Block) (u : Nat) (c : Fin 8) f (v : Nat) (d : Fin 8) :
    (b.modCx u c f).cx v d = if u = v ∧ c = d then f (b.cx u c) else b.cx v d := by
  by_cases h : u = v
  · subst h
    by_cases g : c = d
    · subst g; simp [Block.cx]
    · have g' : ¬ c.val = d.val := fun e => g (Fin.ext e)
      simp only [Block.cx, Block.core_modCx, if_true, g, and_false, if_false]
      simp [g']
  · simp [Block.cx, h]

/-! ## What an update leaves as it was -/

@[simp] theorem Block.modTime_sport (b : Block) (f) : (b.modTime f).sport = b.sport := rfl
@[simp] theorem Block.modTime_mport (b : Block) (f) : (b.modTime f).mport = b.mport := rfl
@[simp] theorem Block.modTime_mode (b : Block) (f) : (b.modTime f).mode = b.mode := rfl
@[simp] theorem Block.modTime_img (b : Block) (f) : (b.modTime f).img = b.img := rfl
@[simp] theorem Block.modTime_health (b : Block) (f) : (b.modTime f).health = b.health := rfl
@[simp] theorem Block.modTime_store (b : Block) (f) : (b.modTime f).store = b.store := rfl
@[simp] theorem Block.modTime_earlyWrites (b : Block) (f) : (b.modTime f).earlyWrites = b.earlyWrites := rfl
@[simp] theorem Block.modTime_ownerWrites (b : Block) (f) : (b.modTime f).ownerWrites = b.ownerWrites := rfl
@[simp] theorem Block.modTime_rings (b : Block) (f) : (b.modTime f).rings = b.rings := rfl
@[simp] theorem Block.modTime_entries (b : Block) (f) : (b.modTime f).entries = b.entries := rfl
@[simp] theorem Block.modTime_parts (b : Block) (f) : (b.modTime f).parts = b.parts := rfl
@[simp] theorem Block.modTime_sched (b : Block) (f) : (b.modTime f).sched = b.sched := rfl
@[simp] theorem Block.modTime_ctxs (b : Block) (f) : (b.modTime f).ctxs = b.ctxs := rfl
@[simp] theorem Block.modTime_lanes (b : Block) (f) : (b.modTime f).lanes = b.lanes := rfl
@[simp] theorem Block.modTime_ox (b : Block) (f) : (b.modTime f).ox = b.ox := rfl
@[simp] theorem Block.modTime_lat (b : Block) (f) : (b.modTime f).lat = b.lat := rfl
@[simp] theorem Block.modTime_keys (b : Block) (f) : (b.modTime f).keys = b.keys := rfl
@[simp] theorem Block.modTime_pay (b : Block) (f) : (b.modTime f).pay = b.pay := rfl
@[simp] theorem Block.modTime_mule (b : Block) (f) : (b.modTime f).mule = b.mule := rfl
@[simp] theorem Block.modTime_irq (b : Block) (f) : (b.modTime f).irq = b.irq := rfl
@[simp] theorem Block.modTime_twin (b : Block) (f) : (b.modTime f).twin = b.twin := rfl
@[simp] theorem Block.modTime_hen (b : Block) (f) : (b.modTime f).hen = b.hen := rfl
@[simp] theorem Block.modTime_gander (b : Block) (f) : (b.modTime f).gander = b.gander := rfl
@[simp] theorem Block.modTime_recorder (b : Block) (f) : (b.modTime f).recorder = b.recorder := rfl
@[simp] theorem Block.modTime_power (b : Block) (f) : (b.modTime f).power = b.power := rfl
@[simp] theorem Block.modTime_free (b : Block) (f) : (b.modTime f).free = b.free := rfl
@[simp] theorem Block.modTime_bus (b : Block) (f) : (b.modTime f).bus = b.bus := rfl

@[simp] theorem Block.modRing_time (b : Block) (k f) : (b.modRing k f).time = b.time := rfl
@[simp] theorem Block.modRing_sport (b : Block) (k f) : (b.modRing k f).sport = b.sport := rfl
@[simp] theorem Block.modRing_mport (b : Block) (k f) : (b.modRing k f).mport = b.mport := rfl
@[simp] theorem Block.modRing_mode (b : Block) (k f) : (b.modRing k f).mode = b.mode := rfl
@[simp] theorem Block.modRing_img (b : Block) (k f) : (b.modRing k f).img = b.img := rfl
@[simp] theorem Block.modRing_health (b : Block) (k f) : (b.modRing k f).health = b.health := rfl
@[simp] theorem Block.modRing_store (b : Block) (k f) : (b.modRing k f).store = b.store := rfl
@[simp] theorem Block.modRing_earlyWrites (b : Block) (k f) : (b.modRing k f).earlyWrites = b.earlyWrites := rfl
@[simp] theorem Block.modRing_ownerWrites (b : Block) (k f) : (b.modRing k f).ownerWrites = b.ownerWrites := rfl
@[simp] theorem Block.modRing_entries (b : Block) (k f) : (b.modRing k f).entries = b.entries := rfl
@[simp] theorem Block.modRing_parts (b : Block) (k f) : (b.modRing k f).parts = b.parts := rfl
@[simp] theorem Block.modRing_sched (b : Block) (k f) : (b.modRing k f).sched = b.sched := rfl
@[simp] theorem Block.modRing_ctxs (b : Block) (k f) : (b.modRing k f).ctxs = b.ctxs := rfl
@[simp] theorem Block.modRing_lanes (b : Block) (k f) : (b.modRing k f).lanes = b.lanes := rfl
@[simp] theorem Block.modRing_ox (b : Block) (k f) : (b.modRing k f).ox = b.ox := rfl
@[simp] theorem Block.modRing_lat (b : Block) (k f) : (b.modRing k f).lat = b.lat := rfl
@[simp] theorem Block.modRing_keys (b : Block) (k f) : (b.modRing k f).keys = b.keys := rfl
@[simp] theorem Block.modRing_pay (b : Block) (k f) : (b.modRing k f).pay = b.pay := rfl
@[simp] theorem Block.modRing_mule (b : Block) (k f) : (b.modRing k f).mule = b.mule := rfl
@[simp] theorem Block.modRing_irq (b : Block) (k f) : (b.modRing k f).irq = b.irq := rfl
@[simp] theorem Block.modRing_twin (b : Block) (k f) : (b.modRing k f).twin = b.twin := rfl
@[simp] theorem Block.modRing_hen (b : Block) (k f) : (b.modRing k f).hen = b.hen := rfl
@[simp] theorem Block.modRing_gander (b : Block) (k f) : (b.modRing k f).gander = b.gander := rfl
@[simp] theorem Block.modRing_recorder (b : Block) (k f) : (b.modRing k f).recorder = b.recorder := rfl
@[simp] theorem Block.modRing_power (b : Block) (k f) : (b.modRing k f).power = b.power := rfl
@[simp] theorem Block.modRing_free (b : Block) (k f) : (b.modRing k f).free = b.free := rfl
@[simp] theorem Block.modRing_bus (b : Block) (k f) : (b.modRing k f).bus = b.bus := rfl

@[simp] theorem Block.modPart_time (b : Block) (k f) : (b.modPart k f).time = b.time := rfl
@[simp] theorem Block.modPart_sport (b : Block) (k f) : (b.modPart k f).sport = b.sport := rfl
@[simp] theorem Block.modPart_mport (b : Block) (k f) : (b.modPart k f).mport = b.mport := rfl
@[simp] theorem Block.modPart_mode (b : Block) (k f) : (b.modPart k f).mode = b.mode := rfl
@[simp] theorem Block.modPart_img (b : Block) (k f) : (b.modPart k f).img = b.img := rfl
@[simp] theorem Block.modPart_health (b : Block) (k f) : (b.modPart k f).health = b.health := rfl
@[simp] theorem Block.modPart_store (b : Block) (k f) : (b.modPart k f).store = b.store := rfl
@[simp] theorem Block.modPart_earlyWrites (b : Block) (k f) : (b.modPart k f).earlyWrites = b.earlyWrites := rfl
@[simp] theorem Block.modPart_ownerWrites (b : Block) (k f) : (b.modPart k f).ownerWrites = b.ownerWrites := rfl
@[simp] theorem Block.modPart_rings (b : Block) (k f) : (b.modPart k f).rings = b.rings := rfl
@[simp] theorem Block.modPart_entries (b : Block) (k f) : (b.modPart k f).entries = b.entries := rfl
@[simp] theorem Block.modPart_sched (b : Block) (k f) : (b.modPart k f).sched = b.sched := rfl
@[simp] theorem Block.modPart_ctxs (b : Block) (k f) : (b.modPart k f).ctxs = b.ctxs := rfl
@[simp] theorem Block.modPart_lanes (b : Block) (k f) : (b.modPart k f).lanes = b.lanes := rfl
@[simp] theorem Block.modPart_ox (b : Block) (k f) : (b.modPart k f).ox = b.ox := rfl
@[simp] theorem Block.modPart_lat (b : Block) (k f) : (b.modPart k f).lat = b.lat := rfl
@[simp] theorem Block.modPart_keys (b : Block) (k f) : (b.modPart k f).keys = b.keys := rfl
@[simp] theorem Block.modPart_pay (b : Block) (k f) : (b.modPart k f).pay = b.pay := rfl
@[simp] theorem Block.modPart_mule (b : Block) (k f) : (b.modPart k f).mule = b.mule := rfl
@[simp] theorem Block.modPart_irq (b : Block) (k f) : (b.modPart k f).irq = b.irq := rfl
@[simp] theorem Block.modPart_twin (b : Block) (k f) : (b.modPart k f).twin = b.twin := rfl
@[simp] theorem Block.modPart_hen (b : Block) (k f) : (b.modPart k f).hen = b.hen := rfl
@[simp] theorem Block.modPart_gander (b : Block) (k f) : (b.modPart k f).gander = b.gander := rfl
@[simp] theorem Block.modPart_recorder (b : Block) (k f) : (b.modPart k f).recorder = b.recorder := rfl
@[simp] theorem Block.modPart_power (b : Block) (k f) : (b.modPart k f).power = b.power := rfl
@[simp] theorem Block.modPart_free (b : Block) (k f) : (b.modPart k f).free = b.free := rfl
@[simp] theorem Block.modPart_bus (b : Block) (k f) : (b.modPart k f).bus = b.bus := rfl

@[simp] theorem Block.modVec_time (b : Block) (k f) : (b.modVec k f).time = b.time := rfl
@[simp] theorem Block.modVec_sport (b : Block) (k f) : (b.modVec k f).sport = b.sport := rfl
@[simp] theorem Block.modVec_mport (b : Block) (k f) : (b.modVec k f).mport = b.mport := rfl
@[simp] theorem Block.modVec_mode (b : Block) (k f) : (b.modVec k f).mode = b.mode := rfl
@[simp] theorem Block.modVec_img (b : Block) (k f) : (b.modVec k f).img = b.img := rfl
@[simp] theorem Block.modVec_health (b : Block) (k f) : (b.modVec k f).health = b.health := rfl
@[simp] theorem Block.modVec_store (b : Block) (k f) : (b.modVec k f).store = b.store := rfl
@[simp] theorem Block.modVec_earlyWrites (b : Block) (k f) : (b.modVec k f).earlyWrites = b.earlyWrites := rfl
@[simp] theorem Block.modVec_ownerWrites (b : Block) (k f) : (b.modVec k f).ownerWrites = b.ownerWrites := rfl
@[simp] theorem Block.modVec_rings (b : Block) (k f) : (b.modVec k f).rings = b.rings := rfl
@[simp] theorem Block.modVec_entries (b : Block) (k f) : (b.modVec k f).entries = b.entries := rfl
@[simp] theorem Block.modVec_parts (b : Block) (k f) : (b.modVec k f).parts = b.parts := rfl
@[simp] theorem Block.modVec_sched (b : Block) (k f) : (b.modVec k f).sched = b.sched := rfl
@[simp] theorem Block.modVec_ctxs (b : Block) (k f) : (b.modVec k f).ctxs = b.ctxs := rfl
@[simp] theorem Block.modVec_lanes (b : Block) (k f) : (b.modVec k f).lanes = b.lanes := rfl
@[simp] theorem Block.modVec_ox (b : Block) (k f) : (b.modVec k f).ox = b.ox := rfl
@[simp] theorem Block.modVec_lat (b : Block) (k f) : (b.modVec k f).lat = b.lat := rfl
@[simp] theorem Block.modVec_keys (b : Block) (k f) : (b.modVec k f).keys = b.keys := rfl
@[simp] theorem Block.modVec_pay (b : Block) (k f) : (b.modVec k f).pay = b.pay := rfl
@[simp] theorem Block.modVec_mule (b : Block) (k f) : (b.modVec k f).mule = b.mule := rfl
@[simp] theorem Block.modVec_twin (b : Block) (k f) : (b.modVec k f).twin = b.twin := rfl
@[simp] theorem Block.modVec_hen (b : Block) (k f) : (b.modVec k f).hen = b.hen := rfl
@[simp] theorem Block.modVec_gander (b : Block) (k f) : (b.modVec k f).gander = b.gander := rfl
@[simp] theorem Block.modVec_recorder (b : Block) (k f) : (b.modVec k f).recorder = b.recorder := rfl
@[simp] theorem Block.modVec_power (b : Block) (k f) : (b.modVec k f).power = b.power := rfl
@[simp] theorem Block.modVec_free (b : Block) (k f) : (b.modVec k f).free = b.free := rfl
@[simp] theorem Block.modVec_bus (b : Block) (k f) : (b.modVec k f).bus = b.bus := rfl

@[simp] theorem Block.modSlot_time (b : Block) (k f) : (b.modSlot k f).time = b.time := rfl
@[simp] theorem Block.modSlot_sport (b : Block) (k f) : (b.modSlot k f).sport = b.sport := rfl
@[simp] theorem Block.modSlot_mport (b : Block) (k f) : (b.modSlot k f).mport = b.mport := rfl
@[simp] theorem Block.modSlot_mode (b : Block) (k f) : (b.modSlot k f).mode = b.mode := rfl
@[simp] theorem Block.modSlot_img (b : Block) (k f) : (b.modSlot k f).img = b.img := rfl
@[simp] theorem Block.modSlot_health (b : Block) (k f) : (b.modSlot k f).health = b.health := rfl
@[simp] theorem Block.modSlot_store (b : Block) (k f) : (b.modSlot k f).store = b.store := rfl
@[simp] theorem Block.modSlot_earlyWrites (b : Block) (k f) : (b.modSlot k f).earlyWrites = b.earlyWrites := rfl
@[simp] theorem Block.modSlot_ownerWrites (b : Block) (k f) : (b.modSlot k f).ownerWrites = b.ownerWrites := rfl
@[simp] theorem Block.modSlot_rings (b : Block) (k f) : (b.modSlot k f).rings = b.rings := rfl
@[simp] theorem Block.modSlot_entries (b : Block) (k f) : (b.modSlot k f).entries = b.entries := rfl
@[simp] theorem Block.modSlot_parts (b : Block) (k f) : (b.modSlot k f).parts = b.parts := rfl
@[simp] theorem Block.modSlot_sched (b : Block) (k f) : (b.modSlot k f).sched = b.sched := rfl
@[simp] theorem Block.modSlot_ctxs (b : Block) (k f) : (b.modSlot k f).ctxs = b.ctxs := rfl
@[simp] theorem Block.modSlot_lanes (b : Block) (k f) : (b.modSlot k f).lanes = b.lanes := rfl
@[simp] theorem Block.modSlot_ox (b : Block) (k f) : (b.modSlot k f).ox = b.ox := rfl
@[simp] theorem Block.modSlot_lat (b : Block) (k f) : (b.modSlot k f).lat = b.lat := rfl
@[simp] theorem Block.modSlot_pay (b : Block) (k f) : (b.modSlot k f).pay = b.pay := rfl
@[simp] theorem Block.modSlot_mule (b : Block) (k f) : (b.modSlot k f).mule = b.mule := rfl
@[simp] theorem Block.modSlot_irq (b : Block) (k f) : (b.modSlot k f).irq = b.irq := rfl
@[simp] theorem Block.modSlot_twin (b : Block) (k f) : (b.modSlot k f).twin = b.twin := rfl
@[simp] theorem Block.modSlot_hen (b : Block) (k f) : (b.modSlot k f).hen = b.hen := rfl
@[simp] theorem Block.modSlot_gander (b : Block) (k f) : (b.modSlot k f).gander = b.gander := rfl
@[simp] theorem Block.modSlot_recorder (b : Block) (k f) : (b.modSlot k f).recorder = b.recorder := rfl
@[simp] theorem Block.modSlot_power (b : Block) (k f) : (b.modSlot k f).power = b.power := rfl
@[simp] theorem Block.modSlot_free (b : Block) (k f) : (b.modSlot k f).free = b.free := rfl
@[simp] theorem Block.modSlot_bus (b : Block) (k f) : (b.modSlot k f).bus = b.bus := rfl

@[simp] theorem Block.modCtx_time (b : Block) (k f) : (b.modCtx k f).time = b.time := rfl
@[simp] theorem Block.modCtx_sport (b : Block) (k f) : (b.modCtx k f).sport = b.sport := rfl
@[simp] theorem Block.modCtx_mport (b : Block) (k f) : (b.modCtx k f).mport = b.mport := rfl
@[simp] theorem Block.modCtx_mode (b : Block) (k f) : (b.modCtx k f).mode = b.mode := rfl
@[simp] theorem Block.modCtx_img (b : Block) (k f) : (b.modCtx k f).img = b.img := rfl
@[simp] theorem Block.modCtx_health (b : Block) (k f) : (b.modCtx k f).health = b.health := rfl
@[simp] theorem Block.modCtx_store (b : Block) (k f) : (b.modCtx k f).store = b.store := rfl
@[simp] theorem Block.modCtx_earlyWrites (b : Block) (k f) : (b.modCtx k f).earlyWrites = b.earlyWrites := rfl
@[simp] theorem Block.modCtx_ownerWrites (b : Block) (k f) : (b.modCtx k f).ownerWrites = b.ownerWrites := rfl
@[simp] theorem Block.modCtx_rings (b : Block) (k f) : (b.modCtx k f).rings = b.rings := rfl
@[simp] theorem Block.modCtx_entries (b : Block) (k f) : (b.modCtx k f).entries = b.entries := rfl
@[simp] theorem Block.modCtx_parts (b : Block) (k f) : (b.modCtx k f).parts = b.parts := rfl
@[simp] theorem Block.modCtx_sched (b : Block) (k f) : (b.modCtx k f).sched = b.sched := rfl
@[simp] theorem Block.modCtx_lanes (b : Block) (k f) : (b.modCtx k f).lanes = b.lanes := rfl
@[simp] theorem Block.modCtx_ox (b : Block) (k f) : (b.modCtx k f).ox = b.ox := rfl
@[simp] theorem Block.modCtx_lat (b : Block) (k f) : (b.modCtx k f).lat = b.lat := rfl
@[simp] theorem Block.modCtx_keys (b : Block) (k f) : (b.modCtx k f).keys = b.keys := rfl
@[simp] theorem Block.modCtx_pay (b : Block) (k f) : (b.modCtx k f).pay = b.pay := rfl
@[simp] theorem Block.modCtx_mule (b : Block) (k f) : (b.modCtx k f).mule = b.mule := rfl
@[simp] theorem Block.modCtx_irq (b : Block) (k f) : (b.modCtx k f).irq = b.irq := rfl
@[simp] theorem Block.modCtx_twin (b : Block) (k f) : (b.modCtx k f).twin = b.twin := rfl
@[simp] theorem Block.modCtx_hen (b : Block) (k f) : (b.modCtx k f).hen = b.hen := rfl
@[simp] theorem Block.modCtx_gander (b : Block) (k f) : (b.modCtx k f).gander = b.gander := rfl
@[simp] theorem Block.modCtx_recorder (b : Block) (k f) : (b.modCtx k f).recorder = b.recorder := rfl
@[simp] theorem Block.modCtx_power (b : Block) (k f) : (b.modCtx k f).power = b.power := rfl
@[simp] theorem Block.modCtx_free (b : Block) (k f) : (b.modCtx k f).free = b.free := rfl
@[simp] theorem Block.modCtx_bus (b : Block) (k f) : (b.modCtx k f).bus = b.bus := rfl

@[simp] theorem Block.modChan_time (b : Block) (k f) : (b.modChan k f).time = b.time := rfl
@[simp] theorem Block.modChan_sport (b : Block) (k f) : (b.modChan k f).sport = b.sport := rfl
@[simp] theorem Block.modChan_mport (b : Block) (k f) : (b.modChan k f).mport = b.mport := rfl
@[simp] theorem Block.modChan_mode (b : Block) (k f) : (b.modChan k f).mode = b.mode := rfl
@[simp] theorem Block.modChan_img (b : Block) (k f) : (b.modChan k f).img = b.img := rfl
@[simp] theorem Block.modChan_health (b : Block) (k f) : (b.modChan k f).health = b.health := rfl
@[simp] theorem Block.modChan_store (b : Block) (k f) : (b.modChan k f).store = b.store := rfl
@[simp] theorem Block.modChan_earlyWrites (b : Block) (k f) : (b.modChan k f).earlyWrites = b.earlyWrites := rfl
@[simp] theorem Block.modChan_ownerWrites (b : Block) (k f) : (b.modChan k f).ownerWrites = b.ownerWrites := rfl
@[simp] theorem Block.modChan_rings (b : Block) (k f) : (b.modChan k f).rings = b.rings := rfl
@[simp] theorem Block.modChan_entries (b : Block) (k f) : (b.modChan k f).entries = b.entries := rfl
@[simp] theorem Block.modChan_parts (b : Block) (k f) : (b.modChan k f).parts = b.parts := rfl
@[simp] theorem Block.modChan_sched (b : Block) (k f) : (b.modChan k f).sched = b.sched := rfl
@[simp] theorem Block.modChan_ctxs (b : Block) (k f) : (b.modChan k f).ctxs = b.ctxs := rfl
@[simp] theorem Block.modChan_lanes (b : Block) (k f) : (b.modChan k f).lanes = b.lanes := rfl
@[simp] theorem Block.modChan_ox (b : Block) (k f) : (b.modChan k f).ox = b.ox := rfl
@[simp] theorem Block.modChan_lat (b : Block) (k f) : (b.modChan k f).lat = b.lat := rfl
@[simp] theorem Block.modChan_keys (b : Block) (k f) : (b.modChan k f).keys = b.keys := rfl
@[simp] theorem Block.modChan_pay (b : Block) (k f) : (b.modChan k f).pay = b.pay := rfl
@[simp] theorem Block.modChan_irq (b : Block) (k f) : (b.modChan k f).irq = b.irq := rfl
@[simp] theorem Block.modChan_twin (b : Block) (k f) : (b.modChan k f).twin = b.twin := rfl
@[simp] theorem Block.modChan_hen (b : Block) (k f) : (b.modChan k f).hen = b.hen := rfl
@[simp] theorem Block.modChan_gander (b : Block) (k f) : (b.modChan k f).gander = b.gander := rfl
@[simp] theorem Block.modChan_recorder (b : Block) (k f) : (b.modChan k f).recorder = b.recorder := rfl
@[simp] theorem Block.modChan_power (b : Block) (k f) : (b.modChan k f).power = b.power := rfl
@[simp] theorem Block.modChan_free (b : Block) (k f) : (b.modChan k f).free = b.free := rfl
@[simp] theorem Block.modChan_bus (b : Block) (k f) : (b.modChan k f).bus = b.bus := rfl

@[simp] theorem Block.modUnit_time (b : Block) (k f) : (b.modUnit k f).time = b.time := rfl
@[simp] theorem Block.modUnit_sport (b : Block) (k f) : (b.modUnit k f).sport = b.sport := rfl
@[simp] theorem Block.modUnit_mport (b : Block) (k f) : (b.modUnit k f).mport = b.mport := rfl
@[simp] theorem Block.modUnit_mode (b : Block) (k f) : (b.modUnit k f).mode = b.mode := rfl
@[simp] theorem Block.modUnit_img (b : Block) (k f) : (b.modUnit k f).img = b.img := rfl
@[simp] theorem Block.modUnit_store (b : Block) (k f) : (b.modUnit k f).store = b.store := rfl
@[simp] theorem Block.modUnit_earlyWrites (b : Block) (k f) : (b.modUnit k f).earlyWrites = b.earlyWrites := rfl
@[simp] theorem Block.modUnit_ownerWrites (b : Block) (k f) : (b.modUnit k f).ownerWrites = b.ownerWrites := rfl
@[simp] theorem Block.modUnit_rings (b : Block) (k f) : (b.modUnit k f).rings = b.rings := rfl
@[simp] theorem Block.modUnit_entries (b : Block) (k f) : (b.modUnit k f).entries = b.entries := rfl
@[simp] theorem Block.modUnit_parts (b : Block) (k f) : (b.modUnit k f).parts = b.parts := rfl
@[simp] theorem Block.modUnit_sched (b : Block) (k f) : (b.modUnit k f).sched = b.sched := rfl
@[simp] theorem Block.modUnit_ctxs (b : Block) (k f) : (b.modUnit k f).ctxs = b.ctxs := rfl
@[simp] theorem Block.modUnit_lanes (b : Block) (k f) : (b.modUnit k f).lanes = b.lanes := rfl
@[simp] theorem Block.modUnit_ox (b : Block) (k f) : (b.modUnit k f).ox = b.ox := rfl
@[simp] theorem Block.modUnit_lat (b : Block) (k f) : (b.modUnit k f).lat = b.lat := rfl
@[simp] theorem Block.modUnit_keys (b : Block) (k f) : (b.modUnit k f).keys = b.keys := rfl
@[simp] theorem Block.modUnit_pay (b : Block) (k f) : (b.modUnit k f).pay = b.pay := rfl
@[simp] theorem Block.modUnit_mule (b : Block) (k f) : (b.modUnit k f).mule = b.mule := rfl
@[simp] theorem Block.modUnit_irq (b : Block) (k f) : (b.modUnit k f).irq = b.irq := rfl
@[simp] theorem Block.modUnit_twin (b : Block) (k f) : (b.modUnit k f).twin = b.twin := rfl
@[simp] theorem Block.modUnit_hen (b : Block) (k f) : (b.modUnit k f).hen = b.hen := rfl
@[simp] theorem Block.modUnit_gander (b : Block) (k f) : (b.modUnit k f).gander = b.gander := rfl
@[simp] theorem Block.modUnit_recorder (b : Block) (k f) : (b.modUnit k f).recorder = b.recorder := rfl
@[simp] theorem Block.modUnit_power (b : Block) (k f) : (b.modUnit k f).power = b.power := rfl
@[simp] theorem Block.modUnit_free (b : Block) (k f) : (b.modUnit k f).free = b.free := rfl
@[simp] theorem Block.modUnit_bus (b : Block) (k f) : (b.modUnit k f).bus = b.bus := rfl

@[simp] theorem Block.modLane_time (b : Block) (k f) : (b.modLane k f).time = b.time := rfl
@[simp] theorem Block.modLane_sport (b : Block) (k f) : (b.modLane k f).sport = b.sport := rfl
@[simp] theorem Block.modLane_mport (b : Block) (k f) : (b.modLane k f).mport = b.mport := rfl
@[simp] theorem Block.modLane_mode (b : Block) (k f) : (b.modLane k f).mode = b.mode := rfl
@[simp] theorem Block.modLane_img (b : Block) (k f) : (b.modLane k f).img = b.img := rfl
@[simp] theorem Block.modLane_health (b : Block) (k f) : (b.modLane k f).health = b.health := rfl
@[simp] theorem Block.modLane_store (b : Block) (k f) : (b.modLane k f).store = b.store := rfl
@[simp] theorem Block.modLane_earlyWrites (b : Block) (k f) : (b.modLane k f).earlyWrites = b.earlyWrites := rfl
@[simp] theorem Block.modLane_ownerWrites (b : Block) (k f) : (b.modLane k f).ownerWrites = b.ownerWrites := rfl
@[simp] theorem Block.modLane_rings (b : Block) (k f) : (b.modLane k f).rings = b.rings := rfl
@[simp] theorem Block.modLane_entries (b : Block) (k f) : (b.modLane k f).entries = b.entries := rfl
@[simp] theorem Block.modLane_parts (b : Block) (k f) : (b.modLane k f).parts = b.parts := rfl
@[simp] theorem Block.modLane_sched (b : Block) (k f) : (b.modLane k f).sched = b.sched := rfl
@[simp] theorem Block.modLane_ctxs (b : Block) (k f) : (b.modLane k f).ctxs = b.ctxs := rfl
@[simp] theorem Block.modLane_ox (b : Block) (k f) : (b.modLane k f).ox = b.ox := rfl
@[simp] theorem Block.modLane_lat (b : Block) (k f) : (b.modLane k f).lat = b.lat := rfl
@[simp] theorem Block.modLane_keys (b : Block) (k f) : (b.modLane k f).keys = b.keys := rfl
@[simp] theorem Block.modLane_pay (b : Block) (k f) : (b.modLane k f).pay = b.pay := rfl
@[simp] theorem Block.modLane_mule (b : Block) (k f) : (b.modLane k f).mule = b.mule := rfl
@[simp] theorem Block.modLane_irq (b : Block) (k f) : (b.modLane k f).irq = b.irq := rfl
@[simp] theorem Block.modLane_twin (b : Block) (k f) : (b.modLane k f).twin = b.twin := rfl
@[simp] theorem Block.modLane_hen (b : Block) (k f) : (b.modLane k f).hen = b.hen := rfl
@[simp] theorem Block.modLane_gander (b : Block) (k f) : (b.modLane k f).gander = b.gander := rfl
@[simp] theorem Block.modLane_recorder (b : Block) (k f) : (b.modLane k f).recorder = b.recorder := rfl
@[simp] theorem Block.modLane_power (b : Block) (k f) : (b.modLane k f).power = b.power := rfl
@[simp] theorem Block.modLane_free (b : Block) (k f) : (b.modLane k f).free = b.free := rfl
@[simp] theorem Block.modLane_bus (b : Block) (k f) : (b.modLane k f).bus = b.bus := rfl

@[simp] theorem Block.modOx_time (b : Block) (k f) : (b.modOx k f).time = b.time := rfl
@[simp] theorem Block.modOx_sport (b : Block) (k f) : (b.modOx k f).sport = b.sport := rfl
@[simp] theorem Block.modOx_mport (b : Block) (k f) : (b.modOx k f).mport = b.mport := rfl
@[simp] theorem Block.modOx_mode (b : Block) (k f) : (b.modOx k f).mode = b.mode := rfl
@[simp] theorem Block.modOx_img (b : Block) (k f) : (b.modOx k f).img = b.img := rfl
@[simp] theorem Block.modOx_health (b : Block) (k f) : (b.modOx k f).health = b.health := rfl
@[simp] theorem Block.modOx_store (b : Block) (k f) : (b.modOx k f).store = b.store := rfl
@[simp] theorem Block.modOx_earlyWrites (b : Block) (k f) : (b.modOx k f).earlyWrites = b.earlyWrites := rfl
@[simp] theorem Block.modOx_ownerWrites (b : Block) (k f) : (b.modOx k f).ownerWrites = b.ownerWrites := rfl
@[simp] theorem Block.modOx_rings (b : Block) (k f) : (b.modOx k f).rings = b.rings := rfl
@[simp] theorem Block.modOx_entries (b : Block) (k f) : (b.modOx k f).entries = b.entries := rfl
@[simp] theorem Block.modOx_parts (b : Block) (k f) : (b.modOx k f).parts = b.parts := rfl
@[simp] theorem Block.modOx_sched (b : Block) (k f) : (b.modOx k f).sched = b.sched := rfl
@[simp] theorem Block.modOx_ctxs (b : Block) (k f) : (b.modOx k f).ctxs = b.ctxs := rfl
@[simp] theorem Block.modOx_lanes (b : Block) (k f) : (b.modOx k f).lanes = b.lanes := rfl
@[simp] theorem Block.modOx_lat (b : Block) (k f) : (b.modOx k f).lat = b.lat := rfl
@[simp] theorem Block.modOx_keys (b : Block) (k f) : (b.modOx k f).keys = b.keys := rfl
@[simp] theorem Block.modOx_pay (b : Block) (k f) : (b.modOx k f).pay = b.pay := rfl
@[simp] theorem Block.modOx_mule (b : Block) (k f) : (b.modOx k f).mule = b.mule := rfl
@[simp] theorem Block.modOx_irq (b : Block) (k f) : (b.modOx k f).irq = b.irq := rfl
@[simp] theorem Block.modOx_twin (b : Block) (k f) : (b.modOx k f).twin = b.twin := rfl
@[simp] theorem Block.modOx_hen (b : Block) (k f) : (b.modOx k f).hen = b.hen := rfl
@[simp] theorem Block.modOx_gander (b : Block) (k f) : (b.modOx k f).gander = b.gander := rfl
@[simp] theorem Block.modOx_recorder (b : Block) (k f) : (b.modOx k f).recorder = b.recorder := rfl
@[simp] theorem Block.modOx_power (b : Block) (k f) : (b.modOx k f).power = b.power := rfl
@[simp] theorem Block.modOx_free (b : Block) (k f) : (b.modOx k f).free = b.free := rfl
@[simp] theorem Block.modOx_bus (b : Block) (k f) : (b.modOx k f).bus = b.bus := rfl

@[simp] theorem Block.modLat_time (b : Block) (k f) : (b.modLat k f).time = b.time := rfl
@[simp] theorem Block.modLat_sport (b : Block) (k f) : (b.modLat k f).sport = b.sport := rfl
@[simp] theorem Block.modLat_mport (b : Block) (k f) : (b.modLat k f).mport = b.mport := rfl
@[simp] theorem Block.modLat_mode (b : Block) (k f) : (b.modLat k f).mode = b.mode := rfl
@[simp] theorem Block.modLat_img (b : Block) (k f) : (b.modLat k f).img = b.img := rfl
@[simp] theorem Block.modLat_health (b : Block) (k f) : (b.modLat k f).health = b.health := rfl
@[simp] theorem Block.modLat_store (b : Block) (k f) : (b.modLat k f).store = b.store := rfl
@[simp] theorem Block.modLat_earlyWrites (b : Block) (k f) : (b.modLat k f).earlyWrites = b.earlyWrites := rfl
@[simp] theorem Block.modLat_ownerWrites (b : Block) (k f) : (b.modLat k f).ownerWrites = b.ownerWrites := rfl
@[simp] theorem Block.modLat_rings (b : Block) (k f) : (b.modLat k f).rings = b.rings := rfl
@[simp] theorem Block.modLat_entries (b : Block) (k f) : (b.modLat k f).entries = b.entries := rfl
@[simp] theorem Block.modLat_parts (b : Block) (k f) : (b.modLat k f).parts = b.parts := rfl
@[simp] theorem Block.modLat_sched (b : Block) (k f) : (b.modLat k f).sched = b.sched := rfl
@[simp] theorem Block.modLat_ctxs (b : Block) (k f) : (b.modLat k f).ctxs = b.ctxs := rfl
@[simp] theorem Block.modLat_lanes (b : Block) (k f) : (b.modLat k f).lanes = b.lanes := rfl
@[simp] theorem Block.modLat_ox (b : Block) (k f) : (b.modLat k f).ox = b.ox := rfl
@[simp] theorem Block.modLat_keys (b : Block) (k f) : (b.modLat k f).keys = b.keys := rfl
@[simp] theorem Block.modLat_pay (b : Block) (k f) : (b.modLat k f).pay = b.pay := rfl
@[simp] theorem Block.modLat_mule (b : Block) (k f) : (b.modLat k f).mule = b.mule := rfl
@[simp] theorem Block.modLat_irq (b : Block) (k f) : (b.modLat k f).irq = b.irq := rfl
@[simp] theorem Block.modLat_twin (b : Block) (k f) : (b.modLat k f).twin = b.twin := rfl
@[simp] theorem Block.modLat_hen (b : Block) (k f) : (b.modLat k f).hen = b.hen := rfl
@[simp] theorem Block.modLat_gander (b : Block) (k f) : (b.modLat k f).gander = b.gander := rfl
@[simp] theorem Block.modLat_recorder (b : Block) (k f) : (b.modLat k f).recorder = b.recorder := rfl
@[simp] theorem Block.modLat_power (b : Block) (k f) : (b.modLat k f).power = b.power := rfl
@[simp] theorem Block.modLat_free (b : Block) (k f) : (b.modLat k f).free = b.free := rfl
@[simp] theorem Block.modLat_bus (b : Block) (k f) : (b.modLat k f).bus = b.bus := rfl

@[simp] theorem Block.modCore_time (b : Block) (k f) : (b.modCore k f).time = b.time := rfl
@[simp] theorem Block.modCore_sport (b : Block) (k f) : (b.modCore k f).sport = b.sport := rfl
@[simp] theorem Block.modCore_mport (b : Block) (k f) : (b.modCore k f).mport = b.mport := rfl
@[simp] theorem Block.modCore_mode (b : Block) (k f) : (b.modCore k f).mode = b.mode := rfl
@[simp] theorem Block.modCore_img (b : Block) (k f) : (b.modCore k f).img = b.img := rfl
@[simp] theorem Block.modCore_health (b : Block) (k f) : (b.modCore k f).health = b.health := rfl
@[simp] theorem Block.modCore_store (b : Block) (k f) : (b.modCore k f).store = b.store := rfl
@[simp] theorem Block.modCore_earlyWrites (b : Block) (k f) : (b.modCore k f).earlyWrites = b.earlyWrites := rfl
@[simp] theorem Block.modCore_ownerWrites (b : Block) (k f) : (b.modCore k f).ownerWrites = b.ownerWrites := rfl
@[simp] theorem Block.modCore_rings (b : Block) (k f) : (b.modCore k f).rings = b.rings := rfl
@[simp] theorem Block.modCore_entries (b : Block) (k f) : (b.modCore k f).entries = b.entries := rfl
@[simp] theorem Block.modCore_parts (b : Block) (k f) : (b.modCore k f).parts = b.parts := rfl
@[simp] theorem Block.modCore_sched (b : Block) (k f) : (b.modCore k f).sched = b.sched := rfl
@[simp] theorem Block.modCore_ctxs (b : Block) (k f) : (b.modCore k f).ctxs = b.ctxs := rfl
@[simp] theorem Block.modCore_lanes (b : Block) (k f) : (b.modCore k f).lanes = b.lanes := rfl
@[simp] theorem Block.modCore_ox (b : Block) (k f) : (b.modCore k f).ox = b.ox := rfl
@[simp] theorem Block.modCore_lat (b : Block) (k f) : (b.modCore k f).lat = b.lat := rfl
@[simp] theorem Block.modCore_keys (b : Block) (k f) : (b.modCore k f).keys = b.keys := rfl
@[simp] theorem Block.modCore_mule (b : Block) (k f) : (b.modCore k f).mule = b.mule := rfl
@[simp] theorem Block.modCore_irq (b : Block) (k f) : (b.modCore k f).irq = b.irq := rfl
@[simp] theorem Block.modCore_twin (b : Block) (k f) : (b.modCore k f).twin = b.twin := rfl
@[simp] theorem Block.modCore_hen (b : Block) (k f) : (b.modCore k f).hen = b.hen := rfl
@[simp] theorem Block.modCore_gander (b : Block) (k f) : (b.modCore k f).gander = b.gander := rfl
@[simp] theorem Block.modCore_recorder (b : Block) (k f) : (b.modCore k f).recorder = b.recorder := rfl
@[simp] theorem Block.modCore_power (b : Block) (k f) : (b.modCore k f).power = b.power := rfl
@[simp] theorem Block.modCore_free (b : Block) (k f) : (b.modCore k f).free = b.free := rfl
@[simp] theorem Block.modCore_bus (b : Block) (k f) : (b.modCore k f).bus = b.bus := rfl

@[simp] theorem Block.modCx_time (b : Block) (k c f) : (b.modCx k c f).time = b.time := rfl
@[simp] theorem Block.modCx_sport (b : Block) (k c f) : (b.modCx k c f).sport = b.sport := rfl
@[simp] theorem Block.modCx_mport (b : Block) (k c f) : (b.modCx k c f).mport = b.mport := rfl
@[simp] theorem Block.modCx_mode (b : Block) (k c f) : (b.modCx k c f).mode = b.mode := rfl
@[simp] theorem Block.modCx_img (b : Block) (k c f) : (b.modCx k c f).img = b.img := rfl
@[simp] theorem Block.modCx_health (b : Block) (k c f) : (b.modCx k c f).health = b.health := rfl
@[simp] theorem Block.modCx_store (b : Block) (k c f) : (b.modCx k c f).store = b.store := rfl
@[simp] theorem Block.modCx_earlyWrites (b : Block) (k c f) : (b.modCx k c f).earlyWrites = b.earlyWrites := rfl
@[simp] theorem Block.modCx_ownerWrites (b : Block) (k c f) : (b.modCx k c f).ownerWrites = b.ownerWrites := rfl
@[simp] theorem Block.modCx_rings (b : Block) (k c f) : (b.modCx k c f).rings = b.rings := rfl
@[simp] theorem Block.modCx_entries (b : Block) (k c f) : (b.modCx k c f).entries = b.entries := rfl
@[simp] theorem Block.modCx_parts (b : Block) (k c f) : (b.modCx k c f).parts = b.parts := rfl
@[simp] theorem Block.modCx_sched (b : Block) (k c f) : (b.modCx k c f).sched = b.sched := rfl
@[simp] theorem Block.modCx_ctxs (b : Block) (k c f) : (b.modCx k c f).ctxs = b.ctxs := rfl
@[simp] theorem Block.modCx_lanes (b : Block) (k c f) : (b.modCx k c f).lanes = b.lanes := rfl
@[simp] theorem Block.modCx_ox (b : Block) (k c f) : (b.modCx k c f).ox = b.ox := rfl
@[simp] theorem Block.modCx_lat (b : Block) (k c f) : (b.modCx k c f).lat = b.lat := rfl
@[simp] theorem Block.modCx_keys (b : Block) (k c f) : (b.modCx k c f).keys = b.keys := rfl
@[simp] theorem Block.modCx_mule (b : Block) (k c f) : (b.modCx k c f).mule = b.mule := rfl
@[simp] theorem Block.modCx_irq (b : Block) (k c f) : (b.modCx k c f).irq = b.irq := rfl
@[simp] theorem Block.modCx_twin (b : Block) (k c f) : (b.modCx k c f).twin = b.twin := rfl
@[simp] theorem Block.modCx_hen (b : Block) (k c f) : (b.modCx k c f).hen = b.hen := rfl
@[simp] theorem Block.modCx_gander (b : Block) (k c f) : (b.modCx k c f).gander = b.gander := rfl
@[simp] theorem Block.modCx_recorder (b : Block) (k c f) : (b.modCx k c f).recorder = b.recorder := rfl
@[simp] theorem Block.modCx_power (b : Block) (k c f) : (b.modCx k c f).power = b.power := rfl
@[simp] theorem Block.modCx_free (b : Block) (k c f) : (b.modCx k c f).free = b.free := rfl
@[simp] theorem Block.modCx_bus (b : Block) (k c f) : (b.modCx k c f).bus = b.bus := rfl

@[simp] theorem Block.modEntry_time (b : Block) (k i f) : (b.modEntry k i f).time = b.time := rfl
@[simp] theorem Block.modEntry_sport (b : Block) (k i f) : (b.modEntry k i f).sport = b.sport := rfl
@[simp] theorem Block.modEntry_mport (b : Block) (k i f) : (b.modEntry k i f).mport = b.mport := rfl
@[simp] theorem Block.modEntry_mode (b : Block) (k i f) : (b.modEntry k i f).mode = b.mode := rfl
@[simp] theorem Block.modEntry_img (b : Block) (k i f) : (b.modEntry k i f).img = b.img := rfl
@[simp] theorem Block.modEntry_health (b : Block) (k i f) : (b.modEntry k i f).health = b.health := rfl
@[simp] theorem Block.modEntry_store (b : Block) (k i f) : (b.modEntry k i f).store = b.store := rfl
@[simp] theorem Block.modEntry_earlyWrites (b : Block) (k i f) : (b.modEntry k i f).earlyWrites = b.earlyWrites := rfl
@[simp] theorem Block.modEntry_ownerWrites (b : Block) (k i f) : (b.modEntry k i f).ownerWrites = b.ownerWrites := rfl
@[simp] theorem Block.modEntry_rings (b : Block) (k i f) : (b.modEntry k i f).rings = b.rings := rfl
@[simp] theorem Block.modEntry_parts (b : Block) (k i f) : (b.modEntry k i f).parts = b.parts := rfl
@[simp] theorem Block.modEntry_sched (b : Block) (k i f) : (b.modEntry k i f).sched = b.sched := rfl
@[simp] theorem Block.modEntry_ctxs (b : Block) (k i f) : (b.modEntry k i f).ctxs = b.ctxs := rfl
@[simp] theorem Block.modEntry_lanes (b : Block) (k i f) : (b.modEntry k i f).lanes = b.lanes := rfl
@[simp] theorem Block.modEntry_ox (b : Block) (k i f) : (b.modEntry k i f).ox = b.ox := rfl
@[simp] theorem Block.modEntry_lat (b : Block) (k i f) : (b.modEntry k i f).lat = b.lat := rfl
@[simp] theorem Block.modEntry_keys (b : Block) (k i f) : (b.modEntry k i f).keys = b.keys := rfl
@[simp] theorem Block.modEntry_pay (b : Block) (k i f) : (b.modEntry k i f).pay = b.pay := rfl
@[simp] theorem Block.modEntry_mule (b : Block) (k i f) : (b.modEntry k i f).mule = b.mule := rfl
@[simp] theorem Block.modEntry_irq (b : Block) (k i f) : (b.modEntry k i f).irq = b.irq := rfl
@[simp] theorem Block.modEntry_twin (b : Block) (k i f) : (b.modEntry k i f).twin = b.twin := rfl
@[simp] theorem Block.modEntry_hen (b : Block) (k i f) : (b.modEntry k i f).hen = b.hen := rfl
@[simp] theorem Block.modEntry_gander (b : Block) (k i f) : (b.modEntry k i f).gander = b.gander := rfl
@[simp] theorem Block.modEntry_recorder (b : Block) (k i f) : (b.modEntry k i f).recorder = b.recorder := rfl
@[simp] theorem Block.modEntry_power (b : Block) (k i f) : (b.modEntry k i f).power = b.power := rfl
@[simp] theorem Block.modEntry_free (b : Block) (k i f) : (b.modEntry k i f).free = b.free := rfl
@[simp] theorem Block.modEntry_bus (b : Block) (k i f) : (b.modEntry k i f).bus = b.bus := rfl

@[simp] theorem Block.dropEntry_time (b : Block) (k i) : (b.dropEntry k i).time = b.time := rfl
@[simp] theorem Block.dropEntry_sport (b : Block) (k i) : (b.dropEntry k i).sport = b.sport := rfl
@[simp] theorem Block.dropEntry_mport (b : Block) (k i) : (b.dropEntry k i).mport = b.mport := rfl
@[simp] theorem Block.dropEntry_mode (b : Block) (k i) : (b.dropEntry k i).mode = b.mode := rfl
@[simp] theorem Block.dropEntry_img (b : Block) (k i) : (b.dropEntry k i).img = b.img := rfl
@[simp] theorem Block.dropEntry_health (b : Block) (k i) : (b.dropEntry k i).health = b.health := rfl
@[simp] theorem Block.dropEntry_store (b : Block) (k i) : (b.dropEntry k i).store = b.store := rfl
@[simp] theorem Block.dropEntry_earlyWrites (b : Block) (k i) : (b.dropEntry k i).earlyWrites = b.earlyWrites := rfl
@[simp] theorem Block.dropEntry_ownerWrites (b : Block) (k i) : (b.dropEntry k i).ownerWrites = b.ownerWrites := rfl
@[simp] theorem Block.dropEntry_rings (b : Block) (k i) : (b.dropEntry k i).rings = b.rings := rfl
@[simp] theorem Block.dropEntry_parts (b : Block) (k i) : (b.dropEntry k i).parts = b.parts := rfl
@[simp] theorem Block.dropEntry_sched (b : Block) (k i) : (b.dropEntry k i).sched = b.sched := rfl
@[simp] theorem Block.dropEntry_ctxs (b : Block) (k i) : (b.dropEntry k i).ctxs = b.ctxs := rfl
@[simp] theorem Block.dropEntry_lanes (b : Block) (k i) : (b.dropEntry k i).lanes = b.lanes := rfl
@[simp] theorem Block.dropEntry_ox (b : Block) (k i) : (b.dropEntry k i).ox = b.ox := rfl
@[simp] theorem Block.dropEntry_lat (b : Block) (k i) : (b.dropEntry k i).lat = b.lat := rfl
@[simp] theorem Block.dropEntry_keys (b : Block) (k i) : (b.dropEntry k i).keys = b.keys := rfl
@[simp] theorem Block.dropEntry_pay (b : Block) (k i) : (b.dropEntry k i).pay = b.pay := rfl
@[simp] theorem Block.dropEntry_mule (b : Block) (k i) : (b.dropEntry k i).mule = b.mule := rfl
@[simp] theorem Block.dropEntry_irq (b : Block) (k i) : (b.dropEntry k i).irq = b.irq := rfl
@[simp] theorem Block.dropEntry_twin (b : Block) (k i) : (b.dropEntry k i).twin = b.twin := rfl
@[simp] theorem Block.dropEntry_hen (b : Block) (k i) : (b.dropEntry k i).hen = b.hen := rfl
@[simp] theorem Block.dropEntry_gander (b : Block) (k i) : (b.dropEntry k i).gander = b.gander := rfl
@[simp] theorem Block.dropEntry_recorder (b : Block) (k i) : (b.dropEntry k i).recorder = b.recorder := rfl
@[simp] theorem Block.dropEntry_power (b : Block) (k i) : (b.dropEntry k i).power = b.power := rfl
@[simp] theorem Block.dropEntry_free (b : Block) (k i) : (b.dropEntry k i).free = b.free := rfl
@[simp] theorem Block.dropEntry_bus (b : Block) (k i) : (b.dropEntry k i).bus = b.bus := rfl

@[simp] theorem Block.modRec_time (b : Block) (f) : (b.modRec f).time = b.time := rfl
@[simp] theorem Block.modRec_sport (b : Block) (f) : (b.modRec f).sport = b.sport := rfl
@[simp] theorem Block.modRec_mport (b : Block) (f) : (b.modRec f).mport = b.mport := rfl
@[simp] theorem Block.modRec_mode (b : Block) (f) : (b.modRec f).mode = b.mode := rfl
@[simp] theorem Block.modRec_img (b : Block) (f) : (b.modRec f).img = b.img := rfl
@[simp] theorem Block.modRec_health (b : Block) (f) : (b.modRec f).health = b.health := rfl
@[simp] theorem Block.modRec_store (b : Block) (f) : (b.modRec f).store = b.store := rfl
@[simp] theorem Block.modRec_earlyWrites (b : Block) (f) : (b.modRec f).earlyWrites = b.earlyWrites := rfl
@[simp] theorem Block.modRec_ownerWrites (b : Block) (f) : (b.modRec f).ownerWrites = b.ownerWrites := rfl
@[simp] theorem Block.modRec_rings (b : Block) (f) : (b.modRec f).rings = b.rings := rfl
@[simp] theorem Block.modRec_entries (b : Block) (f) : (b.modRec f).entries = b.entries := rfl
@[simp] theorem Block.modRec_parts (b : Block) (f) : (b.modRec f).parts = b.parts := rfl
@[simp] theorem Block.modRec_sched (b : Block) (f) : (b.modRec f).sched = b.sched := rfl
@[simp] theorem Block.modRec_ctxs (b : Block) (f) : (b.modRec f).ctxs = b.ctxs := rfl
@[simp] theorem Block.modRec_lanes (b : Block) (f) : (b.modRec f).lanes = b.lanes := rfl
@[simp] theorem Block.modRec_ox (b : Block) (f) : (b.modRec f).ox = b.ox := rfl
@[simp] theorem Block.modRec_lat (b : Block) (f) : (b.modRec f).lat = b.lat := rfl
@[simp] theorem Block.modRec_keys (b : Block) (f) : (b.modRec f).keys = b.keys := rfl
@[simp] theorem Block.modRec_pay (b : Block) (f) : (b.modRec f).pay = b.pay := rfl
@[simp] theorem Block.modRec_mule (b : Block) (f) : (b.modRec f).mule = b.mule := rfl
@[simp] theorem Block.modRec_irq (b : Block) (f) : (b.modRec f).irq = b.irq := rfl
@[simp] theorem Block.modRec_twin (b : Block) (f) : (b.modRec f).twin = b.twin := rfl
@[simp] theorem Block.modRec_hen (b : Block) (f) : (b.modRec f).hen = b.hen := rfl
@[simp] theorem Block.modRec_gander (b : Block) (f) : (b.modRec f).gander = b.gander := rfl
@[simp] theorem Block.modRec_power (b : Block) (f) : (b.modRec f).power = b.power := rfl
@[simp] theorem Block.modRec_free (b : Block) (f) : (b.modRec f).free = b.free := rfl
@[simp] theorem Block.modRec_bus (b : Block) (f) : (b.modRec f).bus = b.bus := rfl

@[simp] theorem Block.tick_time (b : Block) : (b.tick ).time = b.time := rfl
@[simp] theorem Block.tick_sport (b : Block) : (b.tick ).sport = b.sport := rfl
@[simp] theorem Block.tick_mport (b : Block) : (b.tick ).mport = b.mport := rfl
@[simp] theorem Block.tick_mode (b : Block) : (b.tick ).mode = b.mode := rfl
@[simp] theorem Block.tick_img (b : Block) : (b.tick ).img = b.img := rfl
@[simp] theorem Block.tick_health (b : Block) : (b.tick ).health = b.health := rfl
@[simp] theorem Block.tick_store (b : Block) : (b.tick ).store = b.store := rfl
@[simp] theorem Block.tick_earlyWrites (b : Block) : (b.tick ).earlyWrites = b.earlyWrites := rfl
@[simp] theorem Block.tick_ownerWrites (b : Block) : (b.tick ).ownerWrites = b.ownerWrites := rfl
@[simp] theorem Block.tick_rings (b : Block) : (b.tick ).rings = b.rings := rfl
@[simp] theorem Block.tick_entries (b : Block) : (b.tick ).entries = b.entries := rfl
@[simp] theorem Block.tick_parts (b : Block) : (b.tick ).parts = b.parts := rfl
@[simp] theorem Block.tick_sched (b : Block) : (b.tick ).sched = b.sched := rfl
@[simp] theorem Block.tick_ctxs (b : Block) : (b.tick ).ctxs = b.ctxs := rfl
@[simp] theorem Block.tick_lanes (b : Block) : (b.tick ).lanes = b.lanes := rfl
@[simp] theorem Block.tick_ox (b : Block) : (b.tick ).ox = b.ox := rfl
@[simp] theorem Block.tick_lat (b : Block) : (b.tick ).lat = b.lat := rfl
@[simp] theorem Block.tick_keys (b : Block) : (b.tick ).keys = b.keys := rfl
@[simp] theorem Block.tick_pay (b : Block) : (b.tick ).pay = b.pay := rfl
@[simp] theorem Block.tick_mule (b : Block) : (b.tick ).mule = b.mule := rfl
@[simp] theorem Block.tick_irq (b : Block) : (b.tick ).irq = b.irq := rfl
@[simp] theorem Block.tick_twin (b : Block) : (b.tick ).twin = b.twin := rfl
@[simp] theorem Block.tick_hen (b : Block) : (b.tick ).hen = b.hen := rfl
@[simp] theorem Block.tick_gander (b : Block) : (b.tick ).gander = b.gander := rfl
@[simp] theorem Block.tick_recorder (b : Block) : (b.tick ).recorder = b.recorder := rfl
@[simp] theorem Block.tick_power (b : Block) : (b.tick ).power = b.power := rfl
@[simp] theorem Block.tick_bus (b : Block) : (b.tick ).bus = b.bus := rfl

@[simp] theorem Block.put_time (b : Block) (m) : (b.put m).time = b.time := rfl
@[simp] theorem Block.put_sport (b : Block) (m) : (b.put m).sport = b.sport := rfl
@[simp] theorem Block.put_mport (b : Block) (m) : (b.put m).mport = b.mport := rfl
@[simp] theorem Block.put_mode (b : Block) (m) : (b.put m).mode = b.mode := rfl
@[simp] theorem Block.put_img (b : Block) (m) : (b.put m).img = b.img := rfl
@[simp] theorem Block.put_health (b : Block) (m) : (b.put m).health = b.health := rfl
@[simp] theorem Block.put_store (b : Block) (m) : (b.put m).store = b.store := rfl
@[simp] theorem Block.put_earlyWrites (b : Block) (m) : (b.put m).earlyWrites = b.earlyWrites := rfl
@[simp] theorem Block.put_ownerWrites (b : Block) (m) : (b.put m).ownerWrites = b.ownerWrites := rfl
@[simp] theorem Block.put_rings (b : Block) (m) : (b.put m).rings = b.rings := rfl
@[simp] theorem Block.put_entries (b : Block) (m) : (b.put m).entries = b.entries := rfl
@[simp] theorem Block.put_parts (b : Block) (m) : (b.put m).parts = b.parts := rfl
@[simp] theorem Block.put_sched (b : Block) (m) : (b.put m).sched = b.sched := rfl
@[simp] theorem Block.put_ctxs (b : Block) (m) : (b.put m).ctxs = b.ctxs := rfl
@[simp] theorem Block.put_lanes (b : Block) (m) : (b.put m).lanes = b.lanes := rfl
@[simp] theorem Block.put_ox (b : Block) (m) : (b.put m).ox = b.ox := rfl
@[simp] theorem Block.put_lat (b : Block) (m) : (b.put m).lat = b.lat := rfl
@[simp] theorem Block.put_keys (b : Block) (m) : (b.put m).keys = b.keys := rfl
@[simp] theorem Block.put_pay (b : Block) (m) : (b.put m).pay = b.pay := rfl
@[simp] theorem Block.put_mule (b : Block) (m) : (b.put m).mule = b.mule := rfl
@[simp] theorem Block.put_irq (b : Block) (m) : (b.put m).irq = b.irq := rfl
@[simp] theorem Block.put_twin (b : Block) (m) : (b.put m).twin = b.twin := rfl
@[simp] theorem Block.put_hen (b : Block) (m) : (b.put m).hen = b.hen := rfl
@[simp] theorem Block.put_gander (b : Block) (m) : (b.put m).gander = b.gander := rfl
@[simp] theorem Block.put_recorder (b : Block) (m) : (b.put m).recorder = b.recorder := rfl
@[simp] theorem Block.put_power (b : Block) (m) : (b.put m).power = b.power := rfl
@[simp] theorem Block.put_free (b : Block) (m) : (b.put m).free = b.free := rfl

/-! ## Other records after an update -/


@[simp] theorem Block.part_modRing (b : Block) (k f) (j : Nat) : (b.modRing k f).part j = b.part j := rfl
@[simp] theorem Block.vec_modRing (b : Block) (k f) (j : Nat) : (b.modRing k f).vec j = b.vec j := rfl
@[simp] theorem Block.slot_modRing (b : Block) (k f) (j : Nat) : (b.modRing k f).slot j = b.slot j := rfl
@[simp] theorem Block.ctx_modRing (b : Block) (k f) (j : Nat) : (b.modRing k f).ctx j = b.ctx j := rfl
@[simp] theorem Block.chan_modRing (b : Block) (k f) (j : Nat) : (b.modRing k f).chan j = b.chan j := rfl
@[simp] theorem Block.unit_modRing (b : Block) (k f) (j : Nat) : (b.modRing k f).unit j = b.unit j := rfl
@[simp] theorem Block.lane_modRing (b : Block) (k f) (j : Nat) : (b.modRing k f).lane j = b.lane j := rfl
@[simp] theorem Block.oxUnit_modRing (b : Block) (k f) (j : Nat) : (b.modRing k f).oxUnit j = b.oxUnit j := rfl
@[simp] theorem Block.latUnit_modRing (b : Block) (k f) (j : Nat) : (b.modRing k f).latUnit j = b.latUnit j := rfl
@[simp] theorem Block.core_modRing (b : Block) (k f) (j : Nat) : (b.modRing k f).core j = b.core j := rfl

@[simp] theorem Block.ring_modPart (b : Block) (k f) (j : Nat) : (b.modPart k f).ring j = b.ring j := rfl
@[simp] theorem Block.vec_modPart (b : Block) (k f) (j : Nat) : (b.modPart k f).vec j = b.vec j := rfl
@[simp] theorem Block.slot_modPart (b : Block) (k f) (j : Nat) : (b.modPart k f).slot j = b.slot j := rfl
@[simp] theorem Block.ctx_modPart (b : Block) (k f) (j : Nat) : (b.modPart k f).ctx j = b.ctx j := rfl
@[simp] theorem Block.chan_modPart (b : Block) (k f) (j : Nat) : (b.modPart k f).chan j = b.chan j := rfl
@[simp] theorem Block.unit_modPart (b : Block) (k f) (j : Nat) : (b.modPart k f).unit j = b.unit j := rfl
@[simp] theorem Block.lane_modPart (b : Block) (k f) (j : Nat) : (b.modPart k f).lane j = b.lane j := rfl
@[simp] theorem Block.oxUnit_modPart (b : Block) (k f) (j : Nat) : (b.modPart k f).oxUnit j = b.oxUnit j := rfl
@[simp] theorem Block.latUnit_modPart (b : Block) (k f) (j : Nat) : (b.modPart k f).latUnit j = b.latUnit j := rfl
@[simp] theorem Block.core_modPart (b : Block) (k f) (j : Nat) : (b.modPart k f).core j = b.core j := rfl

@[simp] theorem Block.ring_modVec (b : Block) (k f) (j : Nat) : (b.modVec k f).ring j = b.ring j := rfl
@[simp] theorem Block.part_modVec (b : Block) (k f) (j : Nat) : (b.modVec k f).part j = b.part j := rfl
@[simp] theorem Block.slot_modVec (b : Block) (k f) (j : Nat) : (b.modVec k f).slot j = b.slot j := rfl
@[simp] theorem Block.ctx_modVec (b : Block) (k f) (j : Nat) : (b.modVec k f).ctx j = b.ctx j := rfl
@[simp] theorem Block.chan_modVec (b : Block) (k f) (j : Nat) : (b.modVec k f).chan j = b.chan j := rfl
@[simp] theorem Block.unit_modVec (b : Block) (k f) (j : Nat) : (b.modVec k f).unit j = b.unit j := rfl
@[simp] theorem Block.lane_modVec (b : Block) (k f) (j : Nat) : (b.modVec k f).lane j = b.lane j := rfl
@[simp] theorem Block.oxUnit_modVec (b : Block) (k f) (j : Nat) : (b.modVec k f).oxUnit j = b.oxUnit j := rfl
@[simp] theorem Block.latUnit_modVec (b : Block) (k f) (j : Nat) : (b.modVec k f).latUnit j = b.latUnit j := rfl
@[simp] theorem Block.core_modVec (b : Block) (k f) (j : Nat) : (b.modVec k f).core j = b.core j := rfl

@[simp] theorem Block.ring_modSlot (b : Block) (k f) (j : Nat) : (b.modSlot k f).ring j = b.ring j := rfl
@[simp] theorem Block.part_modSlot (b : Block) (k f) (j : Nat) : (b.modSlot k f).part j = b.part j := rfl
@[simp] theorem Block.vec_modSlot (b : Block) (k f) (j : Nat) : (b.modSlot k f).vec j = b.vec j := rfl
@[simp] theorem Block.ctx_modSlot (b : Block) (k f) (j : Nat) : (b.modSlot k f).ctx j = b.ctx j := rfl
@[simp] theorem Block.chan_modSlot (b : Block) (k f) (j : Nat) : (b.modSlot k f).chan j = b.chan j := rfl
@[simp] theorem Block.unit_modSlot (b : Block) (k f) (j : Nat) : (b.modSlot k f).unit j = b.unit j := rfl
@[simp] theorem Block.lane_modSlot (b : Block) (k f) (j : Nat) : (b.modSlot k f).lane j = b.lane j := rfl
@[simp] theorem Block.oxUnit_modSlot (b : Block) (k f) (j : Nat) : (b.modSlot k f).oxUnit j = b.oxUnit j := rfl
@[simp] theorem Block.latUnit_modSlot (b : Block) (k f) (j : Nat) : (b.modSlot k f).latUnit j = b.latUnit j := rfl
@[simp] theorem Block.core_modSlot (b : Block) (k f) (j : Nat) : (b.modSlot k f).core j = b.core j := rfl

@[simp] theorem Block.ring_modCtx (b : Block) (k f) (j : Nat) : (b.modCtx k f).ring j = b.ring j := rfl
@[simp] theorem Block.part_modCtx (b : Block) (k f) (j : Nat) : (b.modCtx k f).part j = b.part j := rfl
@[simp] theorem Block.vec_modCtx (b : Block) (k f) (j : Nat) : (b.modCtx k f).vec j = b.vec j := rfl
@[simp] theorem Block.slot_modCtx (b : Block) (k f) (j : Nat) : (b.modCtx k f).slot j = b.slot j := rfl
@[simp] theorem Block.chan_modCtx (b : Block) (k f) (j : Nat) : (b.modCtx k f).chan j = b.chan j := rfl
@[simp] theorem Block.unit_modCtx (b : Block) (k f) (j : Nat) : (b.modCtx k f).unit j = b.unit j := rfl
@[simp] theorem Block.lane_modCtx (b : Block) (k f) (j : Nat) : (b.modCtx k f).lane j = b.lane j := rfl
@[simp] theorem Block.oxUnit_modCtx (b : Block) (k f) (j : Nat) : (b.modCtx k f).oxUnit j = b.oxUnit j := rfl
@[simp] theorem Block.latUnit_modCtx (b : Block) (k f) (j : Nat) : (b.modCtx k f).latUnit j = b.latUnit j := rfl
@[simp] theorem Block.core_modCtx (b : Block) (k f) (j : Nat) : (b.modCtx k f).core j = b.core j := rfl

@[simp] theorem Block.ring_modChan (b : Block) (k f) (j : Nat) : (b.modChan k f).ring j = b.ring j := rfl
@[simp] theorem Block.part_modChan (b : Block) (k f) (j : Nat) : (b.modChan k f).part j = b.part j := rfl
@[simp] theorem Block.vec_modChan (b : Block) (k f) (j : Nat) : (b.modChan k f).vec j = b.vec j := rfl
@[simp] theorem Block.slot_modChan (b : Block) (k f) (j : Nat) : (b.modChan k f).slot j = b.slot j := rfl
@[simp] theorem Block.ctx_modChan (b : Block) (k f) (j : Nat) : (b.modChan k f).ctx j = b.ctx j := rfl
@[simp] theorem Block.unit_modChan (b : Block) (k f) (j : Nat) : (b.modChan k f).unit j = b.unit j := rfl
@[simp] theorem Block.lane_modChan (b : Block) (k f) (j : Nat) : (b.modChan k f).lane j = b.lane j := rfl
@[simp] theorem Block.oxUnit_modChan (b : Block) (k f) (j : Nat) : (b.modChan k f).oxUnit j = b.oxUnit j := rfl
@[simp] theorem Block.latUnit_modChan (b : Block) (k f) (j : Nat) : (b.modChan k f).latUnit j = b.latUnit j := rfl
@[simp] theorem Block.core_modChan (b : Block) (k f) (j : Nat) : (b.modChan k f).core j = b.core j := rfl

@[simp] theorem Block.ring_modUnit (b : Block) (k f) (j : Nat) : (b.modUnit k f).ring j = b.ring j := rfl
@[simp] theorem Block.part_modUnit (b : Block) (k f) (j : Nat) : (b.modUnit k f).part j = b.part j := rfl
@[simp] theorem Block.vec_modUnit (b : Block) (k f) (j : Nat) : (b.modUnit k f).vec j = b.vec j := rfl
@[simp] theorem Block.slot_modUnit (b : Block) (k f) (j : Nat) : (b.modUnit k f).slot j = b.slot j := rfl
@[simp] theorem Block.ctx_modUnit (b : Block) (k f) (j : Nat) : (b.modUnit k f).ctx j = b.ctx j := rfl
@[simp] theorem Block.chan_modUnit (b : Block) (k f) (j : Nat) : (b.modUnit k f).chan j = b.chan j := rfl
@[simp] theorem Block.lane_modUnit (b : Block) (k f) (j : Nat) : (b.modUnit k f).lane j = b.lane j := rfl
@[simp] theorem Block.oxUnit_modUnit (b : Block) (k f) (j : Nat) : (b.modUnit k f).oxUnit j = b.oxUnit j := rfl
@[simp] theorem Block.latUnit_modUnit (b : Block) (k f) (j : Nat) : (b.modUnit k f).latUnit j = b.latUnit j := rfl
@[simp] theorem Block.core_modUnit (b : Block) (k f) (j : Nat) : (b.modUnit k f).core j = b.core j := rfl

@[simp] theorem Block.ring_modLane (b : Block) (k f) (j : Nat) : (b.modLane k f).ring j = b.ring j := rfl
@[simp] theorem Block.part_modLane (b : Block) (k f) (j : Nat) : (b.modLane k f).part j = b.part j := rfl
@[simp] theorem Block.vec_modLane (b : Block) (k f) (j : Nat) : (b.modLane k f).vec j = b.vec j := rfl
@[simp] theorem Block.slot_modLane (b : Block) (k f) (j : Nat) : (b.modLane k f).slot j = b.slot j := rfl
@[simp] theorem Block.ctx_modLane (b : Block) (k f) (j : Nat) : (b.modLane k f).ctx j = b.ctx j := rfl
@[simp] theorem Block.chan_modLane (b : Block) (k f) (j : Nat) : (b.modLane k f).chan j = b.chan j := rfl
@[simp] theorem Block.unit_modLane (b : Block) (k f) (j : Nat) : (b.modLane k f).unit j = b.unit j := rfl
@[simp] theorem Block.oxUnit_modLane (b : Block) (k f) (j : Nat) : (b.modLane k f).oxUnit j = b.oxUnit j := rfl
@[simp] theorem Block.latUnit_modLane (b : Block) (k f) (j : Nat) : (b.modLane k f).latUnit j = b.latUnit j := rfl
@[simp] theorem Block.core_modLane (b : Block) (k f) (j : Nat) : (b.modLane k f).core j = b.core j := rfl

@[simp] theorem Block.ring_modOx (b : Block) (k f) (j : Nat) : (b.modOx k f).ring j = b.ring j := rfl
@[simp] theorem Block.part_modOx (b : Block) (k f) (j : Nat) : (b.modOx k f).part j = b.part j := rfl
@[simp] theorem Block.vec_modOx (b : Block) (k f) (j : Nat) : (b.modOx k f).vec j = b.vec j := rfl
@[simp] theorem Block.slot_modOx (b : Block) (k f) (j : Nat) : (b.modOx k f).slot j = b.slot j := rfl
@[simp] theorem Block.ctx_modOx (b : Block) (k f) (j : Nat) : (b.modOx k f).ctx j = b.ctx j := rfl
@[simp] theorem Block.chan_modOx (b : Block) (k f) (j : Nat) : (b.modOx k f).chan j = b.chan j := rfl
@[simp] theorem Block.unit_modOx (b : Block) (k f) (j : Nat) : (b.modOx k f).unit j = b.unit j := rfl
@[simp] theorem Block.lane_modOx (b : Block) (k f) (j : Nat) : (b.modOx k f).lane j = b.lane j := rfl
@[simp] theorem Block.latUnit_modOx (b : Block) (k f) (j : Nat) : (b.modOx k f).latUnit j = b.latUnit j := rfl
@[simp] theorem Block.core_modOx (b : Block) (k f) (j : Nat) : (b.modOx k f).core j = b.core j := rfl

@[simp] theorem Block.ring_modLat (b : Block) (k f) (j : Nat) : (b.modLat k f).ring j = b.ring j := rfl
@[simp] theorem Block.part_modLat (b : Block) (k f) (j : Nat) : (b.modLat k f).part j = b.part j := rfl
@[simp] theorem Block.vec_modLat (b : Block) (k f) (j : Nat) : (b.modLat k f).vec j = b.vec j := rfl
@[simp] theorem Block.slot_modLat (b : Block) (k f) (j : Nat) : (b.modLat k f).slot j = b.slot j := rfl
@[simp] theorem Block.ctx_modLat (b : Block) (k f) (j : Nat) : (b.modLat k f).ctx j = b.ctx j := rfl
@[simp] theorem Block.chan_modLat (b : Block) (k f) (j : Nat) : (b.modLat k f).chan j = b.chan j := rfl
@[simp] theorem Block.unit_modLat (b : Block) (k f) (j : Nat) : (b.modLat k f).unit j = b.unit j := rfl
@[simp] theorem Block.lane_modLat (b : Block) (k f) (j : Nat) : (b.modLat k f).lane j = b.lane j := rfl
@[simp] theorem Block.oxUnit_modLat (b : Block) (k f) (j : Nat) : (b.modLat k f).oxUnit j = b.oxUnit j := rfl
@[simp] theorem Block.core_modLat (b : Block) (k f) (j : Nat) : (b.modLat k f).core j = b.core j := rfl

@[simp] theorem Block.ring_modCore (b : Block) (k f) (j : Nat) : (b.modCore k f).ring j = b.ring j := rfl
@[simp] theorem Block.part_modCore (b : Block) (k f) (j : Nat) : (b.modCore k f).part j = b.part j := rfl
@[simp] theorem Block.vec_modCore (b : Block) (k f) (j : Nat) : (b.modCore k f).vec j = b.vec j := rfl
@[simp] theorem Block.slot_modCore (b : Block) (k f) (j : Nat) : (b.modCore k f).slot j = b.slot j := rfl
@[simp] theorem Block.ctx_modCore (b : Block) (k f) (j : Nat) : (b.modCore k f).ctx j = b.ctx j := rfl
@[simp] theorem Block.chan_modCore (b : Block) (k f) (j : Nat) : (b.modCore k f).chan j = b.chan j := rfl
@[simp] theorem Block.unit_modCore (b : Block) (k f) (j : Nat) : (b.modCore k f).unit j = b.unit j := rfl
@[simp] theorem Block.lane_modCore (b : Block) (k f) (j : Nat) : (b.modCore k f).lane j = b.lane j := rfl
@[simp] theorem Block.oxUnit_modCore (b : Block) (k f) (j : Nat) : (b.modCore k f).oxUnit j = b.oxUnit j := rfl
@[simp] theorem Block.latUnit_modCore (b : Block) (k f) (j : Nat) : (b.modCore k f).latUnit j = b.latUnit j := rfl

@[simp] theorem Block.ring_modCx (b : Block) (k c f) (j : Nat) : (b.modCx k c f).ring j = b.ring j := rfl
@[simp] theorem Block.part_modCx (b : Block) (k c f) (j : Nat) : (b.modCx k c f).part j = b.part j := rfl
@[simp] theorem Block.vec_modCx (b : Block) (k c f) (j : Nat) : (b.modCx k c f).vec j = b.vec j := rfl
@[simp] theorem Block.slot_modCx (b : Block) (k c f) (j : Nat) : (b.modCx k c f).slot j = b.slot j := rfl
@[simp] theorem Block.ctx_modCx (b : Block) (k c f) (j : Nat) : (b.modCx k c f).ctx j = b.ctx j := rfl
@[simp] theorem Block.chan_modCx (b : Block) (k c f) (j : Nat) : (b.modCx k c f).chan j = b.chan j := rfl
@[simp] theorem Block.unit_modCx (b : Block) (k c f) (j : Nat) : (b.modCx k c f).unit j = b.unit j := rfl
@[simp] theorem Block.lane_modCx (b : Block) (k c f) (j : Nat) : (b.modCx k c f).lane j = b.lane j := rfl
@[simp] theorem Block.oxUnit_modCx (b : Block) (k c f) (j : Nat) : (b.modCx k c f).oxUnit j = b.oxUnit j := rfl
@[simp] theorem Block.latUnit_modCx (b : Block) (k c f) (j : Nat) : (b.modCx k c f).latUnit j = b.latUnit j := rfl

@[simp] theorem Block.ring_modEntry (b : Block) (k i f) (j : Nat) : (b.modEntry k i f).ring j = b.ring j := rfl
@[simp] theorem Block.part_modEntry (b : Block) (k i f) (j : Nat) : (b.modEntry k i f).part j = b.part j := rfl
@[simp] theorem Block.vec_modEntry (b : Block) (k i f) (j : Nat) : (b.modEntry k i f).vec j = b.vec j := rfl
@[simp] theorem Block.slot_modEntry (b : Block) (k i f) (j : Nat) : (b.modEntry k i f).slot j = b.slot j := rfl
@[simp] theorem Block.ctx_modEntry (b : Block) (k i f) (j : Nat) : (b.modEntry k i f).ctx j = b.ctx j := rfl
@[simp] theorem Block.chan_modEntry (b : Block) (k i f) (j : Nat) : (b.modEntry k i f).chan j = b.chan j := rfl
@[simp] theorem Block.unit_modEntry (b : Block) (k i f) (j : Nat) : (b.modEntry k i f).unit j = b.unit j := rfl
@[simp] theorem Block.lane_modEntry (b : Block) (k i f) (j : Nat) : (b.modEntry k i f).lane j = b.lane j := rfl
@[simp] theorem Block.oxUnit_modEntry (b : Block) (k i f) (j : Nat) : (b.modEntry k i f).oxUnit j = b.oxUnit j := rfl
@[simp] theorem Block.latUnit_modEntry (b : Block) (k i f) (j : Nat) : (b.modEntry k i f).latUnit j = b.latUnit j := rfl
@[simp] theorem Block.core_modEntry (b : Block) (k i f) (j : Nat) : (b.modEntry k i f).core j = b.core j := rfl


@[simp] theorem Block.ring_modRec (b : Block) (f) (j : Nat) : (b.modRec f).ring j = b.ring j := rfl
@[simp] theorem Block.part_modRec (b : Block) (f) (j : Nat) : (b.modRec f).part j = b.part j := rfl
@[simp] theorem Block.vec_modRec (b : Block) (f) (j : Nat) : (b.modRec f).vec j = b.vec j := rfl
@[simp] theorem Block.slot_modRec (b : Block) (f) (j : Nat) : (b.modRec f).slot j = b.slot j := rfl
@[simp] theorem Block.ctx_modRec (b : Block) (f) (j : Nat) : (b.modRec f).ctx j = b.ctx j := rfl
@[simp] theorem Block.chan_modRec (b : Block) (f) (j : Nat) : (b.modRec f).chan j = b.chan j := rfl
@[simp] theorem Block.unit_modRec (b : Block) (f) (j : Nat) : (b.modRec f).unit j = b.unit j := rfl
@[simp] theorem Block.lane_modRec (b : Block) (f) (j : Nat) : (b.modRec f).lane j = b.lane j := rfl
@[simp] theorem Block.oxUnit_modRec (b : Block) (f) (j : Nat) : (b.modRec f).oxUnit j = b.oxUnit j := rfl
@[simp] theorem Block.latUnit_modRec (b : Block) (f) (j : Nat) : (b.modRec f).latUnit j = b.latUnit j := rfl
@[simp] theorem Block.core_modRec (b : Block) (f) (j : Nat) : (b.modRec f).core j = b.core j := rfl

@[simp] theorem Block.ring_tick (b : Block) (j : Nat) : (b.tick ).ring j = b.ring j := rfl
@[simp] theorem Block.part_tick (b : Block) (j : Nat) : (b.tick ).part j = b.part j := rfl
@[simp] theorem Block.vec_tick (b : Block) (j : Nat) : (b.tick ).vec j = b.vec j := rfl
@[simp] theorem Block.slot_tick (b : Block) (j : Nat) : (b.tick ).slot j = b.slot j := rfl
@[simp] theorem Block.ctx_tick (b : Block) (j : Nat) : (b.tick ).ctx j = b.ctx j := rfl
@[simp] theorem Block.chan_tick (b : Block) (j : Nat) : (b.tick ).chan j = b.chan j := rfl
@[simp] theorem Block.unit_tick (b : Block) (j : Nat) : (b.tick ).unit j = b.unit j := rfl
@[simp] theorem Block.lane_tick (b : Block) (j : Nat) : (b.tick ).lane j = b.lane j := rfl
@[simp] theorem Block.oxUnit_tick (b : Block) (j : Nat) : (b.tick ).oxUnit j = b.oxUnit j := rfl
@[simp] theorem Block.latUnit_tick (b : Block) (j : Nat) : (b.tick ).latUnit j = b.latUnit j := rfl
@[simp] theorem Block.core_tick (b : Block) (j : Nat) : (b.tick ).core j = b.core j := rfl


end Sys2Proof.Machine
end

