-- ==== Sys2Proof/Laws/K14.lean ====
section
/-! SUPPORT. What issuing a K14 instruction can do. -/

namespace Sys2Proof.Machine

open Sys2Proof

@[simp] theorem Block.word14_modCx (b : Block) (u : Nat) (c : Fin 8) f (a : BitVec 14) : (b.modCx u c f).word14 a = b.word14 a := rfl
@[simp] theorem Block.word14_tick (b : Block) (a : BitVec 14) : b.tick.word14 a = b.word14 a := rfl
@[simp] theorem Block.sizeAt_modCx (b : Block) (u : Nat) (c : Fin 8) f (a : BitVec 14) : (b.modCx u c f).sizeAt a = b.sizeAt a := rfl
@[simp] theorem Block.sizeAt_tick (b : Block) (a : BitVec 14) : b.tick.sizeAt a = b.sizeAt a := rfl
@[simp] theorem Block.instrAt_modCx (b : Block) (u : Nat) (c : Fin 8) f (v : Nat) (a : BitVec 14) :
    (b.modCx u c f).instrAt v a = b.instrAt v a := rfl
@[simp] theorem Block.instrAt_tick (b : Block) (v : Nat) (a : BitVec 14) : b.tick.instrAt v a = b.instrAt v a := rfl
@[simp] theorem Block.cx_tick (b : Block) (u : Nat) (c : Fin 8) : b.tick.cx u c = b.cx u c := rfl
@[simp] theorem Block.core_tick' (b : Block) (u : Nat) : b.tick.core u = b.core u := rfl

theorem Block.Issues.issuing {b : Block} {i : Instr} {u : Nat} {c : Fin 8} (h : b.Issues i u c) : b.issuing u = some c := by
  simp [Block.issuing, coreUnit, h.inService, h.running, h.ready, Option.filter]

@[simp] theorem Block.cx_begun (b : Block) (u : Nat) (c : Fin 8) : (b.begun u c).cx u c = b.counted u c := by
  simp [Block.begun, Block.counted]

/-- An instruction that issues with a true guard either traps with the lowest of its causes or acts. -/
theorem Block.issue_of_issues {b : Block} {i : Instr} {u : Nat} {c : Fin 8} (h : b.Issues i u c)
    (causes : Block → Fin 8 → Ctx14 → List Nat) (act : Block → Fin 8 → Ctx14 → Nat → Block) :
    b.issue i u causes act =
      match lowest ((b.counted u c).placeCauses i (b.sizeAt (b.cx u c).pc) ++ causes (b.begun u c) c (b.counted u c)) with
      | some cause => (b.begun u c).trap u c cause
      | none => act (b.begun u c) c (b.counted u c) b.drawn := by
  have g := h.guard
  simp only [Block.issue, h.issuing, h.spelled, ne_eq, not_true_eq_false, if_false]
  have e : (b.tick.modCx u c fun x => { x with cycles := x.cycles + b.sizeAt (b.cx u c).pc }) = b.begun u c := rfl
  simp only [e, Block.cx_begun]
  have p : (b.counted u c).pred (K14.guardOf (b.word14 (b.cx u c).pc)) = true := g
  have q : (b.begun u c).word14 (b.cx u c).pc = b.word14 (b.cx u c).pc := rfl
  simp only [q, p, Bool.not_true, Bool.false_eq_true, if_false]
  rfl

/-- No place of the program forbids an instruction that transfers no control. -/
theorem Ctx14.placeCauses_of_not_transfers (x : Ctx14) (i : Instr) (n : Nat) (h : transfers i = false) :
    x.placeCauses i n = [] := by simp [Ctx14.placeCauses, h]

/-- A register instruction: its context becomes what f makes of it, moved on. -/
theorem completes_plain {s : State} {i : Instr} {u : Nat} {c : Fin 8} (h : s.blk.Issues i u c) (ht : transfers i = false)
    (f : Ctx14 → Nat → Ctx14) (he : exec i s = s.run fun b => b.plain i u f) :
    Completes s i u c fun x => f x s.blk.drawn := by
  refine ⟨_, he, ?_, ?_⟩
  · constructor
    · simp [Block.plain, Block.issue_of_issues h, Ctx14.placeCauses_of_not_transfers _ _ _ ht, lowest, argMin, argMax, Block.begun,
        Block.modCx, Block.modCore, Block.tick]
    · intro v
      simp only [Block.plain, Block.issue_of_issues h, Ctx14.placeCauses_of_not_transfers _ _ _ ht, List.append_nil, lowest, argMin,
        argMax, Block.begun, Block.core_modCx]
      by_cases g : u = v
      · subst g; simp
      · simp [g]
    · intro v d hd
      have hd' : ¬ (u = v ∧ c = d) := fun e => hd ⟨e.1.symm, e.2.symm⟩
      simp [Block.plain, Block.issue_of_issues h, Ctx14.placeCauses_of_not_transfers _ _ _ ht, lowest, argMin, argMax, Block.begun, hd']
  · simp [Block.plain, Block.issue_of_issues h, Ctx14.placeCauses_of_not_transfers _ _ _ ht, lowest, argMin, argMax]
    simp [Block.begun, Block.counted]

end Sys2Proof.Machine
end

