-- ==== Sys2Proof/Laws/Tables.lean ====
section
/-! SUPPORT. The canonical form of sparse tables and of the DRAKE data banks: every operation on them keeps it, a write is
read back, and a write leaves every other byte alone. -/

namespace Sys2Proof

open Sys2Proof

/-- The canonical form, as rising keys and no entry that equals the default. -/
theorem Table.wf_iff {α : Type} [DecidableEq α] (d : α) (t : Table α) :
    Table.wf d t = true ↔ t.Pairwise (fun x y => x.1 < y.1) ∧ ∀ e ∈ t, e.2 ≠ d := by
  induction t with
  | nil => simp [Table.wf]
  | cons e r ih =>
    obtain ⟨j, v⟩ := e
    cases r with
    | nil => simp [Table.wf]
    | cons f r =>
      obtain ⟨k, w⟩ := f
      simp only [Table.wf, Bool.and_eq_true, decide_eq_true_eq, ih, List.pairwise_cons, List.mem_cons]
      constructor
      · rintro ⟨⟨hv, hk⟩, ⟨hw, hr⟩, hd⟩
        refine ⟨⟨?_, hw, hr⟩, ?_⟩
        · rintro e (rfl | he)
          · exact hk
          · exact lt_trans hk (hw e he)
        · rintro e (rfl | he)
          · exact hv
          · exact hd e he
      · rintro ⟨⟨h1, hw, hr⟩, hd⟩
        exact ⟨⟨hd _ (Or.inl rfl), h1 _ (Or.inl rfl)⟩, ⟨hw, hr⟩, fun e he => hd e (Or.inr he)⟩

theorem Table.mem_del {α : Type} (t : Table α) (k : Nat) (e : Nat × α) : e ∈ Table.del t k ↔ e ∈ t ∧ e.1 ≠ k := by
  induction t with
  | nil => simp [Table.del]
  | cons f r ih =>
    obtain ⟨i, v⟩ := f
    by_cases h : i = k
    · subst h
      simp only [Table.del, if_true, ih, List.mem_cons]
      constructor
      · rintro ⟨a, b⟩; exact ⟨Or.inr a, b⟩
      · rintro ⟨rfl | a, b⟩
        · exact absurd rfl b
        · exact ⟨a, b⟩
    · simp only [Table.del, h, if_false, List.mem_cons, ih]
      constructor
      · rintro (rfl | ⟨a, b⟩)
        · exact ⟨Or.inl rfl, h⟩
        · exact ⟨Or.inr a, b⟩
      · rintro ⟨rfl | a, b⟩
        · exact Or.inl rfl
        · exact Or.inr ⟨a, b⟩

theorem Table.wf_del {α : Type} [DecidableEq α] (d : α) (t : Table α) (k : Nat) (h : Table.wf d t = true) :
    Table.wf d (Table.del t k) = true := by
  rw [Table.wf_iff] at h ⊢
  refine ⟨?_, fun e he => h.2 e ((Table.mem_del t k e).1 he).1⟩
  have h1 := h.1
  clear h
  induction t with
  | nil => simp [Table.del]
  | cons f r ih =>
    obtain ⟨i, v⟩ := f
    rw [List.pairwise_cons] at h1
    by_cases g : i = k
    · simpa [Table.del, g] using ih h1.2
    · simp only [Table.del, g, if_false, List.pairwise_cons]
      exact ⟨fun e he => h1.1 e ((Table.mem_del r k e).1 he).1, ih h1.2⟩

theorem Table.mem_put {α : Type} (t : Table α) (k : Nat) (v : α) (e : Nat × α) (h : e ∈ Table.put t k v) :
    e = (k, v) ∨ e ∈ t := by
  induction t with
  | nil => simpa [Table.put] using h
  | cons f r ih =>
    obtain ⟨i, w⟩ := f
    simp only [Table.put] at h
    split at h
    · simpa using h
    · split at h
      · rcases List.mem_cons.1 h with h | h
        · exact Or.inl h
        · exact Or.inr (List.mem_cons_of_mem _ h)
      · rcases List.mem_cons.1 h with h | h
        · exact Or.inr (h ▸ List.mem_cons_self ..)
        · rcases ih h with h | h
          · exact Or.inl h
          · exact Or.inr (List.mem_cons_of_mem _ h)

theorem Table.wf_put {α : Type} [DecidableEq α] (d : α) (t : Table α) (k : Nat) (v : α) (hv : v ≠ d)
    (h : Table.wf d t = true) : Table.wf d (Table.put t k v) = true := by
  rw [Table.wf_iff] at h ⊢
  refine ⟨?_, fun e he => ?_⟩
  · have h1 := h.1
    clear h
    induction t with
    | nil => simp [Table.put]
    | cons f r ih =>
      obtain ⟨i, w⟩ := f
      rw [List.pairwise_cons] at h1
      simp only [Table.put]
      split
      · rename_i g
        rw [List.pairwise_cons, List.pairwise_cons]
        refine ⟨?_, h1⟩
        intro e he
        rcases List.mem_cons.1 he with rfl | he
        · exact g
        · exact lt_trans g (h1.1 e he)
      · split
        · rename_i g
          subst g
          rw [List.pairwise_cons]
          exact h1
        · rename_i g1 g2
          rw [List.pairwise_cons]
          refine ⟨?_, ih h1.2⟩
          intro e he
          rcases Table.mem_put r k v e he with rfl | he
          · exact lt_of_le_of_ne (not_lt.1 g1) (Ne.symm g2)
          · exact h1.1 e he
  · rcases Table.mem_put t k v e he with rfl | he
    · exact hv
    · exact h.2 e he

/-- Writing a record keeps the canonical form. -/
theorem Table.wf_set {α : Type} [DecidableEq α] (d : α) (t : Table α) (k : Nat) (v : α) (h : Table.wf d t = true) :
    Table.wf d (Table.set d t k v) = true := by
  by_cases hv : v = d
  · simpa [Table.set, hv] using Table.wf_del d t k h
  · simpa [Table.set, hv] using Table.wf_put d t k v hv h

theorem Table.wf_modify {α : Type} [DecidableEq α] (d : α) (t : Table α) (k : Nat) (f : α → α) (h : Table.wf d t = true) :
    Table.wf d (Table.modify d t k f) = true := Table.wf_set d t k _ h

end Sys2Proof

namespace Sys2Proof.Machine

open Sys2Proof

/-! ## Data banks (12 R261) -/

theorem bankWrite_nil (m : List Host.Cell) (off : Nat) : bankWrite m off [] = m := rfl

theorem foldl_set_get (l : List (Byte × Nat)) (m : List Host.Cell) (off a : Nat) :
    Table.get 0 (l.foldl (fun m x => Table.set 0 m (off + x.2) x.1) m) a =
      (l.foldl (fun v x => if off + x.2 = a then x.1 else v) (Table.get 0 m a)) := by
  induction l generalizing m with
  | nil => rfl
  | cons x r ih => simp only [List.foldl_cons, ih, Table.get_set]

/-- Storing bytes keeps a bank in canonical form. -/
theorem bankWrite_wf (m : List Host.Cell) (off : Nat) (bs : Bytes) (h : Table.wf 0 m = true) :
    Table.wf 0 (bankWrite m off bs) = true := by
  unfold bankWrite
  generalize bs.zipIdx = l
  induction l generalizing m with
  | nil => exact h
  | cons x r ih => exact ih _ (Table.wf_set 0 m _ _ h)

theorem foldl_zipIdx_miss (bs : Bytes) (n off a : Nat) (v : Byte) (h : a < off + n ∨ off + n + bs.length ≤ a) :
    (bs.zipIdx n).foldl (fun v x => if off + x.2 = a then x.1 else v) v = v := by
  induction bs generalizing n v with
  | nil => rfl
  | cons x r ih =>
    simp only [List.length_cons] at h
    have g : ¬ off + n = a := by omega
    simp only [List.zipIdx_cons, List.foldl_cons, g, if_false]
    exact ih _ _ (by omega)

theorem foldl_zipIdx_hit (bs : Bytes) (n off i : Nat) (v : Byte) (h : i < bs.length) :
    (bs.zipIdx n).foldl (fun v x => if off + x.2 = off + n + i then x.1 else v) v = bs.getD i 0 := by
  induction bs generalizing n v i with
  | nil => simp at h
  | cons x r ih =>
    simp only [List.zipIdx_cons, List.foldl_cons]
    cases i with
    | zero =>
      simp only [Nat.add_zero, if_true]
      rw [foldl_zipIdx_miss r (n + 1) off (off + n) x (Or.inl (by omega))]
      rfl
    | succ i =>
      have e : off + n + (i + 1) = off + (n + 1) + i := by omega
      simp only [List.length_cons] at h
      rw [e]
      simpa using ih (n + 1) i _ (by omega)

/-- A store leaves every byte outside it as it was. -/
theorem bankWrite_miss (m : List Host.Cell) (off : Nat) (bs : Bytes) (a : Nat) (h : a < off ∨ off + bs.length ≤ a) :
    Table.get 0 (bankWrite m off bs) a = Table.get 0 m a := by
  unfold bankWrite
  rw [foldl_set_get]
  exact foldl_zipIdx_miss bs 0 off a _ (by simpa using h)

/-- A byte stored is read back. -/
theorem bankWrite_hit (m : List Host.Cell) (off : Nat) (bs : Bytes) (i : Nat) (h : i < bs.length) :
    Table.get 0 (bankWrite m off bs) (off + i) = bs.getD i 0 := by
  unfold bankWrite
  rw [foldl_set_get]
  simpa using foldl_zipIdx_hit bs 0 off i _ h

/-- Bytes stored are read back. -/
theorem bankRead_bankWrite (m : List Host.Cell) (off : Nat) (bs : Bytes) : bankRead (bankWrite m off bs) off bs.length = bs := by
  refine List.ext_getElem (by simp [bankRead]) fun i h1 h2 => ?_
  simp only [bankRead, List.getElem_map, List.getElem_range]
  rw [bankWrite_hit m off bs i h2]
  simp [h2]

end Sys2Proof.Machine
end

