-- ==== Sys2Proof/Tests/Slice0.lean ====
section
/-! SUPPORT. The model's own tests: ill-formed commands, words of the K14 encoding, and for every statement a state that meets its hypotheses. -/

namespace Sys2Proof.Tests

open Sys2Proof Sys2Proof.Machine

set_option Elab.async false

/-! ## States to test on -/

/-- A block out of reset and booted into OPERATIONAL, ten seconds after power-up. -/
def up : State :=
  { State.reset with blk := { State.reset.blk with
      mode := { mode := .operational, ready := true, bootStep := 0, bistDone := true, calDone := true, henSeeded := true, imgLoaded := true }
      time := { State.reset.blk.time with interval := 100000000000 } } }

/-- The state with its block changed. -/
def on (s : State) (f : Block → Block) : State := { s with blk := f s.blk }

/-- Partition 1 owns rings, vectors and contexts 0 to 7 and slots 16 to 31; ring 1 stands as given, with the entries given. -/
def host (r : RingRec) (es : List Entry := []) : State := on up fun b => { b with
  img := { b.img with inForce := { b.img.inForce with
    parts := [(1, { enabled := true, ringCount := 8, vecCount := 8, slotFirst := 16, slotCount := 16, ctxCount := 8, stagingKib := 64, minShare := 32768 })]
    storeMap := [(0, 4096)], rings := [(1, { burst := 8, weight := 1, pollAllowed := true })] } }
  rings := [(1, r)], entries := es }

/-- A RUNNING ring of 16 entries with P, F, C, Q and D as given. -/
def ring (p f c q d : Index) : RingRec :=
  { st := .running, subBase := 0x10000, cmpBase := 0x20000, shadow := 0x30000, subLog2 := 4, cmpLog2 := 4, p, f, c, q, d }

/-- Whether a write with a tag to the page of ring k is taken. -/
def ringTakes (s : State) (k tag : Nat) : Bool := !s.blk.mode.porstLow && s.blk.mode.ready && (tag == 0 || s.blk.owner k == some tag)

/-- What `ringTakes` decides is the statements' premise. -/
theorem ringTakes_sound {s : State} {k tag : Nat} (h : ringTakes s k tag = true) : s.blk.TakesRingWrite k tag := by
  simp only [ringTakes, Bool.and_eq_true, Bool.not_eq_true', Bool.or_eq_true, beq_iff_eq] at h
  exact ⟨h.1.1, h.1.2, h.2⟩

/-- Whether a write with a tag to the page of partition p is taken. -/
def partTakes (s : State) (p tag : Nat) : Bool := !s.blk.mode.porstLow && s.blk.mode.ready && (tag == 0 || (tag == p && s.blk.enabled p))

/-- What `partTakes` decides is the statements' premise. -/
theorem partTakes_sound {s : State} {p tag : Nat} (h : partTakes s p tag = true) : s.blk.TakesPartWrite p tag := by
  simp only [partTakes, Bool.and_eq_true, Bool.not_eq_true', Bool.or_eq_true, beq_iff_eq] at h
  exact ⟨h.1.1, h.1.2, h.2⟩

/-! ## K14 -/

/-- Core 0 in service, instruction i at 0x100, where context c stands as given. -/
def core (i : Instr) (x : Ctx14) (c : Fin 8 := 1) : State :=
  match K14.encode i with
  | none => up
  | some (w, e) => on up fun b => { b with
      health := { b.health with units := [(188, { st := .inService })] }
      pay := { b.pay with
        prog := Table.set 0 (Table.set 0 [] 0x100 w) 0x101 e
        cores := [(0, { running := some c, ctxs := (Vector.replicate 8 {}).set c { x with st := .ready, pc := 0x100 } })] } }

/-- Core u issues i from context c. -/
def issues (s : State) (i : Instr) (u : Nat) (c : Fin 8) : Bool :=
  s.blk.inService (188 + u) && decide ((s.blk.core u).running = some c) && decide ((s.blk.cx u c).st = .ready) &&
    decide (s.blk.instrAt u (s.blk.cx u c).pc = some i) && (s.blk.cx u c).pred (K14.guardOf (s.blk.word14 (s.blk.cx u c).pc))

/-- What `issues` decides is the statements' premise. -/
theorem issues_sound {s : State} {i : Instr} {u : Nat} {c : Fin 8} (h : issues s i u c = true) : s.blk.Issues i u c := by
  simp only [issues, Bool.and_eq_true, decide_eq_true_eq] at h
  exact ⟨h.1.1.1.1, h.1.1.1.2, h.1.1.2, h.1.2, h.2⟩

theorem witness_K14RegisterInstructions :
    [Instr.mov 188 0 1 2, .add 188 0 1 2, .sub 188 0 1 2, .and 188 0 1 2, .or 188 0 1 2, .xor 188 0 1 2, .shl 188 0 1 31, .shr 188 0 1 31,
      .sar 188 0 1 31, .rol 188 0 1 31, .bswap 188 0 1, .mul 188 0 1 1, .movi 188 0 1 0x2000, .movu 188 0 1 0x3FFF, .addi 188 0 1 0x3FFF,
      .andi 188 0 1 0x3FFF, .ori 188 0 1 0x3FFF, .xori 188 0 7 0x3FFF].all (fun i => issues (core i {}) i 0 1) = true := by decide

/-- A context with a predicate set, a return address and two pending events. -/
def x1 : Ctx14 := { g := #v[0x600, 5, 0x80000007, 0x12345678, 0x99999999, 1, 0x0000000A, 0xFFFFFFFF], p := 0b01100100, lk := 0x55, epc := 0x77, ev := 3 }

/-- The same context with loops active, the innermost as given. -/
def looped (n : Nat) (le : BitVec 14) : Ctx14 := { x1 with loops := List.replicate n { ls := 0x80, le, lc := 3 } }

theorem witness_K14Compares :
    issues (core (.cmp 188 0 1 2 3 7) x1) (.cmp 188 0 1 2 3 7) 0 1 = true ∧
    issues (core (.cmpi 188 0 1 0 1 0xFFF) x1) (.cmpi 188 0 1 0 1 0xFFF) 0 1 = true ∧ (3 : BitVec 2) ≠ 0 := by decide +kernel

theorem witness_InstructionEnd :
    x1.late = [] ∧ ({ x1 with rpt := 2 } : Ctx14).late = [] ∧ 1 < ({ x1 with rpt := 2 } : Ctx14).rpt ∧
    x1.rpt ≤ 1 ∧ ({ x1 with delay := some 0x200 } : Ctx14).delay = some 0x200 ∧ (∀ l ∈ x1.loops.head?, l.le ≠ x1.pc) ∧
    ({ looped 2 0x100 with pc := 0x100 } : Ctx14).loops = [{ ls := 0x80, le := 0x100, lc := 3 }, { ls := 0x80, le := 0x100, lc := 3 }] ∧
    1 < (3 : BitVec 32).toNat ∧ (1 : BitVec 32).toNat ≤ 1 := by decide +kernel

theorem witness_K14Memory :
    [Instr.ldw 188 0 1 0 true true 0xFFC, .ldh 188 0 1 0 false true 0xFFE, .ldb 188 0 1 0 false false 0xFFF, .stw 188 0 1 0 false true 0x010,
      .sth 188 0 1 0 false false 0x012, .stb 188 0 1 0 false true 0x013, .stw 188 0 1 0 true true 0x010, .ldw 188 0 1 0 true true 0xFFE].all
      (fun i => issues (core i x1) i 0 1) = true ∧
    (core (.stw 188 0 1 0 true true 0x010) x1 0).blk.inService 188 = true ∧
    issues (core (.stw 188 0 1 0 true true 0x010) x1 0) (.stw 188 0 1 0 true true 0x010) 0 0 = true ∧
    (((core (.ldw 188 0 1 0 true true 0xFFC) x1).blk.counted 0 1).readG 0 0 + (0xFFC : BitVec 12).setWidth 32).toNat % 4096 % 4 = 0 ∧
    (((core (.ldw 188 0 1 0 true true 0xFFE) x1).blk.counted 0 1).readG 0 0 + (0xFFE : BitVec 12).setWidth 32).toNat % 4096 % 4 ≠ 0 := by
  decide +kernel

theorem witness_K14Decimal :
    [Instr.dadd 188 0 1 4 1, .dadc 188 0 1 4 3, .dsub 188 0 1 4 2, .dsbb 188 0 1 4 1, .daddn 188 0 1 4, .dsubn 188 0 1 4, .daa 188 0 1 4,
      .dbin 188 0 1 4, .next 188 0 1 4 true 6, .nins 188 0 1 4 false 7, .nshl 188 0 1 4].all (fun i => issues (core i x1) i 0 1) = true := by decide +kernel

theorem witness_K14BranchesAndLoops :
    [x1, { x1 with delay := some 0x200 }, looped 1 0x100, looped 1 0x102].all (fun x =>
      [Instr.branch 188 0 0x300, .call 188 0 0x3FFF, .jrJump 188 0 1, .jrCall 188 0 1, .ret 188 0].all fun i => issues (core i x) i 0 1) = true ∧
    [x1, looped 4 0x1FF].all (fun x => [Instr.loop 188 0 5 0x200, .loop 188 0 6 0x200, .loop 188 0 1 0x80, .loopi 188 0 0 0x200, .loopi 188 0 63 0x100].all
      fun i => issues (core i x) i 0 1) = true ∧
    issues (core (.rpt 188 0 9) x1) (.rpt 188 0 9) 0 1 = true ∧ x1.delay = none ∧ x1.loops = [] ∧ (looped 4 0x1FF).loops.length = 4 ∧
    (let s := on (core (.rpt 188 0 9) x1) fun b => { b with pay := { b.pay with prog := Table.set 0 b.pay.prog 0x101 0 } }
     s.blk.instrAt 0 0x101 = some (.ctlNop 188 0) ∧ unrepeatable (.ctlNop 188 0) = false ∧ issues s (.rpt 188 0 9) 0 1 = true) := by decide +kernel

theorem witness_K14SpecialRegisters :
    [x1, looped 1 0x1FF].all (fun x => [0, 1, 2, 3, 4, 5, 6, 7, 8, 9, 10, 11, 12, 13, 14, 15, 16, 17, 18, 19, 20, 63].all fun n =>
      issues (core (.mfr 188 0 1 n) x) (.mfr 188 0 1 n) 0 1 && issues (core (.mtr 188 0 1 n) x) (.mtr 188 0 1 n) 0 1) = true := by decide +kernel

/-- A call that context 1 has posted, with its output in area 0 at 0x700. -/
def call1 (failed : Option (Nat × Nat)) : CallRec :=
  { target := 3, op := 1, input := none, outEntry := 15, outKey := false, dstArea := 0, dstOff := 0x700, dstLen := 32, src := [], aux := []
    param := 2, served := true, failed }

/-- A function's bank with a call block at 0x600, a channel block at 0x620 and one that names the window at 0x640. -/
def bank1 : List Host.Cell :=
  [(0x600, 3), (0x601, 1), (0x602, 0xFF), (0x608, 7), (0x60B, 32), (0x617, 2), (0x633, 16), (0x637, 8), (0x653, 16), (0x657, 1)]

/-- Context 1 at a POST or MCH whose register names the block given. -/
def atBlock (i : Instr) (off : BitVec 32) (f : Ctx14 → Ctx14) : State := core i (f { x1 with g := x1.g.set 1 off, bank := bank1 })

/-- Core 0 with its context 1 running the function of entry 2 of ring 1. -/
def function (x : Ctx14) (e : Entry) : State := on (host (ring 5 3 2 1 1) [e]) fun b => { b with
  health := { b.health with units := [(188, { st := .inService })] }
  pay := { b.pay with cores := [(0, { running := some 1, ctxs := (Vector.replicate 8 {}).set 1 { x with st := .ready, fn := some (1, 2) } })] } }

/-- Entry 2 of ring 1, of partition 1. -/
def entry (stage : Stage) (d : Desc) : Entry := { ring := 1, sub := 2, part := 1, stage, d }

theorem witness_K14CallsAndBlocks :
    (let i := Instr.post 188 0 1
     let s := atBlock i 0x600 id
     issues s i 0 1 = true ∧ (s.blk.counted 0 1).call = none ∧
       (((s.blk.begun 0 1).block32 0 1 ((s.blk.counted 0 1).readG 1 1)).bind ((s.blk.begun 0 1).readCall 0 1)).isSome = true) ∧
    (let i := Instr.post 188 0 1
     let s := atBlock i 0x620 id
     issues s i 0 1 = true ∧
       (((s.blk.begun 0 1).block32 0 1 ((s.blk.counted 0 1).readG 1 1)).bind ((s.blk.begun 0 1).readCall 0 1)) = none) ∧
    (let i := Instr.post 188 0 1
     let s := atBlock i 0x600 fun x => { x with call := some (call1 none) }
     issues s i 0 1 = true ∧ (s.blk.counted 0 1).call.isSome = true) ∧
    (let i := Instr.mch 188 0 1
     let s := atBlock i 0x620 id
     issues s i 0 1 = true ∧ (s.blk.counted 0 1).block = false ∧
       (((s.blk.begun 0 1).mchBlock 0 1 ((s.blk.counted 0 1).readG 1 1)).any fun y => (sidesOf y).srcSel != 1 && (sidesOf y).dstSel != 1) = true) ∧
    (let i := Instr.mch 188 0 1
     [none, some (2 : Fin 8)].all fun h =>
       let s := on (atBlock i 0x640 id) fun b => b.modCore 0 fun k => { k with holder := h }
       issues s i 0 1 && !(s.blk.counted 0 1).block && decide ((s.blk.core 0).holder = h) &&
       ((s.blk.begun 0 1).mchBlock 0 1 ((s.blk.counted 0 1).readG 1 1)).any fun y => (sidesOf y).srcSel == 1) = true ∧
    (let i := Instr.mch 188 0 1
     let s := atBlock i 0x621 fun x => { x with block := true }
     issues s i 0 1 = true ∧ (s.blk.counted 0 1).block = true) ∧
    (let i := Instr.mch 188 0 1
     let s := atBlock i 0x621 id
     issues s i 0 1 = true ∧ (s.blk.begun 0 1).mchBlock 0 1 ((s.blk.counted 0 1).readG 1 1) = none) ∧
    issues (core (.mbr 188 0 1) x1) (.mbr 188 0 1) 0 1 = true ∧
    (function { call := some (call1 none) } (entry .dispatched {})).blk.cx 0 1 = { st := .ready, fn := some (1, 2), call := some (call1 none) } ∧
    (call1 none).ready = true ∧ (call1 (some (0x30, 1))).ready = true ∧
    (let s := function { call := some (call1 (some (0x30, 1))) } (entry .dispatched {})
     (s.blk.cx 0 1).call = some (call1 (some (0x30, 1))) ∧ (s.blk.cx 0 1).fn = some (1, 2) ∧ s.blk.entry? 1 2 = some (entry .dispatched {})) := by
  decide +kernel

theorem witness_K14Control :
    [Instr.ctlNop 188 0, .trapi 188 0 7, .wfe 188 0 1 3, .wfe 188 0 1 0x3FC, .waitt 188 0 1, .waitt 188 0 2, .eret 188 0].all
      (fun i => issues (core i x1) i 0 1) = true ∧
    (core (.wfe 188 0 1 3) x1).blk.time.sched = 0 ∧
    x1.ev &&& 3 ≠ 0 ∧ x1.ev &&& 0x3FC = 0 ∧ x1.delay = none ∧ x1.loops = [] ∧ x1.emulating = false ∧
    ((0 : BitVec 32) - x1.readG 1 2).toNat < 2 ^ 31 ∧ 2 ^ 31 ≤ ((0 : BitVec 32) - x1.readG 1 1).toNat ∧
    issues (core (.eret 188 0) { x1 with emulating := true }) (.eret 188 0) 0 1 = true ∧
    issues (core (.trapi 188 0 7) x1 0) (.trapi 188 0 7) 0 0 = true ∧
    (let s := on (core (.trapi 188 0 7) { x1 with fn := some (1, 2) }) fun b => { b with entries := [entry .dispatched {}] }
     issues s (.trapi 188 0 7) 0 1 = true ∧ (s.blk.cx 0 1).fn = some (1, 2) ∧ (s.blk.entry? 1 2).isSome = true) := by decide +kernel

theorem witness_K14EventsAndResume :
    (let s := on (core (.ctlNop 188 0) x1) fun b => { b with pay := { b.pay with prog := Table.set 0 b.pay.prog 0x100 1 } }
     s.blk.inService 188 = true ∧ (s.blk.core 0).running = some 1 ∧ (s.blk.cx 0 1).st = .ready ∧ s.blk.instrAt 0 (s.blk.cx 0 1).pc = none ∧
       (s.blk.cx 0 1).pred (K14.guardOf (s.blk.word14 (s.blk.cx 0 1).pc)) = true) ∧
    (let s := on (core (.ctlNop 188 0) x1) fun b => { b with pay := { b.pay with cores := [(0, { (b.core 0) with running := none })] } }
     (s.blk.core 0).running = none ∧ (s.blk.core 0).jumped = [] ∧ (s.blk.cx 0 1).st = .ready ∧ (∀ e, e ≠ 0 → e ≠ 1 → (s.blk.cx 0 e).st ≠ .ready)) ∧
    (let s := on (core (.ctlNop 188 0) x1) fun b => (b.modCore 0 fun k => { k with running := none, jumped := [1, 3] }).modCx 0 1 fun x => { x with st := .waitTime 0 }
     s.blk.inService 188 = true ∧ (s.blk.core 0).running = none ∧ (s.blk.core 0).jumped = 1 :: [3] ∧ (s.blk.cx 0 1).st = .waitTime 0 ∧
       s.blk.reached 0 = true) ∧
    issues (core (.sev 188 0 15 true 7) x1) (.sev 188 0 15 true 7) 0 1 = true ∧
    issues (core (.sev 188 0 0 false 0) x1) (.sev 188 0 0 false 0) 0 1 = true ∧
    (core (.ctlNop 188 0) x1).blk.time.sched = 0 ∧ ((0 : BitVec 32) - 0).toNat < 2 ^ 31 := by decide +kernel

theorem witness_K14Done :
    (let s := core (.done 188 0 1) x1 0
     issues s (.done 188 0 1) 0 0 = true ∧ (s.blk.counted 0 0).call = none ∧ (s.blk.counted 0 0).block = false ∧
       (s.blk.counted 0 0).readG s.blk.drawn 1 = 5) ∧
    (let s := core (.done 188 0 1) {} 0
     issues s (.done 188 0 1) 0 0 = true ∧ (s.blk.counted 0 0).readG s.blk.drawn 1 = 0) ∧
    (let s := core (.done 188 0 1) { x1 with block := true }
     issues s (.done 188 0 1) 0 1 = true ∧ (s.blk.counted 0 1).block = true) ∧
    (let run := fun (v : BitVec 32) (bank : List Host.Cell) => on (core (.done 188 0 1) { x1 with g := x1.g.set 1 v, bank, fn := some (1, 2) })
       fun b => { b with entries := [entry .dispatched { family := 5, op := 1, dstLen := 4 }] }
     let ends := fun (s : State) (v : Nat) (len : Nat) => issues s (.done 188 0 1) 0 1 = true ∧ (s.blk.counted 0 1).fn = some (1, 2) ∧
       s.blk.entry? 1 2 = some (entry .dispatched { family := 5, op := 1, dstLen := 4 }) ∧
       ((s.blk.counted 0 1).readG s.blk.drawn 1).toNat = v ∧ ofBE (bankRead (s.blk.counted 0 1).bank 0x480 4) = len
     ends (run 0 [(0x483, 4)]) 0 4 ∧ ends (run 0 [(0x483, 5)]) 0 5 ∧ ends (run 0x772 []) 0x772 0 ∧ ends (run 0x13 []) 0x13 0) := by decide +kernel

theorem witness_K14WordsAgree :
    (Instr.addi 188 7 1 0x3FFF).wf = true ∧ K14.encode (.addi 188 7 1 0x3FFF) ≠ none ∧ (K14.decode 188 1536 7).isSome = true := by decide +kernel
/-! ## Ports, time and rings -/

/-- Ten seconds up with partition 1 and its ring 1 in use. -/
def busy : State := host (ring 5 3 2 1 1)

/-- A request of partition 1 that port 1 waits for, issued again where it says so. -/
def request (kind : ReqKind) (purpose : Purpose) (again : Bool := false) : Request :=
  { id := 3, port := 1, kind, purpose, part := 1, addr := 64, len := 64, issued := 0, data := [], again }

/-- The state with one request outstanding. -/
def waits (s : State) (kind : ReqKind) (purpose : Purpose) : State := on s fun b => { b with mport := { b.mport with outst := [request kind purpose] } }

theorem witness_RefusedAccesses :
    busy.blk.mode.porstLow = false ∧ 0x10001103 % 8 ≠ 0 ∧ ringTakes busy 1 1 = true ∧ 0x100011FC = 0x10000000 + 0x1000 * 1 + 0x1FC ∧ 0x1FC % 4 = 0 ∧
    0x7000 < 0x1000000 ∧ 0x1002000 = 0x1000000 + 0x1000 * 2 + 0 ∧ busy.blk.mode.ready = true ∧ busy.blk.owner 2 = some 1 ∧
    State.reset.blk.mode.porstLow = false ∧ State.reset.blk.mode.ready = false ∧ 0x1000000 ≤ 0x1FFFFFF := by decide +kernel

theorem witness_RegisterAccess : State.reset.blk.mode.porstLow = false := by decide +kernel

theorem witness_MasterPortFailure :
    ([request .read (.discarded (.gather 1 2)), request .write (.irq 0), request .write (.irq 0) true].all fun r =>
      let s := on busy fun b => { b with mport := { b.mport with outst := [r] } }
      !s.blk.mode.porstLow && (s.blk.mport.outst.find? fun x => x.id == r.id) == some r && decide (r.port < 2) &&
        decide (r.issued + 10000 ≤ s.blk.time.interval) && decide (s.blk.role r.part ≠ .home)) = true ∧
    (let cases : List (Purpose × Nat × Stage) := [(.srcList 1 2, 1, .lists), (.dstList 1 2, 2, .lists), (.gather 1 2, 3, .gather),
       (.aux 1 2, 4, .gather), (.output 1 2, 5, .writing), (.readback 1 2, 6, .readback)]
     cases.all fun x =>
       let s := waits (host (ring 5 3 2 1 1) [entry x.2.2 {}]) .read x.1
       (s.blk.mport.outst.find? fun y => y.id == 3) == some (request .read x.1) && s.blk.entry? 1 2 == some (entry x.2.2 {})) = true ∧
    (let s := on busy fun b => { b with irq := [(16383, { reissue := [(5, 1, 0x1000, [1, 2, 3, 4]), (6, 0, 0x1000, [5])] })] }
     (s.blk.vec 16383).reissue = (5, 1, 0x1000, [1, 2, 3, 4]) :: [(6, 0, 0x1000, [5])] ∧ 5 ≤ s.blk.time.interval ∧
       s.blk.muted 16383 = false) ∧
    (let s := on busy fun b => Block.modTw { b with irq := [(0, { reissue := [(5, 1, 0x1000, [1])] })] } 1 fun t => { t with stopped := true }
     (s.blk.vec 0).reissue = (5, 1, 0x1000, [1]) :: [] ∧ s.blk.muted 0 = true) := by decide +kernel

theorem witness_TimeSamples :
    1000000000 ≤ 4294967295 ∧ (on busy fun b => { b with time := { b.time with holdover := false } }).blk.time.holdover = false ∧
    (let s := on busy fun b => { b with time := { b.time with timeValid := true, sinceSample := 20 } }
     s.blk.time.timeValid = true ∧ 20 ≤ s.blk.time.sinceSample) ∧
    [(5000001 : BitVec 64), 5000002, 4999998, 4999000, 4998999].all (fun n =>
      let s := on busy fun b => { b with time := { b.time with timeValid := true, synced := true, sched := n } }
      s.blk.time.synced && !s.blk.time.hold && !s.blk.time.slew && s.blk.time.sched == n) = true ∧
    (BitVec.ofNat 64 (5 * 1000000 + 999 / 1000)).toNat = 5000000 ∧
    (on busy fun b => { b with mode := { b.mode with porstLow := true } }).blk.mode.porstLow = true ∧
    (let s := busy
     s.pending = [] ∧ s.blk.ox.units = [] ∧ s.blk.lat.units = [] ∧ s.blk.time.holdover = true) ∧
    ([(true, false), (false, true), (false, false)].all fun x =>
      let s := on busy fun b => { b with time := { b.time with holdover := false, hold := x.1, slew := x.2, slewPhase := 99, absorbLeft := 1, absorb := -1 } }
      s.pending.isEmpty && s.blk.ox.units.isEmpty && s.blk.lat.units.isEmpty && !s.blk.time.holdover && s.blk.time.hold == x.1 &&
        s.blk.time.slew == x.2) = true := by decide +kernel

/-- A set-up record that passes every check, its bounds as given. -/
def setupOk (sizes : BitVec 64) : List (BitVec 64) := [0x10000, 0x20000, 0x30000, sizes, 0x0000000700000009, 1000, 0, 0]

/-- Ring 1 DISABLED with a record of which the words of the mask are stored. -/
def setting (sizes : BitVec 64) (mask : BitVec 8) : State := host { setup := setupOk sizes, setupMask := mask }

theorem witness_RingSetup :
    ringTakes (setting 0x10404 0xFF) 1 1 = true ∧ ((setting 0x10404 0xFF).blk.ring 1).st = .disabled ∧ (setting 0x10404 0xFF).blk.setupCause 1 = 0 ∧
    ringTakes (setting 0x0404 0x7F) 1 0 = true ∧ (setting 0x0404 0x7F).blk.setupCause 1 ≠ 0 ∧ ((setting 0x0404 0x7F).blk.ring 1).setupMask ≠ 0xFF ∧
    ringTakes (setting 0x0403 0xFF) 1 1 = true ∧ field (((setting 0x0403 0xFF).blk.ring 1).sw 3) 4 0 < 4 ∧
    20 < field (((setting 0x0415 0xFF).blk.ring 1).sw 3) 4 0 ∧
    ringTakes busy 1 1 = true ∧ (busy.blk.ring 1).st = .running ∧ busy.blk.forwarding (StateItem.stops 1) = false ∧
    (let s := on busy fun b => { b with twin := { b.twin with forwarded := [(7, .stop 1)] } }
     ringTakes s 1 1 = true ∧ s.blk.forwarding (StateItem.stops 1) = true) := by decide +kernel

/-- Ring 1 as given, at a doorbell, a push, a retraction, a stop or a consumption. -/
def takes (r : RingRec) : Bool :=
  ringTakes (host r) 1 1 && ((host r).blk.role ((host r).blk.ownerD 1)).executes && decide ((host r).blk.route ((host r).blk.ownerD 1) = .apply)

/-- The third push slot with all of its words but the first. -/
def pushed (r : RingRec) : RingRec := { r with push := (List.replicate 4 {}).set 1 { mask := 0xFE } }

theorem witness_Submission :
    [{ ring 5 3 2 1 1 with st := .fault }, { ring 5 3 2 1 1 with poll := true }, { ring 5 3 2 1 1 with st := .disabled },
      { ring 5 3 2 1 1 with st := .stopping }, { ring 5 3 2 1 1 with st := .halted }, ring 5 3 2 1 1].all takes = true ∧
    (((5 : Index) - 2).toNat ≤ ((18 : Index) - 2).toNat ∧ ((18 : Index) - 2).toNat ≤ 2 ^ (ring 5 3 2 1 1).subLog2) ∧
    (((4 : Index) - 2).toNat < ((5 : Index) - 2).toNat ∧ ((4 : Index) - 2).toNat ≤ 2 ^ (ring 5 3 2 1 1).subLog2) ∧
    2 ^ (ring 5 3 2 1 1).subLog2 < ((19 : Index) - 2).toNat ∧
    [pushed (ring 5 3 2 1 1), pushed (ring 5 5 2 1 1), pushed { ring 5 5 2 1 1 with poll := true }, pushed { ring 5 5 2 1 1 with st := .fault }].all takes = true ∧
    (nth {} (pushed (ring 5 5 2 1 1)).push 1).mask ||| BitVec.ofNat 8 (2 ^ 0) = 0xFF ∧ (nth {} (ring 5 5 2 1 1).push 1).mask ||| BitVec.ofNat 8 (2 ^ 7) ≠ 0xFF ∧
    ((5 : Index) + 1 - 2).toNat ≤ 2 ^ (ring 5 5 2 1 1).subLog2 ∧ 1 = (5 : Index).toNat % 4 ∧ (3 : Index) ≠ 5 ∧
    (host (pushed (ring 5 5 2 1 1))).blk.fetchAllowed ((host (pushed (ring 5 5 2 1 1))).blk.ownerD 1) = true ∧
    1 ≤ (host (pushed (ring 5 5 2 1 1))).blk.room 1 ∧
    (let r := pushed { ring 5 5 2 1 1 with burst := some { first := 3, count := 2, poll := false } }
     takes r = true ∧ r.burst.isSome = true ∧ (host r).blk.fetchAllowed 1 = true ∧ 1 ≤ (host r).blk.room 1) := by decide +kernel

theorem witness_RetractionAndStop :
    [ring 5 3 2 1 1, { ring 5 3 2 1 1 with st := .fault }, { ring 5 3 2 1 1 with poll := true }, { ring 5 3 2 1 1 with st := .disabled },
      { ring 5 3 2 1 1 with st := .stopping }, { ring 5 3 2 1 1 with st := .halted }].all takes = true ∧
    ((4 : Index) - 2).toNat < ((5 : Index) - 2).toNat ∧ ((5 : Index) - 2).toNat ≤ ((5 : Index) - 2).toNat ∧
    (host (ring 5 3 2 1 1)).blk.entries = [] ∧ (ring 5 3 2 1 1).burst = none ∧ (ring 5 3 2 1 1).held = [] ∧ (ring 5 3 2 1 1).failedW = [] ∧
    (ring 5 3 2 1 1).sig = [] ∧ (host (ring 5 3 2 1 1)).blk.writing 1 = false ∧
    (host (ring 5 3 2 1 1)).blk.forwarding (StateItem.stops 1) = false ∧ (host (ring 5 3 2 1 1)).blk.forwarding (StateItem.retracts 1) = false ∧
    (let s := on (host (ring 5 3 2 1 1)) fun b =>
       Block.modTw { b with twin := { b.twin with record := true }, img := { b.img with inForce := { b.img.inForce with
         parts := b.img.inForce.parts.map fun x => (x.1, { x.2 with paired := true }) } } } 1 fun t => { t with role := .standby }
     ringTakes s 1 1 = true ∧ s.blk.role (s.blk.ownerD 1) = .standby) := by decide +kernel

theorem witness_Consumption :
    takes (ring 5 3 2 2 1) = true ∧ ((2 : Index) - 1).toNat ≤ ((2 : Index) - 1).toNat ∧ ¬ ((3 : Index) - 1).toNat ≤ ((2 : Index) - 1).toNat ∧
    (ring 5 3 2 2 1).held = [] ∧ (ring 5 3 2 2 1).st ≠ .stopping ∧ (host (ring 5 3 2 2 1)).blk.role ((host (ring 5 3 2 2 1)).blk.ownerD 1) ≠ .standby := by
  decide +kernel

/-- A fetch burst of one entry, and a failure of its reads. -/
def burst1 (poll : Bool) : Burst := { first := 3, count := 1, poll }
def failed1 (twice : Bool) : Failed := { due := 5, port := 1, purpose := .fetch 1, addr := 64, data := [1, 2], reads := [(1, 128, 64)], twice }

theorem witness_Fetching :
    (let r := { ring 5 3 2 1 1 with poll := true, pollAt := 5 }
     r.st = .running ∧ r.pollDue = false ∧ r.burst = none ∧ r.pollAt ≤ (host r).blk.time.interval) ∧
    (let b := busy.blk
     b.partitions = [1] ∧ b.partEligible 1 = true ∧ (b.part 1).inRound = false ∧ b.liveRings 1 = [1] ∧ b.ringEligible 1 = true ∧
       (b.ring 1).inRound = false ∧ b.waitingPushes 1 = [] ∧ (b.ring 1).poll = false ∧ 0 < b.burstCount 1) ∧
    (let b := (host { ring 5 4 2 1 1 with burst := some (burst1 false) }).blk
     (b.ring 1).burst = some (burst1 false) ∧ (burst1 false).locked = false ∧ (b.ring 1).burstWaits = false ∧ (b.ring 1).tw.committed = []) ∧
    (let b := (host { ring 3 3 2 1 1 with poll := true, burst := some (burst1 true) }).blk
     (b.ring 1).burst = some (burst1 true) ∧ (b.ring 1).burstWaits = false ∧ (b.ring 1).st = .running ∧
       (flag (bit (word32 (List.replicate 64 0) 0) 31) ≠ phaseOf (b.ring 1).subLog2 (b.ring 1).f) ∧
       64 * (burst1 true).count = (List.replicate 64 (0 : Byte)).length) ∧
    (failed1 false).out = false ∧ (failed1 false).due ≤ busy.blk.time.interval ∧ (busy.blk.part 1).tw.stopped = false ∧
    (let b := (host { ring 5 3 2 1 1 with failedF := some (failed1 false) }).blk
     (b.ring 1).failedF = some (failed1 false) ∧ (failed1 false).twice = false ∧ (b.ring 1).failedW = []) ∧
    (let b := (host { ring 5 3 2 1 1 with failedW := [failed1 false] }).blk
     (b.ring 1).failedW = [failed1 false] ∧ (b.ring 1).failedF = none) ∧
    (let b := (host { ring 5 3 2 1 1 with st := .fault, failedW := [failed1 true] }).blk
     (b.ring 1).failedW = [failed1 true] ∧ (failed1 true).twice = true ∧ (b.ring 1).failedF = none) ∧
    (let b := (host { ring 5 3 2 1 1 with st := .fault, failedF := some (failed1 true) }).blk
     (b.ring 1).st = .fault ∧ (b.ring 1).failedF = some (failed1 true) ∧ (b.ring 1).burst = none ∧ (b.ring 1).poll = false ∧
       (b.ring 1).failedW = [] ∧ b.fetchAllowed 1 = true ∧ 0 < b.burstCount 1) ∧
    (let x : Failed := { failed1 true with out := true, req := 3 }
     let s := waits (host { ring 5 3 2 1 1 with st := .fault, failedW := [x] }) .write (.shadow 1)
     s.blk.mode.porstLow = false ∧ (s.blk.mport.outst.find? fun y => y.id == 3) = some (request .write (.shadow 1)) ∧
       (s.blk.ring 1).failedW = [x] ∧ x.out = true ∧ x.req = 3 ∧ (s.blk.ring 1).failedF = none) := by decide +kernel
/-! ## Interrupts, the lock and the path of an entry -/

/-- Ring 1 on vector 2, which stands as given. -/
def vector (x : IrqVec) : State := on (host { ring 5 3 2 1 1 with vector := 2 }) fun b => { b with irq := [(2, x)] }

/-- Partition 1 with vector 2 alone, as given. -/
def oneVector (x : IrqVec) : State := on (vector x) fun b => { b with
  img := { b.img with inForce := { b.img.inForce with parts := b.img.inForce.parts.map fun y => (y.1, { y.2 with vecFirst := 2, vecCount := 1 }) } } }

/-- Partition 1 changed. -/
def part1 (s : State) (f : PartRec → PartRec) : State := on s fun b => b.modPart 1 f

theorem witness_InterruptModeration :
    ringTakes (vector {}) 1 1 = true ∧ (vector {}).blk.ringVector 1 = some 2 ∧ ((vector {}).blk.vec 2).pending = 0 ∧
    ((vector { pending := 1, due := true }).blk.vec 2).due = true ∧ (vector {}).blk.mode.porstLow = false := by decide +kernel

theorem witness_InterruptMessages :
    (let s := vector { ctl := 0, pending := 1, addr := 0x1000 }
     0 < (s.blk.vec 2).pending ∧ max (s.blk.vec 2).countThresh 1 ≤ (s.blk.vec 2).pending ∧ (s.blk.vec 2).due = false ∧
       (s.blk.vec 2).ctl.getLsbD 0 = false ∧ s.blk.muted 2 = false ∧ (s.blk.part ((s.blk.vecOwner 2).getD 0)).asleep = false ∧
       (s.blk.vec 2).addr.toNat % 4 = 0) ∧
    (let s := vector { ctl := 0, pending := 1, addr := 0x1001 }
     0 < (s.blk.vec 2).pending ∧ max (s.blk.vec 2).countThresh 1 ≤ (s.blk.vec 2).pending ∧ (s.blk.vec 2).due = false ∧
       (s.blk.vec 2).ctl.getLsbD 0 = false ∧ s.blk.muted 2 = false ∧ (s.blk.vec 2).addr.toNat % 4 ≠ 0) ∧
    ((vector {}).blk.vec 2).pending = 0 ∧
    (let s := vector { ctl := 1, pending := 1, countThresh := 2, timeThresh := 100, firstAt := 99999999900 }
     max (s.blk.vec 2).countThresh 1 > (s.blk.vec 2).pending ∧ (s.blk.vec 2).firstAt + (s.blk.vec 2).timeThresh ≤ s.blk.time.interval ∧
       (s.blk.vec 2).ctl.getLsbD 0 = true) ∧
    (let s := vector { ctl := 1, pending := 1, due := true }
     s.blk.mode.porstLow = false ∧ (s.blk.vec 2).ctl.getLsbD 0 = true ∧ (s.blk.vec 2).due = true ∧ s.blk.muted 2 = false ∧
       (s.blk.part ((s.blk.vecOwner 2).getD 0)).asleep = false ∧ (s.blk.vec 2).addr.toNat % 4 = 0 ∧
       (0xFFFFFFFE : BitVec 64).getLsbD 0 = false) ∧
    (let s := oneVector { ctl := 0, pending := 1, wake := true }
     partTakes s 1 1 = true ∧ s.blk.vecsOf 1 = [2] ∧ s.blk.vecOwner 2 = some 1 ∧ (s.blk.vec 2).ctl.getLsbD 0 = false ∧
       (s.blk.vec 2).addr.toNat % 4 = 0 ∧ 0 < (s.blk.vec 2).pending ∧ (s.blk.part 1).asleep = false ∧ (s.blk.vec 2).woke = false ∧
       (s.blk.vec 2).wake = true ∧ (s.blk.part 1).tw.stopped = false) ∧
    (let s := oneVector { ctl := 0, pending := 1 }
     partTakes s 1 0 = true ∧ s.blk.vecsOf 1 = [2] ∧ (s.blk.vec 2).wake = false) ∧
    (let s := part1 (oneVector { ctl := 0, pending := 1, due := true }) fun q => { q with asleep := true }
     partTakes s 1 1 = true ∧ s.blk.vecsOf 1 = [2] ∧ s.blk.vecOwner 2 = some 1 ∧ (s.blk.part 1).asleep = true ∧ (s.blk.vec 2).due = true ∧
       0 < (s.blk.vec 2).pending ∧ (s.blk.part 1).tw.stopped = false) := by decide +kernel

/-- Partition 1 with its lock as given. -/
def locked (l : KmLock) : State := part1 busy fun q => { q with lock := l }

theorem witness_KeyManagementLock :
    [{}, { held := true, holder := 1, ends := 5 }, { held := true, holder := 2, ends := 5 }].all (fun l =>
      let b := (locked l).blk
      partTakes (locked l) 1 1 && decide (b.route 1 = .apply) && decide (b.owner 1 = some 1) && decide ((b.ring 1).st = .running) &&
        decide ((b.part 1).lock = l) && !b.forwarding (StateItem.locks 1)) = true ∧ 5 < busy.blk.time.interval ∧ 1 < 65536 ∧ 999 < 2 ^ 24 := by decide +kernel

/-- A completion of entry 2 of ring 1. -/
def completion1 : Completion := { ring := 1, tag := 5, status := 0x30, detail := 1, engine := 7, outLen := 3, sub := 2, result := 9, irq := false }

theorem witness_CompletionWritten :
    let b := busy.blk
    let r := b.ring 1
    r.held = [] ∧ r.failedW = [] ∧ r.st = .running ∧ (b.part (b.ownerD 1)).tw.stopped = false ∧ completion1.bytes = none ∧
    completion1.slot = none ∧ completion1.overrun = false ∧ b.entry? 1 2 = none ∧
    (let x : Signal := { q := 1, raises := false, port := 1 }
     let s := waits (host { ring 5 3 2 2 1 with sig := [x] }) .write (.completion 1 1)
     s.blk.mode.porstLow = false ∧ (s.blk.mport.outst.find? fun y => y.id == 3) = some (request .write (.completion 1 x.q)) ∧
       (s.blk.ring 1).sig = [x] ∧ x.raises = false ∧ (s.blk.ring 1).st = .running ∧ (s.blk.ring 1).held = [] ∧ (s.blk.ring 1).failedW = [] ∧
       (s.blk.part (s.blk.ownerD 1)).tw.stopped = false) := by decide +kernel

/-- Partition 1 with credit, and one entry of ring 1. -/
def one (e : Entry) : State := part1 (host (ring 5 3 2 1 1) [e]) fun q => { q with balance := List.replicate 7 100 }

/-- A keyless hash of 64 bytes, and the same with a length that check 2 refuses. -/
def hashOf64 (dst : Nat) : Desc := { family := 2, op := 1, var := 2, srcLen := 64, srcAddr := 0x1004, dstLen := dst, dstAddr := 0x5000 }

theorem witness_CreditAndStaging :
    (let e := entry .credit (hashOf64 32)
     let b := (one e).blk
     b.stagingWait 1 = none ∧ b.creditNext 1 = some e ∧ b.entry? 1 2 = some e ∧ b.check2 e (b.codeOf 1 e.d.k1) = none ∧
       0 < nth 0 (b.part 1).balance e.d.engineClass) ∧
    ([true, false].all fun lent =>
      let e := entry .credit { family := Fam.move, op := 1, srcLen := 2, dstLen := 2 }
      let b := (on (part1 (one e) fun q => { q with balance := List.replicate 7 0 }) fun b => { b with
        sched := { b.sched with caps := List.replicate 7 (if lent then 10 ^ 9 else 0) }
        img := { b.img with inForce := { b.img.inForce with parts := b.img.inForce.parts.map fun x => (x.1, { x.2 with maxShare := 32768 }) } } }).blk
      b.stagingWait 1 == none && b.creditNext 1 == some e && b.check2 e (b.codeOf 1 e.d.k1) == none &&
        decide (nth 0 (b.part 1).balance e.d.engineClass ≤ 0) && b.mayBorrow 1 e.d.engineClass == lent) = true ∧
    (let e := entry .credit (hashOf64 31)
     let b := (one e).blk
     b.stagingWait 1 = none ∧ b.creditNext 1 = some e ∧ (b.check2 e (b.codeOf 1 e.d.k1)).isSome = true) ∧
    (let e := entry .staging (hashOf64 32)
     let b := (one e).blk
     b.stagingWait 1 = some e ∧ b.entry? 1 2 = some e ∧ b.mayReserve 1 e.d.stagingLines = true ∧ e.d.rangeFault = none ∧ e.d.auxLen = 0 ∧
       0 < e.d.srcLen) := by decide +kernel

/-- A list with one entry of n bytes that ends it, and one with no end. -/
def listOf (n : Nat) (last : Bool) : Bytes := toLE 8 0x8000 ++ toLE 4 n ++ toLE 4 (if last then 1 else 0)

theorem witness_InputReturns :
    (let d : Desc := { hashOf64 32 with srcSg := true }
     let b := (one (entry .lists d)).blk
     b.entry? 1 2 = some (entry .lists d) ∧
       (match d.readLists (listOf 64 true) [] with | .ok x => x.1.length == 1 | .error _ => false) = true ∧
       (match d.readLists (listOf 63 true) [] with | .ok _ => false | .error f => f.1.status != St.malformed) = true) ∧
    (let e := entry .gather { family := Fam.move, op := 1, srcLen := 2, dstLen := 2 }
     (one e).blk.entry? 1 2 = some e ∧ [1, 2].length = (if e.d.srcPrev then 0 else e.d.srcLen) ∧ ([] : Bytes).length = e.d.auxLen) ∧
    (let e := entry .gather { family := Fam.pk, op := 1, srcLen := 2, dstLen := 2 }
     (one e).blk.entry? 1 2 = some e) := by decide +kernel

/-- A copy whose output is being written. -/
def written (stage : Stage) : Entry :=
  { entry stage { family := Fam.move, op := 1, srcLen := 3, dstLen := 3, dstAddr := 0x10FE } with res := some { out := [1, 2, 3] } }

theorem witness_OutputAndTimeLimit :
    ([[request .write (.output 1 2)], [request .write (.output 1 2), { request .write (.output 1 2) with id := 4 }]].all fun rs =>
      let s := on (one (written .writing)) fun b => { b with mport := { b.mport with outst := rs } }
      !s.blk.mode.porstLow && s.blk.entry? 1 2 == some (written .writing) &&
        (s.blk.mport.outst.find? fun y => y.id == 3) == some (request .write (.output 1 2)) &&
        (s.blk.retireReq (request .write (.output 1 2))).awaits (.output 1 2) == decide (rs.length = 2)) = true ∧
    0 < [(1 : Byte), 2, 3].length ∧ [(1 : Byte), 2, 3].length ≤ (written .writing).d.dstLen ∧ (written .writing).d.dstSg = false ∧
    (one (written .readback)).blk.entry? 1 2 = some (written .readback) ∧
    (let e : Entry := { entry .dispatched (hashOf64 32) with dispatchedAt := some 99980000000 }
     (one e).blk.entry? 1 2 = some e ∧ 99980000000 + 20000000 ≤ (one e).blk.time.interval ∧ e.d.family ≠ Fam.pk ∧ e.d.family ≠ Fam.lat) ∧
    ([(3, 1), (3, 0), (4, 1), (4, 0)].all fun x =>
      let e : Entry := { entry .dispatched { hashOf64 32 with family := x.1 } with dispatchedAt := some (99980000000 - x.2), res := if x.2 = 0 then some {} else none }
      (one e).blk.entry? 1 2 == some e && decide (99980000000 - x.2 + 20000000 ≤ (one e).blk.time.interval) && e.resultStands == decide (x.2 = 0)) = true ∧
    (let e : Entry := { entry .queued (hashOf64 32) with dispatchedAt := some 99980000001 }
     (one e).blk.entry? 1 2 = some e ∧ (one e).blk.time.interval < 99980000001 + 20000000) := by decide +kernel

theorem witness_NopAndMove :
    (let e := entry .queued { family := Fam.nop, param := 9 }
     (one e).blk.entry? 1 2 = some e ∧ (one e).blk.ordered e = true ∧ e.d.var ≤ 4) ∧
    [0, 1, 2, 3, 4].all (fun v =>
      let e := { entry .queued { family := Fam.move, op := 1, var := v, srcLen := 8, dstLen := 8, dstAddr := 0x2000 } with src := [1, 2, 3, 4, 5, 6, 7, 8] }
      (one e).blk.ordered e && e.d.dstLen == e.src.length && decide (0 < e.d.dstLen)) = true ∧
    [(4, 12), (0, 1)].all (fun x =>
      let e := entry .queued { family := Fam.move, op := 2, var := x.1, dstLen := x.2, dstAddr := 0x2000, param := 7 }
      (one e).blk.ordered e) = true ∧ 12 % 8 ≠ 0 := by decide +kernel

theorem witness_ServiceFrames :
    (let s := on busy fun b => { b with sched := { b.sched with frameAt := 99999999950, periodFrames := 1000, satCount := [1, 501, 500, 1000, 0, 0, 0] } }
     s.blk.mode.ready = true ∧ s.blk.sched.frameAt + 50 ≤ s.blk.time.interval ∧ 1000 ≤ s.blk.sched.periodFrames ∧ s.blk.sched.satCount.length = 7) := by
  decide +kernel
/-! ## Engines -/

/-- The bytes 1 to 16, and a key copied from slot 16 with them as its secret. -/
def k16 : Bytes := [1, 2, 3, 4, 5, 6, 7, 8, 9, 10, 11, 12, 13, 14, 15, 16]
def keyCopy (code : Nat) : KeyCopy := { slot := 16, gen := 1, slotRec := { st := .live, code, secret := k16, chain := 1 } }

/-- A dispatched entry of an engine, on two blocks of input, with PARAM as given. -/
def job (family op var : Nat) (aux : Bytes) (param : Nat) (code : Nat := 5) : Entry :=
  { entry .dispatched { family, op, var, srcLen := 32, dstLen := 32, auxLen := aux.length, param, key1 := 16 + 2 ^ 24 } with
    engine := 3, keys := [keyCopy code], src := k16 ++ k16, aux }

/-- Lane 3 at work on an entry. -/
def lane3 (e : Entry) : State := on (host (ring 5 3 2 1 1) [e]) fun b => { b with
  lanes := { b.lanes with units := [(3, { role := .data 0, job := some (.entry 1 2) })] } }

/-- Unit u at work on an entry. -/
def unit (u : Nat) (e : Entry) (x : MathUnit := { checked := true }) : State := on (host (ring 5 3 2 1 1) [e]) fun b => { b with
  ox := { b.ox with units := [(u - 112, { x with job := some (.entry 1 2) })] }, lat := { b.lat with units := [(u - 168, { x with job := some (.entry 1 2) })] } }

/-- Whether an entry is at work on a lane or a unit. -/
def worksOn (s : State) (j : Option Job) (family op : Nat) (e : Entry) : Bool :=
  decide (j = some (.entry e.ring e.sub)) && decide (s.blk.entry? e.ring e.sub = some e) && decide (e.stage = .dispatched) && decide (e.res = none) &&
    e.d.family == family && e.d.op == op

/-- What `worksOn` decides is the statements' premise. -/
theorem worksOn_sound {s : State} {j : Option Job} {family op : Nat} {e : Entry} (h : worksOn s j family op e = true) : s.blk.WorksOn j family op e := by
  simp only [worksOn, Bool.and_eq_true, decide_eq_true_eq, beq_iff_eq] at h
  exact ⟨h.1.1.1.1.1, h.1.1.1.1.2, h.1.1.1.2, h.1.1.2, h.1.2, h.2⟩

/-- Lane 3 runs a job of its family and operation. -/
def runs3 (e : Entry) : Bool := worksOn (lane3 e) ((lane3 e).blk.lane 3).job e.d.family e.d.op e

theorem witness_LaneCiphers :
    [1, 2].all (fun op => [(0, [], 0), (1, k16, 0), (2, k16, 0), (3, k16, 0), (4, k16, 0), (5, k16, 32), (6, k16, 12), (7, k16, 13)].all fun x =>
      runs3 (job 1 op x.1 x.2.1 x.2.2)) = true ∧
    (let e := job 1 2 6 (k16.take 12) 12
     runs3 e = true ∧ (Modes.gcmTag (Modes.aes k16) (k16.take 12) [] e.src).take e.d.tagLen = slice 12 e.d.tagLen e.aux) ∧
    (let e := job 1 2 6 (k16.take 12) (12 + 16 * 256)
     runs3 e = true ∧ (Modes.gcmTag (Modes.aes k16) (k16.take 12) [] e.src).take e.d.tagLen ≠ slice 12 e.d.tagLen e.aux) ∧
    (let e := job 1 2 7 (k16.take 13) 13
     runs3 e = true ∧ Modes.ccmTag (Modes.aes k16) (k16.take 13) [] [] e.d.tagLen = []) ∧
    (let c : Modes.Cipher := { b := 16, enc := id, dec := id }
     0 < c.b ∧ k16.length = c.b ∧ (k16 ++ k16).length % c.b = 0) := by decide +kernel

/-- A cipher that leaves its blocks alone meets the premises on ciphers. -/
theorem witness_cipher (c : Modes.Cipher) (h : c = { b := 16, enc := id, dec := id }) :
    (∀ x, x.length = c.b → (c.enc x).length = c.b) ∧ ∀ x : Bytes, x.length = c.b → c.dec (c.enc x) = x := by subst h; exact ⟨fun _ h => h, fun _ _ => rfl⟩

theorem witness_LaneDigests :
    Hash.ofCode (2 % 16) = some .sha256 ∧
    [job 2 1 2 [] 0, job 2 5 2 [] 0, job 2 2 2 k16 0, job 2 3 2 [] 16 1, job 2 4 2 k16 16 1, job 2 3 0x20 [] 16, job 2 4 0x20 k16 16, job 2 3 0x21 [] 8 1,
      job 2 4 0x22 k16 8 1].all (fun e => runs3 e && e.d.stage == 0 && !e.d.ctxUse) = true ∧
    (let e : Entry := { job 2 2 9 [] 0 with d := { family := 2, op := 2, var := 9, dstLen := 0 } }
     runs3 e = true ∧ (Hash.ofCode 9).map (fun h => Hash.xof h e.src e.d.dstLen) = some e.aux) ∧
    (let e : Entry := { job 2 2 9 k16 0 with d := { family := 2, op := 2, var := 9, dstLen := 0 } }
     runs3 e = true ∧ (Hash.ofCode 9).map (fun h => Hash.xof h e.src e.d.dstLen) ≠ some e.aux) ∧
    (let e := job 2 4 0x20 [] 1
     runs3 e = true ∧ (Modes.cmac (Modes.aes k16) e.src).take (e.d.macLen 5) ≠ e.aux) ∧
    (let e := job 2 4 2 [] 1 1
     runs3 e = true ∧ (Hash.hmac .sha256 k16 e.src).take (e.d.macLen 1) ≠ e.aux) ∧
    (let e : Entry := { job 2 1 2 [] 0 with d := { family := 2, op := 1, var := 2, ctxUse := true, param := 2 ^ 62 } }
     runs3 e = true ∧ e.d.stage = 1) := by decide +kernel

/-- A MAC verification that carries the MAC itself. -/
theorem witness_LaneDigests_verifies (m n : Bytes) (hm : m = (Hash.hmac .sha256 k16 (k16 ++ k16)).take 8)
    (hn : n = (Modes.cmac (Modes.cipherOf 5 k16) (k16 ++ k16)).take 8) :
    ((lane3 (job 2 4 2 m 8 1)).blk.WorksOn (some (.entry 1 2)) Fam.hash 4 (job 2 4 2 m 8 1) ∧
      (Hash.hmac .sha256 k16 (job 2 4 2 m 8 1).src).take ((job 2 4 2 m 8 1).d.macLen 1) = (job 2 4 2 m 8 1).aux) ∧
    ((lane3 (job 2 4 0x20 n 8)).blk.WorksOn (some (.entry 1 2)) Fam.hash 4 (job 2 4 0x20 n 8) ∧
      (Modes.cmac (Modes.cipherOf 5 k16) (job 2 4 0x20 n 8).src).take ((job 2 4 0x20 n 8).d.macLen 5) = (job 2 4 0x20 n 8).aux) := by
  refine ⟨⟨⟨rfl, rfl, rfl, rfl, rfl, rfl⟩, ?_⟩, ⟨⟨rfl, rfl, rfl, rfl, rfl, rfl⟩, ?_⟩⟩
  · exact hm.symm
  · exact hn.symm

/-- A modular or RSA job on n = 2^63 + 1, with first operand a and the rest of the input and of AUX as given. -/
def pkJob (op : Nat) (a : Nat) (rest aux : Bytes) (var : Nat := 0) : Entry :=
  { entry .dispatched { family := 3, op, var, srcLen := 8 + rest.length, dstLen := 8, auxLen := 8 + aux.length, param := 2 } with
    engine := 112, src := toBE 8 a ++ rest, aux := toBE 8 (2 ^ 63 + 1) ++ aux }

/-- Unit u runs a job of a family past its check phase. -/
def checkedOn (u family : Nat) (e : Entry) : Bool :=
  worksOn (unit u e) ((unit u e).blk.mathJob u) family e.d.op e && ((unit u e).blk.mathUnit u).checked

/-- Unit u runs an OX job that check 5 has passed. -/
def runsPk (u : Nat) (e : Entry) : Bool := checkedOn u Fam.pk e && ((unit u e).blk.pkJob e).refusal.isNone

theorem witness_ModularArithmetic :
    [1, 2, 3, 4].all (fun op => runsPk 112 (pkJob op 5 (toBE 8 100) [])) = true ∧ runsPk 167 (pkJob 5 5 [] []) = true ∧
    runsPk 112 (pkJob 5 3 [] []) = true ∧ Nat.gcd 5 (2 ^ 63 + 1) = 1 ∧ Nat.gcd 3 (2 ^ 63 + 1) ≠ 1 ∧
    ofBE ((pkJob 5 3 [] []).aux.take 8) = 2 ^ 63 + 1 := by decide +kernel

/-- An operation on AUX with nothing drawn and no input. -/
def drawing (family op var : Nat) (param : Nat) (aux rnd : Bytes) : Entry :=
  { entry .dispatched { family, op, var, auxLen := aux.length, dstLen := 128, param } with engine := 112, aux, rnd }

theorem witness_PublicKeyOperations :
    (let e := pkJob 0x10 5 [] (toBE 8 3)
     runsPk 112 e = true ∧ ((unit 112 e).blk.pkJob e).needs e.rnd = none) ∧
    (let e := drawing 3 0x23 1 0 [] []
     runsPk 112 e = true ∧ ((unit 112 e).blk.pkJob e).needs e.rnd = some (2, 32) ∧ e.asked = false ∧ (unit 112 e).blk.hen.phase ≠ .stopped) ∧
    (let e := drawing 4 0x11 1 0 [] (zeros 32)
     checkedOn 187 Fam.lat e = true ∧ (∀ y ∈ e.d.latDraw, y.2 ≤ e.rnd.length) ∧ (e.latResult ((unit 187 e).blk.input e)).isSome = true) ∧
    (let e := drawing 3 0x14 0 32 (toBE 8 65537) []
     runsPk 167 e = true ∧ e.rnd.length < 2 * e.d.words) ∧
    (let e : Entry := { drawing 3 0x14 0 32 (toBE 8 65537) (zeros 64) with primes := [7, 11] }
     runsPk 167 e = true ∧ 2 * e.d.words ≤ e.rnd.length ∧ (e.tryCandidate e.d.words (ofBE e.aux)).primes = [7, 11]) := by decide +kernel

/-- Lanes 3 and 4 carry personalities 0 and 1, of at most one lane each, with entry 2 of ring 1 waiting for personality 0. -/
def lanes34 (e : Entry) (x y : LaneRec) : State := on (host (ring 5 3 2 1 1) [e]) fun b => { b with
  health := { b.health with units := [(3, { st := .inService }), (4, { st := .inService })] }
  img := { b.img with inForce := { b.img.inForce with pers := List.replicate 2 { id := 1, cls := 0, maskOrder := 1, minLanes := 0, maxLanes := 1, initial := 1 } } }
  lanes := { b.lanes with units := [(3, x), (4, y)], pers := [{ queue := [{ job := .entry 1 2 }] }, {}] } }

/-- A lane that carries personality p. -/
def carries (p : Nat) : LaneRec := { role := .data p, seeded := true }

/-- Everything that lets lane 3 take the entry. -/
def dispatches (e : Entry) : Bool :=
  let b := (lanes34 e (carries 0) (carries 1)).blk
  let i : QItem := { job := .entry 1 2 }
  decide ((b.persState 0).queue = [] ++ i :: []) && b.mayDispatch i.job && !i.retry && decide (b.entry? 1 2 = some e) && !e.refsHeld &&
    !b.unservable 0 && argMin (fun m => ((b.lane m).idleSince : Int)) (((b.carriers 0).filter fun m => !(i.excluded.contains m)).filter fun m =>
      (b.lane m).job.isNone && (b.lane m).hasMasks (b.maskNeed i.job)) == some 3

theorem witness_LaneDispatch :
    (let e : Entry := { entry .queued (hashOf64 32) with alg := 0, src := k16 }
     let b := (lanes34 e (carries 0) (carries 1)).blk
     dispatches e = true ∧ b.lateCheck2 e = none ∧ b.laneFault e = none ∧ e.dispatchedAt = none) ∧
    (let e : Entry := { entry .queued { hashOf64 32 with op := 3, key1 := 16 + 2 ^ 24 } with src := k16 }
     let b := (lanes34 e (carries 0) (carries 1)).blk
     dispatches e = true ∧ ((b.lateCheck2 e).or (b.laneFault e)).isSome = true) := by decide +kernel

/-- The governor of a place of 01 R26 has acted in this tick. -/
def governed (s : State) (place : Nat) : State := on s fun b => { b with sched := { b.sched with governor := (b.time.interval, place) } }

theorem witness_LanesAtWork :
    (let e : Entry := { entry .dispatched (hashOf64 32) with res := some {} }
     let s := lanes34 e { carries 0 with job := some e.job } (carries 1)
     (s.blk.lane 3).role = .data 0 ∧ (s.blk.lane 3).job = some e.job ∧ s.blk.entry? e.ring e.sub = some e ∧ (s.blk.lane 3).jobMism = none) ∧
    (let s := lanes34 (entry .dispatched (hashOf64 32)) { carries 0 with job := some (.entry 1 2), jobMism := some 5, jobRetry := [4] } (carries 1)
     (s.blk.lane 3).job = some (.entry 1 2) ∧ (s.blk.lane 3).jobMism = some 5 ∧ (s.blk.lane 3).jobRetry = [4]) ∧
    (let s := lanes34 (entry .queued (hashOf64 32)) { role := .loading 0, loadAt := 100000000000 } { role := .keyLoading, loadAt := 0 }
     s.blk.inService 3 = true ∧ (s.blk.lane 3).loadAt ≤ s.blk.time.interval ∧ (s.blk.lane 3).role = .loading 0 ∧
       s.blk.inService 4 = true ∧ (s.blk.lane 4).loadAt ≤ s.blk.time.interval ∧ (s.blk.lane 4).role = .keyLoading) ∧
    (let s := lanes34 (entry .queued (hashOf64 32)) (carries 1) (carries 1)
     s.blk.starved 0 = true ∧ s.blk.minDonor 0 = some 1 ∧ s.blk.donorLane 1 = some 3) ∧
    (governed busy 5).blk.governorFree 4 = false ∧
    (let s := governed (lanes34 (entry .queued (hashOf64 32)) (carries 0) (carries 1)) 4
     s.blk.mode.ready = true ∧ s.blk.governorFree 4 = true ∧ s.blk.lanes.evalAt + 50000 ≤ s.blk.time.interval ∧ 1 < s.blk.lanes.pers.length) ∧
    (laneType.units.foldl Block.countLane (on busy fun b => { b with lanes := { b.lanes with pers := [{}, {}] } }).blk).demand.sum = 0 := by decide +kernel

/-- Unit u and v in service with entry 2 of ring 1 in the queues. -/
def queued (u v : Nat) (e : Entry) : State := on (host (ring 5 3 2 1 1) [e]) fun b => { b with
  health := { b.health with units := [(u, { st := .inService }), (v, { st := .inService })] }
  ox := { b.ox with queue := [{ job := .entry 1 2 }], units := [(u - 112, { seeded := true }), (v - 112, { seeded := true, idleSince := 1 })] }
  lat := { b.lat with queue := [{ job := .entry 1 2 }], units := [(u - 168, { seeded := true }), (v - 168, { seeded := true, idleSince := 1 })] } }

/-- Unit u and another at the same job, the one as given and the other in service. -/
def withOther (u v : Nat) (e : Entry) (x : MathUnit := {}) : State := on (unit u e x) fun b => { b with
  health := { b.health with units := [(u, { st := .inService }), (v, { st := .inService })] } }

theorem witness_UnitsAtWork :
    (let e : Entry := { pkJob 1 5 (toBE 8 100) [] with stage := .queued }
     let b := (queued 112 113 e).blk
     b.entry? 1 2 = some e ∧ b.mayDispatch (.entry 1 2) = true ∧ e.refsHeld = false ∧ e.dispatchedAt = none ∧ b.longJob (.entry 1 2) = false ∧
       b.ox.queue = [] ++ { job := .entry 1 2 } :: [] ∧ b.unitFor oxType { job := .entry 1 2 } = some 112 ∧ b.oxFault e = none) ∧
    (let e : Entry := { drawing 4 0x02 1 0 (zeros 800) [] with stage := .queued, d := { family := 4, op := 2, var := 1, auxLen := 800, dstLen := 800 } }
     let b := (queued 168 169 e).blk
     b.entry? 1 2 = some e ∧ b.mayDispatch (.entry 1 2) = true ∧ b.lat.queue = [] ++ { job := .entry 1 2 } :: [] ∧
       b.unitFor latType { job := .entry 1 2 } = some 168 ∧ b.latFault e = none) ∧
    (let e := pkJob 1 5 (toBE 8 100) []
     let x := (unit 112 e {}).blk.mathUnit 112
     (unit 112 e {}).blk.entry? 1 2 = some e ∧ x.job = some (.entry 1 2) ∧ x.fatal = none ∧ e.stage = .dispatched ∧
       ((unit 112 e {}).blk.pkJob e).refusal = none ∧ x.jobMism = none) ∧
    (let e := pkJob 1 (2 ^ 63 + 1) (toBE 8 100) []
     ((unit 112 e).blk.pkJob e).refusal = some (0x40, 3)) ∧
    (let e := drawing 4 0x13 1 0 [] []
     e.latRefusal = none ∧ e.d.latDraw = none) ∧
    (let e := drawing 4 0x02 1 0 (zeros 800) []
     let x := (unit 168 e {}).blk.mathUnit 168
     x.job = some (.entry 1 2) ∧ x.fatal = none ∧ x.checked = false ∧ e.latRefusal = none ∧ e.d.latDraw = some (3, 32) ∧ e.asked = false ∧
       (unit 168 e {}).blk.hen.phase ≠ .stopped ∧
       (on (unit 168 e {}) fun b => { b with hen := { b.hen with phase := .stopped } }).blk.hen.phase = .stopped) ∧
    (drawing 4 0x02 1 0 (List.replicate 800 0xFF) []).latRefusal = some (0x40, 8) ∧
    (let b := (withOther 112 167 (pkJob 1 5 (toBE 8 100) [])).blk
     b.inService 167 = true ∧ (b.mathUnit 112).fatal = none ∧ (b.mathUnit 112).jobMism = none) ∧
    (withOther 168 187 (drawing 4 2 1 0 [] [])).blk.inService 187 = true ∧
    (∀ v, v < 188 → (unit 112 (pkJob 1 5 (toBE 8 100) [])).blk.inService v = false) ∧
    ((unit 112 (pkJob 1 5 (toBE 8 100) []) { jobMism := some 9, jobRetry := [113] }).blk.mathUnit 112).jobMism.isSome = true ∧
    (let e : Entry := { pkJob 1 5 (toBE 8 100) [] with res := some {} }
     (unit 112 e).blk.entry? 1 2 = some e ∧ e.d.op ≠ 0x14) ∧
    (let e : Entry := { drawing 3 0x14 0 32 (toBE 8 65537) (zeros 64) with res := some {}, dispatchedAt := some 9 }
     (unit 167 e).blk.entry? 1 2 = some e ∧ e.d.op = 0x14) ∧
    (let e : Entry := { drawing 4 0x12 1 0 [] [] with res := some {} }
     (unit 187 e).blk.entry? 1 2 = some e ∧ e.res = some {}) ∧
    (let s := withOther 187 186 (drawing 4 2 1 0 [] []) { wiping := true, verify := true }
     (s.blk.mathUnit 187).wiping = true ∧ (s.blk.mathUnit 187).verify = true ∧ s.blk.mode.wiping = false ∧ (s.blk.unit 187).st ≠ .spare) := by
  decide +kernel

/-! ## Payment functions and keys -/

/-- A key of a function: algorithm code, usage, mode of use and secret. -/
def payKey (code : Nat) (usage : String) (mode : Nat) (secret : Bytes) : KeyCopy :=
  { slot := 16, gen := 1, slotRec := { st := .live, code, usage := ascii usage, mode, secret, chain := 1 } }

/-- A PAN record of sixteen digits. -/
def panRecord : Bytes := [16, 0x12, 0x34, 0x56, 0x78, 0x90, 0x12, 0x34, 0x56, 0xFF, 0xFF, 0, 0, 0, 0, 0]

/-- A dispatched payment function on one block of input. -/
def payment (op var : Nat) (keys : List KeyCopy) (aux src : Bytes) : Entry :=
  { entry .dispatched { family := 5, op, var, srcLen := src.length, auxLen := aux.length, dstLen := 8, key1 := 16, param := 17 } with engine := 188, keys, aux, src }

/-- Context 1 of core 0 runs the function, all its calls behind it. -/
def paying (e : Entry) (x : Ctx14 := { run := 1000000 }) : State := function x e

/-- The function's context waits for nothing and its keys serve it. -/
def paysOn (e : Entry) (x : Ctx14 := { run := 1000000 }) : Bool :=
  let b := (paying e x).blk
  let y := b.cx 0 1
  decide (y.fn = some (1, 2)) && decide (b.entry? 1 2 = some e) && decide (e.stage = .dispatched) && y.call.isNone && !y.block &&
    (y.run != 0 || (b.payAttr e).isNone) && (b.payReadFault 0 1 e (b.input e)).isNone

/-- What the function does next, its fill drawn. -/
def nextStep (e : Entry) (x : Ctx14 := { run := 1000000 }) : Option PayStep :=
  let b := (paying e x).blk
  let y := b.cx 0 1
  if e.d.op = 0x40 ∧ e.fieldFault = true then none
  else Entry.payStep { e with rnd := bankRead y.bank 0x600 (Pay.fillBytes ((e.formats.2).getD 0)) } (b.input e) y.run

/-- The function has made its calls and its record is in order. -/
def sound (e : Entry) : Bool := paysOn e && (nextStep e).isNone && e.recordFault.isNone

/-- A key of 32 bytes. -/
def mk32 : Bytes := k16 ++ k16

def pinIn : KeyCopy := payKey 1 "P0" 0x44 k16
def pinOut : KeyCopy := payKey 1 "P0" 0x45 k16
def bdkT : KeyCopy := payKey 2 "B0" 0x58 (k16 ++ k16.take 8)
def bdkA : KeyCopy := payKey 5 "B0" 0x58 k16
def emv1 : KeyCopy := payKey 1 "E0" 0x58 k16

/-- The records of the functions. -/
def verifyAux : Bytes := panRecord ++ [1, 2, 3, 4, 5, 6, 7, 8, 4] ++ zeros 7
def pvvAux : Bytes := panRecord ++ [1, 0x12, 0x34] ++ zeros 13
def ksnT (dir typ fmt len : Byte) : Bytes := [0xFF, 0xFF, 1, 2, 3, 4, 5, 6, 0, 1, 0, 0, dir, typ, fmt, len] ++ zeros 16 ++ panRecord ++ zeros 16
def ksnA (dir typ fmt len : Byte) : Bytes := [1, 2, 3, 4, 5, 6, 7, 8, 0, 0, 0, 1, dir, typ, fmt, len] ++ zeros 16 ++ panRecord ++ zeros 16
def emvAux (arqc : Bytes) : Bytes := panRecord ++ [0, 0, 1] ++ zeros 5 ++ arqc ++ zeros 16

/-- A PIN block. -/
def pinBlock : Bytes := [127, 216, 24, 38, 53, 116, 228, 226]

theorem witness_PaymentDispatch :
    (let e : Entry := { payment 0x30 1 [] [] [] with stage := .queued }
     let s := on (host (ring 5 3 2 1 1) [e]) fun b => { b with
       health := { b.health with units := [(188, { st := .inService })] }
       pay := { b.pay with queue := [] ++ { job := .entry 1 2 } :: [], cores := [(0, { accepting := true })] }
       keys := { b.keys with slots := [(16, { st := .live, chain := 1 })] } }
     s.blk.pay.queue = [{ job := .entry 1 2 }] ∧ s.blk.mayDispatch (.entry 1 2) = true ∧ s.blk.entry? 1 2 = some e ∧ e.dispatchedAt = none ∧
       e.refsHeld = false ∧ argMax (fun v => ((s.blk.core v).freeCtxs.length : Int)) (s.blk.payCores { job := .entry 1 2 }) = some 0 ∧
       (s.blk.core 0).freeCtxs.head? = some 1 ∧ s.blk.payFault e = none ∧
       ((on s fun b => { b with keys := { b.keys with slots := [] } }).blk.payFault e).isSome = true) ∧
    (let s := core (.ctlNop 188 0) x1
     s.blk.inService 188 = true ∧ (∀ d, (s.blk.cx 0 d).fn = none) ∧ (s.blk.core 0).running = some 1 ∧ (s.blk.cx 0 1).cycles < 65536) ∧
    (core (.ctlNop 188 0) { x1 with cycles := 65536 }).blk.cx 0 1 = { x1 with cycles := 65536, st := .ready, pc := 0x100 } := by decide +kernel

theorem witness_PaymentFunctions :
    [payment 0x01 0 [pinIn, pinOut] panRecord pinBlock, payment 0x02 0 [pinIn, payKey 1 "V1" 0x43 k16, payKey 0x60 "1D" 0x4E ([0, 1, 2, 3, 4, 5, 6, 7, 8, 9, 0, 1, 2, 3, 4, 5])] verifyAux pinBlock,
      payment 0x02 16 [pinIn, payKey 1 "V2" 0x43 k16] pvvAux pinBlock, payment 0x10 0 [bdkT] (ksnT 0 2 0 0) (zeros 8),
      payment 0x10 1 [bdkA] (ksnA 0 2 0 0) (zeros 16), payment 0x11 0 [bdkT, pinOut] (ksnT 0 2 0 0) pinBlock, payment 0x12 0 [bdkT] (ksnT 0 2 0 8) (zeros 8),
      payment 0x12 1 [bdkA] (ksnA 1 4 0 16) (zeros 16), payment 0x20 0 [emv1] (emvAux (zeros 8)) (zeros 8), payment 0x21 0 [emv1] (emvAux k16) (zeros 8),
      payment 0x21 16 [emv1] (emvAux k16) (zeros 8), payment 0x22 0 [payKey 1 "E2" 0x58 k16] (emvAux []) (zeros 8), payment 0x23 0 [emv1] (emvAux []) [],
      payment 0x30 1 [emv1] [] []].all sound = true ∧
    (payment 0x01 0 [pinIn, pinOut] panRecord pinBlock).formats = (some 0, some 0) ∧
    (payment 0x11 0 [bdkT, pinOut] (ksnT 0 2 0 0) pinBlock).formats = (some 0, some 0) ∧
    (let e := payment 0x21 2 [payKey 5 "E0" 0x58 mk32] (panRecord ++ zeros 8) (zeros 16)
     sound e = true ∧ Pay.emvMac 2 e.emvKey e.src ≠ slice 0x18 8 e.aux) ∧
    (let e := payment 0x02 0 [pinIn, payKey 1 "V1" 0x43 k16, payKey 0x60 "1D" 0x4E ([0, 1, 2, 3, 4, 5, 6, 7, 8, 9, 0, 1, 2, 3, 4, 5])] pvvAux pinBlock
     paysOn e = true ∧ nextStep e = none ∧ e.recordFault.isSome = true) ∧
    (let e := payment 0x01 0 [pinIn, pinOut] panRecord pinBlock
     paysOn e {} = true ∧ (nextStep e {}).isSome = true ∧ ((paying e { block := true }).blk.cx 0 1).block = true) ∧
    (let e := payment 0x01 0 [emv1, pinOut] panRecord pinBlock
     let b := (paying e {}).blk
     (b.cx 0 1).call = none ∧ (b.cx 0 1).block = false ∧ (b.cx 0 1).run = 0 ∧ (b.payAttr e).isSome = true) ∧
    (let e := payment 0x40 1 [] (zeros 8 ++ toLE 4 7856 ++ zeros 36) []
     sound e = true ∧ 0 < e.windows ∧ (1 : Fin 8) = ctxIx 1) ∧
    (let e := payment 0x40 1 [] (zeros 8 ++ toLE 4 7856 ++ zeros 36) []
     let x : Ctx14 := { run := 1, mcs := 0x302 }
     let b := (paying e x).blk
     b.entry? 1 2 = some e ∧ (b.cx 0 1).call = none ∧ (b.cx 0 1).block = false ∧ (b.cx 0 1).run = 0 + 1 ∧
       e.payStep (b.input e) 0 = some (.read 0 7856) ∧ (b.cx 0 1).mcs.getLsbD 1 = true ∧ field (b.cx 0 1).mcs.toNat 15 8 % 64 = 3) := by
  decide +kernel

/-- Where its PIN block opens to a field in order, or to one that is not, PIN_TRANSLATE meets the premises of the one clause or the other. -/
theorem witness_PaymentFunctions_pin (o : Bytes) (ho : o = Pay.pinOpen 0 (Modes.tdea k16) [1, 2, 3, 4, 5, 6, 7, 8, 9, 0, 1, 2, 3, 4, 5, 6] pinBlock) :
    let e := payment 0x01 0 [pinIn, pinOut] panRecord pinBlock
    sound e = true ∧ e.formats = (some 0, some 0) ∧ o = Pay.pinOpen 0 (Modes.cipherOf (e.payCode 0) (e.payKey 0)) e.pan e.src :=
  ⟨by decide +kernel, by decide +kernel, ho⟩

/-- A key block of the first partition under that key as the master key. -/
def keyBlock : Bytes := ascii "D0112D0AB00E000016D67113552E64982D5DA307EE611CBFDE34A220C86E9FBCAA4E554669F11294600E5CB2604F67A8C23B88A2C34380EA"

/-- What the block holds beside the key `k16`. -/
def header1 : KeyBlock.Header := { version := 0x44, usage := ascii "D0", alg := 0x41, mode := 0x42, kvn := ascii "00", exportc := 0x45, blocks := [] }

/-- A job of the key lane on input and AUX given, under K1 and K2 as slots 16 and 17. -/
def keyJob (op : Nat) (src aux rnd : Bytes) (param : Nat := 17) : Entry :=
  { job 6 op 0 aux param with src, rnd, d := { family := 6, op, srcLen := src.length, auxLen := aux.length, dstLen := 64, key1 := 16, param } }

/-- Lane 3 at the job, with a master key. -/
def installed (e : Entry) : State := on (lane3 e) fun b => { b with gander := { b.gander with masterKey := some mk32 } }

/-- Lane 3 at the job, with slot 16 as given. -/
def slotted (e : Entry) (r : SlotRec) : State := on (lane3 e) fun b => { b with keys := { b.keys with slots := [(16, r)] } }

theorem witness_KeyOperations :
    [keyJob 1 [] [] [], keyJob 2 [] [] [], keyJob 3 [] [] [], keyJob 4 [] [] [], keyJob 5 [] [] [], keyJob 6 [] [] []].all runs3 = true ∧
    (lane3 (keyJob 1 [] [] [])).blk.gander.masterKey = none ∧ (lane3 (keyJob 2 [] [] [])).blk.gander.masterKey = none ∧
    bit (keyJob 2 [] [] []).d.param 32 = false ∧
    (installed (keyJob 1 keyBlock [] [])).blk.gander.masterKey = some mk32 ∧
    (match KeyBlock.unwrap (kekOf mk32 1) [] with | .error f => f.1 == 0x23 | .ok _ => false) = true ∧
    (let b := (installed (keyJob 1 keyBlock [] [])).blk
     runs3 (keyJob 1 keyBlock [] []) = true ∧ header1.attrFault k16.length = none ∧ b.ownFault 1 16 header1.usage = none ∧
       (header1.codes k16.length).headD 0 = 3 ∧ KeyBlock.importWords header1 3 k16.length = some 0 ∧
       b.chainFault 16 (chainSlots (k16.length, 0)) = none ∧ KeyBlock.keyInRange 3 k16 [] = true) ∧
    (let e := keyJob 3 [] (ascii "D0000D0AB00E01001W0A050000") (k16 ++ k16)
     (match (lane3 e).blk.attrPlan e 0 e.d.k1 false with
      | .ok x => KeyBlock.drawn x.slotRec.code && x.slotRec.code != 0x60 && decide (x.len ≤ e.rnd.length)
      | .error _ => false) = true) ∧
    (let e := keyJob 3 [] (ascii "D0000S0ES00E01001W0A300000") []
     (match (lane3 e).blk.attrPlan e 0 e.d.k1 false with | .ok x => !KeyBlock.drawn x.slotRec.code | .error _ => false) = true) ∧
    (let e := keyJob 4 [] (ascii "D0000D0AB00E01001W0A050000") []
     ((lane3 e).blk.attrPlan e 1 e.d.k2 true).toOption.isSome = true) ∧
    ((lane3 (keyJob 5 [] [] [])).blk.slot 16).st = .empty ∧
    ((slotted (keyJob 5 [] [] []) { st := .reserved, chain := 1 }).blk.slot 16).st = .reserved ∧
    (let s := slotted (keyJob 5 [] [] []) { st := .live, chain := 2 }
     (s.blk.slot 16).st = .live ∧ (s.blk.lane 3).jobMism = none) := by decide +kernel

theorem witness_KeySlots :
    (let e : Entry := { keyJob 6 [] [] [] with stage := .queued, keys := [] }
     let s := on (lanes34 e { role := .key, seeded := true } { role := .key, seeded := true }) fun b => { b with
       keys := { b.keys with queue := [{ job := .entry 1 2 }] } }
     let b := s.blk
     b.keys.queue.find? b.keyReady = some { job := .entry 1 2 } ∧ b.entry? 1 2 = some e ∧ e.dispatchedAt = none ∧ e.refsHeld = false ∧
       b.keyLanes = [3, 4] ∧ (b.lane 3).job = none ∧ (b.lane 4).job = none ∧ (b.lane 3).role = .key ∧
       (b.lane 3).hasMasks (b.keyMasks { job := .entry 1 2 }) = true ∧ b.keys.lastLane ≠ 3 ∧ b.lateLength e = none ∧ b.keyOpFault e = none) ∧
    1 ≤ ({ chain := 1 } : SlotRec).chain ∧
    (let b := (slotted (keyJob 5 [] [] []) { st := .live, chain := 3, gen := 0xFFFF }).blk
     (b.slot 16).st = .live ∧ (b.slot 16).chain = 3 ∧ (b.slot 16).gen % 65536 = 65535) ∧
    (let s := slotted (keyJob 5 [] [] []) { st := .draining, chain := 2 }
     (s.blk.slot 16).st = .draining ∧ (s.blk.slot 16).chain ≠ 0 ∧ (s.blk.slot 16).refs = 0 ∧ s.blk.keys.drains = []) := by decide +kernel
/-- Lane 3 at the job, with a nonce of `mk32` issued at a tick and three custodians enrolled. -/
def challenged (e : Entry) (at_ : Nat) : State := on (lane3 e) fun b => { b with
  gander := { b.gander with nonce := some (mk32, at_), cust := List.replicate 3 { enrolled := true } ++ List.replicate 5 {} } }

/-- A ceremony of two shares. -/
def ceremony2 (opened : Nat) : Ceremony := { m := 2, kcv := [], nonce := mk32, dk := [], scalar := 1, context := [], opened }

/-- Lane 3 at the job, with a ceremony. -/
def inCeremony (e : Entry) (opened : Nat) : State := on (lane3 e) fun b => { b with gander := { b.gander with ceremony := some (ceremony2 opened) } }

/-- The premises of every clause but the signatures themselves: the kernel does not evaluate P-384. -/
theorem witness_DualControl :
    [keyJob 0x30 [] [] mk32, keyJob 0x31 [] [] [], keyJob 0x32 [] [] [], keyJob 0x33 [] [] [], keyJob 0x34 [] [] [] 1, keyJob 0x34 [] [] [] 9,
      keyJob 0x34 [] [] (zeros 96 ++ k16 ++ k16 ++ k16) 8, keyJob 0x35 [] [] []].all runs3 = true ∧
    (lane3 (keyJob 0x31 [] [] [])).blk.gander.openNonce 100000000000 = none ∧ (lane3 (keyJob 0x31 [] [] [])).blk.time.interval = 100000000000 ∧
    (let s := challenged (keyJob 0x33 [] [] []) 99400000001
     s.blk.gander.openNonce s.blk.time.interval = some mk32 ∧ s.blk.gander.threatened s.fuses = false ∧ s.blk.recorder.copy.reserveLock = false ∧
       (s.blk.gander.custodian 2).enrolled = true ∧ (s.blk.gander.custodian 7).enrolled = false ∧ 3 ≤ s.blk.gander.enrolled ∧
       s.blk.gander.knows { enrolled := true, ecKey := k16 } = false) ∧
    (let e := keyJob 0x34 [] [] (zeros 96 ++ k16 ++ k16 ++ k16) 8
     2 ≤ field e.d.param 3 0 ∧ field e.d.param 3 0 ≤ 8 ∧ 144 ≤ e.rnd.length ∧ (Ec.scalarOf Ec.p384 (e.rnd.drop (e.rnd.length - 48))).isSome = true) ∧
    field (keyJob 0x34 [] [] [] 1).d.param 3 0 < 2 ∧ 8 < field (keyJob 0x34 [] [] [] 9).d.param 3 0 ∧
    (lane3 (keyJob 0x35 [] [] [])).blk.gander.openCeremony 100000000000 = none ∧
    (inCeremony (keyJob 0x35 [] [] []) 96400000001).blk.gander.openCeremony 100000000000 = some (ceremony2 96400000001) ∧
    (let s := challenged (keyJob 0x33 [] [] []) 99400000000
     s.blk.gander.nonce = some (mk32, 99400000000) ∧ 99400000000 + 600000000 ≤ s.blk.time.interval) ∧
    (let s := inCeremony (keyJob 0x35 [] [] []) 96400000000
     s.blk.gander.ceremony = some (ceremony2 96400000000) ∧ 96400000000 + 3600000000 ≤ s.blk.time.interval) := by decide +kernel

/-! ## Randomness and raw channels -/

/-- HEN as given. -/
def hen (h : Hen) (r : List Entry := []) : State := on (host (ring 5 3 2 1 1) r) fun b => { b with hen := h }

/-- A seeded instance. -/
def inst1 : Drbg := { seeded := true, key := mk32, v := k16, reseedAt := 99999990001 }

theorem witness_EntropySource :
    (hen { phase := .warmup }).blk.hen.phase = .warmup ∧ (hen { phase := .testing }).blk.hen.phase = .testing ∧
    32 ≤ (List.replicate 32 (zeros 256)).length ∧ (∀ x ∈ List.replicate 32 (zeros 256), x.length = 256) ∧
    (hen { phase := .seeding }).blk.hen.phase = .seeding ∧
    (let h := (hen { phase := .running }).blk.hen
     h.tests = true ∧ h.testEn = false ∧ h.pool.length < 64 ∧ h.lastOut ≠ Hash.hash .sha3_256 (zeros 256) ∧ h.phase ≠ .testing ∧
       (h.alarms0.filter fun t => decide (100000000000 < t + 1000)).length < 3) ∧
    (let s := hen { phase := .running, alarms0 := [99999999999, 99999999500, 99999999001, 99999999000] }
     3 ≤ (s.blk.hen.alarms0.filter fun t => decide (s.blk.time.interval < t + 1000)).length) := by decide +kernel

theorem witness_RandomGenerator :
    (let e := keyJob 0x30 [] [] []
     let r : HenReq := { prio := 2, bytes := 32, asked := 5, who := .entry 1 2 }
     let s := hen { phase := .running, insts := List.replicate 16 inst1, waiting := [r] } [e]
     let d := nth {} s.blk.hen.insts 15
     s.blk.nextDraw 15 = some r ∧ s.blk.hen.phase = .running ∧ 15 < s.blk.hen.insts.length ∧ 0 < r.bytes ∧ s.blk.entry? 1 2 = some e ∧
       e.d.family ≠ Fam.rng ∧ d.seeded = true ∧ d.key.length = 32 ∧ d.requests < 2 ^ 20 ∧ d.reseedDue = false ∧ s.blk.time.interval < d.reseedAt + 10000) ∧
    (let s := hen { insts := List.replicate 16 { inst1 with reseedAt := 99999990000 } }
     (nth {} s.blk.hen.insts 0).seeded = true ∧ (nth {} s.blk.hen.insts 0).reseedAt + 10000 ≤ s.blk.time.interval) ∧
    [1, 2].all (fun op =>
      let e := entry .queued { family := Fam.rng, op, dstLen := 65537 }
      let s := hen { phase := .running } [e]
      decide (s.blk.entry? 1 2 = some e) && s.blk.ordered e && decide (s.blk.hen.phase ≠ .stopped) && !s.blk.hen.testEn) = true ∧
    4 ≤ (hen { fifo := [1, 2, 3, 4] }).blk.hen.fifo.length ∧ (hen { fifo := [1, 2, 3] }).blk.hen.fifo.length < 4 ∧
    busy.blk.mode.mode ≠ .factory ∧ (on busy fun b => { b with mode := { b.mode with mode := .factory } }).blk.mode.mode = .factory ∧
    (0x116 : BitVec 64).getLsbD 0 = false := by decide +kernel

/-- Channel 47 as given. -/
def channel (c : Channel) : State := on busy fun b => { b with mule := [(47, c)] }

/-- A run from 0x1000 to 0x2000. -/
def run1 (n : Nat) : ChanRun := { src := 0x1000, dst := 0x2000, count := n, listsRead := true, asked := [0] }

theorem witness_RawChannels :
    (let s := channel { src := 0x1000, dst := 0x2000, count := 4096 }
     let c := s.blk.chan 47
     let d : BitVec 64 := 0x100000000
     c.run = none ∧ s.blk.mode.mode.copies = true ∧ c.removed = false ∧ d.getLsbD 1 = false ∧ bit (d ||| 1).toNat 2 = false ∧
       bit (d ||| 1).toNat 3 = false ∧ field (d ||| 1).toNat 6 4 = 0 ∧ bit (d ||| 1).toNat 8 = false ∧ field (d ||| 1).toNat 43 32 = 1 ∧
       s.blk.enabled 1 = true ∧ 0 < c.count.toNat ∧ c.count.toNat ≤ 4096) ∧
    (channel { run := some (run1 3) }).blk.mode.porstLow = false ∧ ((channel { run := some (run1 3) }).blk.chan 47).run.isSome = true ∧
    (let s := waits (channel { run := some (run1 3) }) .read (.chanRead 47 0)
     (s.blk.chan 47).run = some (run1 3) ∧ s.blk.awaits (.chanRead 47 0) = true ∧ (run1 3).count = [(1 : Byte), 2, 3].length) ∧
    (let r : ChanRun := { run1 64 with written := [0] }
     let s := waits (channel { run := some r }) .write (.chanWrite 47 0)
     s.blk.mport.outst.find? (fun x => x.id == 3) = some (request .write (.chanWrite 47 0)) ∧ (s.blk.chan 47).run = some r ∧ r.stopped = false ∧
       r.readback = false ∧ r.written.length = r.chunkCount ∧ r.dstSel = 0 ∧ r.count ≠ 0 ∧ (∀ x ∈ s.blk.mport.outst, x.id = 3)) ∧
    (let q := request .write (.chanWrite 47 0)
     let s := on (channel { run := some (run1 64) }) fun b => { b with mport := { b.mport with outst := [q, { q with id := 4 }] } }
     s.blk.mport.outst.find? (fun x => x.id == 3) = some q ∧ (∃ x ∈ s.blk.mport.outst, x.id ≠ 3 ∧ x.purpose = .chanWrite 47 0)) ∧
    (let s := waits (channel { run := some { run1 64 with stopped := true } }) .write (.chanWrite 47 0)
     (s.blk.chan 47).run = some { run1 64 with stopped := true } ∧ (∀ x ∈ s.blk.mport.outst, x.id ≠ 3 → x.purpose.ofChan 47 = false)) ∧
    (let s := waits (channel { run := some { run1 3 with readback := true } }) .read (.chanReadback 47)
     (s.blk.chan 47).run = some { run1 3 with readback := true } ∧ s.blk.awaits (.chanReadback 47) = true ∧ (s.blk.chan 47).irqEn = false) ∧
    (let s := waits (channel { run := some { run1 64 with listsRead := false, asked := [] }, srcSg := true }) .read (.chanSrcList 47)
     s.blk.awaits (.chanSrcList 47) = true ∧ (s.blk.chan 47).srcSg = true ∧ (s.blk.chan 47).dstSg = false ∧
       listsFault [(0x1000, [])] 64 = some (0x0A, 0x1FF0) ∧ listsFault [(0x1000, listOf 64 true)] 64 = none) ∧
    (let s := on (core (.ctlNop 188 0) x1) fun b => { b with pay := { b.pay with cores := [(0, { (b.core 0) with blocks := [(1, zeros 32)] })] } }
     (s.blk.core 0).blocks = [(1, zeros 32)] ∧ (s.blk.core 0).busy = false ∧ s.blk.inService 188 = true ∧ (s.blk.chan (s.blk.fwChan 0)).run = none ∧
       s.blk.mode.mode.copies = true) := by decide +kernel

/-! ## Resets, boot, modes and health -/

/-- Ten seconds up, the mode control as given. -/
def moded (f : ModeCtl → ModeCtl) : State := on busy fun b => { b with mode := f b.mode }

/-- Partition 1 as given. -/
def parted (r : PartRec) (k : RingRec := ring 5 3 2 1 1) : State := on (host k) fun b => { b with parts := [(1, r)] }

/-- A completion that waits for room. -/
def heldOne : Completion :=
  { ring := 1, tag := 7, status := 0, detail := 0, engine := 3, outLen := 0, sub := 2, result := 0, irq := false }

/-- A reset of partition 1, with nothing of it left. -/
def drained : State := parted { resetting := some 0 }

theorem witness_Resets :
    busy.blk.mode.porstLow = false ∧ (moded fun m => { m with porstLow := true }).blk.mode.porstLow = true ∧
    (let s := moded fun m => { m with warm := some (false, 0) }
     s.blk.mode.warm = some (false, 0) ∧ s.blk.entries = [] ∧ s.blk.mport.outst = [] ∧
       (∀ x ∈ s.blk.rings, x.2.burst = none ∧ x.2.held = [] ∧ x.2.failedW = [] ∧ x.2.sig = [])) := by decide +kernel

theorem witness_ResetsUnderWay :
    busy.blk.mode.porstLow = false ∧ busy.blk.mode.warm = none ∧ busy.blk.pairedParts = [] ∧ partTakes busy 1 1 = true ∧
    (busy.blk.part 1).resetting = none ∧ busy.blk.route 1 = .apply ∧ busy.blk.enabled 1 = true ∧ busy.blk.forwarding (StateItem.resets 1) = false ∧
    partTakes busy 9 0 = true ∧ busy.blk.enabled 9 = false ∧ busy.blk.forwarding (StateItem.resets 9) = false ∧
    (moded fun m => { m with warm := some (false, 0) }).blk.mode.warm.isSome = true ∧
    [(1, false), (2000, true), (1999, true)].all (fun x =>
      (moded fun m => { m with warm := some (x.2, 100000000000 - x.1) }).blk.mode.warm == some (x.2, 100000000000 - x.1)) = true ∧
    partTakes drained 1 1 = true ∧ (drained.blk.part 1).resetting.isSome = true ∧ (∀ e ∈ drained.blk.entries, e.part ≠ 1) ∧
    (∀ r ∈ drained.blk.mport.outst, drained.blk.ofReset 1 r = false) ∧ drained.blk.resetWipes 1 = false ∧
    (∀ k < 8, (drained.blk.ring k).burst = none ∧ (drained.blk.ring k).held = [] ∧ (drained.blk.ring k).failedW = [] ∧ (drained.blk.ring k).sig = []) ∧
    (let s := parted { resetting := some 99999999000 } { ring 5 3 2 1 1 with held := [heldOne] }
     s.blk.mode.warm = none ∧ s.blk.ownerD 1 = 1 ∧ (s.blk.part 1).resetting = some 99999999000 ∧ 99999999000 + 1000 ≤ s.blk.time.interval ∧
       (s.blk.ring 1).held ≠ []) := by decide +kernel

/-- Partition 1 owns no ring above 7. -/
theorem drained_owner (k : Nat) (h : drained.blk.owner k = some 1) : k < 8 := by
  by_contra c
  have : drained.blk.owner k = none := by
    show Option.map _ (List.find? _ [_]) = none
    simp only [List.find?_cons, List.find?_nil]
    have : decide (k < 0 + 8) = false := by simp; omega
    simp [this]
  simp_all

/-- Out of reset, the load of an image as given. -/
def loading (i : ImageCtl) (m : ModeCtl := State.reset.blk.mode) : State :=
  on State.reset fun b => { b with img := i, mode := m, time := { b.time with interval := 5000 } }

theorem witness_Boot_units : ∀ u, (State.reset.blk.unit u).st ≠ .retired ∧ (State.reset.blk.unit u).st ≠ .quarantined :=
  fun _ => ⟨(nomatch ·), (nomatch ·)⟩

theorem witness_Boot :
    State.reset.blk.mode.porstLow = false ∧ State.reset.blk.mode.bistDone = false ∧ State.reset.blk.mode.bootStep = 1 ∧
    (let s := loading { addr := 1 }
     s.blk.mode.porstLow = false ∧ s.blk.mode.mode = .configure ∧ s.blk.mode.halted = false ∧ s.blk.img.loading = false ∧ s.blk.img.addr ≠ 0) ∧
    (loading { addr := 1 } { State.reset.blk.mode with halted := true }).blk.mode.halted = true ∧ (loading {}).blk.img.addr = 0 ∧ (loading { addr := 1, st := 2 }).blk.img.loading = true ∧ busy.blk.mode.mode ≠ .configure ∧
    (let s := loading { addr := 1, st := 1 } { State.reset.blk.mode with henSeeded := true }
     s.blk.img.st = 1 ∧ s.blk.mode.henSeeded = true) ∧
    (let s := loading { st := 2 }
     s.blk.img.st = 2 ∧ s.blk.pairedParts = [] ∧ s.blk.entries = [] ∧ checkImage s.fuses [] = .error (2, 0)) ∧
    (let s := loading { advanceTo := some (2, 5000) }
     s.blk.img.advanceTo = some (2, 5000) ∧ 5000 ≤ s.blk.time.interval ∧ s.fuses.rollback < 2) ∧
    (let s := loading { staged := some {}, st := 4 }
     s.blk.img.staged = some {} ∧ s.blk.img.st = 4 ∧ s.blk.img.advanceTo = none ∧ s.blk.mode.mode = .configure) ∧
    (let s := moded fun m => { m with calDone := false }
     s.blk.mode.ready = true ∧ s.blk.mode.calDone = false) := by decide +kernel

/-- Unit u as given. -/
def united (u : Nat) (r : UnitRec) (st : Store := {}) : State := on busy fun b => { b with health := { b.health with units := [(u, r)] }, store := st }

theorem witness_ModesAndHealth :
    busy.blk.mode.porstLow = false ∧ busy.blk.mode.mode = .operational ∧ (moded fun m => { m with mode := .maintenance }).blk.mode.mode = .maintenance ∧
    (let s := moded fun m => { m with transition := some .maintenance }
     s.blk.mode.mode = .operational ∧ s.blk.mode.transition = some .maintenance ∧ (∀ e ∈ s.blk.entries, e.part = 0) ∧
       (∀ x ∈ s.blk.rings, x.2.burst = none)) ∧
    (let s := moded fun m => { m with mode := .maintenance, transition := some .operational }
     s.blk.mode.mode = .maintenance ∧ s.blk.mode.transition = some .operational ∧ s.blk.administering = false) ∧
    (let s := united 5 { st := .quarantined, quarantines := [0, 0] }
     (s.blk.unit 5).st = .quarantined ∧ (s.blk.spares (typeOf 5)).isEmpty = false ∧
       ((s.blk.unit 5).quarantines.filter fun x => decide (s.blk.recorder.copy.opMinutes < x + 24 * 60)).length < 3) ∧
    (let s := united 5 { st := .quarantined, quarantines := [0, 0, 0] }
     3 ≤ ((s.blk.unit 5).quarantines.filter fun x => decide (s.blk.recorder.copy.opMinutes < x + 24 * 60)).length) ∧
    (let s := united 5 { st := .inService, tested := 99990000000 }
     (s.blk.unit 5).st = .inService ∧ s.blk.idle 5 = true ∧ s.blk.governorFree 1 = true ∧ (s.blk.unit 5).tested + 10000000 ≤ s.blk.time.interval) ∧
    (let s := united 207 { st := .inService } { bankErrs := List.replicate 15 (207, 99999999001) }
     16 ≤ (((207, s.blk.time.interval) :: s.blk.store.bankErrs.filter fun x => decide (s.blk.time.interval < x.2 + 1000)).filter
       fun x => x.1 == 207).length ∧ s.blk.inService 207 = true) ∧
    207 ∈ (united 207 {} { migrating := [207] }).blk.store.migrating := by decide +kernel

/-! ## The twin -/

/-- Partition 1 paired, at home here or there, its twin state and the twin's as given. -/
def twinned (t : Twin) (tw : PartTwin := {}) (home : Bool := true) (es : List Entry := []) : State := on (host (ring 5 3 2 1 1) es) fun b => { b with
  img := { b.img with inForce := { b.img.inForce with parts := [(1, { (b.cfg 1) with paired := true, home := home })] } }
  twin := { t with record := true, linkUp := true, leaseBase := 3 }, parts := [(1, { tw := tw })] }

/-- A frame that arrives whole, its SEQ the next. -/
def frame (seq : Nat := 0) : FrameHdr := { seq := BitVec.ofNat 64 seq, ack := BitVec.allOnes 64, crcOk := true, tagOk := true }

/-- A HELLO of a serial. -/
def hello1 (serial : BitVec 64 := 5) : HelloMsg := { serial, leaseBase := 0, digest := [], home := 0, nonce := [] }

/-- A handshake of which both HELLOs and both KEXs are known. -/
def shaking : Handshake :=
  { started := 0, serial := 0, ownHello := some (hello1 0), gotHello := some hello1, ownKex := some ([1], [2]), gotKex := some ([3], [4])
    keys := some ([1], [2], [3], [4]) }

/-- Lane 3 at the job, the link up or down, the twin state as given. -/
def laneTwin (e : Entry) (t : Twin) : State := on (lane3 e) fun b => { b with twin := t }

theorem witness_TwinHandshake :
    [({ session := some {} } : Twin), {}].all (fun t => worksOn (laneTwin (keyJob 0x20 [] [] []) t) ((laneTwin (keyJob 0x20 [] [] []) t).blk.lane 3).job
      Fam.key 0x20 (keyJob 0x20 [] [] [])) = true ∧
    [({ record := true } : Twin), {}].all (fun t => worksOn (laneTwin (keyJob 0x21 [] [] []) t) ((laneTwin (keyJob 0x21 [] [] []) t).blk.lane 3).job
      Fam.key 0x21 (keyJob 0x21 [] [] [])) = true ∧
    (let s := twinned {}
     s.blk.twin.session = none ∧ s.blk.mayShake = true ∧ s.blk.twin.helloDue ≤ s.blk.time.interval ∧ s.blk.hen.phase ≠ .stopped ∧
       s.blk.mode.porstLow = false ∧ s.blk.twin.linkUp = true ∧ frame.crcOk = true ∧ s.blk.twin.hs = none) ∧
    (twinned { helloDue := 100000000001 }).blk.time.interval < (twinned { helloDue := 100000000001 }).blk.twin.helloDue ∧
    2 ^ 32 ≤ ({ frames := 4294967296 } : Session).frames ∧ ({ began := 96400000000 } : Session).began + 3600000000 ≤ busy.blk.time.interval ∧
    (laneTwin {  ring := 1, sub := 2, part := 1 } { linkUp := true }).blk.mayShake = false ∧
    (let h : Handshake := { started := 0, serial := 0, gotHello := some hello1 }
     (twinned { hs := some h }).blk.twin.hs = some h ∧ h.gotHello.isSome = true ∧ h.gotKex = none) ∧
    shaking.gotKex.isSome = true ∧
    (let t := (twinned { hs := some shaking }).blk.twin
     t.hs = some shaking ∧ t.attach = none ∧ shaking.ownHello = some (hello1 0) ∧ shaking.gotHello = some hello1 ∧ shaking.ownKex = some ([1], [2]) ∧
       shaking.gotKex = some ([3], [4]) ∧ shaking.keys = some ([1], [2], [3], [4]) ∧ shaking.rekey = false) ∧
    (([] : Bytes) ≠ Hash.hmac .sha256 [4] (transcript 0 (hello1 0) hello1 ([1], [2]) ([3], [4]))) := by decide +kernel

/-- A session in which nothing has come yet. -/
def session1 : Session := { began := 99999000000, ackAt := 99999999996, replay := [(0, 3)] }

/-- A commit item of ring 1's entry 2, whole or split. -/
def item1 (split : Bool) : CommitItem :=
  { ring := 1, abortReplace := false, split, continuation := false, subIndex := 2, q := 1, deltaWords := 0, completion := zeros 64, digest := [], deltas := [] }

/-- The completion of entry 2 of ring 1, held for the twin's acknowledgement. -/
def committed1 : Entry := { entry .commit {} with done := some { heldOne with slot := none } }

theorem witness_TwinFrames :
    (let s := twinned { session := some session1 }
     s.blk.twin.session = some session1 ∧ session1.replay ≠ [] ∧ session1.ackAt + 4 ≤ s.blk.time.interval ∧ s.blk.time.interval < 99999999997 + 4 ∧
       s.blk.twin.heartbeatDue ≤ s.blk.time.interval ∧ s.blk.twin.fill = [] ∧ s.blk.lossDue = true ∧ s.blk.pairedParts = [1] ∧ s.blk.entries = [] ∧
       s.blk.twin.forwarded = [] ∧ s.blk.twin.attach = none ∧ s.blk.twin.detaching = false ∧ s.blk.mode.porstLow = false ∧ s.blk.twin.linkUp = true ∧
       (frame 0).crcOk = true ∧ (frame 0).tagOk = true ∧ (frame 0).seq.toNat = session1.seqIn ∧ (frame 0).ack = BitVec.allOnes 64 ∧
       (frame 1).seq.toNat ≠ session1.seqIn ∧ ({ frame 0 with crcOk := false } : FrameHdr).crcOk = false ∧ s.blk.toCopy.head? ≠ some 1 ∧
       s.blk.twin.record = true) := by decide +kernel

theorem witness_TwinFrames_states :
    (twinned { session := some session1, fill := [item1 false] }).blk.twin.fill ≠ [] ∧
    (twinned { session := some { session1 with began := 99999999901 }, hbAge := 99 }).blk.lossDue = false ∧
    [Role.home, .shadow].all (fun r => ((twinned { session := some session1 } { role := r }).blk.part 1).tw.role == r) = true ∧
    (twinned { session := some session1 } { role := .syncSource }).blk.toCopy.head? = some 1 ∧
    (∀ q ∈ (twinned { session := some session1 } { role := .shadow }).blk.pairedParts,
      (twinned { session := some session1 } { role := .shadow }).blk.wantsHandover q = false) ∧
    (let s := twinned { session := some session1 } { role := .shadow }
     s.blk.ownerD 1 = 1 ∧ s.blk.role 1 = .shadow ∧ s.blk.twin.parts = [] ∧ (item1 false).split = false ∧ (item1 false).deltas = [] ∧
       (item1 true).split = true ∧ s.blk.executes 1 = false ∧ s.blk.paired 1 = true ∧ (s.blk.ring 1).st ≠ .disabled ∧ (s.blk.ring 2).st = .disabled ∧
       Block.ownerOfItem { s.blk with twin := { s.blk.twin with session := some { session1 with seqIn := 1 } } } (.keep 1 2 []) = some 1) := by decide +kernel

theorem witness_TwinFrames_acknowledged :
    (let s := twinned { session := some session1, unacked := [(3, 0, [(1, 2)], false)] } { role := .home } true [committed1]
     (∀ y ∈ s.blk.pairedParts, (s.blk.part y).tw.handover = none) ∧ s.blk.twin.unacked = [(3, 0, [(1, 2)], false)] ∧ 3 ∉ [4] ∧ 3 ∈ [3] ∧
       s.blk.entry? 1 2 = some committed1 ∧ committed1.done = some { heldOne with slot := none } ∧ committed1.stage = .commit ∧ (s.blk.ring 1).held = [] ∧
       s.blk.executes (s.blk.ownerD 1) = true ∧ s.blk.executes 1 = true ∧ s.blk.role 1 ≠ .shadow) ∧
    (twinned { session := some session1 } { role := .standby }).blk.role 1 = .standby ∧
    (twinned { session := some session1 } { role := .syncTarget }).blk.role 1 = .syncTarget ∧
    (laneTwin committed1 { session := some session1, linkUp := true }).blk.twin.record = false := by decide +kernel

theorem witness_RetractionAndStop_standby :
    ringTakes (twinned {} { role := .standby }) 1 1 = true ∧ (twinned {} { role := .standby }).blk.role ((twinned {} { role := .standby }).blk.ownerD 1) = .standby := by
  decide +kernel

/-- A lease valid for side 0 with EPOCH 9. -/
def lease9 : BitVec 64 := leaseWord 4 9 0 true false

/-- Partition 1's lease state as given, its response outstanding. -/
def leased (tw : PartTwin) (pur : Purpose) (t : Twin := {}) : State :=
  on (waits (twinned t tw) .cas pur) fun b => { b with rings := [] }

theorem witness_TwinLeases :
    (let s := twinned {} { role := .home, renewedAt := 99999999000, renewDue := 100000000000 }
     s.blk.paired 1 = true ∧ (s.blk.part 1).tw.role.executes = true ∧ (s.blk.part 1).tw.offered = none ∧ (s.blk.part 1).tw.renewDue ≤ s.blk.time.interval ∧
       (s.blk.part 1).tw.renewedAt + 1000 ≤ s.blk.time.interval) ∧
    (let s := twinned {} { role := .solo, renewedAt := 99999999301 }
     s.blk.time.interval < (s.blk.part 1).tw.renewedAt + 700 ∧ (s.blk.part 1).tw.role.executes = true) ∧
    (let s := twinned {} { offered := some lease9, retryAt := some 100000000000 }
     s.blk.paired 1 = true ∧ (s.blk.part 1).tw.offered = some lease9 ∧ s.blk.retryDue 1 = true) ∧
    (let s := leased { role := .home, lease := leaseWord 3 9 0 true false, offered := some lease9 } (.leaseRenew 1)
     s.blk.awaits (.leaseGive 1) = false ∧ s.blk.awaits (.leaseRenew 1) = true ∧ (s.blk.part 1).tw.stopped = false ∧ (s.blk.part 1).tw.atLoss = false ∧
       (s.blk.part 1).tw.releaseAt = none ∧ (s.blk.part 1).tw.handover = none ∧ (s.blk.part 1).tw.offered = some lease9 ∧
       lease9 ≠ (s.blk.part 1).tw.lease) ∧
    [none, some (lease9, 99999999000, 0), some (lease9, 99999999001, 0), some (0, 0, 0)].all (fun x =>
      let s := leased { role := .shadow, watching := true, watch := x } (.leaseRead 1)
      s.blk.paired 1 && s.blk.awaits (.leaseRead 1) && (s.blk.part 1).tw.watching && !leaseReleased lease9 && leaseValid lease9 &&
        !(s.blk.part 1).tw.wasShadow && decide ((s.blk.part 1).tw.watch = x)) = true ∧
    (let s := leased { role := .shadow, lease := lease9, offered := some (leaseWord 0 10 1 true false) } (.leaseTake 1)
     s.blk.awaits (.leaseTake 1) = true ∧ (s.blk.part 1).tw.offered = some (leaseWord 0 10 1 true false) ∧ 0 ≠ (s.blk.part 1).tw.lease ∧
       lease9 = (s.blk.part 1).tw.lease ∧ s.blk.liveRings 1 = [] ∧ s.blk.twin.session = none ∧ s.blk.twin.attach = none ∧ s.blk.twin.detaching = false) ∧
    [99999998000, 99999998001].all (fun n => ((twinned {} { handover := some (n, false, false) }).blk.part 1).tw.handover == some (n, false, false)) = true ∧
    [99999999980, 99999999981].all (fun n => ((twinned {} { releaseAt := some n }).blk.part 1).tw.releaseAt == some n) = true ∧
    (let s := waits (twinned {} { role := .home }) .read (.gather 1 2)
     let r := request .read (.gather 1 2)
     (s.blk.mport.outst.find? fun r => r.id == 3) = some r ∧ r.issued + 200 ≤ s.blk.time.interval ∧ s.blk.role r.part = .home ∧ r.purpose.isWork = true) := by
  decide +kernel

/-! ## The sentinel, the recorder, power and temperature -/

/-- Ten seconds up, the sentinel as given. -/
def sentry (g : Gander) (f : Fuses := {}) : State := { on up fun b => { b with gander := g } with fuses := f }

/-- Every source answered alike. -/
def answering (r : Nat) : List SrcCfg := List.replicate 19 { response := r }

/-- Source n as given. -/
def source (n : Nat) (x : SrcRec) : List SrcRec := (List.replicate 19 {}).set n x

/-- A source alarms where its condition holds, does not where it is active, and does not where it is fused off. -/
def threeWays (n : Nat) : Bool :=
  decide ((nth {} (sentry {}).blk.gander.sources n).active = false) && decide ((nth {} (sentry {}).blk.gander.sources n).inactiveAt = none) &&
    !(sentry {}).fuses.disabled n && (nth {} (sentry { sources := source n { active := true } }).blk.gander.sources n).active &&
    (n == 17 || (sentry {} { fusedOff := BitVec.ofNat 19 (2 ^ n) }).fuses.disabled n)

theorem witness_Sentinel_sources :
    (sentry {}).blk.gander.vencPresent = true ∧ (sentry {}).blk.mode.porstLow = false ∧ (moded fun m => { m with porstLow := true }).blk.mode.porstLow = true ∧
    [0, 4, 11, 12, 13, 14, 15, 16, 17].all threeWays = true ∧ (65000 < 65001 ∧ 4000 ≤ 4000 ∧ 8000 ≤ 8000 ∧ 8000 < 8001) ∧ (2199 < 2200 ∧ 3600 < 3601) ∧
    ((-451 : Int) < -450 ∧ (1300 : Int) < 1301) ∧
    (let s := sentry { confirmed := [3], cfg := answering 0 }
     s.blk.gander.confirmed = [3] ∧ (Gander.cfgOf s.fuses s.blk.gander 3).response = 0) ∧
    (let s := sentry { confirmed := [3], cfg := answering 1, applied := 1 }
     s.blk.gander.confirmed = [3] ∧ (Gander.cfgOf s.fuses s.blk.gander 3).response ≤ s.blk.gander.applied) ∧
    [1, 2].all (fun r =>
      let s := sentry { confirmed := [3], cfg := answering r }
      decide (s.blk.gander.confirmed = [3]) && decide (s.blk.mode.mode = .operational) && s.blk.entries.isEmpty && s.blk.partitions.isEmpty &&
        s.blk.twin.session.isNone && s.blk.gander.applied == 0 && (Gander.cfgOf s.fuses s.blk.gander 3).response == r &&
        decide (s.blk.recorder.copy.sev3.length < 639)) = true ∧
    (let s := sentry { sources := source 3 { active := true } }
     (nth {} s.blk.gander.sources 3).active = true ∧ (∀ i ∈ List.range 19, i ≠ 3 → (nth {} s.blk.gander.sources i).active = false)) := by decide +kernel

/-- The recorder as given, the sentinel on its cell. -/
def onCell (g : Gander) (r : Recorder := {}) : State := on (sentry { g with vencPresent := false }) fun b => { b with recorder := r }

theorem witness_Sentinel_cell :
    (let s := onCell { cfg := answering 2 }
     s.blk.gander.vencPresent = false ∧ (nth {} s.blk.gander.sources 13).active = false ∧ s.blk.gander.applied < 2 ∧ s.blk.gander.cellBuf.length < 16 ∧
       (nth {} s.blk.gander.sources 4).active = false ∧ (nth {} s.blk.gander.sources 4).inactiveAt = none ∧ s.fuses.disabled 4 = false ∧
       s.blk.gander.confirmed = [] ∧ (Gander.cfgOf s.fuses s.blk.gander 4).response = 2) ∧
    [false, true].all (fun i =>
      let s := onCell { mkInstalled := i } { bankA := some {} }
      s.blk.gander.cellBuf.isEmpty && s.blk.gander.cellOver.isEmpty && decide (s.blk.recorder.bankA = some {}) && decide (s.blk.recorder.bankB = none) &&
        s.blk.gander.mkInstalled == i && !s.blk.gander.eraseLatch && decide (({} : RecCopy).sev3.length < 639)) = true ∧
    (sentry { invertedAt := 13600000001 }).blk.time.interval < (sentry { invertedAt := 13600000001 }).blk.gander.invertedAt + 86400000000 ∧
    (sentry { invertedAt := 13600000000 }).blk.gander.invertedAt + 86400000000 ≤ (sentry { invertedAt := 13600000000 }).blk.time.interval ∧
    (let s := on (sentry {}) fun b => { b with mode := { b.mode with mode := .factory } }
     s.blk.mode.mode = .factory ∧ s.blk.gander.blow = none ∧ ¬ (1 = 3 ∧ 0 = 17) ∧ ¬ (1 = 1 ∧ 1 < s.fuses.floorOf 0)) ∧
    (sentry {}).blk.mode.mode ≠ .factory ∧
    [(1, 100000000000), (3, 100000000000), (2, 100000000001)].all (fun (x : Nat × Nat) =>
      decide ((sentry { blow := some (18, x.1, x.2) }).blk.gander.blow = some (18, x.1, x.2))) = true := by decide +kernel

/-- Ten seconds up, the recorder as given. -/
def recording (r : Recorder) : State := on up fun b => { b with recorder := r }

/-- A record of severity 3 read as given. -/
def severe (id : Nat) (read : BitVec 4) : Rec := { kind := 1, sev := 3, subject := 0, first := 0, last := 0, cycle := 0, detail := 0, id, read }

theorem witness_EventRecorder :
    (recording {}).blk.mode.porstLow = false ∧ (recording {}).blk.recorder.committing = none ∧ (recording {}).blk.recorder.deferred = false ∧
    [(false, false), (true, false), (false, true)].all (fun (x : Bool × Bool) =>
      let s := recording { committing := some ({ seq := 4 }, x.1), queued := x.2 }
      s.blk.recorder.committing.isSome && decide (s.blk.recorder.committing = some ({ seq := 4 }, x.1)) && s.blk.recorder.queued == x.2) = true ∧
    [99999000000, 99999000001].all (fun n => decide ((recording { deferred := true, spacedAt := some n }).blk.recorder.spacedAt = some n)) = true ∧
    (recording { minuteAt := 99940000000 }).blk.recorder.minuteAt + 60000000 ≤ (recording { minuteAt := 99940000000 }).blk.time.interval ∧
    (recording { minuteAt := 99940000001 }).blk.time.interval < (recording { minuteAt := 99940000001 }).blk.recorder.minuteAt + 60000000 ∧
    (min (0 + 1) (2 ^ 32 - 1) % 60 ≠ 0 ∧ min (59 + 1) (2 ^ 32 - 1) % 60 = 0) ∧
    (recording { sampleAt := 99999999000 }).blk.recorder.sampleAt + 1000 ≤ (recording { sampleAt := 99999999000 }).blk.time.interval ∧
    (recording { sampleAt := 99999999001 }).blk.time.interval < (recording { sampleAt := 99999999001 }).blk.recorder.sampleAt + 1000 ∧
    (∀ x ∈ (recording { copy := { sev3 := [severe 5 0xF, severe 9 3] } }).blk.recorder.copy.sev3, x.id ≤ 8 → x.read = 0xF) ∧
    (∃ x ∈ (recording { copy := { sev3 := [severe 5 0xF, severe 9 3] } }).blk.recorder.copy.sev3, x.id ≤ 9 ∧ x.read ≠ 0xF) ∧
    (8 * 8191 < 65536 ∧ ¬ 8 * 0x1600 < 0xB000) := by decide +kernel

/-- Ten seconds up, the power control as given. -/
def powered (w : Power) : State := on up fun b => { b with power := w }

theorem witness_ThermalGovernor :
    (powered { thermalAt := 99999999000 }).blk.mode.porstLow = false ∧ (powered {}).blk.governorFree 2 = true ∧
    (governed (powered {}) 3).blk.governorFree 2 = false ∧
    (powered { thermalAt := 99999999000 }).blk.power.thermalAt + 1000 ≤ (powered { thermalAt := 99999999000 }).blk.time.interval ∧
    (∃ x ∈ regionSensors (List.replicate 31 1100 ++ [1150]) 7, 1150 ≤ x) ∧ (∀ x ∈ regionSensors (List.replicate 31 1119 ++ [1150]) 6, x < 1120) ∧
    (∀ x ∈ regionSensors [1149, 1120, 0, 0] 0, x < 1150) ∧ (∃ x ∈ regionSensors [1149, 1120, 0, 0] 0, 1120 ≤ x) ∧
    nth false (powered {}).blk.power.clamped 6 = false ∧
    (powered { thermalAt := 99999999001 }).blk.time.interval < (powered { thermalAt := 99999999001 }).blk.power.thermalAt + 1000 := by decide +kernel

theorem witness_PowerGovernors :
    (powered {}).blk.mode.porstLow = false ∧ nth false (powered {}).blk.power.clamped (31 / 4) = false ∧ 8 ≤ (powered {}).blk.power.clamped.length ∧
    8 ≤ (powered {}).blk.power.ceiling.length ∧ (∀ x ∈ [(1199 : Int), 0, 0, 0], x < 1200) ∧ (∃ x ∈ [(1200 : Int), 0, 0, 0], 1200 ≤ x) ∧
    (powered {}).blk.governed = true ∧ (powered {}).blk.governorFree 3 = true ∧ (governed (powered {}) 4).blk.governorFree 3 = false ∧
    (powered {}).blk.power.readingAt + 1000 ≤ (powered {}).blk.time.interval ∧
    (let w := (powered { code := 20, freq := List.replicate 140 10 }).blk.power
     w.code < w.wanted (List.replicate 140 8000) ∧ w.wanted (List.replicate 140 6000) < w.code ∧ w.changedAt = none) ∧
    (powered { changedAt := some 99999999980 }).blk.power.changedAt = some 99999999980 ∧ (powered { changedAt := some 99999999981 }).blk.power.changedAt = some 99999999981 ∧
    (powered { readingAt := 99999999001 }).blk.time.interval < (powered { readingAt := 99999999001 }).blk.power.readingAt + 1000 ∧
    (let w := (powered { want := 40, code := 30 }).blk.power
     w.code < w.want) ∧
    (let w := (powered { want := 20, code := 30 }).blk.power
     w.want < w.code) ∧
    (let w := (powered { raising := [138], want := 30, code := 30 }).blk.power
     138 ∈ w.raising ∧ 138 ∉ w.stopped ∧ 138 < w.freq.length ∧ w.want ≤ w.code ∧ w.raisedAt = none) := by decide +kernel

/-! ## The whole block -/

theorem witness_StepKeepsOneTimeState :
    (match step { on (loading { advanceTo := some (2, 5000) }) id with pending := [.fuseAdvanceStep] } with
      | .next t => t.fuses.rollback == 1 && t.pending.isEmpty
      | _ => false) = true ∧
    (match step { sentry { blow := some (18, 2, 5000) } with pending := [.fuseBlowDone, .deferredCommit] } with
      | .next t => nth 0 t.fuses.floor 18 == 2 && t.pending.length == 1
      | _ => false) = true := by decide +kernel

/-! ## Well-formed commands -/

/-- One ill-formed command for each check. -/
theorem test_ill_formed_refused :
    [Instr.timeSample 281474976710656 0 0, .timeSample 0 4294967296 0, .registerWrite 0x20000000 8 0 0, .registerWrite 0 2 0 0, .registerWrite 0 8 4096 0,
      .irqMessageReissue 16384, .partReset 4096 0, .abortCompletionDrop 65536, .bistDone [274], .modeRequestRefused 0 8, .retestComplete 274 true,
      .storeScrub 205 true, .storeUncorrectableError 206 4 0 0, .setupRecordWrite 0 0 8 0, .pushWrite 0 0 4 0 0, .pushWrite 0 0 0 8 0,
      .modTableWrite 0 16 4 0 0, .laneDispatch 64, .laneWorkDone 112, .oxJobDone 111, .oxJobDone 168, .unitWipeDone 188 true, .latJobDone 167,
      .coreFault 206, .eraseDrainEnd 32768, .callComplete 188 8, .add 206 0 0 0, .cmp 188 0 0 0 0 0, .cmpi 188 0 0 0 0 0, .dadd 188 0 0 0 0,
      .wfe 188 0 0 0, .muleStart 64 0 0, .henHealthAlarm 2 1, .henHealthAlarm 0 3, .drbgRequestDone 16, .kex (frame 0) [] (zeros 96),
      .kex (frame 0) (zeros 1184) [], .confirm (frame 0) [], .caseAlarm 4, .meshAlarm 8 1, .meshBurst [1] 3000 0 true, .recWordRead 0x200000 4 0,
      .thermalStep [0], .thermalClamp 32 1250, .thermalClampLift 8 [0, 0, 0, 0], .thermalClampLift 0 [0], .dvfsReading [0], .frequencyRaise 139,
      .pllUnlock [139], .sourceInactive 19].all (fun i => !i.wf) = true := by decide +kernel

theorem test_well_formed_taken :
    [Instr.timeSample 281474976710655 4294967295 0, .registerWrite 0x1FFFFFFF 4 4095 0, .bistDone [0, 273], .pushWrite 65535 4095 3 7 0, .unitWipeDone 187 true,
      .cmp 205 7 7 7 3 7, .kex (frame 0) (zeros 1088) (zeros 96), .frequencyRaise 138].all Instr.wf = true := by decide +kernel

/-! ## K14 words, written from R265 to R270 and R277: guard, major, destination, source; then the extension word -/

theorem test_words_of_register_instructions :
    K14.decode 188 0b000_00010_001_010 0 = some (.add 188 0 1 2) ∧
    K14.decode 188 0b111_00111_011_010 0b00000000011111 = some (.sar 188 7 3 31) ∧
    K14.decode 188 0b010_01001_110_001 0b11111111111110 = some (.movu 188 2 6 0x3FFE) ∧
    K14.decode 188 0b000_00111_011_101 0 = none ∧ K14.decode 188 0b000_00111_011_000 0b00000000100000 = none := by decide +kernel

theorem test_words_of_compares_and_memory :
    K14.decode 188 0b000_01011_001_011 0b10_111111111111 = some (.cmpi 188 0 1 3 2 0xFFF) ∧
    K14.decode 188 0b000_01011_001_011 0b00_111111111111 = none ∧
    K14.decode 188 0b001_01101_010_111 0b0_1_000000000110 = some (.ldh 188 1 2 7 false true 6) ∧
    K14.decode 188 0b100_10001_010_111 0b1_0_111111111111 = some (.stb 188 4 2 7 true false 0xFFF) := by decide +kernel

theorem test_words_of_decimal_and_flow :
    K14.decode 188 0b000_10010_101_110 0b000000000_10_011 = some (.dsbb 188 0 5 6 2) ∧
    K14.decode 188 0b000_10010_101_110 0b000000000_10_100 = none ∧
    K14.decode 188 0b011_10100_000_000 0b10000000000001 = some (.branch 188 3 0x2001) ∧
    K14.decode 188 0b000_11000_100_001 0b00000000010000 = some (.loopi 188 0 0b100001 16) ∧
    K14.decode 188 0b000_11001_000_000 0 = some (.rpt 188 0 0) ∧
    K14.decode 188 0b000_10110_001_101 0 = some (.jrCall 188 0 5) ∧ K14.decode 188 0b000_10110_010_101 0 = none := by decide +kernel

theorem test_words_of_control :
    K14.decode 188 0b000_11010_100_000 0b00000000_000010 = some (.mfr 188 0 4 2) ∧
    K14.decode 188 0b000_11100_100_000 0 = some (.post 188 0 4) ∧
    K14.decode 188 0b101_00000_010_111 0 = some (.trapi 188 5 7) ∧
    K14.decode 188 0b000_00000_110_011 0 = some (.done 188 0 3) ∧
    K14.decode 188 0b000_11110_000_000 0 = none := by decide +kernel

/-! ## Values the spec states -/

/-- 14 R323: RENEWALS, EPOCH, HOLDER and VALID in their places. -/
theorem test_lease_word : leaseWord 1 2 1 true false = 0x0003000200000001 := by decide +kernel

/-- 18 R385: 15 mV of guard above 700 mV asks for 715 mV, code 26. -/
theorem test_voltage_code : codeFor 7000 = 26 ∧ codeFor 9000 = 80 ∧ codeFor 0 = 0 := by decide +kernel

/-- A record of a severity, of kind 2, from slot and ID i. -/
def rec13 (sev i : Nat) : Nat × Rec := (i, { kind := 2, sev, subject := 0, first := 0, last := 0, cycle := 0, detail := 0, id := i })

/-- A full general area of one severity. -/
def area13 (sev : Nat) : List (Nat × Rec) := (List.range 1152).map (rec13 sev)

theorem witness_RecordPlacement :
    (let joins := fun (kind sev : Nat) (e : Nat × Rec) => e.2.kind = kind ∧ e.2.subject = 0 ∧ e.2.sev = sev ∧ e.2.first / 60 = 0 / 60 ∧ e.2.cycle = 0
     (∀ e ∈ [rec13 1 0], ¬ joins 3 1 e) ∧ [rec13 1 0].length < 1152 ∧ (∀ e ∈ [rec13 1 0], ¬ joins 2 2 e) ∧
     (∀ e ∈ area13 1, ¬ joins 3 1 e) ∧ 1152 ≤ (area13 1).length ∧ (∃ e ∈ area13 1, e.2.sev ≤ 1) ∧ (∀ e ∈ area13 1, 0 < e.2.sev)) := by
  decide +kernel

theorem test_record_full_area :
    (let b : Block := { State.reset.blk with recorder := { copy := { general := [rec13 1 5, rec13 0 6, rec13 0 4] } } }
     (RecCopy.place { b.recorder.copy with general := b.recorder.copy.general ++ (List.range' 7 1149).map (rec13 2) } (rec13 0 9).2).map
       (fun c => (c.general.find? fun e => e.2.id == 9).map (·.1)) = some (some 4)) := by decide +kernel
end Sys2Proof.Tests
end

/-! Writes to the page of a ring pair that are taken (02 R28), and what an update of that ring leaves as it was. -/

namespace Sys2Proof.Machine

open Sys2Proof

/-! ## A taken write -/

/-- A taken write runs its meaning after the OK response. -/
theorem Block.TakesRingWrite.ringWrite {b : Block} {k tag : Nat} (h : b.TakesRingWrite k tag) (off : Nat) (f : Block → Block) :
    b.ringWrite k tag off f = f b.okWrite := by
  simp [Block.ringWrite, h.up, h.ready, h.owns]

@[simp] theorem Block.ring_okWrite (b : Block) (k : Nat) : b.okWrite.ring k = b.ring k := rfl

/-! ## Updates of one ring pair -/

section
variable {s : State} {b : Block} {k : Nat}

theorem OnlyRing.okWrite (s : State) (k : Nat) : OnlyRing s { s with blk := s.blk.okWrite } k :=
  { state := rfl, ring := fun _ _ => rfl }

theorem OnlyRing.modRing (h : OnlyRing s { s with blk := b } k) (f : RingRec → RingRec) :
    OnlyRing s { s with blk := b.modRing k f } k where
  state := congrArg (fun t : State => { t with blk := t.blk.modRing k f }) h.state
  ring j hj := by simpa [hj.symm] using h.ring j hj

theorem OnlyRing.markStall (h : OnlyRing s { s with blk := b } k) : OnlyRing s { s with blk := b.markStall k } k := by
  unfold Block.markStall
  split
  · exact h.modRing _
  · exact h

theorem OnlyRing.placeOverrun (h : OnlyRing s { s with blk := b } k) : OnlyRing s { s with blk := b.placeOverrun k } k := by
  unfold Block.placeOverrun
  split
  · exact h
  · exact h.modRing _

/-- STALL_TICKS counts the tick in which the ring is stalled (04 R83). -/
@[simp] theorem Block.ring_markStall (b : Block) (k : Nat) :
    (b.markStall k).ring k = { b.ring k with stallMark := (b.ring k).stallMark || b.stalled k } := by
  unfold Block.markStall
  split
  · next hstalled => simp [hstalled]
  · next hstalled => simp [hstalled]

/-! ## Held completions -/

/-- No overrun waits where no completion is held. -/
theorem Block.ring_placeOverrun_of_no_held (h : (b.ring k).held = []) : (b.placeOverrun k).ring k = b.ring k := by
  unfold Block.placeOverrun
  split
  · rfl
  · simp only [Block.ring_modRing, if_true, h, List.findIdx?_nil]
    rw [← h]

theorem Block.settleRing_of_not_stopping (h : (b.ring k).st ≠ .stopping) : b.settleRing k = b := by
  simp [Block.settleRing, h]

theorem Block.flushHeldAux_of_no_held (h : (b.ring k).held = []) (fuel : Nat) :
    Block.flushHeldAux k (fuel + 1) b = b.placeOverrun k := by
  simp [Block.flushHeldAux, Block.ring_placeOverrun_of_no_held h, h]

/-- With no completion held and no STOP to end, a flush has nothing to write and nothing to settle. -/
theorem Block.flushHeld_of_no_held (h : (b.ring k).held = []) (hst : (b.ring k).st ≠ .stopping) :
    b.flushHeld k = b.placeOverrun k := by
  rw [Block.flushHeld, Block.flushHeldAux_of_no_held h, Block.settleRing_of_not_stopping]
  rwa [Block.ring_placeOverrun_of_no_held h]

theorem Block.ring_flushHeld_of_no_held (h : (b.ring k).held = []) (hst : (b.ring k).st ≠ .stopping) :
    (b.flushHeld k).ring k = b.ring k := by
  rw [Block.flushHeld_of_no_held h hst, Block.ring_placeOverrun_of_no_held h]

theorem OnlyRing.flushHeld_of_no_held (hs : OnlyRing s { s with blk := b } k) (h : (b.ring k).held = [])
    (hst : (b.ring k).st ≠ .stopping) : OnlyRing s { s with blk := b.flushHeld k } k := by
  rw [Block.flushHeld_of_no_held h hst]
  exact hs.placeOverrun

/-! ## Consumption (04 R85) -/

/-- A taken write to CMP_CONSUMER consumes after the OK response. -/
theorem exec_consume {tag : Nat} (h : s.blk.TakesRingWrite k tag) (value : BitVec 64) :
    exec (.consume k tag value) s = .next { s with blk := s.blk.okWrite.consumeRing k (value.setWidth 32) } := by
  rw [← h.ringWrite 0x10 fun b => b.consumeRing k (value.setWidth 32)]
  rfl

/-- A value within Q becomes D, and held completions follow. -/
theorem Block.consumeRing_of_within {v : Index} (h : dist v (b.ring k).d ≤ dist (b.ring k).q (b.ring k).d) :
    b.consumeRing k v = ((b.markStall k).modRing k fun r => { r with d := v }).flushHeld k := by
  simp [Block.consumeRing, h]

/-- A value beyond Q is ignored on a ring of a partition that is not STANDBY. -/
theorem Block.consumeRing_of_beyond {v : Index} (hrole : b.role (b.ownerD k) ≠ .standby)
    (h : ¬ dist v (b.ring k).d ≤ dist (b.ring k).q (b.ring k).d) :
    b.consumeRing k v = b.modRing k fun r => { r with cmpBad := true } := by
  simp [Block.consumeRing, hrole, h]

/-- A value within Q changes nothing but D and the stall mark of its ring where no completion is held and no STOP is to end. -/
theorem OnlyRing.consumeRing_of_within {v : Index} (hs : OnlyRing s { s with blk := b } k)
    (h : dist v (b.ring k).d ≤ dist (b.ring k).q (b.ring k).d) (hheld : (b.ring k).held = []) (hst : (b.ring k).st ≠ .stopping) :
    OnlyRing s { s with blk := b.consumeRing k v } k ∧
    (b.consumeRing k v).ring k = { b.ring k with d := v, stallMark := (b.ring k).stallMark || b.stalled k } := by
  rw [Block.consumeRing_of_within h]
  have hring : ((b.markStall k).modRing k fun r => { r with d := v }).ring k =
      { b.ring k with d := v, stallMark := (b.ring k).stallMark || b.stalled k } := by simp
  have hheld' : (((b.markStall k).modRing k fun r => { r with d := v }).ring k).held = [] := by rwa [hring]
  have hst' : (((b.markStall k).modRing k fun r => { r with d := v }).ring k).st ≠ .stopping := by rwa [hring]
  exact ⟨(hs.markStall.modRing _).flushHeld_of_no_held hheld' hst', (Block.ring_flushHeld_of_no_held hheld' hst').trans hring⟩

end

/-- Settles O21: the write is taken, so it is `Block.consumeRing`, whose test is R85's; where no completion is held the flush
that follows an accepted value leaves the ring as the value made it. -/
theorem consumption : Obligations.Consumption := by
  unfold Obligations.Consumption
  intro s k tag value htakes hrole r v fits
  have hexec := exec_consume htakes value
  have hok := OnlyRing.okWrite s k
  refine ⟨fun hfits => ?_, fun hfits hheld hst => ?_, fun hfits => ?_⟩
  · rw [hexec, Block.consumeRing_of_within (b := s.blk.okWrite) hfits]
  · obtain ⟨honly, hring⟩ := hok.consumeRing_of_within hfits hheld hst
    exact ⟨_, hexec, honly, hring⟩
  · rw [Block.consumeRing_of_beyond (b := s.blk.okWrite) hrole hfits] at hexec
    exact ⟨_, hexec, hok.modRing _, by simp [r]⟩

end Sys2Proof.Machine

/-! The compares of K14 (12 R268): the reserved pair value in the decoder, the conditions, and the predicate pair. -/

namespace Sys2Proof

/-! ## The reserved pair value -/

/-- The pair that a compare names; none for another command. -/
def Instr.comparePair : Instr → Option (BitVec 2)
  | .cmp _ _ _ _ pair _ => some pair
  | .cmpi _ _ _ _ pair _ => some pair
  | _ => none

namespace K14

/-- What has been read is no compare with the reserved pair value. -/
def NoReservedPair (o : Option Instr) : Prop := ∀ i, o = some i → i.comparePair ≠ some 0

theorem noReservedPair_none : NoReservedPair none := nofun

theorem noReservedPair_some {i : Instr} (h : i.comparePair ≠ some 0) : NoReservedPair (some i) := by
  rintro _ ⟨rfl⟩
  exact h

theorem noReservedPair_only {c : Bool} {i : Instr} (h : c = true → i.comparePair ≠ some 0) : NoReservedPair (only c i) := by
  unfold only
  split
  · next hc => exact noReservedPair_some (h hc)
  · exact noReservedPair_none

theorem noReservedPair_decodeShift (k : Nat) (g d s : BitVec 3) (x : Word14) : NoReservedPair (decodeShift k g d s x) := by
  unfold decodeShift
  split
  case h_6 => exact noReservedPair_none
  all_goals exact noReservedPair_only nofun

theorem noReservedPair_decodeAlui (k : Nat) (g d s : BitVec 3) (x : Word14) : NoReservedPair (decodeAlui k g d s x) := by
  unfold decodeAlui
  split
  case h_7 => exact noReservedPair_none
  all_goals exact noReservedPair_some nofun

theorem noReservedPair_decodeDec (k : Nat) (g d s : BitVec 3) (x : Word14) : NoReservedPair (decodeDec k g d s x) := by
  unfold decodeDec
  split
  all_goals exact noReservedPair_only nofun

theorem noReservedPair_decodeNib (k : Nat) (g d s : BitVec 3) (x : Word14) : NoReservedPair (decodeNib k g d s x) := by
  unfold decodeNib
  split
  case h_4 => exact noReservedPair_none
  all_goals exact noReservedPair_only nofun

theorem noReservedPair_decodeCtl (k : Nat) (g d s : BitVec 3) (x : Word14) : NoReservedPair (decodeCtl k g d s x) := by
  unfold decodeCtl
  split
  case h_3 | h_6 | h_7 => exact noReservedPair_some nofun
  all_goals exact noReservedPair_only nofun

/-- The compares' own arms (majors 0x0A and 0x0B) test the pair; no other arm reads a compare. -/
theorem noReservedPair_decode (k : Nat) (w x : Word14) : NoReservedPair (decode k w x) := by
  unfold decode
  simp only
  split
  case h_1 => exact noReservedPair_decodeCtl _ _ _ _ _
  case h_8 => exact noReservedPair_decodeShift _ _ _ _ _
  case h_10 => exact noReservedPair_decodeAlui _ _ _ _ _
  case h_11 => exact noReservedPair_only (by simp [Instr.comparePair])
  case h_12 => exact noReservedPair_only (by simp [Instr.comparePair])
  case h_19 => exact noReservedPair_decodeDec _ _ _ _ _
  case h_20 => exact noReservedPair_decodeNib _ _ _ _ _
  case h_23 | h_29 =>
    split
    · exact noReservedPair_some nofun
    · split
      · exact noReservedPair_some nofun
      · exact noReservedPair_none
  case h_21 | h_22 | h_24 | h_27 | h_28 | h_30 => exact noReservedPair_only nofun
  case h_31 => exact noReservedPair_none
  all_goals exact noReservedPair_some nofun

end K14
end Sys2Proof

namespace Sys2Proof.Machine

open Sys2Proof

/-! ## The conditions -/

section
variable (a v : BitVec 32)

theorem condition_eq : condition 0 a v = decide (a = v) := rfl

theorem condition_lt : condition 1 a v = decide (a.toInt < v.toInt) := rfl

theorem condition_ltu : condition 2 a v = decide (a.toNat < v.toNat) := rfl

theorem condition_le : condition 3 a v = decide (a.toInt ≤ v.toInt) := rfl

theorem condition_leu : condition 4 a v = decide (a.toNat ≤ v.toNat) := rfl

theorem condition_tst : condition 5 a v = decide (a &&& v ≠ 0) := by
  have h : condition 5 a v = (a &&& v != 0) := rfl
  rw [h, bne, decide_not]
  rfl

theorem condition_dlt : condition 6 a v = decide (digitValue (digits a) < digitValue (digits v)) := rfl

theorem condition_dval :
    condition 7 a v = (List.range 8).all fun i => !v.getLsbD i || decide (nibble a i ≤ 9) := rfl

end

/-- The eight condition codes. -/
theorem conditionCode_cases (P : BitVec 3 → Prop) (c : BitVec 3) (h0 : P 0) (h1 : P 1) (h2 : P 2) (h3 : P 3) (h4 : P 4)
    (h5 : P 5) (h6 : P 6) (h7 : P 7) : P c := by
  have hc : c = 0 ∨ c = 1 ∨ c = 2 ∨ c = 3 ∨ c = 4 ∨ c = 5 ∨ c = 6 ∨ c = 7 := by decide +revert
  obtain rfl | rfl | rfl | rfl | rfl | rfl | rfl | rfl := hc <;> assumption

/-! ## The predicate pair -/

/-- The bits that a predicate pair takes up. -/
theorem getLsbD_pairMask (pair : BitVec 2) (q : BitVec 3) :
    (BitVec.ofNat 8 (3 <<< (2 * pair.toNat))).getLsbD q.toNat = decide (q.toNat / 2 = pair.toNat) := by
  decide +revert

/-- A pair's even bit is the condition, its odd bit the complement. -/
theorem getLsbD_pairValue (pair : BitVec 2) (v : Bool) (q : BitVec 3) :
    (BitVec.ofNat 8 ((if v then 1 else 2) <<< (2 * pair.toNat))).getLsbD q.toNat =
      (decide (q.toNat / 2 = pair.toNat) && v == decide (q.toNat % 2 = 0)) := by
  decide +revert

/-- A written pair changes its two bits and no other. -/
theorem Ctx14.getLsbD_setPair (x : Ctx14) (pair : BitVec 2) (v : Bool) (q : BitVec 3) :
    (x.setPair pair v).p.getLsbD q.toNat =
      if q.toNat / 2 = pair.toNat then v == decide (q.toNat % 2 = 0) else x.p.getLsbD q.toNat := by
  have hlt : q.toNat < 8 := q.isLt
  simp only [Ctx14.setPair, BitVec.getLsbD_or, BitVec.getLsbD_and, BitVec.getLsbD_not, getLsbD_pairMask, getLsbD_pairValue, hlt]
  by_cases h : q.toNat / 2 = pair.toNat
  · simp [h]
  · simp [h]

/-- From P2 on, a predicate is a bit of the context. -/
theorem Ctx14.pred_of_two_le (x : Ctx14) {q : BitVec 3} (h : 2 ≤ q.toNat) : x.pred q = x.p.getLsbD q.toNat := by
  have h0 : q ≠ 0 := by rintro rfl; exact absurd h (by decide)
  have h1 : q ≠ 1 := by rintro rfl; exact absurd h (by decide)
  rw [Ctx14.pred, if_neg h0, if_neg h1]

/-- The predicates that do not belong to the pair stay. -/
theorem Ctx14.pred_setPair_of_ne (x : Ctx14) (v : Bool) {pair : BitVec 2} {q : BitVec 3} (h : q.toNat / 2 ≠ pair.toNat) :
    (x.setPair pair v).pred q = x.pred q := by
  simp only [Ctx14.pred, Ctx14.getLsbD_setPair, h, if_false]

/-- The two predicates of a pair. -/
theorem Ctx14.pred_setPair_of_eq (x : Ctx14) (v : Bool) {pair : BitVec 2} {q : BitVec 3} (hpair : pair ≠ 0)
    (h : q.toNat / 2 = pair.toNat) : (x.setPair pair v).pred q = (v == decide (q.toNat % 2 = 0)) := by
  have hpos : pair.toNat ≠ 0 := fun e => hpair (BitVec.eq_of_toNat_eq e)
  rw [Ctx14.pred_of_two_le _ (by omega), Ctx14.getLsbD_setPair, if_pos h]

/-! ## CMP and CMPI -/

theorem exec_cmp (core : Nat) (g d r : BitVec 3) (pair : BitVec 2) (cond : BitVec 3) (s : State) :
    exec (.cmp core g d r pair cond) s = s.run fun b => b.plain (.cmp core g d r pair cond) (coreIx core) fun x n =>
      x.setPair pair (condition cond (x.readG n d) (x.readG n r)) := rfl

theorem exec_cmpi (core : Nat) (g d cond : BitVec 3) (pair : BitVec 2) (imm : BitVec 12) (s : State) :
    exec (.cmpi core g d cond pair imm) s = s.run fun b => b.plain (.cmpi core g d cond pair imm) (coreIx core) fun x n =>
      x.setPair pair (condition cond (x.readG n d) (imm.signExtend 32)) := rfl

/-- Core u has unit number 188 + u (03). -/
theorem coreIx_unit (u : Nat) : coreIx (188 + u) = u := Nat.add_sub_cancel_left 188 u

/-- An instruction of core 188 + u that is plain does what its function of the context says. -/
theorem does_plain {s : State} {i : Instr} {u : Nat} {c : Fin 8} {f : Ctx14 → Nat → Ctx14} (ht : transfers i = false)
    (he : exec i s = s.run fun b => b.plain i (coreIx (188 + u)) f) : Does s i u c fun x => f x s.blk.drawn := by
  intro hissues
  rw [coreIx_unit] at he
  exact completes_plain hissues ht f he

theorem does_cmp (s : State) (u : Nat) (c : Fin 8) (g d r cond : BitVec 3) (pair : BitVec 2) :
    Does s (.cmp (188 + u) g d r pair cond) u c fun x =>
      x.setPair pair (condition cond (x.readG s.blk.drawn d) (x.readG s.blk.drawn r)) :=
  does_plain rfl (exec_cmp (188 + u) g d r pair cond s)

theorem does_cmpi (s : State) (u : Nat) (c : Fin 8) (g d cond : BitVec 3) (pair : BitVec 2) (imm : BitVec 12) :
    Does s (.cmpi (188 + u) g d cond pair imm) u c fun x =>
      x.setPair pair (condition cond (x.readG s.blk.drawn d) (imm.signExtend 32)) :=
  does_plain rfl (exec_cmpi (188 + u) g d cond pair imm s)

/-- Settles O3: both compares are register instructions, the decoder asks for a pair other than 0, and a pair's write touches
the two bits of that pair alone. -/
theorem k14Compares : Obligations.K14Compares := by
  unfold Obligations.K14Compares
  refine ⟨?_, ?_⟩
  · intro s u c g d r cond pair imm k w holds
    have hholds : condition cond = holds := by
      funext a v
      cases cond using conditionCode_cases with
      | h0 => exact condition_eq a v
      | h1 => exact condition_lt a v
      | h2 => exact condition_ltu a v
      | h3 => exact condition_le a v
      | h4 => exact condition_leu a v
      | h5 => exact condition_tst a v
      | h6 => exact condition_dlt a v
      | h7 => exact condition_dval a v
    rw [← hholds]
    refine ⟨does_cmp s u c g d r cond pair, does_cmpi s u c g d cond pair imm, ?_, ?_, fun k' w' x => ⟨fun h => ?_, fun h => ?_⟩⟩
    · simp [Instr.wf]
    · simp [Instr.wf]
    · exact K14.noReservedPair_decode k' w' x _ h rfl
    · exact K14.noReservedPair_decode k' w' x _ h rfl
  · intro x pair v q hpair y
    refine ⟨rfl, rfl, fun hq => ?_, fun hq => ?_, x.pred_setPair_of_ne v, rfl⟩
    · rw [x.pred_setPair_of_eq v hpair (by omega)]
      simp [hq]
    · rw [x.pred_setPair_of_eq v hpair (by omega)]
      simp [hq]

end Sys2Proof.Machine

/-! Where the recorder puts a new record of severity 0 to 2 (17 R373, R375). -/

namespace Sys2Proof

/-! ## The largest and the smallest of a list -/

section
variable {α : Type} (f : α → Int)

theorem argMax_eq_none_iff (l : List α) : argMax f l = none ↔ l = [] := by
  cases l with
  | nil => simp [argMax]
  | cons x r =>
    simp only [argMax, reduceCtorEq, iff_false]
    split
    · simp
    · split <;> simp

theorem argMax_mem_and_max {l : List α} {v : α} (h : argMax f l = some v) : v ∈ l ∧ ∀ x ∈ l, f x ≤ f v := by
  induction l generalizing v with
  | nil => simp [argMax] at h
  | cons x r ih =>
    simp only [argMax] at h
    split at h
    · next hr =>
      obtain rfl := (argMax_eq_none_iff f r).1 hr
      obtain rfl := Option.some.inj h
      simp
    · next y hr =>
      obtain ⟨hmem, hmax⟩ := ih hr
      split at h
      · next hgt =>
        obtain rfl := Option.some.inj h
        exact ⟨List.mem_cons_of_mem _ hmem, List.forall_mem_cons.2 ⟨by omega, hmax⟩⟩
      · next hle =>
        obtain rfl := Option.some.inj h
        exact ⟨List.mem_cons_self, List.forall_mem_cons.2 ⟨le_rfl, fun z hz => (hmax z hz).trans (by omega)⟩⟩

theorem argMin_eq_none_iff (l : List α) : argMin f l = none ↔ l = [] := argMax_eq_none_iff _ l

theorem argMin_mem_and_min {l : List α} {v : α} (h : argMin f l = some v) : v ∈ l ∧ ∀ x ∈ l, f v ≤ f x := by
  obtain ⟨hmem, hmax⟩ := argMax_mem_and_max _ h
  exact ⟨hmem, fun x hx => neg_le_neg_iff.1 (hmax x hx)⟩

end
end Sys2Proof

namespace Sys2Proof.Machine

open Sys2Proof

/-! ## The counts of an occurrence (17 R374) -/

section
variable (c : RecCopy) (kind subject : Nat)

/-- An occurrence steps no field but the tamper and mismatch counts. -/
theorem RecCopy.counted_eq : c.counted kind subject =
    { c with tamper := (c.counted kind subject).tamper, mismatch := (c.counted kind subject).mismatch } := by
  unfold RecCopy.counted
  split
  · rfl
  · split <;> rfl

@[simp] theorem RecCopy.counted_general : (c.counted kind subject).general = c.general := by
  rw [RecCopy.counted_eq]

@[simp] theorem RecCopy.counted_nextId : (c.counted kind subject).nextId = c.nextId := by
  rw [RecCopy.counted_eq]

@[simp] theorem RecCopy.counted_opMinutes : (c.counted kind subject).opMinutes = c.opMinutes := by
  rw [RecCopy.counted_eq]

@[simp] theorem RecCopy.counted_powerCycles : (c.counted kind subject).powerCycles = c.powerCycles := by
  rw [RecCopy.counted_eq]

end

/-! ## A place in the general area (17 R375) -/

section
variable {c : RecCopy}

theorem RecCopy.freeSlot_eq_none_of_full (h : 1152 ≤ c.general.length) : c.freeSlot = none := by
  simp [RecCopy.freeSlot, h]

/-- Fewer than 1,152 records cannot take up all of the slots 0 to 1,151. -/
theorem RecCopy.exists_unused_slot (h : c.general.length < 1152) : ∃ i < 1152, ∀ e ∈ c.general, e.1 ≠ i := by
  have hcard : (c.general.map Prod.fst).toFinset.card < (Finset.range 1152).card := by
    calc (c.general.map Prod.fst).toFinset.card
        ≤ (c.general.map Prod.fst).length := List.toFinset_card_le _
      _ = c.general.length := List.length_map _
      _ < (Finset.range 1152).card := by rwa [Finset.card_range]
  obtain ⟨i, hi, hunused⟩ := Finset.exists_mem_notMem_of_card_lt_card hcard
  refine ⟨i, Finset.mem_range.1 hi, fun e he heq => hunused ?_⟩
  exact List.mem_toFinset.2 (List.mem_map.2 ⟨e, he, heq⟩)

theorem RecCopy.exists_freeSlot (h : c.general.length < 1152) :
    ∃ i, c.freeSlot = some i ∧ i < 1152 ∧ ∀ e ∈ c.general, e.1 ≠ i := by
  cases hfree : c.freeSlot with
  | none =>
    obtain ⟨i, hi, hunused⟩ := RecCopy.exists_unused_slot h
    simp only [RecCopy.freeSlot, h, if_true, List.find?_eq_none, List.mem_range, Bool.not_eq_true', Bool.not_eq_false,
      List.any_eq_true, beq_iff_eq] at hfree
    obtain ⟨e, he, heq⟩ := hfree i hi
    exact absurd heq (hunused e he)
  | some i =>
    simp only [RecCopy.freeSlot, h, if_true] at hfree
    have hunused := List.find?_some hfree
    exact ⟨i, rfl, List.mem_range.1 (List.mem_of_find?_eq_some hfree), by simpa using hunused⟩

/-- A free slot takes the record. -/
theorem RecCopy.place_of_free (r : Rec) (h : c.general.length < 1152) :
    ∃ i < 1152, (∀ e ∈ c.general, e.1 ≠ i) ∧
      c.place r = some { c with general := (i, r) :: c.general, nextId := (c.nextId + 1) % 2 ^ 32 } := by
  obtain ⟨i, hfree, hi, hunused⟩ := RecCopy.exists_freeSlot h
  exact ⟨i, hi, hunused, by simp [RecCopy.place, hfree]⟩

/-- With no free slot the record of the lowest ID among those of the new one's severity or lower gives up its slot. -/
theorem RecCopy.place_of_full {r : Rec} (hfull : 1152 ≤ c.general.length) (hlow : ∃ e ∈ c.general, e.2.sev ≤ r.sev) :
    ∃ v ∈ c.general, v.2.sev ≤ r.sev ∧ (∀ e ∈ c.general, e.2.sev ≤ r.sev → v.2.id ≤ e.2.id) ∧
      c.place r = some { c with
        general := (v.1, r) :: c.general.filter (fun e => e.1 != v.1)
        nextId := (c.nextId + 1) % 2 ^ 32 } := by
  cases hmin : argMin (fun e => (e.2.id : Int)) (c.general.filter fun e => decide (e.2.sev ≤ r.sev)) with
  | none =>
    obtain ⟨e, he, hsev⟩ := hlow
    have hempty := (argMin_eq_none_iff _ _).1 hmin
    exact absurd (decide_eq_true hsev) (List.filter_eq_nil_iff.1 hempty e he)
  | some v =>
    obtain ⟨hmem, hlowest⟩ := argMin_mem_and_min _ hmin
    simp only [List.mem_filter, decide_eq_true_eq, Nat.cast_le, and_imp] at hmem hlowest
    obtain ⟨hv, hsev⟩ := hmem
    exact ⟨v, hv, hsev, hlowest, by simp [RecCopy.place, RecCopy.freeSlot_eq_none_of_full hfull, hmin]⟩

/-- With no free slot and higher severities alone there is no place. -/
theorem RecCopy.place_eq_none {r : Rec} (hfull : 1152 ≤ c.general.length) (hhigh : ∀ e ∈ c.general, r.sev < e.2.sev) :
    c.place r = none := by
  have hempty : (c.general.filter fun e => decide (e.2.sev ≤ r.sev)) = [] := by
    simpa [List.filter_eq_nil_iff] using hhigh
  simp [RecCopy.place, RecCopy.freeSlot_eq_none_of_full hfull, hempty, argMin, argMax]

end

/-! ## An occurrence that joins no record (17 R373) -/

/-- The record that an occurrence creates. -/
def RecCopy.newRec (c : RecCopy) (kind sev subject detail : Nat) : Rec :=
  { kind, sev, subject, first := c.opMinutes, last := c.opMinutes, cycle := c.powerCycles, detail, id := c.nextId }

theorem RecCopy.joins_iff (c : RecCopy) (kind sev subject : Nat) (r : Rec) :
    c.joins kind sev subject r = true ↔
      r.kind = kind ∧ r.subject = subject ∧ r.sev = sev ∧ r.first / 60 = c.opMinutes / 60 ∧ r.cycle = c.powerCycles := by
  simp [RecCopy.joins, and_assoc]

/-- The occurrence joins none of the records in the general area. -/
def RecCopy.JoinsNone (c : RecCopy) (kind sev subject : Nat) : Prop :=
  ∀ e ∈ c.general, c.joins kind sev subject e.2 = false

section
variable {b : Block} {kind sev subject : Nat}

theorem RecCopy.JoinsNone.argMax_eq_none {c : RecCopy} (h : c.JoinsNone kind sev subject) (f : Nat × Rec → Int) :
    argMax f (c.general.filter fun e => (c.counted kind subject).joins kind sev subject e.2) = none := by
  refine (argMax_eq_none_iff f _).2 (List.filter_eq_nil_iff.2 fun e he => ?_)
  simpa [RecCopy.joins] using h e he

/-- Such an occurrence counts, and its new record is placed. -/
theorem Block.noteLow_of_place_eq_some (h : b.recorder.copy.JoinsNone kind sev subject) {detail : Nat} {c : RecCopy}
    (hplace : (b.recorder.copy.counted kind subject).place (b.recorder.copy.newRec kind sev subject detail) = some c) :
    b.noteLow kind sev subject detail = { b with recorder := { b.recorder with copy := c } } := by
  rw [RecCopy.newRec] at hplace
  simp only [Block.noteLow, RecCopy.counted_general, RecCopy.counted_opMinutes, RecCopy.counted_powerCycles,
    RecCopy.counted_nextId, h.argMax_eq_none, hplace]

/-- Such an occurrence counts, and its new record is dropped. -/
theorem Block.noteLow_of_place_eq_none (h : b.recorder.copy.JoinsNone kind sev subject) {detail : Nat}
    (hplace : (b.recorder.copy.counted kind subject).place (b.recorder.copy.newRec kind sev subject detail) = none) :
    b.noteLow kind sev subject detail = { b with recorder := { b.recorder with
      copy := b.recorder.copy.counted kind subject, dropped := satAdd 32 b.recorder.dropped 1 } } := by
  rw [RecCopy.newRec] at hplace
  simp only [Block.noteLow, RecCopy.counted_general, RecCopy.counted_opMinutes, RecCopy.counted_powerCycles,
    RecCopy.counted_nextId, h.argMax_eq_none, hplace]

end

/-- Settles O55: an occurrence that joins no record is `RecCopy.place` of its new record, and each of the statement's three
cases is one of what `place` can do. -/
theorem recordPlacement : Obligations.RecordPlacement := by
  unfold Obligations.RecordPlacement
  intro b kind sev subject detail c old new b' area placed _ hjoin
  have hnone : c.JoinsNone kind sev subject := fun e he =>
    Bool.eq_false_iff.2 fun h => hjoin e he ((RecCopy.joins_iff ..).1 h)
  have hgeneral : (c.counted kind subject).general = old := RecCopy.counted_general ..
  have hnextId : (c.counted kind subject).nextId = c.nextId := RecCopy.counted_nextId ..
  have hplaced {g : List (Nat × Rec)}
      (hplace : (c.counted kind subject).place new =
        some { c.counted kind subject with general := g, nextId := (c.nextId + 1) % 2 ^ 32 }) : b' = placed ∧ area = g := by
    have hb' := Block.noteLow_of_place_eq_some hnone hplace
    have harea : area = g := congrArg (fun x : Block => x.recorder.copy.general) hb'
    exact ⟨by simp only [placed, harea]; exact hb', harea⟩
  refine ⟨fun hroom => ?_, fun hfull hlow => ?_, fun hfull hhigh => ?_⟩
  · obtain ⟨i, hi, hunused, hplace⟩ := RecCopy.place_of_free (c := c.counted kind subject) new (by rwa [hgeneral])
    rw [hgeneral] at hunused
    rw [hgeneral, hnextId] at hplace
    obtain ⟨hb', harea⟩ := hplaced hplace
    exact ⟨hb', i, hi, hunused, harea⟩
  · obtain ⟨v, hv, hsev, hlowest, hplace⟩ :=
      RecCopy.place_of_full (c := c.counted kind subject) (r := new) (by rwa [hgeneral]) (by rwa [hgeneral])
    rw [hgeneral] at hv hlowest
    rw [hgeneral, hnextId] at hplace
    obtain ⟨hb', harea⟩ := hplaced hplace
    exact ⟨hb', v, hv, hsev, hlowest, fun e => by simp [harea]⟩
  · have hplace : (c.counted kind subject).place new = none := RecCopy.place_eq_none (by rwa [hgeneral]) (by rwa [hgeneral])
    exact Block.noteLow_of_place_eq_none hnone hplace

end Sys2Proof.Machine

/-! The one-time state (03 R55, 16 R355): which commands touch it, and how. -/

namespace Sys2Proof

/-! ## Elements of a list -/

@[simp] theorem nth_nil {α : Type} (d : α) (i : Nat) : nth d [] i = d := by simp [nth]

@[simp] theorem nth_cons_zero {α : Type} (d x : α) (r : List α) : nth d (x :: r) 0 = x := by simp [nth]

@[simp] theorem nth_cons_succ {α : Type} (d x : α) (r : List α) (i : Nat) : nth d (x :: r) (i + 1) = nth d r i := by simp [nth]

@[simp] theorem length_modNth {α : Type} (f : α → α) (i : Nat) (l : List α) : (modNth f i l).length = l.length := by
  induction l generalizing i with
  | nil => cases i <;> rfl
  | cons x r ih =>
    cases i with
    | zero => rfl
    | succ i => simp [modNth, ih]

/-- The element that was changed, and the others as they were. -/
theorem nth_modNth {α : Type} (d : α) (f : α → α) (i : Nat) (l : List α) (j : Nat) :
    nth d (modNth f i l) j = if i = j ∧ j < l.length then f (nth d l j) else nth d l j := by
  induction l generalizing i j with
  | nil => cases i <;> simp [modNth]
  | cons x r ih =>
    cases i with
    | zero => cases j <;> simp [modNth]
    | succ i => cases j <;> simp [modNth, ih]

end Sys2Proof

namespace Sys2Proof.Machine

open Sys2Proof

/-! ## Fuses that are blown -/

theorem Fuses.Grown.refl (f : Fuses) : f.Grown f := ⟨le_rfl, fun _ => le_rfl, fun _ h => h, rfl⟩

/-- A blown fuse raises a floor or disables a source, for good. -/
theorem Fuses.grown_blow (f : Fuses) (src act : Nat) : f.Grown (f.blow src act) := by
  unfold Fuses.blow
  split
  · exact ⟨le_rfl, fun _ => le_rfl, fun i h => by simp [h], rfl⟩
  · refine ⟨le_rfl, fun i => ?_, fun _ h => h, rfl⟩
    simp only [nth_modNth]
    split
    · exact le_max_left _ _
    · exact le_rfl

theorem Fuses.blow_rollback (f : Fuses) (src act : Nat) : (f.blow src act).rollback = f.rollback := by
  unfold Fuses.blow
  split <;> rfl

/-- A step of the fuse counter. -/
theorem Fuses.grown_advance (f : Fuses) : f.Grown { f with rollback := f.rollback + 1 } :=
  ⟨Nat.le_succ _, fun _ => le_rfl, fun _ h => h, rfl⟩

/-! ## What a command can do to what is not the block -/

/-- Every command but the two that blow fuses changes the block alone. -/
theorem exec_changes_block_alone {c : Instr} (hadvance : c ≠ .fuseAdvanceStep) (hblow : c ≠ .fuseBlowDone) (s : State) :
    ∃ b, exec c s = .next { s with blk := b } := by
  cases c
  case fuseAdvanceStep => exact absurd rfl hadvance
  case fuseBlowDone => exact absurd rfl hblow
  all_goals exact ⟨_, rfl⟩

/-- FUSE_ADVANCE_STEP steps the fuse counter by one or leaves the state as it is (03 R55). -/
theorem execFuseAdvanceStep_cases (s : State) : execFuseAdvanceStep s = .next s ∨
    ∃ b, execFuseAdvanceStep s = .next { s with fuses := { s.fuses with rollback := s.fuses.rollback + 1 }, blk := b } := by
  unfold execFuseAdvanceStep
  split
  · split
    · exact .inr ⟨_, rfl⟩
    · exact .inl rfl
  · exact .inl rfl

/-- FUSE_BLOW_DONE blows the fuse that is under way or leaves the state as it is (16 R355). -/
theorem execFuseBlowDone_cases (s : State) : execFuseBlowDone s = .next s ∨
    ∃ src act b, execFuseBlowDone s = .next { s with fuses := s.fuses.blow src act, blk := b } := by
  unfold execFuseBlowDone
  split
  · split
    · exact .inr ⟨_, _, _, rfl⟩
    · exact .inl rfl
  · exact .inl rfl

/-- What a command keeps of the one-time state and of the queue. -/
structure KeepsOneTimeState (c : Option Instr) (s t : State) : Prop where
  pending : t.pending = s.pending
  grown : s.fuses.Grown t.fuses
  atMostOne : t.fuses.rollback ≤ s.fuses.rollback + 1
  advances : c ≠ some .fuseAdvanceStep → t.fuses.rollback = s.fuses.rollback
  blows : c ≠ some .fuseAdvanceStep → c ≠ some .fuseBlowDone → t.fuses = s.fuses

theorem KeepsOneTimeState.of_block (c : Option Instr) (s : State) (b : Block) : KeepsOneTimeState c s { s with blk := b } :=
  ⟨rfl, .refl _, Nat.le_succ _, fun _ => rfl, fun _ _ => rfl⟩

/-- The two commands that blow fuses, and all the others. -/
theorem exec_keepsOneTimeState {c : Instr} {s t : State} (h : exec c s = .next t) : KeepsOneTimeState (some c) s t := by
  by_cases hadvance : c = .fuseAdvanceStep
  · subst hadvance
    obtain heq | ⟨b, heq⟩ := execFuseAdvanceStep_cases s
    · obtain rfl : s = t := Host.Outcome.next.inj (heq.symm.trans h)
      exact .of_block _ s s.blk
    · obtain rfl := Host.Outcome.next.inj (heq.symm.trans h)
      exact ⟨rfl, s.fuses.grown_advance, le_rfl, fun hne => absurd rfl hne, fun hne => absurd rfl hne⟩
  · by_cases hblow : c = .fuseBlowDone
    · subst hblow
      obtain heq | ⟨src, act, b, heq⟩ := execFuseBlowDone_cases s
      · obtain rfl : s = t := Host.Outcome.next.inj (heq.symm.trans h)
        exact .of_block _ s s.blk
      · obtain rfl := Host.Outcome.next.inj (heq.symm.trans h)
        have hrollback := s.fuses.blow_rollback src act
        exact ⟨rfl, s.fuses.grown_blow src act, by simp [hrollback], fun _ => hrollback, fun _ hne => absurd rfl hne⟩
    · obtain ⟨b, heq⟩ := exec_changes_block_alone hadvance hblow s
      obtain rfl := Host.Outcome.next.inj (heq.symm.trans h)
      exact .of_block _ s b

/-- Settles O59: a step on an empty queue changes the block alone, and a step on a queue is the command at its front, which
touches the one-time state in two cases only. -/
theorem stepKeepsOneTimeState : Obligations.StepKeepsOneTimeState := by
  unfold Obligations.StepKeepsOneTimeState
  intro s t h
  obtain ⟨pending, fuses, b⟩ := s
  cases pending with
  | nil =>
    obtain rfl := Host.Outcome.next.inj h
    obtain ⟨hpending, hgrown, hone, hadvance, hblow⟩ := KeepsOneTimeState.of_block none { pending := [], fuses, blk := b } b.passTick
    exact ⟨hpending, hgrown, hone, hadvance, hblow⟩
  | cons c rest =>
    obtain ⟨hpending, hgrown, hone, hadvance, hblow⟩ := exec_keepsOneTimeState (c := c) (s := { pending := rest, fuses, blk := b }) h
    exact ⟨hpending, hgrown, hone, hadvance, hblow⟩

/-- Settles O1: the queue's front is taken off, and the command acts on the rest. -/
theorem stepRunsFront : Obligations.StepRunsFront := by
  unfold Obligations.StepRunsFront
  intro c s
  rfl

end Sys2Proof.Machine

/-! Decode and encode of K14 words agree (12 R265 to R270): the fields of a word and of each form of extension word. -/

namespace Sys2Proof.K14

open Sys2Proof

/-! ## Fields as numbers -/

theorem toNat_append_add {n m : Nat} (x : BitVec n) (y : BitVec m) : (x ++ y).toNat = x.toNat * 2 ^ m + y.toNat := by
  rw [BitVec.toNat_append, ← Nat.shiftLeft_add_eq_or_of_lt y.isLt, Nat.shiftLeft_eq]

theorem toNat_extract {n : Nat} (start len : Nat) (x : BitVec n) :
    (x.extractLsb' start len).toNat = x.toNat / 2 ^ start % 2 ^ len := by
  rw [BitVec.extractLsb'_toNat, Nat.shiftRight_eq_div_pow]

theorem getLsbD_eq_iff {n : Nat} (x : BitVec n) (i : Nat) (v : Bool) :
    x.getLsbD i = v ↔ x.toNat / 2 ^ i % 2 = (BitVec.ofBool v).toNat := by
  rw [BitVec.getLsbD, Nat.testBit_eq_decide_div_mod_eq]
  cases v <;> simp

theorem small_iff (n : Nat) (x : Word14) : small n x = true ↔ x.toNat < 2 ^ n := by
  simp [small]

/-! ## The words of the forms -/

section
variable (w x : Word14) (g d s : BitVec 3) (m : BitVec 5)

theorem word_eq_iff : word g m d s = w ↔ guardOf w = g ∧ majorOf w = m ∧ destOf w = d ∧ srcOf w = s := by
  have h : (word g m d s).toNat = ((g.toNat * 2 ^ 5 + m.toNat) * 2 ^ 3 + d.toNat) * 2 ^ 3 + s.toNat := by
    rw [← toNat_append_add, ← toNat_append_add, ← toNat_append_add]
    rfl
  simp only [← BitVec.toNat_inj, h, guardOf, majorOf, destOf, srcOf, toNat_extract]
  omega

theorem countWord_eq_iff (n : BitVec 6) : g ++ m ++ n = w ↔ guardOf w = g ∧ majorOf w = m ∧ countOf w = n := by
  have h : (g ++ m ++ n).toNat = (g.toNat * 2 ^ 5 + m.toNat) * 2 ^ 6 + n.toNat := by
    rw [toNat_append_add, toNat_append_add]
  rw [← BitVec.toNat_inj]
  simp only [← BitVec.toNat_inj, h, guardOf, majorOf, countOf, toNat_extract]
  omega

end

/-! ## The extension words of the forms -/

section
variable (x : Word14)

theorem zero_append_eq_iff {k n : Nat} (v : BitVec n) :
    ((0 : BitVec k) ++ v).toNat = x.toNat ↔ small n x = true ∧ x.extractLsb' 0 n = v := by
  rw [toNat_append_add, small_iff, ← BitVec.toNat_inj, toNat_extract]
  simp only [BitVec.ofNat_eq_ofNat, BitVec.toNat_ofNat, Nat.zero_mod, Nat.zero_mul, Nat.zero_add, Nat.pow_zero, Nat.div_one]
  constructor
  · intro h
    rw [← h]
    exact ⟨v.isLt, Nat.mod_eq_of_lt v.isLt⟩
  · rintro ⟨hlt, h⟩
    rw [← h, Nat.mod_eq_of_lt hlt]

theorem shiftExt_eq_iff (n : BitVec 5) : (0 : BitVec 9) ++ n = x ↔ small 5 x = true ∧ x.extractLsb' 0 5 = n := by
  rw [← BitVec.toNat_inj]
  exact zero_append_eq_iff x n

theorem maskExt_eq_iff (mask : BitVec 10) : (0 : BitVec 4) ++ mask = x ↔ small 10 x = true ∧ x.extractLsb' 0 10 = mask := by
  rw [← BitVec.toNat_inj]
  exact zero_append_eq_iff x mask

theorem numExt_eq_iff (num : BitVec 6) : (0 : BitVec 8) ++ num = x ↔ small 6 x = true ∧ x.extractLsb' 0 6 = num := by
  rw [← BitVec.toNat_inj]
  exact zero_append_eq_iff x num

theorem cmpExt_eq_iff (cond : BitVec 3) (pair : BitVec 2) : (0 : BitVec 9) ++ cond ++ pair = x ↔
    small 5 x = true ∧ x.extractLsb' 2 3 = cond ∧ x.extractLsb' 0 2 = pair := by
  have h : ((0 : BitVec 9) ++ cond ++ pair).toNat = cond.toNat * 4 + pair.toNat := by
    rw [toNat_append_add, toNat_append_add]
    simp
  rw [← BitVec.toNat_inj]
  simp only [← BitVec.toNat_inj, h, small_iff, toNat_extract]
  omega

theorem cmpiExt_eq_iff (pair : BitVec 2) (imm : BitVec 12) : pair ++ imm = x ↔
    x.extractLsb' 12 2 = pair ∧ x.extractLsb' 0 12 = imm := by
  have h : (pair ++ imm).toNat = pair.toNat * 2 ^ 12 + imm.toNat := toNat_append_add pair imm
  rw [← BitVec.toNat_inj]
  simp only [← BitVec.toNat_inj, h, toNat_extract]
  omega

theorem memExt_eq_iff (c post : Bool) (disp : BitVec 12) : memExt c post disp = x ↔
    x.getLsbD 13 = c ∧ x.getLsbD 12 = post ∧ x.extractLsb' 0 12 = disp := by
  have h : (memExt c post disp).toNat = ((BitVec.ofBool c).toNat * 2 ^ 1 + (BitVec.ofBool post).toNat) * 2 ^ 12 + disp.toNat := by
    rw [← toNat_append_add, ← toNat_append_add]
    rfl
  simp only [← BitVec.toNat_inj, h, getLsbD_eq_iff, toNat_extract]
  omega

theorem decExt_eq_iff (pair : BitVec 2) (op : BitVec 3) : (0 : BitVec 9) ++ pair ++ op = x ↔
    small 5 x = true ∧ x.extractLsb' 3 2 = pair ∧ x.extractLsb' 0 3 = op := by
  have h : ((0 : BitVec 9) ++ pair ++ op).toNat = pair.toNat * 8 + op.toNat := by
    rw [toNat_append_add, toNat_append_add]
    simp
  rw [← BitVec.toNat_inj]
  simp only [← BitVec.toNat_inj, h, small_iff, toNat_extract]
  omega

/-- The extension word of a digit instruction without a pair is its sub-operation. -/
theorem subOpExt_eq_iff {n : Nat} (hn : n < 8) : BitVec.ofNat 14 n = x ↔ small 3 x = true ∧ (x.extractLsb' 0 3).toNat = n := by
  simp only [← BitVec.toNat_inj, BitVec.toNat_ofNat, small_iff, toNat_extract]
  omega

theorem nshlExt_eq_iff : 0x2000 = x ↔
    x.extractLsb' 12 2 = 2 ∧ x.extractLsb' 4 8 = 0 ∧ x.getLsbD 3 = false ∧ x.extractLsb' 0 3 = 0 := by
  simp only [← BitVec.toNat_inj, getLsbD_eq_iff, toNat_extract]
  simp only [BitVec.ofNat_eq_ofNat, BitVec.toNat_ofNat, BitVec.ofBool_false]
  omega

theorem bswapExt_eq_iff : 0 = x ↔ small 0 x = true := by
  simp only [← BitVec.toNat_inj, small_iff]
  simp only [BitVec.ofNat_eq_ofNat, BitVec.toNat_ofNat]
  omega

theorem nextExt_eq_iff (byReg : Bool) (pos : BitVec 3) : (0 : BitVec 10) ++ BitVec.ofBool byReg ++ pos = x ↔
    x.extractLsb' 12 2 = 0 ∧ x.extractLsb' 4 8 = 0 ∧ x.getLsbD 3 = byReg ∧ x.extractLsb' 0 3 = pos := by
  have h : ((0 : BitVec 10) ++ BitVec.ofBool byReg ++ pos).toNat = (BitVec.ofBool byReg).toNat * 8 + pos.toNat := by
    rw [toNat_append_add, toNat_append_add]
    simp
  rw [← BitVec.toNat_inj]
  simp only [← BitVec.toNat_inj, h, getLsbD_eq_iff, toNat_extract]
  simp only [BitVec.ofNat_eq_ofNat, BitVec.toNat_ofNat]
  omega

theorem ninsExt_eq_iff (byReg : Bool) (pos : BitVec 3) : (1 : BitVec 2) ++ (0 : BitVec 8) ++ BitVec.ofBool byReg ++ pos = x ↔
    x.extractLsb' 12 2 = 1 ∧ x.extractLsb' 4 8 = 0 ∧ x.getLsbD 3 = byReg ∧ x.extractLsb' 0 3 = pos := by
  have h : ((1 : BitVec 2) ++ (0 : BitVec 8) ++ BitVec.ofBool byReg ++ pos).toNat =
      2 ^ 12 + (BitVec.ofBool byReg).toNat * 8 + pos.toNat := by
    rw [toNat_append_add, toNat_append_add, toNat_append_add]
    simp
    omega
  rw [← BitVec.toNat_inj]
  simp only [← BitVec.toNat_inj, h, getLsbD_eq_iff, toNat_extract]
  simp only [BitVec.ofNat_eq_ofNat, BitVec.toNat_ofNat]
  omega

theorem sevExt_eq_iff (e : BitVec 3) (all : Bool) (pos : BitVec 4) : (0 : BitVec 6) ++ e ++ BitVec.ofBool all ++ pos = x ↔
    small 8 x = true ∧ x.extractLsb' 5 3 = e ∧ x.getLsbD 4 = all ∧ x.extractLsb' 0 4 = pos := by
  have h : ((0 : BitVec 6) ++ e ++ BitVec.ofBool all ++ pos).toNat =
      e.toNat * 32 + (BitVec.ofBool all).toNat * 16 + pos.toNat := by
    rw [toNat_append_add, toNat_append_add, toNat_append_add]
    simp
    omega
  rw [← BitVec.toNat_inj]
  simp only [← BitVec.toNat_inj, h, small_iff, getLsbD_eq_iff, toNat_extract]
  omega

end

/-! ## What is written is read -/

theorem decode_of_encode {i : Instr} {w x y : Word14} (hwf : i.wf = true) (h : encode i = some (w, x))
    (hext : hasExt w = true → x = y) : ∃ k, 188 ≤ k ∧ k < 206 ∧ decode k w y = some i := by
  cases i
  all_goals simp only [encode, reduceCtorEq, Option.some.injEq, Prod.mk.injEq] at h
  all_goals
    obtain ⟨hw, rfl⟩ := h
    simp only [word_eq_iff, countWord_eq_iff] at hw
    simp only [Instr.wf, Bool.and_eq_true, bne_iff_ne, ne_eq, decide_eq_true_eq] at hwf
  case ctlNop | ret | trapi | waitt | done | eret | mov | add | sub | and | or | xor | mul | jrJump | jrCall | rpt | post | mbr
      | mch =>
    exact ⟨_, hwf.1, hwf.2, by simp [decode, decodeCtl, only, hw]⟩
  case movi | movu | addi | andi | ori | xori | branch | call | loop | loopi =>
    simp [hasExt, hw] at hext
    exact ⟨_, hwf.1, hwf.2, by simp [decode, decodeAlui, only, hw, hext]⟩
  case bswap =>
    simp [hasExt, hw] at hext
    exact ⟨_, hwf.1, hwf.2, by simp [decode, decodeShift, only, hw, (bswapExt_eq_iff y).1 hext]⟩
  case daddn | dsubn | daa | dbin =>
    simp [hasExt, hw, subOpExt_eq_iff] at hext
    exact ⟨_, hwf.1, hwf.2, by simp [decode, decodeDec, only, hw, hext]⟩
  case sev | shl | shr | sar | rol | ldw | ldh | ldb | stw | sth | stb | next | nins | nshl | mfr | mtr =>
    simp only [shiftExt_eq_iff, numExt_eq_iff, memExt_eq_iff, nshlExt_eq_iff, nextExt_eq_iff, ninsExt_eq_iff,
      sevExt_eq_iff] at hext
    simp [hasExt, hw] at hext
    exact ⟨_, hwf.1, hwf.2, by simp [decode, decodeCtl, decodeShift, decodeNib, memOf, only, hw, hext]⟩
  case wfe | cmp | cmpi | dadd | dadc | dsub | dsbb =>
    simp only [maskExt_eq_iff, cmpExt_eq_iff, cmpiExt_eq_iff, decExt_eq_iff] at hext
    simp [hasExt, hw] at hext
    exact ⟨_, hwf.1.1, hwf.1.2, by simpa [decode, decodeCtl, decodeDec, only, hw, hext] using hwf.2⟩

/-! ## What is read is written so -/

/-- What has been read from words w and x, if anything, is written as them. -/
def WrittenAs (w x : Word14) (o : Option Instr) : Prop :=
  ∀ i, o = some i → encode i = some (w, if hasExt w then x else 0)

section
variable {w x : Word14} {g d s : BitVec 3} {m : BitVec 5} {e : Word14} {i : Instr}

theorem writtenAs_none : WrittenAs w x none := nofun

theorem writtenAs_some (h : encode i = some (w, if hasExt w then x else 0)) : WrittenAs w x (some i) := by
  rintro _ ⟨rfl⟩
  exact h

theorem writtenAs_only {c : Bool} (h : c = true → encode i = some (w, if hasExt w then x else 0)) : WrittenAs w x (only c i) := by
  unfold only
  split
  · next hc => exact writtenAs_some (h hc)
  · exact writtenAs_none

theorem writtenAs_decodeShift (k : Nat) (hm : majorOf w = 7) :
    WrittenAs w x (decodeShift k (guardOf w) (destOf w) (srcOf w) x) := by
  unfold decodeShift
  simp only
  split
  case h_6 => exact writtenAs_none
  case h_5 hs =>
    refine writtenAs_only fun hx => ?_
    obtain rfl := (bswapExt_eq_iff x).2 hx
    simp only [encode, Option.some.injEq, Prod.mk.injEq, word_eq_iff]
    simp [hm, BitVec.toNat_eq, hs]
  all_goals
    next hs =>
    refine writtenAs_only fun hx => ?_
    simp only [encode, Option.some.injEq, Prod.mk.injEq, word_eq_iff, shiftExt_eq_iff]
    simp [hasExt, hm, BitVec.toNat_eq, hs, hx]

theorem writtenAs_decodeAlui (k : Nat) (hm : majorOf w = 9) :
    WrittenAs w x (decodeAlui k (guardOf w) (destOf w) (srcOf w) x) := by
  unfold decodeAlui
  split
  case h_7 => exact writtenAs_none
  all_goals
    next hs =>
    refine writtenAs_some ?_
    simp only [encode, Option.some.injEq, Prod.mk.injEq, word_eq_iff]
    simp [hasExt, hm, BitVec.toNat_eq, hs]

theorem writtenAs_decodeDec (k : Nat) (hm : majorOf w = 18) :
    WrittenAs w x (decodeDec k (guardOf w) (destOf w) (srcOf w) x) := by
  unfold decodeDec
  simp only
  have hlast : (x.extractLsb' 0 3).toNat < 8 := BitVec.isLt _
  split
  case h_1 hop | h_2 hop | h_3 hop | h_4 hop =>
    refine writtenAs_only fun hx => ?_
    simp only [Bool.and_eq_true] at hx
    simp only [encode, Option.some.injEq, Prod.mk.injEq, word_eq_iff, decExt_eq_iff]
    simpa [hasExt, hm, hx.1, BitVec.toNat_eq] using hop
  case h_5 hop | h_6 hop | h_7 hop =>
    refine writtenAs_only fun hx => ?_
    have hsub := (subOpExt_eq_iff x (by decide)).2 ⟨hx, hop⟩
    simp only [encode, Option.some.injEq, Prod.mk.injEq, word_eq_iff]
    simp [hasExt, hm, ← hsub]
  case h_8 hop =>
    refine writtenAs_only fun hx => ?_
    have hsub := (subOpExt_eq_iff (n := 7) x (by decide)).2 ⟨hx, by grind⟩
    simp only [encode, Option.some.injEq, Prod.mk.injEq, word_eq_iff]
    simp [hasExt, hm, ← hsub]

theorem writtenAs_decodeNib (k : Nat) (hm : majorOf w = 19) :
    WrittenAs w x (decodeNib k (guardOf w) (destOf w) (srcOf w) x) := by
  unfold decodeNib
  simp only
  split
  case h_4 => exact writtenAs_none
  case h_1 hop | h_2 hop =>
    refine writtenAs_only fun hx => ?_
    simp only [encode, Option.some.injEq, Prod.mk.injEq, word_eq_iff, nextExt_eq_iff, ninsExt_eq_iff]
    simp only [beq_iff_eq] at hx
    simpa [hasExt, hm, hx, BitVec.toNat_eq] using hop
  case h_3 hop =>
    refine writtenAs_only fun hx => ?_
    simp only [Bool.and_eq_true, beq_iff_eq, Bool.not_eq_true'] at hx
    obtain rfl := (nshlExt_eq_iff x).2 ⟨BitVec.eq_of_toNat_eq hop, hx.1.1, hx.1.2, hx.2⟩
    simp only [encode, Option.some.injEq, Prod.mk.injEq, word_eq_iff]
    simp [hasExt, hm]

theorem writtenAs_decodeCtl (k : Nat) (hm : majorOf w = 0) :
    WrittenAs w x (decodeCtl k (guardOf w) (destOf w) (srcOf w) x) := by
  unfold decodeCtl
  have hlast : (destOf w).toNat < 8 := BitVec.isLt _
  split
  case h_3 hd | h_6 hd | h_7 hd =>
    refine writtenAs_some ?_
    simp only [encode, Option.some.injEq, Prod.mk.injEq, word_eq_iff]
    simp [hasExt, hm, BitVec.toNat_eq, hd]
  case h_1 hd | h_2 hd =>
    refine writtenAs_only fun hs => ?_
    simp only [beq_iff_eq] at hs
    simp only [encode, Option.some.injEq, Prod.mk.injEq, word_eq_iff]
    simp [hasExt, hm, BitVec.toNat_eq, hd, hs]
  case h_4 hd =>
    refine writtenAs_only fun hx => ?_
    simp only [Bool.and_eq_true, beq_iff_eq] at hx
    simp only [encode, Option.some.injEq, Prod.mk.injEq, word_eq_iff, sevExt_eq_iff]
    simp [hasExt, hm, BitVec.toNat_eq, hd, hx]
  case h_5 hd =>
    refine writtenAs_only fun hx => ?_
    simp only [Bool.and_eq_true] at hx
    simp only [encode, Option.some.injEq, Prod.mk.injEq, word_eq_iff, maskExt_eq_iff]
    simp [hasExt, hm, BitVec.toNat_eq, hd, hx.1]
  case h_8 =>
    refine writtenAs_only fun hs => ?_
    simp only [beq_iff_eq] at hs
    have hd : (destOf w).toNat = 7 := by grind
    simp only [encode, Option.some.injEq, Prod.mk.injEq, word_eq_iff]
    simp [hasExt, hm, BitVec.toNat_eq, hd, hs]

/-- A load or a store. -/
theorem writtenAs_memOf {f : Bool → Bool → BitVec 12 → Instr}
    (hf : ∀ c post disp, encode (f c post disp) = some (word (guardOf w) m (destOf w) (srcOf w), memExt c post disp))
    (hm : (majorOf w).toNat = m.toNat) (hext : hasExt w = true) : WrittenAs w x (memOf f x) := by
  refine writtenAs_some ?_
  rw [hf, hext]
  simp only [Option.some.injEq, Prod.mk.injEq, word_eq_iff, if_true, memExt_eq_iff, BitVec.eq_of_toNat_eq hm, and_self]

theorem writtenAs_decode (k : Nat) : WrittenAs w x (decode k w x) := by
  unfold decode
  simp only
  split
  case h_1 hm => exact writtenAs_decodeCtl k (BitVec.eq_of_toNat_eq hm)
  case h_8 hm => exact writtenAs_decodeShift k (BitVec.eq_of_toNat_eq hm)
  case h_10 hm => exact writtenAs_decodeAlui k (BitVec.eq_of_toNat_eq hm)
  case h_19 hm => exact writtenAs_decodeDec k (BitVec.eq_of_toNat_eq hm)
  case h_20 hm => exact writtenAs_decodeNib k (BitVec.eq_of_toNat_eq hm)
  case h_2 hm | h_3 hm | h_4 hm | h_5 hm | h_6 hm | h_7 hm | h_9 hm =>
    refine writtenAs_some ?_
    simp only [encode, Option.some.injEq, Prod.mk.injEq, word_eq_iff]
    simp [hasExt, BitVec.toNat_eq, hm]
  case h_31 => exact writtenAs_none
  case h_11 hm =>
    refine writtenAs_only fun hx => ?_
    simp only [Bool.and_eq_true] at hx
    simp only [encode, Option.some.injEq, Prod.mk.injEq, word_eq_iff, cmpExt_eq_iff]
    simp [hasExt, BitVec.toNat_eq, hm, hx.1]
  case h_12 hm =>
    refine writtenAs_only fun hx => ?_
    simp only [encode, Option.some.injEq, Prod.mk.injEq, word_eq_iff, cmpiExt_eq_iff]
    simp [hasExt, BitVec.toNat_eq, hm]
  case h_13 hm | h_14 hm | h_15 hm | h_16 hm | h_17 hm | h_18 hm =>
    exact writtenAs_memOf (fun _ _ _ => rfl) hm (by simp [hasExt, hm])
  case h_21 hm | h_22 hm | h_24 hm | h_30 hm =>
    refine writtenAs_only fun hf => ?_
    simp only [Bool.and_eq_true, beq_iff_eq] at hf
    simp only [encode, Option.some.injEq, Prod.mk.injEq, word_eq_iff]
    simp [hasExt, BitVec.toNat_eq, hm, hf]
  case h_27 hm | h_28 hm =>
    refine writtenAs_only fun hf => ?_
    simp only [Bool.and_eq_true, beq_iff_eq] at hf
    simp only [encode, Option.some.injEq, Prod.mk.injEq, word_eq_iff, numExt_eq_iff]
    simp [hasExt, BitVec.toNat_eq, hm, hf]
  case h_25 hm | h_26 hm =>
    refine writtenAs_some ?_
    simp only [encode, Option.some.injEq, Prod.mk.injEq, countWord_eq_iff]
    simp [hasExt, BitVec.toNat_eq, hm]
  case h_23 hm | h_29 hm =>
    split
    · next hf =>
      refine writtenAs_some ?_
      simp only [encode, Option.some.injEq, Prod.mk.injEq, word_eq_iff]
      simp [hasExt, BitVec.toNat_eq, hm, hf]
    · split
      · next hf =>
        refine writtenAs_some ?_
        simp only [encode, Option.some.injEq, Prod.mk.injEq, word_eq_iff]
        simp [hasExt, BitVec.toNat_eq, hm, hf]
      · exact writtenAs_none

end

/-- Settles O13: each form's fields are read back from its words, and words that are read as an instruction are that
instruction's fields put together. -/
theorem k14WordsAgree : Obligations.K14WordsAgree := by
  unfold Obligations.K14WordsAgree
  refine ⟨fun i w x y hwf h hy => decode_of_encode hwf h fun hext => (hy hext).symm, fun k w x i h => ?_⟩
  exact writtenAs_decode k i h

end Sys2Proof.K14

/-! The register instructions of K14 and its packed digits (12 R266, R270, R271). -/

namespace Sys2Proof.Machine

open Sys2Proof

section
variable (s : State) (u : Nat) (c : Fin 8) {i : Instr}

/-- An instruction that takes d and another register to a new value of d. -/
theorem does_binary {f : BitVec 32 → BitVec 32 → BitVec 32} {d r : BitVec 3} (ht : transfers i = false)
    (he : exec i s = s.run fun b => b.plain i (coreIx (188 + u)) (Ctx14.binary f d r)) :
    Does s i u c fun x => x.writeG d (f (x.readG s.blk.drawn d) (x.readG s.blk.drawn r)) :=
  does_plain ht he

/-- An instruction that takes d to a new value of d. -/
theorem does_unary {f : BitVec 32 → BitVec 32} {d : BitVec 3} (ht : transfers i = false)
    (he : exec i s = s.run fun b => b.plain i (coreIx (188 + u)) (Ctx14.unary f d)) :
    Does s i u c fun x => x.writeG d (f (x.readG s.blk.drawn d)) :=
  does_plain ht he

end

/-! ## Values put together from fields -/

/-- BSWAP puts the byte at each end where the other was. -/
theorem swapBytes_eq_append (v : BitVec 32) :
    swapBytes v = v.extractLsb' 0 8 ++ v.extractLsb' 8 8 ++ v.extractLsb' 16 8 ++ v.extractLsb' 24 8 := by
  apply BitVec.eq_of_toNat_eq
  refine Eq.trans ?_ (K14.toNat_append_add _ _).symm
  rw [K14.toNat_append_add, K14.toNat_append_add]
  simp only [swapBytes, toLE, ofBE, List.foldl_cons, List.foldl_nil, BitVec.toNat_ofNat, K14.toNat_extract,
    Nat.div_div_eq_div_mul, Nat.reducePow, Nat.reduceMul, Nat.div_one]
  omega

/-- A value moved up by n bits with another put below it. -/
theorem toNat_shiftLeft_or {m n w : Nat} (hw : m + n = w) (v : BitVec w) (low : BitVec n) :
    (v <<< n ||| low.setWidth w).toNat = (v.extractLsb' 0 m ++ low).toNat := by
  subst hw
  congr 1
  apply BitVec.eq_of_getLsbD_eq
  intro i hi
  rw [BitVec.getLsbD_or, BitVec.getLsbD_shiftLeft, BitVec.getLsbD_setWidth, BitVec.getLsbD_append, BitVec.getLsbD_extractLsb']
  by_cases h : i < n
  · simp [h, hi]
  · have hlow : low.getLsbD i = false := BitVec.getLsbD_of_ge _ _ (not_lt.1 h)
    have hm : i - n < m := by omega
    simp [h, hi, hlow, hm]

/-- Settles O2: each is a plain instruction, which `does_plain` completes; BSWAP and MOVU are the model's arithmetic read as
fields. -/
theorem k14RegisterInstructions : Obligations.K14RegisterInstructions := by
  unfold Obligations.K14RegisterInstructions
  intro s u c g d r n imm k w
  have hmovu (v : BitVec 32) : v <<< 14 ||| imm.setWidth 32 = v.extractLsb' 0 18 ++ imm :=
    BitVec.eq_of_toNat_eq (toNat_shiftLeft_or (m := 18) (by rfl) v imm)
  refine ⟨does_plain (f := fun x n => x.writeG d (x.readG n r)) rfl rfl, does_binary s u c (f := (· + ·)) rfl rfl,
    does_binary s u c (f := (· - ·)) rfl rfl, does_binary s u c (f := (· &&& ·)) rfl rfl,
    does_binary s u c (f := (· ||| ·)) rfl rfl, does_binary s u c (f := (· ^^^ ·)) rfl rfl,
    does_unary s u c (f := (· <<< n.toNat)) rfl rfl, does_unary s u c (f := (· >>> n.toNat)) rfl rfl,
    does_unary s u c (f := (·.sshiftRight n.toNat)) rfl rfl, does_unary s u c (f := (·.rotateLeft n.toNat)) rfl rfl, ?_,
    does_plain (f := fun x n => x.produce d (x.readG n d * x.readG n r) 2) rfl rfl,
    does_plain (f := fun x _ => x.writeG d (imm.signExtend 32)) rfl rfl, ?_,
    does_unary s u c (f := (· + imm.signExtend 32)) rfl rfl, does_unary s u c (f := (· &&& imm.signExtend 32)) rfl rfl,
    does_unary s u c (f := (· ||| imm.signExtend 32)) rfl rfl, does_unary s u c (f := (· ^^^ imm.signExtend 32)) rfl rfl⟩
  · simp only [← swapBytes_eq_append]
    exact does_unary s u c (f := swapBytes) rfl rfl
  · simp only [← hmovu]
    exact does_unary s u c (f := fun v => v <<< 14 ||| imm.setWidth 32) rfl rfl

/-! ## Packed digits (12 R270) -/

theorem digitValue_cons (d : Nat) (l : List Nat) : digitValue (d :: l) = d + 10 * digitValue l := rfl

theorem digitValue_lt {l : List Nat} (h : ∀ d ∈ l, d < 10) : digitValue l < 10 ^ l.length := by
  induction l with
  | nil => simp [digitValue]
  | cons d r ih =>
    have hd := h d List.mem_cons_self
    have hr := ih fun x hx => h x (List.mem_cons_of_mem _ hx)
    rw [digitValue_cons, List.length_cons, pow_succ]
    omega

theorem digitValue_digits_lt (v : BitVec 32) : digitValue (digits v) < 10 ^ 8 := by
  have h : ∀ d ∈ digits v, d < 10 := by
    simp only [digits, List.mem_map]
    rintro _ ⟨i, _, rfl⟩
    exact Nat.mod_lt _ (by decide)
  simpa [digits] using digitValue_lt h

/-- A difference of packed digits is taken modulo 10^8, and borrows where it is negative. -/
theorem difference_mod {a v : Nat} (ha : a < 10 ^ 8) (hv : v ≤ 10 ^ 8) :
    (a + 2 * 10 ^ 8 - v) % 10 ^ 8 = (((a : Int) - v) % 10 ^ 8).toNat := by
  omega

section
variable {s : State} {u : Nat} {c : Fin 8} {i : Instr} {d r : BitVec 3} {pair : BitVec 2} {withIn : Bool}

/-- An addition of packed digits, with a carry where it takes one. -/
theorem does_decimal_add (ht : transfers i = false)
    (he : exec i s = s.run fun b => b.decimal i (coreIx (188 + u)) d r pair false withIn) :
    Does s i u c fun x =>
      let n := digitValue (digits (x.readG s.blk.drawn d)) + digitValue (digits (x.readG s.blk.drawn r)) +
        flag (withIn && x.p.getLsbD (2 * pair.toNat))
      (x.writeG d (packDigits (n % 10 ^ 8))).setPair pair (decide (10 ^ 8 ≤ n)) := by
  simp only [Nat.add_assoc]
  exact does_plain ht he

/-- A subtraction of packed digits, with a borrow where it takes one. -/
theorem does_decimal_sub (ht : transfers i = false)
    (he : exec i s = s.run fun b => b.decimal i (coreIx (188 + u)) d r pair true withIn) :
    Does s i u c fun x =>
      let n : Int := (digitValue (digits (x.readG s.blk.drawn d)) : Int) - digitValue (digits (x.readG s.blk.drawn r)) -
        flag (withIn && x.p.getLsbD (2 * pair.toNat))
      (x.writeG d (packDigits (n % 10 ^ 8).toNat)).setPair pair (decide (n < 0)) := by
  have h : Does s i u c fun x =>
      let a := digitValue (digits (x.readG s.blk.drawn d))
      let v := digitValue (digits (x.readG s.blk.drawn r)) + flag (withIn && x.p.getLsbD (2 * pair.toNat))
      (x.writeG d (packDigits ((a + 2 * 10 ^ 8 - v) % 10 ^ 8))).setPair pair (decide (a < v)) := does_plain ht he
  convert h using 2 with x
  have ha := digitValue_digits_lt (x.readG s.blk.drawn d)
  have hv := digitValue_digits_lt (x.readG s.blk.drawn r)
  have hflag : flag (withIn && x.p.getLsbD (2 * pair.toNat)) ≤ 1 := by
    unfold flag
    split <;> decide
  have hmod := difference_mod (v := digitValue (digits (x.readG s.blk.drawn r)) + flag (withIn && x.p.getLsbD (2 * pair.toNat)))
    ha (by omega)
  simp only [hmod, Nat.cast_add, sub_sub]
  congr 1
  rw [decide_eq_decide]
  omega

end

/-! ## Nibbles -/

theorem nibble_lt (v : BitVec 32) (i : Nat) : nibble v i < 2 ^ 4 := Nat.mod_lt _ (by decide)

theorem testBit_nibble (v : BitVec 32) (i j : Nat) : (nibble v i).testBit j = (decide (j < 4) && v.getLsbD (4 * i + j)) := by
  have h16 : 16 ^ i = 2 ^ (4 * i) := by rw [pow_mul]; norm_num
  have h4 : (16 : Nat) = 2 ^ 4 := by norm_num
  rw [nibble, h16, h4, Nat.testBit_mod_two_pow, Nat.testBit_div_two_pow, BitVec.getLsbD, Nat.add_comm]

theorem testBit_mul_sixteen_pow (v p k : Nat) : (v * 16 ^ p).testBit k = (decide (4 * p ≤ k) && v.testBit (k - 4 * p)) := by
  have h16 : 16 ^ p = 2 ^ (4 * p) := by rw [pow_mul]; norm_num
  rw [h16, Nat.testBit_mul_two_pow]

/-- The four bits of the nibble at p are replaced, and no other. -/
theorem getLsbD_putNibble (d : BitVec 32) (p v : Nat) {k : Nat} (hk : k < 32) :
    (putNibble d p v).getLsbD k = if 4 * p ≤ k ∧ k - 4 * p < 4 then v.testBit (k - 4 * p) else d.getLsbD k := by
  have h15 (i : Nat) : (15 : Nat).testBit i = decide (i < 4) := Nat.testBit_two_pow_sub_one 4 i
  have h16 (i : Nat) : (v % 16).testBit i = (decide (i < 4) && v.testBit i) := Nat.testBit_mod_two_pow v 4 i
  simp only [putNibble, BitVec.getLsbD_or, BitVec.getLsbD_and, BitVec.getLsbD_not, BitVec.getLsbD_ofNat, testBit_mul_sixteen_pow,
    h15, h16, hk]
  by_cases hlow : 4 * p ≤ k
  · by_cases hhigh : k - 4 * p < 4 <;> simp [hlow, hhigh]
  · simp [hlow]

/-- A nibble that is put in a register reads back, and the others stay (12 R270). -/
theorem nibble_putNibble (d : BitVec 32) {p q : Nat} (v : Nat) (hq : q < 8) :
    nibble (putNibble d p v) q = if q = p then v % 16 else nibble d q := by
  have h16 (i : Nat) : (v % 16).testBit i = (decide (i < 4) && v.testBit i) := Nat.testBit_mod_two_pow v 4 i
  apply Nat.eq_of_testBit_eq
  intro j
  rw [testBit_nibble]
  by_cases hj : j < 4
  · rw [getLsbD_putNibble d p v (by omega)]
    by_cases hqp : q = p
    · subst hqp
      simp [hj, h16]
    · rw [if_neg (by omega), if_neg hqp, testBit_nibble]
  · split
    · simp [hj, h16]
    · simp [hj, testBit_nibble]

/-- Settles O6: the packed-digit instructions are additions and subtractions of digit values, and the others are plain
instructions of nibbles. -/
theorem k14Decimal : Obligations.K14Decimal := by
  unfold Obligations.K14Decimal
  refine ⟨?_, fun d p q v _ hq => nibble_putNibble d v hq⟩
  intro s u c g d r pos pair byReg k w val carry place
  have hnshl (a v : BitVec 32) : a <<< 4 ||| BitVec.ofNat 32 (v.toNat % 16) = a.extractLsb' 0 28 ++ v.extractLsb' 0 4 := by
    have hlow : BitVec.ofNat 32 (v.toNat % 16) = (v.extractLsb' 0 4).setWidth 32 := by
      apply BitVec.eq_of_toNat_eq
      simp
    rw [hlow]
    exact BitVec.eq_of_toNat_eq (toNat_shiftLeft_or (m := 28) (by rfl) a _)
  refine ⟨?_, ?_, ?_, ?_,
    does_binary s u c (f := digitwise fun a v => a + v) rfl rfl, does_binary s u c (f := digitwise fun a v => a + 10 - v) rfl rfl,
    does_unary s u c (f := fun v => packDigits (v.toNat % 10 ^ 8)) rfl rfl,
    does_unary s u c (f := fun v => BitVec.ofNat 32 (val v)) rfl rfl,
    does_plain (f := fun x n => x.writeG d (BitVec.ofNat 32 (nibble (x.readG n r) (x.position n byReg pos)))) rfl rfl,
    does_plain (f := fun x n => x.writeG d (putNibble (x.readG n d) (x.position n byReg pos) (x.readG n r).toNat)) rfl rfl, ?_⟩
  · have h : Does s (.dadd k g d r pair) u c _ := does_decimal_add (withIn := false) rfl rfl
    simp only [flag, Bool.false_and, Bool.false_eq_true, if_false, Nat.add_zero] at h
    exact h
  · have h : Does s (.dadc k g d r pair) u c _ := does_decimal_add (withIn := true) rfl rfl
    simp only [flag, Bool.true_and] at h
    exact h
  · have h : Does s (.dsub k g d r pair) u c _ := does_decimal_sub (withIn := false) rfl rfl
    simp only [flag, Bool.false_and, Bool.false_eq_true, if_false, Nat.cast_zero, sub_zero] at h
    exact h
  · have h : Does s (.dsbb k g d r pair) u c _ := does_decimal_sub (withIn := true) rfl rfl
    simp only [flag, Bool.true_and] at h
    exact h
  · simp only [← hnshl]
    exact does_binary s u c (f := fun a v => a <<< 4 ||| BitVec.ofNat 32 (v.toNat % 16)) rfl rfl

end Sys2Proof.Machine

/-! Late results of K14 and the end of an instruction (12 R264, R271 to R274). -/

namespace Sys2Proof.Machine

open Sys2Proof

/-! ## Registers -/

theorem regIx_inj {q d : BitVec 3} : regIx q = regIx d ↔ q = d := by
  decide +revert

/-- A register read from the eight after one was written. -/
theorem getElem_set_regIx (g : Vector (BitVec 32) 8) (d q : BitVec 3) (v : BitVec 32) :
    (g.set (regIx d) v)[regIx q] = if q = d then v else g[regIx q] := by
  by_cases h : q = d
  · subst h
    simp
  · have hne : (regIx d).val ≠ (regIx q).val := fun e => h (regIx_inj.1 (Fin.ext e.symm))
    simp [h, hne]

section
variable (x : Ctx14) (n : Nat) (d q : BitVec 3) (v : BitVec 32) (distance : Nat)

theorem Ctx14.readG_of_no_late (h : x.late = []) : x.readG n q = x.g[regIx q] := by simp [Ctx14.readG, h]

theorem Ctx14.readG_writeG (h : x.late = []) : (x.writeG d v).readG n q = if q = d then v else x.readG n q := by
  rw [Ctx14.readG_of_no_late _ _ _ (by simp [Ctx14.writeG, h]), Ctx14.readG_of_no_late _ _ _ h]
  exact getElem_set_regIx ..

/-- A producer that is spoiled waits for the register it waited for. -/
theorem any_reg_spoiled (l : List Late) :
    ((l.map fun y => if y.reg == d then { y with spoiled := true } else y).any fun y => y.reg == q) =
      l.any fun y => y.reg == q := by
  rw [List.any_map]
  congr 1
  funext y
  simp only [Function.comp_apply]
  split <;> rfl

theorem Ctx14.readG_produce_same : (x.produce d v distance).readG n d = Config.earlyRead (16 * n + d.toNat) := by
  simp [Ctx14.readG, Ctx14.produce]

theorem Ctx14.readG_produce_of_ne (h : q ≠ d) : (x.produce d v distance).readG n q = x.readG n q := by
  have hd : (d == q) = false := beq_eq_false_iff_ne.2 h.symm
  simp only [Ctx14.readG, Ctx14.produce, List.any_append, any_reg_spoiled, List.any_cons, List.any_nil, hd, Bool.or_false]

/-! ## The passing of an instruction -/

/-- An instruction that passes with no result outstanding. -/
@[simp] theorem Ctx14.tickLate_of_no_late (h : x.late = []) : x.tickLate n = x := by
  cases x
  subst h
  rfl

/-- A result that is still on its way comes one instruction nearer. -/
theorem Ctx14.tickLate_of_one_late {l : Late} (h : x.late = [l]) (hl : 1 < l.left) :
    x.tickLate n = { x with late := [{ l with left := l.left - 1 }] } := by
  simp [Ctx14.tickLate, h, hl]

/-- A result whose distance has passed arrives. -/
theorem Ctx14.tickLate_of_last {l : Late} (h : x.late = [l]) (hl : l.left ≤ 1) :
    x.tickLate n = { x.land n l with late := [] } := by
  simp [Ctx14.tickLate, h, hl]

end

/-! ## The end of an instruction -/

section
variable {x : Ctx14} {at_ : BitVec 14}

theorem Ctx14.endTest_of_not_at (h : ∀ l ∈ x.loops.head?, l.le ≠ at_) : x.endTest at_ = x := by
  cases hloops : x.loops with
  | nil => simp [Ctx14.endTest, hloops]
  | cons l rest =>
    have hl : l.le ≠ at_ := h l (by simp [hloops])
    simp [Ctx14.endTest, hloops, hl]

theorem Ctx14.endTest_of_again {l : LoopRec} {rest : List LoopRec} (h : x.loops = l :: rest) (hle : l.le = at_)
    (hlc : 1 < l.lc.toNat) : x.endTest at_ = { x with loops := { l with lc := l.lc - 1 } :: rest, pc := l.ls } := by
  simp [Ctx14.endTest, h, hle, hlc]

theorem Ctx14.endTest_of_last {l : LoopRec} {rest : List LoopRec} (h : x.loops = l :: rest) (hle : l.le = at_)
    (hlc : l.lc.toNat ≤ 1) : x.endTest at_ = { x with loops := rest } := by
  simp [Ctx14.endTest, h, hle, not_lt.2 hlc]

/-- The end test moves the PC and the loops alone. -/
theorem Ctx14.endTest_eq (x : Ctx14) (at_ : BitVec 14) :
    x.endTest at_ = { x with pc := (x.endTest at_).pc, loops := (x.endTest at_).loops } := by
  unfold Ctx14.endTest
  split
  · split
    · split <;> rfl
    · rfl
  · rfl

variable {n words : Nat}

/-- A repetition under RPT follows (12 R274). -/
theorem Ctx14.advance_of_repeat (h : x.late = []) (hrpt : 1 < x.rpt) : x.advance n words = { x with rpt := x.rpt - 1 } := by
  simp [Ctx14.advance, h, hrpt]

/-- Outside a repetition the PC moves on and the end test is made. -/
theorem Ctx14.advance_of_no_repeat (h : x.late = []) (hrpt : x.rpt ≤ 1) : x.advance n words =
    Ctx14.endTest { x with rpt := 0, delay := none, pc := (x.delay.getD (x.pc + BitVec.ofNat 14 words)) } x.pc := by
  cases hd : x.delay with
  | none => simp [Ctx14.advance, h, not_lt.2 hrpt, hd]
  | some t => simp [Ctx14.advance, h, not_lt.2 hrpt, hd]

/-- The end of an instruction moves the PC, the loops, the repetition and the pending branch alone. -/
theorem Ctx14.advance_keeps (h : x.late = []) : x.advance n words =
    { x with
      pc := (x.advance n words).pc, loops := (x.advance n words).loops, rpt := (x.advance n words).rpt
      delay := (x.advance n words).delay } := by
  by_cases hrpt : 1 < x.rpt
  · rw [Ctx14.advance_of_repeat h hrpt]
  · rw [Ctx14.advance_of_no_repeat h (not_lt.1 hrpt), Ctx14.endTest_eq]

end

/-- Settles O4: the late results of a context are what `tickLate` lands and what it leaves; the end of an instruction is a
repetition or the end test. -/
theorem instructionEnd : Obligations.InstructionEnd := by
  unfold Obligations.InstructionEnd
  refine ⟨fun x n m d q v dist => ⟨x.readG_writeG n d q v, x.readG_produce_same n d v dist, x.readG_produce_of_ne n d q v dist,
    fun hlate hdist => ?_, fun left hleft => ?_, ?_⟩, ?_⟩
  · have hone : (x.produce d v dist).late = [{ reg := d, value := v, left := dist + 1 }] := by simp [Ctx14.produce, hlate]
    rw [Ctx14.tickLate_of_one_late _ n hone (Nat.succ_lt_succ hdist)]
    rfl
  · exact Ctx14.tickLate_of_one_late { x with late := [{ reg := d, value := v, left }] } n rfl hleft
  · rw [Ctx14.tickLate_of_last _ n rfl le_rfl, Ctx14.readG_of_no_late _ _ _ rfl, Ctx14.readG_of_no_late _ _ _ rfl]
    exact getElem_set_regIx ..
  · intro x n words hlate y
    have hends (hrpt : x.rpt ≤ 1) := Ctx14.advance_of_no_repeat (n := n) (words := words) hlate hrpt
    have hkeeps := Ctx14.advance_keeps (n := n) (words := words) hlate
    refine ⟨?_, ?_, Ctx14.advance_of_repeat hlate, fun hrpt target hdelay hle => ?_, fun hrpt hdelay hle => ?_,
      fun hrpt hdelay l rest hloops hle hlc => ?_, fun hrpt hdelay l rest hloops hle hlc => ?_⟩
    · rw [show y = _ from hkeeps]
    · rw [show y = _ from hkeeps]
    · rw [show y = _ from hends hrpt, Ctx14.endTest_of_not_at (by exact hle), hdelay]
      rfl
    · rw [show y = _ from hends hrpt, Ctx14.endTest_of_not_at (by exact hle), hdelay]
      simp
    · rw [show y = _ from hends hrpt, Ctx14.endTest_of_again (by exact hloops) hle hlc]
      simp [hdelay]
    · rw [show y = _ from hends hrpt, Ctx14.endTest_of_last (by exact hloops) hle hlc]
      simp [hdelay]
end Sys2Proof.Machine

/-! What issuing a K14 instruction does, and the loads and stores (12 R261, R269, R284). -/

namespace Sys2Proof.Machine

open Sys2Proof

/-! ## The lowest of the causes -/

theorem lowest_nil : lowest [] = none := rfl

/-- A cause that is met, where none below it is. -/
theorem lowest_eq_some {l : List Nat} {cause : Nat} (hmem : cause ∈ l) (hmin : ∀ n ∈ l, cause ≤ n) : lowest l = some cause := by
  unfold lowest
  cases hl : argMin (fun n : Nat => (n : Int)) l with
  | none =>
    obtain rfl := (argMin_eq_none_iff _ l).1 hl
    simp at hmem
  | some m =>
    obtain ⟨hm, hlow⟩ := argMin_mem_and_min _ hl
    have h1 := hlow cause hmem
    have h2 := hmin m hm
    congr 1
    omega

theorem lowest_singleton (cause : Nat) : lowest [cause] = some cause := rfl

/-! ## An instruction that issues -/

section
variable {s : State} {i : Instr} {u : Nat} {c : Fin 8} {causes : Block → Fin 8 → Ctx14 → List Nat}
  {act : Block → Fin 8 → Ctx14 → Nat → Block}

/-- An instruction that meets a cause traps with the lowest. -/
theorem traps_of_issues (h : s.blk.Issues i u c) (he : exec i s = .next { s with blk := s.blk.issue i u causes act })
    {cause : Nat} (hcause : lowest ((s.blk.counted u c).placeCauses i (s.blk.sizeAt (s.blk.cx u c).pc) ++
      causes (s.blk.begun u c) c (s.blk.counted u c)) = some cause) : Traps s i u c cause := by
  rw [Traps, he, Block.issue_of_issues h, hcause]

/-- An instruction that meets no cause acts. -/
theorem acts_of_issues (h : s.blk.Issues i u c) (he : exec i s = .next { s with blk := s.blk.issue i u causes act })
    (hplace : (s.blk.counted u c).placeCauses i (s.blk.sizeAt (s.blk.cx u c).pc) = [])
    (hcauses : causes (s.blk.begun u c) c (s.blk.counted u c) = []) :
    exec i s = .next { s with blk := act (s.blk.begun u c) c (s.blk.counted u c) s.blk.drawn } := by
  rw [he, Block.issue_of_issues h, hplace, hcauses]
  rfl

variable (s u c)

/-- The context that issues becomes another, and nothing else changes. -/
theorem onlyContext_begun (f : Ctx14 → Ctx14) : OnlyContext s { s with blk := (s.blk.begun u c).modCx u c f } u c where
  state := rfl
  core v := by
    by_cases h : u = v
    · subst h
      simp [Block.begun]
    · simp [Block.begun, h]
  context v d hne := by
    have hne' : ¬ (u = v ∧ c = d) := fun e => hne ⟨e.1.symm, e.2.symm⟩
    simp [Block.begun, hne']

theorem cx_begun_modCx (f : Ctx14 → Ctx14) : ((s.blk.begun u c).modCx u c f).cx u c = f (s.blk.counted u c) := by simp

variable {s u c}

/-- An instruction whose act is a change of its context completes. -/
theorem completes_of_acts {f : Ctx14 → Ctx14}
    (he : exec i s = .next { s with blk := (s.blk.begun u c).modCx u c fun _ =>
      (f (s.blk.counted u c)).advance s.blk.drawn (s.blk.sizeAt (s.blk.cx u c).pc) }) : Completes s i u c f :=
  ⟨_, he, onlyContext_begun s u c _, cx_begun_modCx s u c _⟩

end

/-! ## The block as the meaning of an instruction finds it -/

section
variable (b : Block) (u : Nat) (c : Fin 8)

@[simp] theorem Block.sizeAt_begun (a : BitVec 14) : (b.begun u c).sizeAt a = b.sizeAt a := rfl

@[simp] theorem Block.counted_pc : (b.counted u c).pc = (b.cx u c).pc := rfl

@[simp] theorem Block.bankOf_begun (common : Bool) : (b.begun u c).bankOf u c common = b.bankOf u c common := by
  simp [Block.bankOf, Block.begun]

end

/-! ## Loads (12 R261, R269, R271) -/

section
variable {s : State} {i : Instr} {u size : Nat} {c : Fin 8} {d r : BitVec 3} {common post : Bool} {disp : BitVec 12}

theorem completes_load (h : s.blk.Issues i u c) (ht : transfers i = false)
    (he : exec i s = s.run fun b => b.load i (coreIx (188 + u)) size d r common post disp)
    (haligned : (s.blk.counted u c).offset s.blk.drawn r disp % size = 0) :
    Completes s i u c fun x =>
      (if post ∧ r ≠ d then x.writeG r (x.readG s.blk.drawn r + BitVec.ofNat 32 size) else x).produce d
        (BitVec.ofNat 32 (ofBE (bankRead (s.blk.bankOf u c common) ((s.blk.counted u c).offset s.blk.drawn r disp) size))) 2 := by
  refine completes_of_acts ?_
  simp only [State.run, Block.load, coreIx_unit] at he
  rw [acts_of_issues h he (Ctx14.placeCauses_of_not_transfers _ _ _ ht) (if_neg (not_not.2 haligned))]
  simp only [Ctx14.posted, bne_iff_ne, Bool.and_eq_true, Block.bankOf_begun, Block.sizeAt_begun, Block.counted_pc]

theorem traps_load (h : s.blk.Issues i u c) (ht : transfers i = false)
    (he : exec i s = s.run fun b => b.load i (coreIx (188 + u)) size d r common post disp)
    (hmisaligned : (s.blk.counted u c).offset s.blk.drawn r disp % size ≠ 0) : Traps s i u c 0x05 := by
  simp only [State.run, Block.load, coreIx_unit] at he
  refine traps_of_issues h he ?_
  rw [Ctx14.placeCauses_of_not_transfers _ _ _ ht, List.nil_append]
  exact congrArg lowest (if_pos hmisaligned)

end

/-! ## A context with another bank -/

/-- A context with another bank. -/
def Ctx14.withBank (x : Ctx14) (m : List Host.Cell) : Ctx14 := { x with bank := m }

section
variable (x : Ctx14) (m : List Host.Cell) (n words : Nat)

theorem Ctx14.foldl_land_withBank (l : List Late) :
    l.foldl (fun x y => x.land n y) (x.withBank m) = (l.foldl (fun x y => x.land n y) x).withBank m := by
  induction l generalizing x with
  | nil => rfl
  | cons y l ih => exact ih (x.land n y)

theorem Ctx14.tickLate_withBank : (x.withBank m).tickLate n = (x.tickLate n).withBank m := by
  have h := x.foldl_land_withBank m n (x.late.filter fun l => decide (l.left ≤ 1))
  exact congrArg (fun y : Ctx14 => { y with late := (x.late.filter fun l : Late => decide (1 < l.left)).map fun l : Late =>
    { l with left := l.left - 1 } }) h

theorem Ctx14.endTest_withBank (a : BitVec 14) : (x.withBank m).endTest a = (x.endTest a).withBank m := by
  have hloops : (x.withBank m).loops = x.loops := rfl
  cases h : x.loops with
  | nil => simp only [Ctx14.endTest, hloops, h]
  | cons l rest =>
    simp only [Ctx14.endTest, hloops, h]
    split
    · split <;> rfl
    · rfl

theorem Ctx14.advance_withBank : (x.withBank m).advance n words = (x.advance n words).withBank m := by
  unfold Ctx14.advance
  rw [Ctx14.tickLate_withBank]
  generalize x.tickLate n = y
  have hrpt : (y.withBank m).rpt = y.rpt := rfl
  by_cases h : 1 < y.rpt
  · simp only [hrpt, h, if_true]
    rfl
  · have hdelay : (y.withBank m).delay = y.delay := rfl
    simp only [hrpt, h, if_false, hdelay]
    cases y.delay with
    | none => exact Ctx14.endTest_withBank { y with rpt := 0, delay := none, pc := y.pc + BitVec.ofNat 14 words } m y.pc
    | some target => exact Ctx14.endTest_withBank { y with rpt := 0, delay := none, pc := target } m y.pc

theorem Ctx14.posted_withBank (r : BitVec 3) (post : Bool) (size : Nat) :
    (x.withBank m).posted n r post size = (x.posted n r post size).withBank m := by
  unfold Ctx14.posted
  split <;> rfl

theorem Ctx14.bank_posted (r : BitVec 3) (post : Bool) (size : Nat) : (x.posted n r post size).bank = x.bank := by
  unfold Ctx14.posted
  split <;> rfl

theorem Ctx14.withBank_bank : x.withBank x.bank = x := rfl

@[simp] theorem Ctx14.withBank_withBank (m' : List Host.Cell) : (x.withBank m).withBank m' = x.withBank m' := rfl

/-- The end of an instruction leaves the bank as it is. -/
theorem Ctx14.bank_advance : (x.advance n words).bank = x.bank := by
  have h := x.advance_withBank x.bank n words
  rw [Ctx14.withBank_bank] at h
  rw [h]
  rfl

end

/-! ## Stores (12 R261, R269) -/

theorem length_toLE (n x : Nat) : (toLE n x).length = n := by
  induction n generalizing x with
  | zero => rfl
  | succ n ih => simp [toLE, ih]

theorem length_toBE (n x : Nat) : (toBE n x).length = n := by simp [toBE, length_toLE]

section
variable (b : Block) (u : Nat) (c : Fin 8) (off : Nat) (bs : Bytes)

@[simp] theorem Block.sizeAt_storeBank (a : BitVec 14) : (b.storeBank u c off bs).sizeAt a = b.sizeAt a := by
  unfold Block.storeBank
  split <;> rfl

/-- A store writes the bank of its context. -/
theorem Block.bankOf_storeBank : (b.storeBank u c off bs).bankOf u c false = bankWrite (b.bankOf u c false) off bs := by
  unfold Block.storeBank
  split
  · next h => simp [Block.bankOf, h]
  · next h => simp [Block.bankOf, h]

/-- The context of a store, but for its bank. -/
theorem Block.cx_storeBank : ∃ m, (b.storeBank u c off bs).cx u c = (b.cx u c).withBank m := by
  unfold Block.storeBank
  split
  · exact ⟨(b.cx u c).bank, by simp [Block.cx, Ctx14.withBank]⟩
  · exact ⟨bankWrite (b.cx u c).bank off bs, by simp [Ctx14.withBank]⟩

end

section
variable {s : State} {i : Instr} {u size : Nat} {c : Fin 8} {d r : BitVec 3} {common post : Bool} {disp : BitVec 12}

theorem exec_storeTo (h : s.blk.Issues i u c) (ht : transfers i = false)
    (he : exec i s = s.run fun b => b.storeTo i (coreIx (188 + u)) size d r common post disp)
    (haligned : (s.blk.counted u c).offset s.blk.drawn r disp % size = 0) (hown : ¬ (common = true ∧ c ≠ 0)) :
    exec i s = .next { s with blk := ((s.blk.begun u c).storeBank u c ((s.blk.counted u c).offset s.blk.drawn r disp)
      (toBE size ((s.blk.counted u c).readG s.blk.drawn d).toNat)).modCx u c fun x =>
        (x.posted s.blk.drawn r post size).advance s.blk.drawn (s.blk.sizeAt (s.blk.cx u c).pc) } := by
  simp only [State.run, Block.storeTo, coreIx_unit] at he
  have hown' : ¬ (common && c != 0) = true := by simpa using hown
  rw [acts_of_issues h he (Ctx14.placeCauses_of_not_transfers _ _ _ ht)
    (congrArg₂ (· ++ ·) (if_neg (not_not.2 haligned)) (if_neg hown'))]
  simp only [Block.sizeAt_storeBank, Block.sizeAt_begun, Block.counted_pc]

theorem traps_store_misaligned (h : s.blk.Issues i u c) (ht : transfers i = false)
    (he : exec i s = s.run fun b => b.storeTo i (coreIx (188 + u)) size d r common post disp)
    (hmisaligned : (s.blk.counted u c).offset s.blk.drawn r disp % size ≠ 0) : Traps s i u c 0x05 := by
  simp only [State.run, Block.storeTo, coreIx_unit] at he
  refine traps_of_issues h he ?_
  rw [Ctx14.placeCauses_of_not_transfers _ _ _ ht, List.nil_append]
  refine (congrArg (fun l => lowest (l ++ _)) (if_pos hmisaligned)).trans ?_
  cases common && c != 0 <;> rfl

theorem traps_store_common (h : s.blk.Issues i u c) (ht : transfers i = false)
    (he : exec i s = s.run fun b => b.storeTo i (coreIx (188 + u)) size d r common post disp)
    (haligned : (s.blk.counted u c).offset s.blk.drawn r disp % size = 0) (hcommon : common = true) (hc : c ≠ 0) :
    Traps s i u c 0x06 := by
  simp only [State.run, Block.storeTo, coreIx_unit] at he
  refine traps_of_issues h he ?_
  rw [Ctx14.placeCauses_of_not_transfers _ _ _ ht, List.nil_append]
  have hother : (common && c != 0) = true := by simp [hcommon, hc]
  exact congrArg lowest (congrArg₂ (· ++ ·) (if_neg (not_not.2 haligned)) (if_pos hother))

end

section
variable (b : Block) (u : Nat) (c : Fin 8) (off : Nat) (bs : Bytes) (f : Ctx14 → Ctx14)

/-- A store writes bank 0 alone from the service context, and else the bank of its context alone. -/
theorem Block.core_store (v : Nat) (hv : v ≠ u) : ((b.storeBank u c off bs).modCx u c f).core v = b.core v := by
  unfold Block.storeBank
  split <;> simp [hv.symm]

theorem Block.cx_store (v : Nat) (e : Fin 8) (hne : ¬ (v = u ∧ e = c)) : ((b.storeBank u c off bs).modCx u c f).cx v e = b.cx v e := by
  have hne' : ¬ (u = v ∧ c = e) := fun h => hne ⟨h.1.symm, h.2.symm⟩
  rw [Block.cx_modCx, if_neg hne']
  unfold Block.storeBank
  split
  · by_cases hv : u = v
    · subst hv
      simp [Block.cx]
    · simp [hv, Block.cx]
  · simp [hne']

theorem Block.store_frame : (b.storeBank u c off bs).modCx u c f =
    { b with pay := { b.pay with cores := ((b.storeBank u c off bs).modCx u c f).pay.cores } } := by
  unfold Block.storeBank
  split <;> rfl

theorem Block.common_store (hc : c ≠ 0) : (((b.storeBank u c off bs).modCx u c f).core u).common = (b.core u).common := by
  simp [Block.storeBank, hc]

theorem Block.core_store_same : ((b.storeBank u c off bs).modCx u c f).core u = { b.core u with
    ctxs := (((b.storeBank u c off bs).modCx u c f).core u).ctxs
    common := (((b.storeBank u c off bs).modCx u c f).core u).common } := by
  unfold Block.storeBank
  split <;> simp

/-- What the context becomes after its store leaves the bytes stored in its bank. -/
theorem Block.bankOf_store (hf : ∀ x, (f x).bank = x.bank) :
    ((b.storeBank u c off bs).modCx u c f).bankOf u c false = bankWrite (b.bankOf u c false) off bs := by
  rw [← Block.bankOf_storeBank]
  by_cases hc : c = 0
  · simp [Block.bankOf, hc]
  · simp [Block.bankOf, hc, hf]

end

/-! ## The obligation -/

section
variable {s : State} {i : Instr} {u size : Nat} {c : Fin 8} {d r : BitVec 3} {common post : Bool} {disp : BitVec 12}

/-- What a store that meets no cause does. -/
theorem stores (h : s.blk.Issues i u c) (ht : transfers i = false)
    (he : exec i s = s.run fun b => b.storeTo i (coreIx (188 + u)) size d r common post disp)
    (haligned : (s.blk.counted u c).offset s.blk.drawn r disp % size = 0) (hown : ¬ (common = true ∧ c ≠ 0)) :
    let w := s.blk.drawn
    let x := s.blk.counted u c
    let off := x.offset w r disp
    let own := fun (b : Block) => b.bankOf u c false
    ∃ t, exec i s = .next t ∧
      bankRead (own t.blk) off size = toBE size (x.readG w d).toNat ∧
      (∀ a, a < off ∨ off + size ≤ a → Table.get 0 (own t.blk) a = Table.get 0 (own s.blk) a) ∧
      (c ≠ 0 → (t.blk.core u).common = (s.blk.core u).common) ∧
      (∀ v e, ¬ (v = u ∧ e = c) → t.blk.cx v e = s.blk.cx v e) ∧
      (∀ v, v ≠ u → t.blk.core v = s.blk.core v) ∧
      t.blk.core u = { s.blk.core u with ctxs := (t.blk.core u).ctxs, common := (t.blk.core u).common } ∧
      t = { s with blk := { s.blk with pay := { s.blk.pay with cores := t.blk.pay.cores }, free := t.blk.free } } ∧
      { t.blk.cx u c with bank := x.bank } = (x.posted w r post size).advance w (s.blk.sizeAt x.pc) := by
  intro w x off own
  have hlen := length_toBE size (x.readG w d).toNat
  have hbank : ∀ y : Ctx14, ((y.posted w r post size).advance w (s.blk.sizeAt x.pc)).bank = y.bank := fun y =>
    ((y.posted w r post size).bank_advance w (s.blk.sizeAt x.pc)).trans (y.bank_posted w r post size)
  have hown' := (s.blk.begun u c).bankOf_store u c off (toBE size (x.readG w d).toNat) _ hbank
  have hbegun : ∀ v, v ≠ u → (s.blk.begun u c).core v = s.blk.core v := fun v hv => by simp [Block.begun, hv.symm]
  refine ⟨_, exec_storeTo h ht he haligned hown, ?_, ?_, ?_, ?_, ?_, ?_, ?_, ?_⟩
  · have hread := bankRead_bankWrite ((s.blk.begun u c).bankOf u c false) off (toBE size (x.readG w d).toNat)
    rw [hlen, ← hown'] at hread
    exact hread
  · intro a ha
    rw [← hlen] at ha
    have hmiss := bankWrite_miss ((s.blk.begun u c).bankOf u c false) off _ a ha
    rw [← hown', Block.bankOf_begun] at hmiss
    exact hmiss
  · intro hc
    exact (Block.common_store _ u c _ _ _ hc).trans (by simp [Block.begun])
  · intro v e hne
    have hne' : ¬ (u = v ∧ c = e) := fun h => hne ⟨h.1.symm, h.2.symm⟩
    exact (Block.cx_store _ u c _ _ _ v e hne).trans (by simp [Block.begun, hne'])
  · intro v hv
    exact (Block.core_store _ u c _ _ _ v hv).trans (hbegun v hv)
  · rw [Block.core_store_same]
    simp [Block.begun]
  · rw [Block.store_frame]
    rfl
  · obtain ⟨m, hm⟩ := (s.blk.begun u c).cx_storeBank u c off (toBE size (x.readG w d).toNat)
    rw [Block.cx_begun] at hm
    show Ctx14.withBank (Block.cx (Block.modCx _ u c _) u c) x.bank = _
    rw [Block.cx_modCx, if_pos ⟨rfl, rfl⟩, hm, Ctx14.posted_withBank, Ctx14.advance_withBank, Ctx14.withBank_withBank]
    exact congrArg _ (hbank x).symm

end

/-- Settles O5: a load completes with the value that its bytes spell, a store writes the bytes of the low part of its register, and
an access that meets a cause traps with the lowest. -/
theorem k14Memory : Obligations.K14Memory := by
  unfold Obligations.K14Memory
  refine ⟨?_, ?_⟩
  · intro s u c g d r common post disp w load size hmem
    simp only [List.mem_cons, Prod.mk.injEq, List.not_mem_nil, or_false] at hmem
    obtain ⟨rfl, rfl⟩ | ⟨rfl, rfl⟩ | ⟨rfl, rfl⟩ := hmem <;>
      exact fun h => ⟨fun haligned => completes_load h rfl rfl haligned, fun hmisaligned => traps_load h rfl rfl hmisaligned⟩
  · intro s u c g d r common post disp w store size hmem
    simp only [List.mem_cons, Prod.mk.injEq, List.not_mem_nil, or_false] at hmem
    obtain ⟨rfl, rfl⟩ | ⟨rfl, rfl⟩ | ⟨rfl, rfl⟩ := hmem <;>
      exact fun h => ⟨fun haligned hown => stores h rfl rfl haligned hown,
        fun hmisaligned => traps_store_misaligned h rfl rfl hmisaligned,
        fun haligned hcommon hc => traps_store_common h rfl rfl haligned hcommon hc⟩

end Sys2Proof.Machine

/-! Branches, hardware loops, RPT and the special registers of K14 (12 R266, R272 to R276). -/

namespace Sys2Proof.Machine

open Sys2Proof

/-! ## What the end of an instruction leaves as it is, late results or not -/

section
variable (x : Ctx14) (n words : Nat)

theorem Ctx14.foldl_land_frame (l : List Late) :
    l.foldl (fun x y => x.land n y) x = { x with g := (l.foldl (fun x y => x.land n y) x).g } := by
  induction l generalizing x with
  | nil => rfl
  | cons y l ih =>
    rw [List.foldl_cons, ih]
    rfl

/-- Results that arrive change registers, and what is outstanding. -/
theorem Ctx14.tickLate_frame : x.tickLate n = { x with g := (x.tickLate n).g, late := (x.tickLate n).late } := by
  unfold Ctx14.tickLate
  rw [Ctx14.foldl_land_frame]

theorem Ctx14.settle_frame : x.settle n = { x with g := (x.settle n).g, late := [] } := by
  unfold Ctx14.settle
  rw [Ctx14.foldl_land_frame]

@[simp] theorem Ctx14.loops_tickLate : (x.tickLate n).loops = x.loops := by rw [Ctx14.tickLate_frame]
@[simp] theorem Ctx14.pc_tickLate : (x.tickLate n).pc = x.pc := by rw [Ctx14.tickLate_frame]
@[simp] theorem Ctx14.delay_tickLate : (x.tickLate n).delay = x.delay := by rw [Ctx14.tickLate_frame]
@[simp] theorem Ctx14.rpt_tickLate : (x.tickLate n).rpt = x.rpt := by rw [Ctx14.tickLate_frame]

/-- The end of an instruction: a repetition follows, or the PC moves on and the end test is made. -/
theorem Ctx14.advance_eq : x.advance n words =
    if 1 < x.rpt then { x.tickLate n with rpt := x.rpt - 1 }
    else Ctx14.endTest { x.tickLate n with
      rpt := 0, delay := none, pc := x.delay.getD (x.pc + BitVec.ofNat 14 words) } x.pc := by
  simp only [Ctx14.advance, Ctx14.rpt_tickLate, Ctx14.delay_tickLate, Ctx14.pc_tickLate]
  cases x.delay <;> rfl

/-- The end of an instruction changes registers, what is outstanding, the repetition, the pending branch, the PC and the loops. -/
theorem Ctx14.advance_frame : x.advance n words = { x with
    g := (x.advance n words).g, late := (x.advance n words).late, rpt := (x.advance n words).rpt
    delay := (x.advance n words).delay, pc := (x.advance n words).pc, loops := (x.advance n words).loops } := by
  by_cases h : 1 < x.rpt
  · rw [Ctx14.advance_eq, if_pos h, Ctx14.tickLate_frame]
  · rw [Ctx14.advance_eq, if_neg h, Ctx14.endTest_eq, Ctx14.tickLate_frame]

/-- A context in no loop enters none at the end of an instruction. -/
theorem Ctx14.loops_advance_of_nil (h : x.loops = []) : (x.advance n words).loops = [] := by
  rw [Ctx14.advance_eq]
  split
  · simp [h]
  · rw [Ctx14.endTest_of_not_at (by simp [h])]
    simp [h]

end

/-! ## Causes of the place of an instruction that transfers control (12 R272, R273) -/

section
variable {x : Ctx14} {i : Instr} {words : Nat}

theorem Ctx14.endsAt_iff (a : BitVec 14) : x.endsAt a = true ↔ ∃ l, x.loops.head? = some l ∧ l.le = a := by
  unfold Ctx14.endsAt
  cases x.loops with
  | nil => simp
  | cons l rest => simp

theorem Ctx14.endsAt_eq_false (a : BitVec 14) (h : ∀ l ∈ x.loops.head?, l.le ≠ a) : x.endsAt a = false := by
  rw [Bool.eq_false_iff, ne_eq, Ctx14.endsAt_iff]
  rintro ⟨l, hl, hle⟩
  exact h l hl hle

/-- In no loop and no delay slot every instruction may stand. -/
theorem Ctx14.placeCauses_of_quiet (hdelay : x.delay = none) (hloops : x.loops = []) : x.placeCauses i words = [] := by
  simp [Ctx14.placeCauses, Ctx14.endsAt, hdelay, hloops]

/-- Outside a loop's end and a delay slot a branch may stand. -/
theorem Ctx14.placeCauses_of_free (hends : ∀ l ∈ x.loops.head?, l.le ≠ x.pc ∧ l.le ≠ x.pc + BitVec.ofNat 14 words)
    (hdelay : x.delay = none) : x.placeCauses i words = [] := by
  simp [Ctx14.placeCauses, Ctx14.endsAt_eq_false x.pc fun l hl => (hends l hl).1,
    Ctx14.endsAt_eq_false (x.pc + BitVec.ofNat 14 words) fun l hl => (hends l hl).2, hdelay]

/-- In a delay slot a branch may not stand. -/
theorem Ctx14.placeCauses_of_slot (ht : transfers i = true)
    (hends : ∀ l ∈ x.loops.head?, l.le ≠ x.pc ∧ l.le ≠ x.pc + BitVec.ofNat 14 words)
    (hdelay : x.delay.isSome = true) : x.placeCauses i words = [0x04] := by
  simp [Ctx14.placeCauses, Ctx14.endsAt_eq_false x.pc fun l hl => (hends l hl).1,
    Ctx14.endsAt_eq_false (x.pc + BitVec.ofNat 14 words) fun l hl => (hends l hl).2, hdelay, ht]

/-- Neither a branch nor its delay slot may stand at a loop's end. -/
theorem Ctx14.lowest_placeCauses_of_end (ht : transfers i = true) (hd : delayed i = true)
    (hends : ∃ l, x.loops.head? = some l ∧ (l.le = x.pc ∨ l.le = x.pc + BitVec.ofNat 14 words)) :
    lowest (x.placeCauses i words) = some 0x03 := by
  have hmet : (x.endsAt x.pc || x.endsAt (x.pc + BitVec.ofNat 14 words)) = true := by
    obtain ⟨l, hl, hle | hle⟩ := hends
    · exact Bool.or_eq_true_iff.2 (.inl ((Ctx14.endsAt_iff _).2 ⟨l, hl, hle⟩))
    · exact Bool.or_eq_true_iff.2 (.inr ((Ctx14.endsAt_iff _).2 ⟨l, hl, hle⟩))
  simp only [Ctx14.placeCauses, ht, hd, Bool.true_and, hmet, if_true]
  cases x.delay.isSome <;> rfl

end

/-! ## An instruction whose act is the change of its context -/

section
variable {s : State} {i : Instr} {u : Nat} {c : Fin 8} {y : Ctx14}

/-- A change of the context that issues is a change of it alone. -/
theorem onlyContext_of_exec (he : exec i s = .next { s with blk := (s.blk.begun u c).modCx u c fun _ => y }) :
    ∃ t, exec i s = .next t ∧ OnlyContext s t u c ∧ t.blk.cx u c = y :=
  ⟨_, he, onlyContext_begun s u c _, cx_begun_modCx s u c _⟩

end

/-! ## Branches -/

section
variable {s : State} {i : Instr} {u : Nat} {c : Fin 8} {link : Bool} {target : Ctx14 → Nat → BitVec 14}

/-- Where a branch goes, and where it traps. -/
theorem goes_of_branchTo (ht : transfers i = true) (hd : delayed i = true)
    (he : exec i s = s.run fun b => b.branchTo i (coreIx (188 + u)) link target) :
    let x := s.blk.counted u c
    let slot := x.pc + BitVec.ofNat 14 (s.blk.sizeAt x.pc)
    let after := slot + BitVec.ofNat 14 (s.blk.sizeAt slot)
    s.blk.Issues i u c →
      ((∀ l ∈ x.loops.head?, l.le ≠ x.pc ∧ l.le ≠ slot) → x.delay = none → ∃ t, exec i s = .next t ∧ OnlyContext s t u c ∧
        t.blk.cx u c = { x.tickLate s.blk.drawn with
          pc := slot, delay := some (target x s.blk.drawn), rpt := 0, lk := if link then after else x.lk }) ∧
      ((∀ l ∈ x.loops.head?, l.le ≠ x.pc ∧ l.le ≠ slot) → x.delay.isSome = true → Traps s i u c 0x04) ∧
      ((∃ l, x.loops.head? = some l ∧ (l.le = x.pc ∨ l.le = slot)) → Traps s i u c 0x03) := by
  intro x slot after h
  simp only [State.run, Block.branchTo, coreIx_unit] at he
  refine ⟨fun hends hdelay => ?_, fun hends hdelay => ?_, fun hends => ?_⟩
  · exact onlyContext_of_exec (acts_of_issues h he (Ctx14.placeCauses_of_free hends hdelay) rfl)
  · refine traps_of_issues h he ?_
    rw [List.append_nil]
    exact congrArg lowest (Ctx14.placeCauses_of_slot ht hends hdelay)
  · refine traps_of_issues h he ?_
    rw [List.append_nil]
    exact Ctx14.lowest_placeCauses_of_end ht hd hends

end

/-! ## Loops and repetition -/

section
variable {x : Ctx14} {count : Nat} {le : BitVec 14}

theorem Ctx14.loopCauses_of_behind (hloops : x.loops = []) (hle : x.pc.toNat < le.toNat) : x.loopCauses count le = [] := by
  simp [Ctx14.loopCauses, hloops, not_le.2 hle]

theorem Ctx14.loopCauses_of_not_behind (hloops : x.loops = []) (hle : le.toNat ≤ x.pc.toNat) : x.loopCauses count le = [0x03] := by
  simp [Ctx14.loopCauses, hloops, hle]

/-- A fifth loop traps with cause 0x02, whatever else it meets. -/
theorem Ctx14.lowest_of_fifth {i : Instr} {words : Nat} (hdelay : x.delay = none) (hloops : x.loops.length = 4) (hcount : 0 < count) :
    lowest (x.placeCauses i words ++ x.loopCauses count le) = some 0x02 := by
  refine lowest_eq_some ?_ ?_
  · simp [Ctx14.loopCauses, hloops, hcount]
  · intro n hn
    simp only [Ctx14.placeCauses, Ctx14.loopCauses, hdelay, hloops, hcount, List.mem_append, List.mem_ite_nil_right, List.mem_singleton] at hn
    omega

end

section
variable {s : State} {i : Instr} {u : Nat} {c : Fin 8} {count : Ctx14 → Nat → Nat} {le : BitVec 14}

/-- What a loop's set-up does, and where it traps. -/
theorem loops_of_loopTo (he : exec i s = s.run fun b => b.loopTo i (coreIx (188 + u)) count le) :
    let w := s.blk.drawn
    let x := s.blk.counted u c
    let m := count x w
    s.blk.Issues i u c → x.delay = none →
      (x.loops = [] → x.pc.toNat < le.toNat → 0 < m → ∃ t, exec i s = .next t ∧ OnlyContext s t u c ∧
        t.blk.cx u c = { x.advance w (s.blk.sizeAt x.pc) with
          loops := [{ ls := (x.advance w (s.blk.sizeAt x.pc)).pc, le, lc := BitVec.ofNat 32 m }] }) ∧
      (x.loops = [] → x.pc.toNat < le.toNat → m = 0 → ∃ t, exec i s = .next t ∧ OnlyContext s t u c ∧
        t.blk.cx u c = { x.advance w (s.blk.sizeAt x.pc) with pc := le + BitVec.ofNat 14 (s.blk.sizeAt le) }) ∧
      (x.loops = [] → le.toNat ≤ x.pc.toNat → Traps s i u c 0x03) ∧
      (x.loops.length = 4 → 0 < m → Traps s i u c 0x02) := by
  intro w x m h hdelay
  simp only [State.run, Block.loopTo, coreIx_unit] at he
  have hacts (hloops : x.loops = []) (hle : x.pc.toNat < le.toNat) :=
    acts_of_issues h he (Ctx14.placeCauses_of_quiet hdelay hloops) (Ctx14.loopCauses_of_behind hloops hle)
  refine ⟨fun hloops hle hm => ?_, fun hloops hle hm => ?_, fun hloops hle => ?_, fun hloops hm => ?_⟩
  · obtain ⟨t, het, honly, hcx⟩ := onlyContext_of_exec (hacts hloops hle)
    refine ⟨t, het, honly, hcx.trans ((if_neg (Nat.pos_iff_ne_zero.1 hm)).trans ?_)⟩
    rw [Ctx14.loops_advance_of_nil _ _ _ hloops]
    rfl
  · obtain ⟨t, het, honly, hcx⟩ := onlyContext_of_exec (hacts hloops hle)
    exact ⟨t, het, honly, hcx.trans (if_pos hm)⟩
  · refine traps_of_issues h he ?_
    rw [Ctx14.placeCauses_of_quiet hdelay hloops]
    exact congrArg lowest (Ctx14.loopCauses_of_not_behind hloops hle)
  · exact traps_of_issues h he (Ctx14.lowest_of_fifth hdelay hloops hm)

/-- What RPT does, and where it traps. -/
theorem repeats_of_repeat14 {n : Nat} (he : exec i s = s.run fun b => b.repeat14 i (coreIx (188 + u)) n) :
    let x := s.blk.counted u c
    s.blk.Issues i u c → x.delay = none → x.loops = [] →
      (∀ j, s.blk.instrAt u (x.pc + 1) = some j → unrepeatable j = false → ∃ t, exec i s = .next t ∧
        OnlyContext s t u c ∧ t.blk.cx u c = { x.tickLate s.blk.drawn with pc := x.pc + 1, rpt := n }) ∧
      (∀ j, s.blk.instrAt u (x.pc + 1) = some j → unrepeatable j = true → Traps s i u c 0x01) ∧
      (s.blk.instrAt u (x.pc + 1) = none → Traps s i u c 0x01) := by
  intro x h hdelay hloops
  simp only [State.run, Block.repeat14, coreIx_unit] at he
  have hplace : (s.blk.counted u c).placeCauses i (s.blk.sizeAt (s.blk.cx u c).pc) = [] := Ctx14.placeCauses_of_quiet hdelay hloops
  have hnext : (s.blk.begun u c).instrAt u ((s.blk.counted u c).pc + 1) = s.blk.instrAt u (x.pc + 1) := rfl
  refine ⟨fun j hj hfree => ?_, fun j hj hbound => ?_, fun hnone => ?_⟩
  · exact onlyContext_of_exec (acts_of_issues h he hplace (by simp only [hnext, hj, hfree]; rfl))
  · refine traps_of_issues h he ?_
    simp only [hplace, hnext, hj, hbound]
    rfl
  · refine traps_of_issues h he ?_
    simp only [hplace, hnext, hnone]
    rfl

end

/-- Settles O7: each branch is a `branchTo`, each loop a `loopTo`, and RPT a `repeat14`. -/
theorem k14BranchesAndLoops : Obligations.K14BranchesAndLoops := by
  unfold Obligations.K14BranchesAndLoops
  refine ⟨fun s u c g r imm => ⟨?_, ?_, ?_, ?_, ?_⟩, fun s u c g r n le => ⟨?_, ?_, ?_⟩⟩
  · exact goes_of_branchTo (link := false) (target := fun _ _ => imm) rfl rfl rfl
  · exact goes_of_branchTo (link := true) (target := fun _ _ => imm) rfl rfl rfl
  · exact goes_of_branchTo (link := false) (target := fun x n => (x.readG n r).setWidth 14) rfl rfl rfl
  · exact goes_of_branchTo (link := true) (target := fun x n => (x.readG n r).setWidth 14) rfl rfl rfl
  · exact goes_of_branchTo (link := false) (target := fun x _ => x.lk) rfl rfl rfl
  · exact loops_of_loopTo (count := fun x n => (x.readG n r).toNat) rfl
  · exact loops_of_loopTo (count := fun _ _ => countField n) rfl
  · exact repeats_of_repeat14 (n := countField n) rfl

/-! ## Special registers -/

section
variable {s : State} {u : Nat} {c : Fin 8} {g d : BitVec 3} {num : BitVec 6}

theorem Block.special_begun (b : Block) (x : Ctx14) (n : Nat) : (b.begun u c).special u c x n = b.special u c x n := rfl

theorem exec_mfr : exec (.mfr (188 + u) g d num) s = .next { s with blk := (s.blk.issue (.mfr (188 + u) g d num) u
    (fun b c x => if (b.special u c x num.toNat).isNone then [0x07] else [])
    fun b c x n => b.modCx u c fun _ => (x.writeG d ((b.special u c x num.toNat).getD 0)).advance n (b.sizeAt x.pc)) } := by
  show execMfr (188 + u) g d num s = _
  simp only [execMfr, State.run, coreIx_unit]

theorem exec_mtr : exec (.mtr (188 + u) g d num) s = .next { s with blk := (s.blk.issue (.mtr (188 + u) g d num) u
    (fun _ _ x => if (x.special num.toNat 0).isNone then [0x07] else [])
    fun b c x n => b.modCx u c fun _ => ((x.special num.toNat (x.readG n d)).getD x).advance n (b.sizeAt x.pc)) } := by
  show execMtr (188 + u) g d num s = _
  simp only [execMtr, State.run, coreIx_unit]

/-- MFR of a register that reads. -/
theorem does_mfr {n : Nat} {v : BitVec 32} (hv : s.blk.special u c (s.blk.counted u c) n = some v) (hn : num.toNat = n) :
    Does s (.mfr (188 + u) g d num) u c fun y => y.writeG d v := by
  intro h
  have hreads : (s.blk.begun u c).special u c (s.blk.counted u c) num.toNat = some v := by rw [Block.special_begun, hn, hv]
  refine completes_of_acts (f := fun y => y.writeG d v) ?_
  rw [acts_of_issues h exec_mfr (Ctx14.placeCauses_of_not_transfers _ _ _ rfl) (by simp only [hreads]; rfl)]
  simp only [hreads]
  rfl

/-- MFR of a number that names no register. -/
theorem traps_mfr (hv : s.blk.special u c (s.blk.counted u c) num.toNat = none) (h : s.blk.Issues (.mfr (188 + u) g d num) u c) :
    Traps s (.mfr (188 + u) g d num) u c 0x07 := by
  refine traps_of_issues h exec_mfr ?_
  rw [Ctx14.placeCauses_of_not_transfers _ _ _ rfl]
  simp only [Block.special_begun, hv]
  rfl

/-- MTR of a register that takes the value. -/
theorem does_mtr {n : Nat} (f : BitVec 32 → Ctx14 → Ctx14)
    (hv : ∀ v, (s.blk.counted u c).special n v = some (f v (s.blk.counted u c))) (hn : num.toNat = n) :
    Does s (.mtr (188 + u) g d num) u c fun y => f (y.readG s.blk.drawn d) y := by
  intro h
  refine completes_of_acts (f := fun y => f (y.readG s.blk.drawn d) y) ?_
  rw [acts_of_issues h exec_mtr (Ctx14.placeCauses_of_not_transfers _ _ _ rfl) (by simp only [hn, hv]; rfl)]
  simp only [hn, hv]
  rfl

/-- MTR of a number that names no register that takes one. -/
theorem traps_mtr (hv : (s.blk.counted u c).special num.toNat 0 = none) (h : s.blk.Issues (.mtr (188 + u) g d num) u c) :
    Traps s (.mtr (188 + u) g d num) u c 0x07 := by
  refine traps_of_issues h exec_mtr ?_
  rw [Ctx14.placeCauses_of_not_transfers _ _ _ rfl]
  simp only [hv]
  rfl

/-- The numbers that MFR traps on. -/
theorem Block.special_eq_none (b : Block) (x : Ctx14) {n : Nat} (hn : n = 0x05 ∨ n = 0x0E ∨ n = 0x0F ∨ 0x14 ≤ n) :
    b.special u c x n = none := by
  unfold Block.special
  split <;> grind

/-- The numbers that MTR traps on, in a loop or not. -/
theorem Ctx14.special_eq_none (x : Ctx14) (v : BitVec 32) {n : Nat} (hn : n ∈ [1, 6, 7, 8] ∨ 0x0A ≤ n) : x.special n v = none := by
  unfold Ctx14.special
  grind

/-- With no loop active the loop registers take no value. -/
theorem Ctx14.special_of_no_loop (x : Ctx14) (v : BitVec 32) {n : Nat} (hloops : x.loops = []) (hn : n ∈ [2, 3, 4, 5]) :
    x.special n v = none := by
  simp only [List.mem_cons, List.not_mem_nil, or_false] at hn
  obtain rfl | rfl | rfl | rfl := hn <;> simp [Ctx14.special, hloops]

end

/-- Settles O8: what each number reads is what `Block.special` says of it, and what it takes what `Ctx14.special` says. -/
theorem k14SpecialRegisters : Obligations.K14SpecialRegisters := by
  unfold Obligations.K14SpecialRegisters
  intro s u c g d num k w x reads writes
  refine ⟨does_mfr (by simp [Block.special, x]), does_mfr rfl, fun l rest hl => ⟨?_, ?_, ?_, ?_, ?_, ?_, ?_⟩,
    fun hl => ⟨?_, ?_, ?_, ?_⟩, does_mfr rfl, does_mfr rfl, does_mfr (by simp [Block.special, x]),
    does_mfr (by simp [Block.special, x]), does_mfr (by simp [Block.special, x]), does_mfr rfl, does_mfr ?_, does_mfr ?_,
    does_mfr rfl, does_mfr rfl, does_mfr rfl, does_mfr rfl, does_mtr (fun v y => { y with lk := v.setWidth 14 }) fun _ => rfl,
    does_mtr (fun v y => { y with epc := v.setWidth 14 }) fun _ => rfl, ?_, ?_⟩
  · exact does_mfr (by simp [Block.special, show (s.blk.counted u c).loops = l :: rest from hl])
  · exact does_mfr (by simp [Block.special, show (s.blk.counted u c).loops = l :: rest from hl])
  · exact does_mfr (by simp [Block.special, show (s.blk.counted u c).loops = l :: rest from hl])
  · exact does_mtr (fun v y => { y with loops := { l with ls := v.setWidth 14 } :: rest }) fun v => by
      simp [Ctx14.special, show (s.blk.counted u c).loops = l :: rest from hl]
  · exact does_mtr (fun v y => { y with loops := { l with le := v.setWidth 14 } :: rest }) fun v => by
      simp [Ctx14.special, show (s.blk.counted u c).loops = l :: rest from hl]
  · exact does_mtr (fun v y => { y with loops := { l with lc := if v = 0 then 1 else v } :: rest }) fun v => by
      simp [Ctx14.special, show (s.blk.counted u c).loops = l :: rest from hl]
  · exact does_mtr (fun _ y => { y with loops := rest }) fun v => by
      simp [Ctx14.special, show (s.blk.counted u c).loops = l :: rest from hl]
  · exact does_mfr (by simp [Block.special, show (s.blk.counted u c).loops = [] from hl])
  · exact does_mfr (by simp [Block.special, show (s.blk.counted u c).loops = [] from hl])
  · exact does_mfr (by simp [Block.special, show (s.blk.counted u c).loops = [] from hl])
  · exact fun h hnum => traps_mtr (Ctx14.special_of_no_loop _ _ hl hnum) h
  · simp [Block.special, at_, Nat.shiftLeft_eq, Nat.mul_comm, x]
  · simp [Block.special, at_, Nat.shiftLeft_eq, Nat.mul_comm]
  · exact fun h hnum => traps_mfr (Block.special_eq_none _ _ hnum) h
  · exact fun h hnum => traps_mtr (Ctx14.special_eq_none _ _ hnum) h

end Sys2Proof.Machine

/-! Calls, channel blocks, control and DONE of K14 (12 R277 to R284). -/

namespace Sys2Proof.Machine

open Sys2Proof

/-! ## Changes of a core and of a context -/

/-- A change of a context is what it makes of the context that is there. -/
theorem Block.modCx_congr (b : Block) (u : Nat) (c : Fin 8) {f g : Ctx14 → Ctx14} (h : f (b.cx u c) = g (b.cx u c)) :
    b.modCx u c f = b.modCx u c g := by
  unfold Block.modCx Block.modCore Table.modify
  simp only [show (Table.get {} b.pay.cores u : Core14).ctxs[c] = b.cx u c from rfl, h]

/-- A change of a core that leaves its contexts alone changes none. -/
theorem Block.cx_modCore (b : Block) (u v : Nat) (e : Fin 8) {f : Core14 → Core14} (hf : ∀ k, (f k).ctxs = k.ctxs) :
    (b.modCore u f).cx v e = b.cx v e := by
  unfold Block.cx
  rw [Block.core_modCore]
  split
  · next h => simp only [hf, h]
  · rfl

section
variable (b : Block) (u : Nat) (c : Fin 8) (st : CtxSt) (v : Nat) (e : Fin 8)

theorem Block.suspend_eq : b.suspend u c st =
    (b.modCx u c fun x => { x.settle b.free with st, cycles := 0 }).modCore u fun k =>
      { k with running := none, accepting := k.accepting || c == 0 } := rfl

theorem Block.cx_suspend : (b.suspend u c st).cx v e =
    if u = v ∧ c = e then { (b.cx u c).settle b.free with st, cycles := 0 } else b.cx v e := by
  rw [Block.suspend_eq, Block.cx_modCore, Block.cx_modCx]
  exact fun _ => rfl

theorem Block.core_suspend_of_ne (h : u ≠ v) : (b.suspend u c st).core v = b.core v := by
  rw [Block.suspend_eq, Block.core_modCore, if_neg h, Block.core_modCx, if_neg h]

theorem Block.running_suspend : ((b.suspend u c st).core u).running = none := by
  rw [Block.suspend_eq, Block.core_modCore, if_pos rfl]

theorem Block.suspend_frame : b.suspend u c st = { b with pay := { b.pay with cores := (b.suspend u c st).pay.cores } } := rfl

theorem Block.cx_begun_of_ne (h : ¬ (v = u ∧ e = c)) : (b.begun u c).cx v e = b.cx v e := by
  unfold Block.begun
  rw [Block.cx_modCx, if_neg fun hu => h ⟨hu.1.symm, hu.2.symm⟩]
  rfl

theorem Block.core_begun_of_ne (h : v ≠ u) : (b.begun u c).core v = b.core v := by
  unfold Block.begun
  rw [Block.core_modCx, if_neg h.symm]
  rfl

theorem Block.begun_frame : b.begun u c = { b with pay := { b.pay with cores := (b.begun u c).pay.cores }, free := b.drawn } := rfl

end

section
variable {s : State} {i : Instr} {u : Nat} {c : Fin 8} {st : CtxSt}

/-- A context that issues and suspends: outstanding results arrive, the core issues from no context, and nothing else changes. -/
theorem suspends_of_exec (he : exec i s = .next { s with blk := (s.blk.begun u c).suspend u c st }) :
    ∃ t, exec i s = .next t ∧ t.blk.cx u c = { (s.blk.counted u c).settle s.blk.drawn with st, cycles := 0 } ∧
      (t.blk.core u).running = none ∧ (∀ v e, ¬ (v = u ∧ e = c) → t.blk.cx v e = s.blk.cx v e) ∧
      (∀ v, v ≠ u → t.blk.core v = s.blk.core v) ∧
      t = { s with blk := { s.blk with pay := { s.blk.pay with cores := t.blk.pay.cores }, free := t.blk.free } } := by
  refine ⟨_, he, ?_, Block.running_suspend .., fun v e hne => ?_, fun v hv => ?_, ?_⟩
  · rw [Block.cx_suspend, if_pos ⟨rfl, rfl⟩, Block.cx_begun]
    rfl
  · rw [Block.cx_suspend, if_neg fun hu => hne ⟨hu.1.symm, hu.2.symm⟩, Block.cx_begun_of_ne _ _ _ _ _ hne]
  · rw [Block.core_suspend_of_ne _ _ _ _ _ hv.symm, Block.core_begun_of_ne _ _ _ _ hv]
  · rw [Block.suspend_frame, Block.begun_frame]

end

/-! ## Traps (12 R284) -/

/-- A trap of core u noted: the payment registers name the core and the cause, and the recorder has its record. -/
def Block.trapNoted (b : Block) (u cause : Nat) : Block :=
  Block.note { b with pay := { b.pay with lastTrapCore := 188 + u, lastTrapCause := cause } } 0x0033 2 (188 + u) cause

section
variable (b : Block) (u : Nat) (c : Fin 8) (cause : Nat)

theorem Block.trap_eq : b.trap u c cause =
    if c = 0 then (b.trapNoted u cause).stopService u
    else match (b.cx u c).fn.bind fun f => ((b.trapNoted u cause).endFunction u c).entry? f.1 f.2 with
      | some e => ((b.trapNoted u cause).endFunction u c).finish e St.firmwareTrap cause (188 + u) 0 0
      | none => (b.trapNoted u cause).endFunction u c := rfl

/-- A trap of a function completes its descriptor. -/
theorem Block.trap_of_function {fn : Nat × Index} {e : Entry} (hc : c ≠ 0) (hfn : (b.cx u c).fn = some fn)
    (he : ((b.trapNoted u cause).endFunction u c).entry? fn.1 fn.2 = some e) :
    b.trap u c cause = ((b.trapNoted u cause).endFunction u c).finish e St.firmwareTrap cause (188 + u) 0 0 := by
  rw [Block.trap_eq, if_neg hc, hfn, Option.bind_some, he]

end

/-! ## NOP, TRAPI, WFE, WAITT, ERET (12 R267, R277, R278, R284, R286) -/

section
variable {s : State} {u : Nat} {c : Fin 8} {g d n : BitVec 3} {mask : BitVec 10}

theorem exec_trapi : exec (.trapi (188 + u) g n) s = .next { s with blk := (s.blk.issue (.trapi (188 + u) g n) u
    (fun _ _ _ => [0x10 + n.toNat]) fun b _ _ _ => b) } := by
  show execTrapi (188 + u) g n s = _
  simp only [execTrapi, State.run, coreIx_unit]

theorem exec_wfe : exec (.wfe (188 + u) g d mask) s = .next { s with blk := (s.blk.issue (.wfe (188 + u) g d mask) u
    (fun _ _ _ => []) fun b c x n =>
      if x.ev &&& mask = 0 then b.suspend u c (.waitEvent d mask)
      else b.modCx u c fun _ =>
        Ctx14.advance { (x.writeG d ((x.ev &&& mask).setWidth 32)) with ev := x.ev &&& ~~~mask } n (b.sizeAt x.pc)) } := by
  show execWfe (188 + u) g d mask s = _
  simp only [execWfe, State.run, coreIx_unit]

theorem exec_waitt : exec (.waitt (188 + u) g d) s = .next { s with blk := (s.blk.issue (.waitt (188 + u) g d) u
    (fun _ _ _ => []) fun b c x n =>
      if b.reached (x.readG n d) then b.modCx u c fun _ => x.advance n (b.sizeAt x.pc)
      else b.suspend u c (.waitTime (x.readG n d))) } := by
  show execWaitt (188 + u) g d s = _
  simp only [execWaitt, State.run, coreIx_unit]

theorem exec_eret : exec (.eret (188 + u) g) s = .next { s with blk := (s.blk.issue (.eret (188 + u) g) u
    (fun _ _ x => if x.emulating then [] else [0x0D]) fun b c x n =>
      b.modCx u c fun _ => Ctx14.returned { (x.tickLate n) with pc := x.epc, emulating := false, rpt := 0 }) } := by
  show execEret (188 + u) g s = _
  simp only [execEret, State.run, coreIx_unit]

/-- TRAPI outside a delay slot and a loop traps with its own cause. -/
theorem traps_trapi (h : s.blk.Issues (.trapi (188 + u) g n) u c) (hdelay : (s.blk.counted u c).delay = none)
    (hloops : (s.blk.counted u c).loops = []) : Traps s (.trapi (188 + u) g n) u c (0x10 + n.toNat) := by
  refine traps_of_issues h exec_trapi ?_
  rw [Ctx14.placeCauses_of_quiet hdelay hloops]
  rfl

theorem does_wfe (hev : (s.blk.counted u c).ev &&& mask ≠ 0) : Does s (.wfe (188 + u) g d mask) u c fun x =>
    { x.writeG d (((s.blk.counted u c).ev &&& mask).setWidth 32) with ev := (s.blk.counted u c).ev &&& ~~~mask } := fun h =>
  completes_of_acts ((acts_of_issues h exec_wfe (Ctx14.placeCauses_of_not_transfers _ _ _ rfl) rfl).trans
    (congrArg (fun b => Host.Outcome.next { s with blk := b }) (if_neg hev)))

theorem does_waitt (ht : (s.blk.time.sched.setWidth 32 - (s.blk.counted u c).readG s.blk.drawn d).toNat < 2 ^ 31) :
    Does s (.waitt (188 + u) g d) u c id := fun h =>
  completes_of_acts ((acts_of_issues h exec_waitt (Ctx14.placeCauses_of_not_transfers _ _ _ rfl) rfl).trans
    (congrArg (fun b => Host.Outcome.next { s with blk := b }) (if_pos (decide_eq_true ht))))

end

/-- Settles O10: NOP, WFE and WAITT are acts of their context, TRAPI and ERET traps or acts outside a delay slot and a loop, and a
trap is what `Block.trap` says. -/
theorem k14Control : Obligations.K14Control := by
  unfold Obligations.K14Control
  refine ⟨fun s u c g d mask => ⟨?_, fun h hquiet => ?_, does_wfe, fun hev h => ?_, does_waitt, fun ht h => ?_,
    fun h hquiet hemu => ?_, fun h hquiet hemu => ?_⟩, fun s u c g n h hdelay hloops => ⟨fun hc => ?_, fun fn e hc hfn hent => ?_⟩⟩
  · exact does_plain (f := fun x _ => x) rfl rfl
  · exact traps_trapi h hquiet.1 hquiet.2
  · exact suspends_of_exec ((acts_of_issues h exec_wfe (Ctx14.placeCauses_of_not_transfers _ _ _ rfl) rfl).trans
      (congrArg (fun b => Host.Outcome.next { s with blk := b }) (if_pos hev)))
  · exact suspends_of_exec ((acts_of_issues h exec_waitt (Ctx14.placeCauses_of_not_transfers _ _ _ rfl) rfl).trans
      (congrArg (fun b => Host.Outcome.next { s with blk := b }) (if_neg fun hr => not_lt.2 ht (of_decide_eq_true hr))))
  · obtain ⟨hdelay, hloops⟩ := hquiet
    obtain ⟨t, het, honly, hcx⟩ := onlyContext_of_exec
      (acts_of_issues h exec_eret (Ctx14.placeCauses_of_quiet hdelay hloops) (if_pos hemu))
    refine ⟨t, het, honly, hcx.trans ?_⟩
    simp only [Ctx14.returned, Ctx14.loops_tickLate, hloops]
  · obtain ⟨hdelay, hloops⟩ := hquiet
    refine traps_of_issues h exec_eret ?_
    rw [Ctx14.placeCauses_of_quiet hdelay hloops]
    simp only [hemu]
    rfl
  · rw [show _ = _ from traps_trapi h hdelay hloops, Block.trap_eq, if_pos hc]
    rfl
  · rw [show _ = _ from traps_trapi h hdelay hloops,
      Block.trap_of_function _ u c _ hc (by rw [Block.cx_begun]; exact hfn) hent]
    rfl

/-! ## DONE (12 R283) -/

theorem exec_done {s : State} {u : Nat} {g r : BitVec 3} : exec (.done (188 + u) g r) s = .next { s with blk :=
    (s.blk.issue (.done (188 + u) g r) u (fun _ _ _ => []) fun b c x n =>
      if x.call.isSome || x.block then b.suspend u c (.waitDone r) else b.endByDone u c (x.readG n r)) } := by
  show execDone (188 + u) g r s = _
  simp only [execDone, State.run, coreIx_unit]

/-- The statuses that DONE may end a function with. -/
def doneStatuses : List Nat := [0x00, 0x12, 0x22, 0x31, 0x70, 0x71, 0x72]

/-- What a function that DONE ends leaves as its result. -/
def Entry.doneResult (e : Entry) (bank : List Host.Cell) (status detail : Nat) : Result :=
  if status = 0 then { e.res.getD {} with
    status, detail, out := fit (ofBE (bankRead bank 0x480 4)) e.dst, result := BitVec.ofNat 64 (ofLE (bankRead bank 0x488 8)) }
  else { e.res.getD {} with status, detail, out := [], result := 0 }

section
variable {b : Block} {u : Nat} {c : Fin 8} {v : BitVec 32} {fn : Nat × Index} {e : Entry}

/-- A function ends by DONE with its status, or traps where the status is not allowed or the output too long. -/
theorem Block.endByDone_of_function (hc : c ≠ 0) (hfn : (b.cx u c).fn = some fn) (he : b.entry? fn.1 fn.2 = some e) :
    b.endByDone u c v =
      if v.toNat % 256 ∉ doneStatuses ∨ v.toNat % 256 = 0 ∧ e.d.dstLen < ofBE (bankRead (b.cx u c).bank 0x480 4) then
        b.trap u c 0x0C
      else
        let f := { e with res := some (e.doneResult (b.cx u c).bank (v.toNat % 256) (v.toNat / 256 % 256)) }
        ((b.endFunction u c).modEntry e.ring e.sub fun _ => f).executed f 0 := by
  unfold Block.endByDone
  simp only [hc, if_false, hfn, Option.bind_some, he]
  have hcond : (!([St.ok, St.sgFault, St.keyUsage, St.verifyFail, St.pinFormat, St.pinCheck, St.dukptExhausted].contains
        (v.toNat % 256)) || (v.toNat % 256 == St.ok && decide (e.d.dstLen < ofBE (bankRead (b.cx u c).bank 0x480 4)))) = true ↔
      v.toNat % 256 ∉ doneStatuses ∨ v.toNat % 256 = 0 ∧ e.d.dstLen < ofBE (bankRead (b.cx u c).bank 0x480 4) := by
    simp [doneStatuses, St.ok, St.sgFault, St.keyUsage, St.verifyFail, St.pinFormat, St.pinCheck, St.dukptExhausted]
  by_cases h : v.toNat % 256 ∉ doneStatuses ∨ v.toNat % 256 = 0 ∧ e.d.dstLen < ofBE (bankRead (b.cx u c).bank 0x480 4)
  · rw [if_pos h, if_pos (hcond.2 h)]
  · rw [if_neg h, if_neg (mt hcond.1 h)]
    by_cases hst : v.toNat % 256 = 0
    · simp only [Entry.doneResult, hst, if_true, St.ok]
    · simp only [Entry.doneResult, hst, if_false, St.ok]

end

/-- Settles O12: DONE waits, stops the service context, ends its function or traps, as its status word says. -/
theorem k14Done : Obligations.K14Done := by
  unfold Obligations.K14Done
  intro s u c g r i x v b h hdelay hloops
  have hacts : exec i s = .next { s with blk :=
      if x.call.isSome || x.block then b.suspend u c (.waitDone r) else b.endByDone u c v } :=
    acts_of_issues h exec_done (Ctx14.placeCauses_of_quiet hdelay hloops) rfl
  have hends (hcall : x.call = none) (hblock : x.block = false) : exec i s = .next { s with blk := b.endByDone u c v } := by
    rw [hacts, if_neg (by simp [hcall, hblock])]
  refine ⟨fun hout => ?_, fun hcall hblock hc hv => ?_, fun hcall hblock hc hv => ?_, fun fn e hcall hblock hc hfn hent => ?_⟩
  · rw [hacts, if_pos (by simpa using hout)]
  · rw [hends hcall hblock]
    simp only [Block.endByDone, hc, hv, if_true]
  · subst hc
    rw [Traps, hends hcall hblock]
    simp only [Block.endByDone, hv, if_true, if_false]
    rfl
  · intro len old ends
    have hcx : b.cx u c = x := s.blk.cx_begun u c
    have hfunction := Block.endByDone_of_function (v := v) hc (by rw [hcx]; exact hfn) (show b.entry? fn.1 fn.2 = some e from hent)
    rw [hcx] at hfunction
    refine ⟨fun hst hlen => ?_, fun hst => ?_, fun hst hlen => ?_, fun hst => ?_⟩
    · have hallowed : ¬ (v.toNat % 256 ∉ doneStatuses ∨ v.toNat % 256 = 0 ∧ e.d.dstLen < len) := by
        simpa [hst, doneStatuses] using hlen
      show exec i s = _
      rw [hends hcall hblock, hfunction, if_neg hallowed]
      simp only [Entry.doneResult, hst, if_true]
      rfl
    · have hne : v.toNat % 256 ≠ 0 := by
        intro h0
        simp [h0] at hst
      have hallowed : ¬ (v.toNat % 256 ∉ doneStatuses ∨ v.toNat % 256 = 0 ∧ e.d.dstLen < len) := by
        rintro (hnot | ⟨h0, _⟩)
        · exact hnot (List.mem_cons_of_mem _ hst)
        · exact hne h0
      show exec i s = _
      rw [hends hcall hblock, hfunction, if_neg hallowed]
      simp only [Entry.doneResult, hne, if_false]
      rfl
    · rw [Traps, hends hcall hblock, hfunction, if_pos (.inr ⟨hst, hlen⟩)]
    · rw [Traps, hends hcall hblock, hfunction, if_pos (.inl hst)]

end Sys2Proof.Machine

/-! POST, MCH, MBR and the end of a call (12 R279 to R282). -/

namespace Sys2Proof.Machine

open Sys2Proof

theorem at_eq (lo n : Nat) : at_ lo n = 2 ^ lo * n := by rw [at_, Nat.shiftLeft_eq, Nat.mul_comm]

@[simp] theorem ctxIx_val (c : Fin 8) : ctxIx c = c := Fin.ofNat_val_eq_self c

section
variable {s : State} {u : Nat} {c : Fin 8} {g d : BitVec 3}

/-! ## POST -/

/-- The call that a register names. -/
def Block.callNamed (b : Block) (u : Nat) (c : Fin 8) (x : Ctx14) (n : Nat) (d : BitVec 3) : Option (CallRec × Bool) :=
  (b.block32 u c (x.readG n d)).bind (b.readCall u c)

theorem exec_post : exec (.post (188 + u) g d) s = .next { s with blk := (s.blk.issue (.post (188 + u) g d) u
    (fun b c x => (if x.call.isSome then [0x08] else []) ++ (if (b.callNamed u c x s.blk.drawn d).isNone then [0x09] else []))
    fun b c x n =>
      match b.callNamed u c x s.blk.drawn d with
      | some (r, window) => (b.modCx u c fun x => x.advance n (b.sizeAt x.pc)).postCall u c r window
      | none => b.modCx u c fun x => x.advance n (b.sizeAt x.pc)) } := by
  show execPost (188 + u) g d s = _
  simp only [execPost, State.run, coreIx_unit, Block.callNamed, Block.drawn]
  rfl

theorem exec_mch : exec (.mch (188 + u) g d) s = .next { s with blk := (s.blk.issue (.mch (188 + u) g d) u
    (fun b c x => (if x.block then [0x0A] else []) ++ (if (b.mchBlock u c (x.readG s.blk.drawn d)).isNone then [0x0B] else []))
    fun b c x n => match b.mchBlock u c (x.readG n d) with
      | some blk => b.queueBlock u c x n d blk
      | none => b) } := by
  show execMch (188 + u) g d s = _
  simp only [execMch, State.run, coreIx_unit, Block.drawn]
  rfl

variable {x : Ctx14}

/-! ## MCH -/

section
variable (b : Block) (blk : Bytes) (window : Bool)

theorem Block.windowHeld_iff : b.windowHeld u c = true ↔ ∃ h, (b.core u).holder = some h ∧ h ≠ c := by
  unfold Block.windowHeld
  cases (b.core u).holder with
  | none => simp
  | some h => simp

theorem Block.core_pushBlock_same : (b.pushBlock u c blk window).core u = { b.core u with
    ctxs := ((b.pushBlock u c blk window).core u).ctxs
    holder := if window then some c else (b.core u).holder, blocks := (b.core u).blocks ++ [(c, blk)] } := by
  unfold Block.pushBlock
  simp only [Block.core_modCx, Block.core_modCore, if_true]

theorem Block.cx_pushBlock (v : Nat) (e : Fin 8) : (b.pushBlock u c blk window).cx v e =
    if u = v ∧ c = e then { b.cx u c with block := true } else b.cx v e := by
  unfold Block.pushBlock
  rw [Block.cx_modCx, Block.cx_modCore, Block.cx_modCore]
  · exact fun _ => rfl
  · exact fun _ => rfl

theorem Block.core_pushBlock_of_ne {v : Nat} (h : u ≠ v) : (b.pushBlock u c blk window).core v = b.core v := by
  unfold Block.pushBlock
  rw [Block.core_modCx, if_neg h, Block.core_modCore, if_neg h]

theorem Block.pushBlock_frame : b.pushBlock u c blk window =
    { b with pay := { b.pay with cores := (b.pushBlock u c blk window).pay.cores } } := rfl

theorem Block.modCx_frame (f : Ctx14 → Ctx14) :
    b.modCx u c f = { b with pay := { b.pay with cores := (b.modCx u c f).pay.cores } } := rfl

end

/-- What an MCH that queues its block does. -/
theorem queues_of_exec {blk : Bytes} {window : Bool} {i : Instr} {f : Ctx14 → Ctx14}
    (he : exec i s = .next { s with blk := ((s.blk.begun u c).pushBlock u c blk window).modCx u c f }) :
    ∃ t, exec i s = .next t ∧ (t.blk.core u).blocks = (s.blk.core u).blocks ++ [(c, blk)] ∧
      (window = true → (t.blk.core u).holder = some c) ∧ (window = false → (t.blk.core u).holder = (s.blk.core u).holder) ∧
      t.blk.cx u c = f { s.blk.counted u c with block := true } ∧
      (∀ v e, ¬ (v = u ∧ e = c) → t.blk.cx v e = s.blk.cx v e) ∧ (∀ v, v ≠ u → t.blk.core v = s.blk.core v) ∧
      t = { s with blk := { s.blk with pay := { s.blk.pay with cores := t.blk.pay.cores }, free := t.blk.free } } := by
  have hholder : ((s.blk.begun u c).core u).holder = (s.blk.core u).holder := by simp [Block.begun]
  have hblocks : ((s.blk.begun u c).core u).blocks = (s.blk.core u).blocks := by simp [Block.begun]
  refine ⟨_, he, ?_, fun hw => ?_, fun hw => ?_, ?_, fun v e hne => ?_, fun v hv => ?_, ?_⟩
  · rw [Block.core_modCx, if_pos rfl, Block.core_pushBlock_same, hblocks]
  · rw [Block.core_modCx, if_pos rfl, Block.core_pushBlock_same, hw]
    rfl
  · rw [Block.core_modCx, if_pos rfl, Block.core_pushBlock_same, hw, hholder]
    rfl
  · rw [Block.cx_modCx, if_pos ⟨rfl, rfl⟩, Block.cx_pushBlock, if_pos ⟨rfl, rfl⟩, Block.cx_begun]
  · have hne' : ¬ (u = v ∧ c = e) := fun h => hne ⟨h.1.symm, h.2.symm⟩
    rw [Block.cx_modCx, if_neg hne', Block.cx_pushBlock, if_neg hne', Block.cx_begun_of_ne _ _ _ _ _ hne]
  · rw [Block.core_modCx, if_neg hv.symm, Block.core_pushBlock_of_ne _ _ _ hv.symm, Block.core_begun_of_ne _ _ _ _ hv]
  · rw [Block.modCx_frame, Block.pushBlock_frame, Block.begun_frame]

/-- A queued block, or a suspension where another context holds the window that it names. -/
theorem Block.queueBlock_eq (b : Block) (n : Nat) (blk : Bytes) : b.queueBlock u c x n d blk =
    let window := (sidesOf blk).srcSel == 1 || (sidesOf blk).dstSel == 1
    if window && b.windowHeld u c then b.suspend u c (.waitWindow d)
    else (b.pushBlock u c blk window).modCx u c fun y => y.advance n (b.sizeAt x.pc) := rfl

/-! ## POST and MCH, case by case -/

/-- The state with another block. -/
theorem next_congr {b b' : Block} (h : b = b') :
    (Host.Outcome.next { s with blk := b } : Host.Outcome State Fault Refusal) = .next { s with blk := b' } := by rw [h]

theorem posts_of_named {r : CallRec} {window : Bool} (h : s.blk.Issues (.post (188 + u) g d) u c)
    (hfree : (s.blk.counted u c).call = none)
    (hnamed : (s.blk.begun u c).callNamed u c (s.blk.counted u c) s.blk.drawn d = some (r, window)) :
    exec (.post (188 + u) g d) s = .next { s with blk := ((s.blk.begun u c).modCx u c fun x =>
      x.advance s.blk.drawn (s.blk.sizeAt (s.blk.counted u c).pc)).postCall u c r window } := by
  rw [acts_of_issues h exec_post (Ctx14.placeCauses_of_not_transfers _ _ _ rfl) (by rw [hnamed, hfree]; rfl)]
  refine next_congr ?_
  rw [hnamed]
  exact congrArg (fun b : Block => b.postCall u c r window) (Block.modCx_congr _ u c (by rw [Block.cx_begun]; rfl))

theorem traps_post_busy (h : s.blk.Issues (.post (188 + u) g d) u c) (hbusy : (s.blk.counted u c).call.isSome = true) :
    Traps s (.post (188 + u) g d) u c 0x08 := by
  refine traps_of_issues h exec_post ?_
  rw [Ctx14.placeCauses_of_not_transfers _ _ _ rfl, hbusy, if_pos rfl]
  cases Option.isNone _ <;> rfl

theorem traps_post_none (h : s.blk.Issues (.post (188 + u) g d) u c) (hfree : (s.blk.counted u c).call = none)
    (hnone : (s.blk.begun u c).callNamed u c (s.blk.counted u c) s.blk.drawn d = none) :
    Traps s (.post (188 + u) g d) u c 0x09 := by
  refine traps_of_issues h exec_post ?_
  rw [Ctx14.placeCauses_of_not_transfers _ _ _ rfl, hfree, hnone]
  rfl

section
variable {blk : Bytes} (h : s.blk.Issues (.mch (188 + u) g d) u c) (hfree : (s.blk.counted u c).block = false)
include h

theorem traps_mch_busy (hbusy : (s.blk.counted u c).block = true) : Traps s (.mch (188 + u) g d) u c 0x0A := by
  refine traps_of_issues h exec_mch ?_
  rw [Ctx14.placeCauses_of_not_transfers _ _ _ rfl, hbusy, if_pos rfl]
  cases Option.isNone _ <;> rfl

include hfree

theorem traps_mch_none (hnone : (s.blk.begun u c).mchBlock u c ((s.blk.counted u c).readG s.blk.drawn d) = none) :
    Traps s (.mch (188 + u) g d) u c 0x0B := by
  refine traps_of_issues h exec_mch ?_
  rw [Ctx14.placeCauses_of_not_transfers _ _ _ rfl, hfree, hnone]
  rfl

variable (hblk : (s.blk.begun u c).mchBlock u c ((s.blk.counted u c).readG s.blk.drawn d) = some blk)
include hblk

theorem exec_mch_of_block : exec (.mch (188 + u) g d) s =
    .next { s with blk := (s.blk.begun u c).queueBlock u c (s.blk.counted u c) s.blk.drawn d blk } := by
  rw [acts_of_issues h exec_mch (Ctx14.placeCauses_of_not_transfers _ _ _ rfl) (by rw [hblk, hfree]; rfl)]
  refine next_congr ?_
  rw [hblk]

/-- A block that names no window, or a window that no other context holds, is queued. -/
theorem mch_queues (hwin : ¬ (((sidesOf blk).srcSel == 1 || (sidesOf blk).dstSel == 1) = true ∧ s.blk.windowHeld u c = true)) :
    exec (.mch (188 + u) g d) s = .next { s with blk := (((s.blk.begun u c).pushBlock u c blk
      ((sidesOf blk).srcSel == 1 || (sidesOf blk).dstSel == 1)).modCx u c fun x =>
        x.advance s.blk.drawn (s.blk.sizeAt (s.blk.counted u c).pc)) } := by
  have hheld : (s.blk.begun u c).windowHeld u c = s.blk.windowHeld u c := by simp [Block.windowHeld, Block.begun]
  rw [exec_mch_of_block h hfree hblk]
  refine next_congr ?_
  rw [Block.queueBlock_eq, if_neg (by rw [hheld, Bool.and_eq_true]; exact hwin)]
  rfl

/-- A block that names the window of another context suspends its own. -/
theorem mch_suspends (hwin : ((sidesOf blk).srcSel == 1 || (sidesOf blk).dstSel == 1) = true) (hheld : s.blk.windowHeld u c = true) :
    exec (.mch (188 + u) g d) s = .next { s with blk := (s.blk.begun u c).suspend u c (.waitWindow d) } := by
  have hheld' : (s.blk.begun u c).windowHeld u c = true := by simpa [Block.windowHeld, Block.begun] using hheld
  rw [exec_mch_of_block h hfree hblk]
  refine next_congr ?_
  rw [Block.queueBlock_eq, if_pos (by rw [hwin, hheld']; rfl)]

end

/-! ## The end of a call -/

section
variable {b : Block} {r : CallRec}

/-- A call that its target has served. -/
theorem Block.callComplete_of_served (hcall : (b.cx u c).call = some r) (hready : r.ready = true) (hfailed : r.failed = none) :
    b.callComplete u c = (((b.placeOutput u c r r.output).modCx u c fun x =>
      { x with call := none, result := BitVec.ofNat 32 (2 ^ 16 * r.output.length) }).setEvent u c 0).tryDone u c := by
  unfold Block.callComplete
  simp only [hcall, hready, hfailed, at_eq]
  rfl

/-- A call that its target refused ends the function. -/
theorem Block.callComplete_of_failed {st det : Nat} {fn : Nat × Index} {e : Entry} (hcall : (b.cx u c).call = some r)
    (hready : r.ready = true) (hfailed : r.failed = some (st, det)) (hfn : (b.cx u c).fn = some fn)
    (he : b.entry? fn.1 fn.2 = some e) : b.callComplete u c =
      (b.endFunction u c).finish e (e.failedWith st det).1 (e.failedWith st det).2 (188 + u) 0 0 := by
  unfold Block.callComplete
  simp only [hcall, hready, hfailed, hfn, Option.bind_some, he]
  rfl

end
end

/-- Settles O9: POST and MCH act on the call and the block that their register names, and CALL_COMPLETE places what the target has
computed or ends the function. -/
theorem k14CallsAndBlocks : Obligations.K14CallsAndBlocks := by
  unfold Obligations.K14CallsAndBlocks
  refine ⟨fun s u c g d => ⟨?_, fun h => ⟨fun hfree r window hnamed => posts_of_named h hfree hnamed, fun hbusy => traps_post_busy h hbusy,
      fun hfree hnone => traps_post_none h hfree hnone⟩,
    fun h => ⟨fun hfree blk hblk => ?_, fun hbusy => traps_mch_busy h hbusy, fun hfree hnone => traps_mch_none h hfree hnone⟩⟩,
    fun s u c r hcall hready => ⟨fun hserved => ?_, fun st det fn e hfailed hfn he => ?_⟩⟩
  · exact does_plain (f := fun x _ => x.produce d x.result 4) rfl rfl
  · intro window held
    have hwindow : ((sidesOf blk).srcSel == 1 || (sidesOf blk).dstSel == 1) = true ↔ window := by simp [window]
    have hheld : s.blk.windowHeld u c = true ↔ held := s.blk.windowHeld_iff
    refine ⟨fun hfreely => ?_, fun hwin hother => mch_suspends h hfree hblk (hwindow.2 hwin) (hheld.2 hother)⟩
    obtain ⟨t, het, hblocks, htakes, hkeeps, hcx, hcxs, hcores, hframe⟩ := queues_of_exec
      (mch_queues h hfree hblk fun hboth => hfreely ⟨hwindow.1 hboth.1, hheld.1 hboth.2⟩)
    exact ⟨t, het, hblocks, fun hw => htakes (hwindow.2 hw), fun hw => hkeeps (Bool.eq_false_iff.2 (mt hwindow.1 hw)), hcx, hcxs,
      hcores, hframe⟩
  · intro b
    show Host.Outcome.next { s with blk := s.blk.callComplete (188 + u - 188) (ctxIx c) } = _
    rw [Nat.add_sub_cancel_left, ctxIx_val, Block.callComplete_of_served hcall hready hserved]
  · intro q b
    show Host.Outcome.next { s with blk := s.blk.callComplete (188 + u - 188) (ctxIx c) } = _
    rw [Nat.add_sub_cancel_left, ctxIx_val, Block.callComplete_of_failed hcall hready hfailed hfn he]

end Sys2Proof.Machine

/-! The emulation vector, the choice of context, and events (12 R260, R277, R278, R286, R288). -/

namespace Sys2Proof.Machine

open Sys2Proof

section
variable {s : State} {u : Nat} {c : Fin 8}

/-! ## The emulation vector -/

/-- Where a reserved encoding with a true guard, outside a delay slot and emulation, takes its context. -/
def Ctx14.vectored (x : Ctx14) (n : Nat) (next w : BitVec 14) : Ctx14 :=
  { x.settle n with epc := x.pc, ecause := next ++ w, pc := 4, emulating := true, emuPc := x.pc, rpt := 0 }

theorem Block.emulate_of_reserved {b : Block} (hissuing : b.issuing u = some c) (hreserved : b.instrAt u (b.cx u c).pc = none)
    (hguard : (b.cx u c).pred (K14.guardOf (b.word14 (b.cx u c).pc)) = true) (hdelay : (b.cx u c).delay = none)
    (hemu : (b.cx u c).emulating = false) :
    b.emulate u = (b.begun u c).modCx u c fun _ =>
      (b.counted u c).vectored b.drawn (b.word14 ((b.cx u c).pc + 1)) (b.word14 (b.cx u c).pc) := by
  unfold Block.emulate
  have e : (b.tick.modCx u c fun x => { x with cycles := x.cycles + b.sizeAt (b.cx u c).pc }) = b.begun u c := rfl
  have hguard' : (b.counted u c).pred (K14.guardOf (b.word14 (b.cx u c).pc)) = true := hguard
  have hdelay' : (b.counted u c).delay = none := hdelay
  have hemu' : (b.counted u c).emulating = false := hemu
  have hword : ∀ a, (b.begun u c).word14 a = b.word14 a := fun _ => rfl
  simp only [hissuing, hreserved, Option.isSome_none, Bool.false_eq_true, if_false, e, Block.cx_begun, hword, hguard', Bool.not_true,
    hdelay', hemu']
  exact Block.modCx_congr _ u c rfl

/-! ## The choice of context -/

/-- Before a context other than 0 in the order of a core, without jumped waits, stand those with numbers that come sooner after the
last, wrapping from 7 to 1. -/
theorem order_split : ∀ last c : Fin 8, c ≠ 0 →
    ∃ pre post, (((List.finRange 8).filter (fun c => decide (last < c)) ++ (List.finRange 8).filter (fun c => decide (c ≤ last))).filter
      (· != 0)) = pre ++ c :: post ∧
      ∀ e ∈ pre, e ≠ 0 ∧ e ≠ c ∧ (e.val + 7 - (last.val + 1)) % 7 < (c.val + 7 - (last.val + 1)) % 7 := by
  have h : ∀ last c : Fin 8, c ≠ 0 → ∀ l, l = (((List.finRange 8).filter (fun c => decide (last < c)) ++
      (List.finRange 8).filter (fun c => decide (c ≤ last))).filter (· != 0)) →
      l = l.takeWhile (· != c) ++ c :: (l.dropWhile (· != c)).tail ∧ ∀ e ∈ l.takeWhile (· != c), e ≠ 0 ∧ e ≠ c ∧ (e.val + 7 - (last.val + 1)) % 7 < (c.val + 7 - (last.val + 1)) % 7 := by
    intro last c hc l hl
    subst hl
    revert last c
    decide
  exact fun last c hc => ⟨_, _, h last c hc _ rfl⟩

section
variable {k : Core14}

theorem Core14.resumable_of_ready (h : k.ctxs[c].st = .ready) : k.resumable c = true := by simp only [Core14.resumable, h]

/-- Without jumped waits a context that is not ready may not be resumed. -/
theorem Core14.resumable_of_not_ready (hjumped : k.jumped = []) (h : k.ctxs[c].st ≠ .ready) : k.resumable c = false := by
  unfold Core14.resumable
  split
  · next hst => exact absurd hst h
  · simp [hjumped]
  · rfl

theorem Core14.resumable_of_jumped {target : BitVec 32} (hjumped : c ∈ k.jumped) (h : k.ctxs[c].st = .waitTime target) :
    k.resumable c = true := by
  unfold Core14.resumable
  rw [h]
  simpa using hjumped

/-- A ready function context that comes before every other ready one after the last that ran is next. -/
theorem Core14.next_of_first (hjumped : k.jumped = []) (hc : c ≠ 0) (hready : k.ctxs[c].st = .ready)
    (hfirst : ∀ e : Fin 8, e ≠ 0 → e ≠ c → k.ctxs[e].st = .ready →
      (c.val + 7 - (k.last.val + 1)) % 7 < (e.val + 7 - (k.last.val + 1)) % 7) : k.next = some c := by
  obtain ⟨pre, post, hsplit, hpre⟩ := order_split k.last c hc
  have hfind : k.order.find? k.resumable = some c := by
    rw [Core14.order, hjumped, List.nil_append, hsplit, List.find?_eq_some_iff_append]
    refine ⟨Core14.resumable_of_ready hready, pre, post, rfl, fun e he => ?_⟩
    obtain ⟨he0, hec, hlt⟩ := hpre e he
    rw [Core14.resumable_of_not_ready hjumped fun hst => hlt.asymm (hfirst e he0 hec hst)]
    rfl
  rw [Core14.next, hfind]
  rfl

/-- Where no function context is ready, the service context is next. -/
theorem Core14.next_of_service (hjumped : k.jumped = []) (hready : k.ctxs[(0 : Fin 8)].st = .ready)
    (hothers : ∀ e : Fin 8, e ≠ 0 → k.ctxs[e].st ≠ .ready) : k.next = some 0 := by
  have hfind : k.order.find? k.resumable = none := by
    rw [List.find?_eq_none]
    intro e he
    have he0 : e ≠ 0 := by
      have := (List.mem_filter.1 he).2
      simpa using this
    rw [Core14.resumable_of_not_ready hjumped (hothers e he0)]
    simp
  rw [Core14.next, hfind, Core14.resumable_of_ready hready]
  rfl

/-- A context whose timed wait a jump has passed comes first. -/
theorem Core14.next_of_jumped {rest : List (Fin 8)} {target : BitVec 32} (hjumped : k.jumped = c :: rest) (hc : c ≠ 0)
    (hst : k.ctxs[c].st = .waitTime target) : k.next = some c := by
  have hres : k.resumable c = true := Core14.resumable_of_jumped (by simp [hjumped]) hst
  have hfind : k.order.find? k.resumable = some c := by
    rw [Core14.order, hjumped, List.cons_append, List.cons_append, List.filter_cons_of_pos (by simpa using hc),
      List.find?_cons_of_pos hres]
  rw [Core14.next, hfind]
  rfl

end

/-- Context c of core u is taken. -/
def Block.take (b : Block) (u : Nat) (c : Fin 8) : Block :=
  (b.modCx u c fun x => { (x.settle b.free) with cycles := 0 }).modCore u fun k =>
    { k with running := some c, last := c, jumped := k.jumped.filter (· != c) }

theorem Block.resume_of_next {b : Block} (hin : b.inService (188 + u) = true) (hrunning : (b.core u).running = none)
    (hnext : (b.core u).next = some c) : b.resume u = (b.waittDone u c).take u c := by
  unfold Block.resume
  simp only [coreUnit, hin, hrunning, hnext, Option.isSome_none, Bool.not_true, Bool.or_false, Bool.false_eq_true, if_false]
  rfl

theorem Block.waittDone_of_ready {b : Block} (hready : (b.cx u c).st = .ready) : b.waittDone u c = b := by
  unfold Block.waittDone
  rw [hready]

theorem Block.waittDone_of_reached {b : Block} {target : BitVec 32} (hst : (b.cx u c).st = .waitTime target)
    (hreached : b.reached target = true) :
    b.waittDone u c = b.modCx u c fun x => Ctx14.advance { x with st := .ready } b.free 1 := by
  unfold Block.waittDone
  simp only [hst, hreached, if_true]

section
variable (b : Block)

theorem Block.core_take_same : (b.take u c).core u = { b.core u with
    ctxs := ((b.take u c).core u).ctxs, running := some c, last := c, jumped := (b.core u).jumped.filter (· != c) } := by
  unfold Block.take
  rw [Block.core_modCore, if_pos rfl, Block.core_modCx, if_pos rfl]

theorem Block.core_take_of_ne {v : Nat} (h : v ≠ u) : (b.take u c).core v = b.core v := by
  unfold Block.take
  rw [Block.core_modCore, if_neg h.symm, Block.core_modCx, if_neg h.symm]

theorem Block.cx_take (v : Nat) (e : Fin 8) : (b.take u c).cx v e =
    if u = v ∧ c = e then { (b.cx u c).settle b.free with cycles := 0 } else b.cx v e := by
  unfold Block.take
  rw [Block.cx_modCore, Block.cx_modCx]
  exact fun _ => rfl

theorem Block.take_frame : b.take u c = { b with pay := { b.pay with cores := (b.take u c).pay.cores } } := rfl

end

theorem exec_resume : exec (.contextResume (188 + u)) s = .next { s with blk := s.blk.resume u } := by
  show execContextResume (188 + u) s = _
  simp only [execContextResume, State.run, coreIx_unit]

/-- What the taking of a context leaves as it is. -/
theorem takes_of_exec {i : Instr} (he : exec i s = .next { s with blk := s.blk.take u c }) :
    ∃ t, exec i s = .next t ∧ (t.blk.core u).running = some c ∧ (t.blk.core u).last = c ∧
      t.blk.cx u c = { (s.blk.cx u c).settle s.blk.free with cycles := 0 } ∧
      (∀ v e, ¬ (v = u ∧ e = c) → t.blk.cx v e = s.blk.cx v e) ∧ (∀ v, v ≠ u → t.blk.core v = s.blk.core v) ∧
      t = { s with blk := { s.blk with pay := { s.blk.pay with cores := t.blk.pay.cores } } } := by
  refine ⟨_, he, ?_, ?_, ?_, fun v e hne => ?_, fun v hv => Block.core_take_of_ne _ hv, ?_⟩
  · rw [Block.core_take_same]
  · rw [Block.core_take_same]
  · rw [Block.cx_take, if_pos ⟨rfl, rfl⟩]
  · rw [Block.cx_take, if_neg fun h => hne ⟨h.1.symm, h.2.symm⟩]
  · rw [Block.take_frame]

/-- The taking of a context whose timed wait is over. -/
theorem takes_of_reached {i : Instr} {rest : List (Fin 8)} (hjumped : (s.blk.core u).jumped = c :: rest) (hrest : c ∉ rest)
    (he : exec i s =
      .next { s with blk := (s.blk.modCx u c fun x => Ctx14.advance { x with st := .ready } s.blk.free 1).take u c }) :
    ∃ t, exec i s = .next t ∧ (t.blk.core u).running = some c ∧ (t.blk.core u).jumped = rest ∧
      t.blk.cx u c = { (Ctx14.advance { s.blk.cx u c with st := .ready } s.blk.free 1).settle s.blk.free with cycles := 0 } ∧
      (∀ v e, ¬ (v = u ∧ e = c) → t.blk.cx v e = s.blk.cx v e) ∧ (∀ v, v ≠ u → t.blk.core v = s.blk.core v) ∧
      t = { s with blk := { s.blk with pay := { s.blk.pay with cores := t.blk.pay.cores } } } := by
  refine ⟨_, he, ?_, ?_, ?_, fun v e hne => ?_, fun v hv => ?_, ?_⟩
  · rw [Block.core_take_same]
  · rw [Block.core_take_same, Block.core_modCx, if_pos rfl, hjumped, List.filter_cons_of_neg (by simp)]
    exact List.filter_eq_self.2 fun a ha => by
      have hne : a ≠ c := fun h => hrest (h ▸ ha)
      simpa using hne
  · rw [Block.cx_take, if_pos ⟨rfl, rfl⟩, Block.cx_modCx, if_pos ⟨rfl, rfl⟩]
    rfl
  · have hne' : ¬ (u = v ∧ c = e) := fun h => hne ⟨h.1.symm, h.2.symm⟩
    rw [Block.cx_take, if_neg hne', Block.cx_modCx, if_neg hne']
  · rw [Block.core_take_of_ne _ hv, Block.core_modCx, if_neg hv.symm]
  · rw [Block.take_frame, Block.modCx_frame]

/-! ## Events -/

theorem exec_sev {g : BitVec 3} {pos : BitVec 4} {all : Bool} {ev : BitVec 3} : exec (.sev (188 + u) g pos all ev) s =
    .next { s with blk := (s.blk.issue (.sev (188 + u) g pos all ev) u (fun _ _ _ => []) fun b c _ n =>
      let b := b.modCx u c fun x => x.advance n (b.sizeAt x.pc)
      let targets := if all then (List.range 18).filter fun i => b.inService (coreUnit i) else (b.coreAt pos.toNat).toList
      targets.foldl (fun b v => b.setEvent v 0 (2 + ev.toNat)) b) } := by
  show execSev (188 + u) g pos all ev s = _
  simp only [execSev, State.run, coreIx_unit]

section
variable (b : Block) (bit : Nat)

theorem Block.cx_setEvent (v w : Nat) (e : Fin 8) : (b.setEvent v 0 bit).cx w e =
    if v = w ∧ 0 = e then (b.cx v 0).event b.free bit else b.cx w e := by
  unfold Block.setEvent
  rw [Block.cx_modCx]

/-- An event set in context 0 of several cores. -/
def Block.setEvents (b : Block) (l : List Nat) (bit : Nat) : Block := l.foldl (fun b v => b.setEvent v 0 bit) b

theorem Block.setEvents_frame (l : List Nat) :
    b.setEvents l bit = { b with pay := { b.pay with cores := (b.setEvents l bit).pay.cores } } := by
  induction l generalizing b with
  | nil => rfl
  | cons v l ih => exact ih (b.setEvent v 0 bit)

theorem Block.cx_setEvents {l : List Nat} (hl : l.Nodup) (w : Nat) (e : Fin 8) : (b.setEvents l bit).cx w e =
    if w ∈ l ∧ 0 = e then (b.cx w 0).event b.free bit else b.cx w e := by
  induction l generalizing b with
  | nil => simp [Block.setEvents]
  | cons v l ih =>
    obtain ⟨hv, hl⟩ := List.nodup_cons.1 hl
    have htail : (b.setEvents (v :: l) bit).cx w e = ((b.setEvent v 0 bit).setEvents l bit).cx w e := rfl
    rw [htail, ih _ hl, Block.cx_setEvent, Block.cx_setEvent]
    by_cases hw : v = w
    · subst hw
      simp [hv]
    · have hw' : ¬ w = v := fun h => hw h.symm
      simp only [hw, false_and, if_false, List.mem_cons, hw', false_or]
      rfl

theorem Block.core_setEvents (l : List Nat) (w : Nat) :
    (b.setEvents l bit).core w = { b.core w with ctxs := ((b.setEvents l bit).core w).ctxs } := by
  induction l generalizing b with
  | nil => rfl
  | cons v l ih =>
    have htail : (b.setEvents (v :: l) bit).core w = ((b.setEvent v 0 bit).setEvents l bit).core w := rfl
    rw [htail, ih, Block.setEvent, Block.core_modCx]
    split
    · next h => rw [h]
    · rfl

end

/-- The cores that an SEV names. -/
def Block.sevTargets (b : Block) (pos : BitVec 4) (all : Bool) : List Nat :=
  if all then (List.range 18).filter fun i => b.inService (188 + i) else (b.coreAt pos.toNat).toList

theorem Block.nodup_sevTargets (b : Block) (pos : BitVec 4) (all : Bool) : (b.sevTargets pos all).Nodup := by
  unfold Block.sevTargets
  split
  · exact List.nodup_range.filter _
  · cases b.coreAt pos.toNat with
    | none => exact List.nodup_nil
    | some v => exact List.nodup_singleton v

theorem Block.mem_sevTargets (b : Block) (pos : BitVec 4) (all : Bool) (v : Nat) : v ∈ b.sevTargets pos all ↔
    all = true ∧ v < 18 ∧ b.inService (188 + v) = true ∨ all = false ∧ b.coreAt pos.toNat = some v := by
  unfold Block.sevTargets
  cases all with
  | true => simp only [if_true, List.mem_filter, List.mem_range, true_and, reduceCtorEq, false_and, or_false]
  | false =>
    simp only [Bool.false_eq_true, if_false, Option.mem_toList, false_and, true_and, false_or]

theorem exec_sev_of_issues {g : BitVec 3} {pos : BitVec 4} {all : Bool} {ev : BitVec 3}
    (h : s.blk.Issues (.sev (188 + u) g pos all ev) u c) : exec (.sev (188 + u) g pos all ev) s =
      .next { s with blk := ((s.blk.begun u c).modCx u c fun x =>
        x.advance s.blk.drawn (s.blk.sizeAt (s.blk.cx u c).pc)).setEvents (s.blk.sevTargets pos all) (2 + ev.toNat) } := by
  rw [acts_of_issues h exec_sev (Ctx14.placeCauses_of_not_transfers _ _ _ rfl) rfl]
  refine next_congr ?_
  exact congrArg (fun b : Block => b.setEvents (s.blk.sevTargets pos all) (2 + ev.toNat))
    (Block.modCx_congr _ u c (by rw [Block.cx_begun]; rfl))

/-- The event bits of a context with one set. -/
def Ctx14.marked (x : Ctx14) (bit : Nat) : BitVec 10 := x.ev ||| BitVec.ofNat 10 (2 ^ bit)

theorem Ctx14.getLsbD_marked (x : Ctx14) {bit : Nat} (hbit : bit < 10) : (x.marked bit).getLsbD bit = true := by
  simp only [Ctx14.marked, BitVec.getLsbD_or, BitVec.getLsbD_ofNat, hbit, decide_true, Nat.testBit_two_pow_self, Bool.and_self,
    Bool.or_true]

theorem Ctx14.event_of_wait (x : Ctx14) (n bit : Nat) {d : BitVec 3} {mask : BitVec 10} (hst : x.st = .waitEvent d mask) :
    x.event n bit =
      if x.marked bit &&& mask = 0 then { x with ev := x.marked bit }
      else Ctx14.advance { ({ x with ev := x.marked bit } : Ctx14).writeG d ((x.marked bit &&& mask).setWidth 32) with
        ev := x.marked bit &&& ~~~mask, st := .ready } n 2 := by
  unfold Ctx14.event
  simp only [hst]
  rfl

theorem Ctx14.event_of_not_wait (x : Ctx14) (n bit : Nat) (hst : ∀ d mask, x.st ≠ .waitEvent d mask) :
    x.event n bit = { x with ev := x.marked bit } := by
  unfold Ctx14.event
  simp only
  rfl

/-- An event that is set stands, unless a WFE that waits for it takes it. -/
theorem Ctx14.ev_event (x : Ctx14) (n : Nat) {bit : Nat} (hbit : bit < 10) : (x.event n bit).ev.getLsbD bit =
    (match x.st with | .waitEvent _ mask => !mask.getLsbD bit | _ => true) := by
  have hset := x.getLsbD_marked hbit
  split
  · next d mask hst =>
    rw [Ctx14.event_of_wait x n bit hst]
    split
    · next hmask =>
      have hbits := congrArg (fun v : BitVec 10 => v.getLsbD bit) hmask
      simp only [BitVec.getLsbD_and, hset, Bool.true_and] at hbits
      simp only [hset, hbits]
      simp
    · rw [Ctx14.advance_frame]
      simp only [BitVec.getLsbD_and, hset, BitVec.getLsbD_not, hbit, decide_true, Bool.true_and]
  · next hother =>
    rw [Ctx14.event_of_not_wait x n bit hother]
    exact hset

/-! ## The obligation -/

theorem exec_emulationVector : exec (.emulationVector (188 + u)) s = .next { s with blk := s.blk.emulate u } := by
  show execEmulationVector (188 + u) s = _
  simp only [execEmulationVector, State.run, coreIx_unit]

theorem exec_waittReached : exec (.waittReached (188 + u) c) s = .next { s with blk := s.blk.waittDone u c } := by
  show execWaittReached (188 + u) c s = _
  simp only [execWaittReached, State.run, coreIx_unit, ctxIx_val]

theorem onlyContext_modCx (s : State) (u : Nat) (c : Fin 8) (f : Ctx14 → Ctx14) :
    OnlyContext s { s with blk := s.blk.modCx u c f } u c where
  state := rfl
  core v := by
    by_cases h : u = v
    · subst h
      simp
    · simp [h]
  context v d hne := by rw [Block.cx_modCx, if_neg fun h => hne ⟨h.1.symm, h.2.symm⟩]

/-- What an SEV leaves: the event of context 0 of each core that it names, and its own context moved on. -/
theorem sev_outcome {g : BitVec 3} {pos : BitVec 4} {all : Bool} {ev : BitVec 3}
    (h : s.blk.Issues (.sev (188 + u) g pos all ev) u c) : ∃ t, exec (.sev (188 + u) g pos all ev) s = .next t ∧
      ((∀ v, t.blk.core v = { s.blk.core v with ctxs := (t.blk.core v).ctxs }) ∧
        t = { s with blk := { s.blk with pay := { s.blk.pay with cores := t.blk.pay.cores }, free := t.blk.free } }) ∧
      (∀ v, v < 18 → ¬ (v = u ∧ c = 0) →
        (all = true ∧ s.blk.inService (188 + v) = true ∨ all = false ∧ s.blk.coreAt pos.toNat = some v) →
        t.blk.cx v 0 = (s.blk.cx v 0).event s.blk.drawn (2 + ev.toNat)) ∧
      (∀ v, v ≠ u → ¬ (all = true ∧ s.blk.inService (188 + v) = true ∨ all = false ∧ s.blk.coreAt pos.toNat = some v) →
        t.blk.cx v 0 = s.blk.cx v 0) ∧
      (∀ v f, f ≠ 0 → ¬ (v = u ∧ f = c) → t.blk.cx v f = s.blk.cx v f) ∧
      (c ≠ 0 → t.blk.cx u c = (s.blk.counted u c).advance s.blk.drawn (s.blk.sizeAt (s.blk.cx u c).pc)) := by
  have hnodup := s.blk.nodup_sevTargets pos all
  have hother (v : Nat) (e : Fin 8) (hne : ¬ (v = u ∧ e = c)) (f : Ctx14 → Ctx14) :
      ((s.blk.begun u c).modCx u c f).cx v e = s.blk.cx v e := by
    rw [Block.cx_modCx, if_neg fun h => hne ⟨h.1.symm, h.2.symm⟩, Block.cx_begun_of_ne _ _ _ _ _ hne]
  refine ⟨_, exec_sev_of_issues h, ⟨fun v => ?_, ?_⟩, fun v hv hne hmem => ?_, fun v hv hmem => ?_, fun v f hf hne => ?_, fun hc => ?_⟩
  · rw [Block.core_setEvents, Block.core_modCx]
    split
    · next hu =>
      subst hu
      simp [Block.begun]
    · next hu => rw [Block.core_begun_of_ne _ _ _ _ fun h => hu h.symm]
  · rw [Block.setEvents_frame, Block.modCx_frame, Block.begun_frame]
  · have hin : v ∈ s.blk.sevTargets pos all := (Block.mem_sevTargets ..).2 (hmem.imp (fun h => ⟨h.1, hv, h.2⟩) id)
    rw [Block.cx_setEvents _ _ hnodup, if_pos ⟨hin, rfl⟩, hother v 0 fun h => hne ⟨h.1, h.2.symm⟩]
    rfl
  · have hout : ¬ v ∈ s.blk.sevTargets pos all := fun hin =>
      hmem (((Block.mem_sevTargets ..).1 hin).imp (fun h => ⟨h.1, h.2.2⟩) id)
    rw [Block.cx_setEvents _ _ hnodup, if_neg fun h => hout h.1, hother v 0 fun h => hv h.1]
  · rw [Block.cx_setEvents _ _ hnodup, if_neg fun h => hf h.2.symm, hother v f hne]
  · rw [Block.cx_setEvents _ _ hnodup, if_neg fun h => hc h.2.symm, Block.cx_modCx, if_pos ⟨rfl, rfl⟩, Block.cx_begun]

end

/-- Settles O11: a reserved encoding vectors its context, a core takes the first context that may be resumed, and events and timed
waits make contexts go on. -/
theorem k14EventsAndResume : Obligations.K14EventsAndResume := by
  unfold Obligations.K14EventsAndResume
  refine ⟨fun s u c hin => ⟨fun hrun hready hreserved hguard hdelay hemu => ?_, fun hrun hjumped hready hservice hfirst => ?_,
      fun target rest hrun hjumped hc hrest hst hreached => ?_⟩,
    fun s u c g pos e => ⟨fun all h => sev_outcome h, fun x n bit hbit => x.ev_event n hbit, fun t hst hreached => ?_⟩⟩
  · have hissuing : s.blk.issuing u = some c := by simp [Block.issuing, coreUnit, hin, hrun, hready, Option.filter]
    obtain ⟨t, het, honly, hcx⟩ := onlyContext_of_exec (exec_emulationVector.trans
      (next_congr (Block.emulate_of_reserved hissuing hreserved hguard hdelay hemu)))
    exact ⟨t, het, honly, hcx⟩
  · have hnext : (s.blk.core u).next = some c := by
      by_cases hc : c = 0
      · subst hc
        exact Core14.next_of_service hjumped hready (hservice rfl)
      · exact Core14.next_of_first hjumped hc hready (hfirst hc)
    refine takes_of_exec (exec_resume.trans (next_congr ?_))
    rw [Block.resume_of_next hin hrun hnext, Block.waittDone_of_ready hready]
  · refine takes_of_reached hjumped hrest (exec_resume.trans (next_congr ?_))
    rw [Block.resume_of_next hin hrun (Core14.next_of_jumped hjumped hc hst), Block.waittDone_of_reached hst hreached]
  · rw [exec_waittReached, Block.waittDone_of_reached hst (decide_eq_true hreached)]
    exact ⟨_, rfl, onlyContext_modCx s u c _, by rw [Block.cx_modCx, if_pos ⟨rfl, rfl⟩]⟩

end Sys2Proof.Machine

/-! The recorder's low records, accesses of the slave port, and the state after reset (00 R6, R8, 02 R28 to R30, 17 R373). -/

namespace Sys2Proof.Machine

open Sys2Proof

/-- Settles O60: reset begins at the state of R47, and every table of it is empty. -/
theorem resetState : Obligations.ResetState :=
  ⟨rfl, rfl, rfl, rfl, fun _ => rfl, fun _ => ⟨rfl, rfl⟩, fun _ => rfl, rfl, rfl, rfl, rfl, rfl, rfl⟩

/-! ## Changes of the recorder alone -/

/-- From b to b' nothing changes but the recorder. -/
def Block.OnlyRec (b b' : Block) : Prop := b' = { b with recorder := b'.recorder }

section
variable {b b' b'' : Block}

theorem Block.OnlyRec.refl (b : Block) : b.OnlyRec b := rfl

theorem Block.OnlyRec.set (b : Block) (r : Recorder) : b.OnlyRec { b with recorder := r } := rfl

theorem Block.OnlyRec.trans (h : b.OnlyRec b') (h' : b'.OnlyRec b'') : b.OnlyRec b'' := by
  unfold Block.OnlyRec at *
  rw [h', h]

theorem Block.OnlyRec.ite {c : Prop} [Decidable c] {x y : Block} (hx : b.OnlyRec x) (hy : b.OnlyRec y) : b.OnlyRec (if c then x else y) := by
  split
  · exact hx
  · exact hy

end

/-! ## Records of severity 0 to 2 -/

theorem satAdd_eq (w n : Nat) : satAdd w n 1 = min (n + 1) (2 ^ w - 1) := rfl

section
variable (b : Block) (kind sev subject detail : Nat)

theorem Block.onlyRec_startCommit : b.OnlyRec b.startCommit := by
  unfold Block.startCommit
  split
  · exact .set ..
  · exact .set ..

theorem Block.copy_startCommit : b.startCommit.recorder.copy = b.recorder.copy := by
  unfold Block.startCommit
  split <;> rfl

theorem Block.onlyRec_spacedCommit : b.OnlyRec b.spacedCommit := by
  unfold Block.spacedCommit
  exact .ite (.trans (.ite (.set ..) b.onlyRec_startCommit) (.set ..)) (.set ..)

theorem Block.copy_spacedCommit : b.spacedCommit.recorder.copy = b.recorder.copy := by
  have hcommit : (if b.recorder.hourAt == some b.now && b.recorder.committing.isSome then b.joinCommit
      else b.startCommit).recorder.copy = b.recorder.copy :=
    iteInduction (motive := fun x : Block => x.recorder.copy = b.recorder.copy) (fun _ => rfl) fun _ => b.copy_startCommit
  exact iteInduction (motive := fun x : Block => x.recorder.copy = b.recorder.copy) (fun _ => hcommit) fun _ => rfl

theorem Block.onlyRec_noteLow : b.OnlyRec (b.noteLow kind sev subject detail) := by
  unfold Block.noteLow
  simp only
  split
  · exact .set ..
  · split
    · exact .set ..
    · exact .set ..

/-- A record of severity 0 to 2 changes the recorder alone. -/
theorem Block.onlyRec_noteRec (h : sev < 3) : b.OnlyRec (b.noteRec kind sev subject detail) := by
  rw [Block.noteRec, if_pos h]
  have hlow := b.onlyRec_noteLow kind sev subject detail
  exact .ite (hlow.trans (Block.onlyRec_spacedCommit _)) hlow

theorem RecCopy.earlyWrites_counted (c : RecCopy) : (c.counted kind subject).earlyWrites = c.earlyWrites := by
  rw [RecCopy.counted_eq]

theorem RecCopy.earlyWrites_place {c c' : RecCopy} {r : Rec} (h : c.place r = some c') : c'.earlyWrites = c.earlyWrites := by
  unfold RecCopy.place at h
  split at h
  · cases h
    rfl
  · split at h
    · cases h
    · cases h
      rfl

theorem Block.earlyWrites_noteLow :
    (b.noteLow kind sev subject detail).recorder.copy.earlyWrites = b.recorder.copy.earlyWrites := by
  unfold Block.noteLow
  simp only
  split
  · exact RecCopy.earlyWrites_counted kind subject _
  · split
    · next h => exact (RecCopy.earlyWrites_place h).trans (RecCopy.earlyWrites_counted kind subject _)
    · exact RecCopy.earlyWrites_counted kind subject _

theorem Block.earlyWrites_noteRec (h : sev < 3) :
    (b.noteRec kind sev subject detail).recorder.copy.earlyWrites = b.recorder.copy.earlyWrites := by
  have hlow := b.earlyWrites_noteLow kind sev subject detail
  rw [Block.noteRec, if_pos h]
  exact iteInduction (motive := fun x : Block => x.recorder.copy.earlyWrites = b.recorder.copy.earlyWrites)
    (fun _ => by rw [Block.copy_spacedCommit, hlow]) fun _ => hlow

end

/-! ## Accesses -/

section
variable {b : Block} {addr size tag : Nat} {write : Bool} {f : Block → Block}

/-- Sizes that the slave port supports at an address (02 R29, 17 R380). -/
theorem badSize_of_plain (hsize : size = 8 ∨ size = 4 ∧ (write = true ∨ addr < 0x200000 ∨ 0x300000 ≤ addr)) :
    badSize addr size write = false := by
  unfold badSize inRecorder
  obtain rfl | ⟨rfl, rfl | h | h⟩ := hsize
  · rfl
  · simp
  · simp [h]
  · simp [h]

/-- An access of a supported size at an aligned address goes on. -/
theorem Block.access_of_aligned (hup : b.mode.porstLow = false)
    (hsize : size = 8 ∨ size = 4 ∧ (write = true ∨ addr < 0x200000 ∨ 0x300000 ≤ addr)) (halign : addr % size = 0) :
    b.access addr size tag write f = f b := by
  simp [Block.access, hup, badSize_of_plain hsize, halign]

theorem target_window (h : addr < 0x1000000) : target addr = .window := if_pos h

theorem Block.heldRegister_window (h : addr < 0x1000000) : b.heldRegister addr = false := by
  simp only [Block.heldRegister, target_window h]

/-- A write of the global window below the raw channels by partition 0. -/
theorem Block.portStore_window (fs : Fuses) {data : BitVec 64} (hup : b.mode.porstLow = false) (hsize : size = 8 ∨ size = 4)
    (halign : addr % size = 0) (haddr : addr < 0x8000) : Block.portStore fs b addr size 0 data =
      Block.windowWord fs b.okWrite (addr / 8 * 8) (addr % 8) size data (Wr.of addr size data) := by
  have haddr' : addr < 0x1000000 := haddr.trans (by decide)
  have hlow : ¬ (0x8000 ≤ addr ∧ addr < 0xA000) := fun h => absurd haddr (not_lt.2 h.1)
  unfold Block.portStore
  rw [Block.access_of_aligned hup (hsize.imp_right fun h => ⟨h, .inl rfl⟩) halign]
  simp only [Block.accessUnless, Block.heldRegister_window haddr', Bool.false_eq_true, if_false, target_window haddr', hlow,
    Block.globalWrite, hup, if_true]

/-- A read of a plain register of the global window below the raw channels by partition 0. -/
theorem Block.portLoad_window (fs : Fuses) (hup : b.mode.porstLow = false) (hsize : size = 8 ∨ size = 4) (halign : addr % size = 0)
    (haddr : addr < 0x8000) (hplain : addr / 8 * 8 ≠ 0x3008 ∧ addr / 8 * 8 ≠ 0x3038 ∧ addr / 8 * 8 ≠ 0x3040) :
    Block.portLoad fs b addr size 0 =
      b.readWord (b.windowReg fs (addr / 8 * 8)) (addr % 8) size (windowRc (addr / 8 * 8)) := by
  obtain ⟨hrng, hraw, hcond⟩ := hplain
  have haddr' : addr < 0x1000000 := haddr.trans (by decide)
  have hrec : ¬ (inRecorder (addr / 8 * 8) = true ∧ (!(decide (0x230000 ≤ addr / 8 * 8) && decide (addr / 8 * 8 < 0x230030))) = true) := by
    rintro ⟨h, -⟩
    simp only [inRecorder, Bool.and_eq_true, decide_eq_true_eq] at h
    omega
  unfold Block.portLoad
  rw [Block.access_of_aligned hup (hsize.imp_right fun h => ⟨h, .inr (.inl (haddr.trans (by decide)))⟩) halign]
  simp only [Block.accessUnless, Block.heldRegister_window haddr', Bool.false_eq_true, if_false, target_window haddr', if_true,
    Block.windowRead, hrng, hraw, hcond, hrec]

/-! ## The bits that a write brings -/

theorem Wr.merge_whole (addr : Nat) (old data : BitVec 64) : (Wr.of addr 8 data).merge old = data := by
  simp [Wr.of, Wr.merge]

theorem Wr.one_whole (addr i : Nat) (data : BitVec 64) : (Wr.of addr 8 data).one i = data.getLsbD i := rfl

/-- A 32-bit write of a word's low half brings its low bits. -/
theorem Wr.merge_low {addr n : Nat} (haddr : addr % 8 = 0) (hn : n ≤ 32) (old data : BitVec 64) :
    ((Wr.of addr 4 data).merge old).setWidth n = data.setWidth n := by
  ext i hi
  have hi32 : i < 32 := by omega
  have hi64 : i < 64 := by omega
  have hmask : ∀ i < 32, (4294967295#64).getLsbD i = true ∧ (18446744069414584320#64).getLsbD i = false := by decide
  obtain ⟨hin, hout⟩ := hmask i hi32
  simp [Wr.of, Wr.merge, haddr, hin, hout]

end

/-- Settles O15: each write is what `Block.windowWord` makes of its word, each read what `Block.readWord` makes of it. -/
theorem registerAccess : Obligations.RegisterAccess := by
  unfold Obligations.RegisterAccess
  intro s data hup b ok
  have hwrite (addr size : Nat) (hsize : size = 8 ∨ size = 4) (halign : addr % size = 0) (haddr : addr < 0x8000) :
      exec (.registerWrite addr size 0 data) s = .next { s with blk := (Block.windowWord s.fuses ok
        (addr / 8 * 8) (addr % 8) size data (Wr.of addr size data)) } := by
    rw [← Block.portStore_window s.fuses hup hsize halign haddr]
    rfl
  have hread (addr size : Nat) (hsize : size = 8 ∨ size = 4) (halign : addr % size = 0) (haddr : addr < 0x8000)
      (hplain : addr / 8 * 8 ≠ 0x3008 ∧ addr / 8 * 8 ≠ 0x3038 ∧ addr / 8 * 8 ≠ 0x3040) :
      exec (.rcFieldRead addr size 0) s = .next { s with blk := (b.readWord
        (b.windowReg s.fuses (addr / 8 * 8)) (addr % 8) size (windowRc (addr / 8 * 8))) } := by
    rw [← Block.portLoad_window s.fuses hup hsize halign haddr hplain]
    rfl
  refine ⟨?_, ?_, ?_, ?_, ?_, ?_⟩
  · rw [hwrite 0x7000 8 (.inl rfl) rfl (by decide)]
    rfl
  · rw [hwrite 0x5048 8 (.inl rfl) rfl (by decide)]
    show Host.Outcome.next { s with blk := ok.governorWrite 0x5048 (Wr.of 0x5048 8 data) } = _
    simp only [Block.governorWrite, Wr.merge_whole]
    rfl
  · rw [hwrite 0x6018 4 (.inr rfl) rfl (by decide)]
    show Host.Outcome.next { s with blk := ok.twinWrite 0x6018 (Wr.of 0x6018 4 data) } = _
    simp only [Block.twinWrite, Wr.merge_low (addr := 0x6018) rfl (show 12 ≤ 32 by decide)]
    rfl
  · rw [hwrite 0x4000 8 (.inl rfl) rfl (by decide)]
    rfl
  · refine ⟨_, hread 0x7008 4 (.inr rfl) rfl (by decide) (by decide), rfl, rfl, ?_, rfl⟩
    rfl
  · exact ⟨_, hread 0x6028 4 (.inr rfl) rfl (by decide) (by decide), rfl, rfl, rfl, rfl, rfl⟩

end Sys2Proof.Machine

/-! Accesses that are refused (00 R6, 02 R28, R29). -/

namespace Sys2Proof.Machine

open Sys2Proof

/-! ## What the error registers take -/

theorem SlavePort.clear_iff (p : SlavePort) : p.clear = true ↔ p.sizeErr = false ∧ p.alignErr = false ∧ p.ownerErr = false := by
  simp [SlavePort.clear, and_assoc]

/-- The slave port after an access of a bad size or alignment. -/
def SlavePort.bad (p : SlavePort) (addr tag : Nat) (align : Bool) : SlavePort :=
  { p with
    firstAddr := if p.clear then addr else p.firstAddr, firstTag := if p.clear then tag else p.firstTag
    sizeErr := p.sizeErr || !align, alignErr := p.alignErr || align, count := satAdd 32 p.count 1, lastRead := 0, taken := true }

section
variable {b : Block} {addr size tag : Nat} {write : Bool} {f : Block → Block}

/-- An access of a bad size or alignment changes the slave port and the recorder. -/
theorem Block.badAccess_frame (align : Bool) : b.badAccess addr tag align =
    { b with sport := b.sport.bad addr tag align, recorder := (b.badAccess addr tag align).recorder } :=
  Block.onlyRec_noteRec { b with sport := b.sport.bad addr tag align } 0x0061 0 tag _ (by decide)

theorem Block.access_of_badSize (hup : b.mode.porstLow = false) (hsize : badSize addr size write = true) :
    b.access addr size tag write f = (b.badAccess addr tag false).errorResponse := by
  simp [Block.access, hup, hsize]

theorem Block.access_of_misaligned (hup : b.mode.porstLow = false) (hsize : badSize addr size write = false)
    (halign : addr % size ≠ 0) : b.access addr size tag write f = (b.badAccess addr tag true).errorResponse := by
  simp [Block.access, hup, hsize, halign]

end

section
variable {s : State} {i : Instr} {addr tag : Nat} {align ok : Bool} {r : Recorder}

/-- What an access of a bad size or alignment leaves. -/
theorem refused_of_exec
    (he : exec i s = .next { s with blk := { s.blk with sport := { s.blk.sport.bad addr tag align with lastOk := ok }, recorder := r } }) :
    let p := s.blk.sport
    let clear := p.sizeErr = false ∧ p.alignErr = false ∧ p.ownerErr = false
    ∃ t, exec i s = .next t ∧
      t = { s with blk := { s.blk with sport := t.blk.sport, recorder := t.blk.recorder } } ∧
      t.blk.sport.sizeErr = (p.sizeErr || !align) ∧ t.blk.sport.alignErr = (p.alignErr || align) ∧
      t.blk.sport.ownerErr = p.ownerErr ∧ t.blk.sport.count = min (p.count + 1) (2 ^ 32 - 1) ∧
      t.blk.sport.lastOk = ok ∧ t.blk.sport.lastRead = 0 ∧ t.blk.sport.taken = true ∧
      (clear → t.blk.sport.firstAddr = addr ∧ t.blk.sport.firstTag = tag) ∧
      (¬ clear → t.blk.sport.firstAddr = p.firstAddr ∧ t.blk.sport.firstTag = p.firstTag) := by
  intro p clear
  have hclear : p.clear = true ↔ clear := p.clear_iff
  exact ⟨_, he, rfl, rfl, rfl, rfl, rfl, rfl, rfl, rfl, fun h => ⟨if_pos (hclear.2 h), if_pos (hclear.2 h)⟩,
    fun h => ⟨if_neg (mt hclear.1 h), if_neg (mt hclear.1 h)⟩⟩

end

section
variable {s : State} {addr size tag : Nat} {write : Bool}

/-- SPORT_BAD_ACCESS as an access of the port. -/
theorem exec_sportBadAccess : ∃ f : Block → Block, exec (.sportBadAccess addr size tag write) s =
    .next { s with blk := s.blk.access addr size tag write f } := ⟨_, rfl⟩

theorem exec_badAccess_of_badSize (hup : s.blk.mode.porstLow = false) (hsize : badSize addr size write = true) :
    ∃ r, exec (.sportBadAccess addr size tag write) s = .next { s with blk := { s.blk with
      sport := { s.blk.sport.bad addr tag false with lastOk := false }, recorder := r } } := by
  obtain ⟨f, he⟩ := exec_sportBadAccess (s := s) (addr := addr) (size := size) (tag := tag) (write := write)
  rw [he, Block.access_of_badSize hup hsize, Block.badAccess_frame]
  exact ⟨_, rfl⟩

theorem exec_badAccess_of_misaligned (hup : s.blk.mode.porstLow = false) (hsize : badSize addr size write = false)
    (halign : addr % size ≠ 0) :
    ∃ r, exec (.sportBadAccess addr size tag write) s = .next { s with blk := { s.blk with
      sport := { s.blk.sport.bad addr tag true with lastOk := false }, recorder := r } } := by
  obtain ⟨f, he⟩ := exec_sportBadAccess (s := s) (addr := addr) (size := size) (tag := tag) (write := write)
  rw [he, Block.access_of_misaligned hup hsize halign, Block.badAccess_frame]
  exact ⟨_, rfl⟩

theorem target_part_page (hlo : 0x1000000 ≤ addr) (hhi : addr < 0x2000000) :
    target addr = .part ((addr - 0x1000000) / 0x1000) (addr % 0x1000) := by
  unfold target
  rw [if_neg (by omega), if_pos hhi]

theorem target_ring_page (hlo : 0x10000000 ≤ addr) : target addr = .ring ((addr - 0x10000000) / 0x1000) (addr % 0x1000) := by
  unfold target
  rw [if_neg (by omega), if_neg (by omega), if_neg (by omega)]

/-- The target of an address of a ring's page. -/
theorem target_ring {k off : Nat} (hoff : off < 0x1000) : target (0x10000000 + 0x1000 * k + off) = .ring k off := by
  rw [target_ring_page (by omega)]
  congr 1 <;> omega

/-- The target of an address of a partition's page. -/
theorem target_part {p off : Nat} (hp : p < 4096) (hoff : off < 0x1000) : target (0x1000000 + 0x1000 * p + off) = .part p off := by
  rw [target_part_page (by omega) (by omega)]
  congr 1 <;> omega

/-- A 32-bit write of its owner to the push window. -/
theorem exec_shortPush {k off : Nat} (hoff : 0x100 ≤ off ∧ off < 0x200) (halign : off % 4 = 0) (h : s.blk.TakesRingWrite k tag) :
    ∃ r, exec (.sportBadAccess (0x10000000 + 0x1000 * k + off) 4 tag true) s = .next { s with blk := { s.blk with
      sport := { s.blk.sport.bad (0x10000000 + 0x1000 * k + off) tag false with lastOk := true }, recorder := r } } := by
  have hpush : inPush off = true := by simp [inPush, hoff]
  have hstep : exec (.sportBadAccess (0x10000000 + 0x1000 * k + off) 4 tag true) s =
      .next { s with blk := s.blk.okWrite.badAccess (ringPage k + off) tag false } := by
    show Host.Outcome.next { s with blk := Block.access _ _ _ _ _ _ } = _
    rw [Block.access_of_aligned h.up (.inr ⟨rfl, .inl rfl⟩) (by omega), target_ring (by omega)]
    simp only [hpush, Bool.and_true, beq_self_eq_true, if_true, Block.shortPush, h.ringWrite]
  rw [hstep, Block.badAccess_frame]
  exact ⟨_, rfl⟩

/-! ## Accesses with a foreign tag -/

theorem Block.foreign_of {b : Block}
    (h : addr < 0x1000000 ∧ (tag ≠ 0 ∨ write = true ∧ 0x9800 ≤ addr ∧ addr < 0xA000) ∨
      (∃ p off, addr = 0x1000000 + 0x1000 * p + off ∧ p < 4096 ∧ off < 0x1000 ∧ b.mode.ready = true ∧ tag ≠ 0 ∧
        (tag ≠ p ∨ b.enabled p = false)) ∨
      (∃ k off, addr = 0x10000000 + 0x1000 * k + off ∧ off < 0x1000 ∧ b.mode.ready = true ∧ tag ≠ 0 ∧ b.owner k ≠ some tag)) :
    b.foreign addr tag write = true := by
  unfold Block.foreign
  obtain ⟨haddr, htag⟩ | ⟨p, off, rfl, hp, hoff, hready, htag, hother⟩ | ⟨k, off, rfl, hoff, hready, htag, howner⟩ := h
  · rw [target_window haddr]
    simpa [and_assoc] using htag
  · rw [target_part hp hoff]
    simp only [hready, Bool.true_and, Bool.not_eq_true', Bool.or_eq_false_iff, beq_eq_false_iff_ne, ne_eq, htag, not_false_eq_true,
      true_and, Bool.and_eq_false_iff]
    exact hother
  · rw [target_ring hoff]
    simp [hready, htag, howner]

/-- A refused access with a foreign tag changes the slave port and the count of its tag's writes. -/
theorem Block.refuseOwner_eq (b : Block) : b.refuseOwner addr tag write =
    { b with
      sport := (b.refuseOwner addr tag write).sport
      ownerWrites := if write then Table.set 0 b.ownerWrites tag (min (Table.get 0 b.ownerWrites tag + 1) (2 ^ 32 - 1))
        else b.ownerWrites } := by
  cases write <;> rfl

end

/-! ## Writes before READY -/

section
variable (b : Block) (tag : Nat)

/-- A write before READY is counted for its tag and in the recorder. -/
theorem Block.countEarly_frame : b.countEarly tag = { b with
    earlyWrites := Table.set 0 b.earlyWrites tag (min (Table.get 0 b.earlyWrites tag + 1) (2 ^ 32 - 1))
    recorder := (b.countEarly tag).recorder } :=
  Block.onlyRec_noteRec (Block.modRec { b with earlyWrites := _ } _) 0x0062 0 tag _ (by decide)

theorem Block.earlyWrites_countEarly :
    (b.countEarly tag).recorder.copy.earlyWrites = min (b.recorder.copy.earlyWrites + 1) (2 ^ 32 - 1) :=
  Block.earlyWrites_noteRec _ 0x0062 0 tag _ (by decide)

end

/-- Settles O14: an access of a bad size or alignment is `Block.badAccess`, one with a foreign tag `Block.refuseOwner`, and a write
before READY `Block.countEarly`. -/
theorem refusedAccesses : Obligations.RefusedAccesses := by
  unfold Obligations.RefusedAccesses
  refine ⟨?_, fun s addr size tag write hup hsize halign hforeign => ?_, fun s addr size tag hup hready hsize halign haddr => ?_⟩
  · intro s addr size tag write hup p clear refused
    refine ⟨fun h4 h8 => ?_, fun h4 hread hlo hhi => ?_, fun hsize halign => ?_,
      fun k off hwrite h4 hk haddr hlo hhi halign htakes => ?_⟩
    · obtain ⟨r, he⟩ := exec_badAccess_of_badSize (tag := tag) hup (addr := addr) (size := size) (write := write) (by simp [badSize, h4, h8])
      exact refused_of_exec he
    · obtain ⟨r, he⟩ := exec_badAccess_of_badSize (tag := tag) hup (addr := addr) (size := size) (write := write)
        (by simp [badSize, inRecorder, h4, hread, hlo, hhi])
      exact refused_of_exec he
    · obtain ⟨r, he⟩ := exec_badAccess_of_misaligned (tag := tag) hup (badSize_of_plain hsize) halign
      exact refused_of_exec he
    · subst hwrite h4 haddr
      obtain ⟨r, he⟩ := exec_shortPush ⟨hlo, hhi⟩ halign htakes
      exact refused_of_exec he
  · have he : exec (.ownerErr addr size tag write) s = .next { s with blk := s.blk.refuseOwner addr tag write } := by
      show Host.Outcome.next { s with blk := Block.access _ _ _ _ _ _ } = _
      rw [Block.access_of_aligned hup hsize halign, if_pos (Block.foreign_of hforeign)]
    refine ⟨_, he, ?_, ?_⟩
    · rw [Block.refuseOwner_eq]
    · cases write with
      | false => exact ⟨rfl, rfl, rfl, rfl, rfl, rfl, rfl, fun n => by simp [Block.refuseOwner]⟩
      | true =>
        refine ⟨rfl, rfl, rfl, rfl, rfl, rfl, rfl, fun n => ?_⟩
        rw [Block.refuseOwner_eq]
        simp only [if_true, Table.get_set, true_and]
        by_cases h : tag = n
        · simp [h]
        · simp [h, Ne.symm h]
  · have he : exec (.earlyWrite addr size tag) s = .next { s with blk := s.blk.okWrite.countEarly tag } := by
      show Host.Outcome.next { s with blk := Block.access _ _ _ _ _ _ } = _
      rw [Block.access_of_aligned hup (hsize.symm.imp_right fun h => ⟨h, .inl rfl⟩) halign]
      obtain ⟨hlo, hhi⟩ | hlo := haddr
      · rw [target_part_page hlo hhi]
        simp only [hready, Bool.false_eq_true, if_false]
      · rw [target_ring_page hlo]
        simp only [hready, Bool.false_eq_true, if_false]
    refine ⟨_, he, ?_, Block.earlyWrites_countEarly _ _, fun n => ?_⟩
    · rw [Block.countEarly_frame]
    · rw [Block.countEarly_frame]
      simp only [Table.get_set]
      by_cases h : tag = n
      · subst h
        rw [if_pos rfl, if_pos rfl]
        rfl
      · rw [if_neg h, if_neg (Ne.symm h)]
        rfl

end Sys2Proof.Machine

/-! The time base (01 R17 to R22, 02 R44, R45). -/

namespace Sys2Proof.Machine

open Sys2Proof

/-! ## Tables and folds -/

theorem Table.get_map {α : Type} (d : α) (f : α → α) (hf : f d = d) (t : Table α) (k : Nat) :
    Table.get d (t.map fun e => (e.1, f e.2)) k = f (Table.get d t k) := by
  induction t with
  | nil => exact hf.symm
  | cons e t ih =>
    simp only [List.map_cons, Table.get, ih]
    split <;> rfl

/-- What each step of a fold keeps, the fold keeps. -/
theorem foldl_keeps {α β γ : Type} (p : α → γ) {f : α → β → α} (h : ∀ a x, p (f a x) = p a) (l : List β) (a : α) :
    p (l.foldl f a) = p a := by
  induction l generalizing a with
  | nil => rfl
  | cons x l ih => rw [List.foldl_cons, ih, h]

/-! ## Changes of the time base and the recorder alone -/

section
variable (b : Block)

theorem Block.onlyRec_noteTime (bit : Nat) : b.OnlyRec (b.noteTime bit) := b.onlyRec_noteRec 0x0060 0 bit _ (by decide)

@[simp] theorem Block.time_noteTime (bit : Nat) : (b.noteTime bit).time = b.time := by rw [b.onlyRec_noteTime bit]

@[simp] theorem Block.time_modTime (f : TimeBase → TimeBase) : (b.modTime f).time = f b.time := rfl

@[simp] theorem Block.pay_noteTime (bit : Nat) : (b.noteTime bit).pay = b.pay := by rw [b.onlyRec_noteTime bit]

/-- From b to b' nothing changes but the time base, the recorder and the cores. -/
def Block.OnlyTime (b b' : Block) : Prop :=
  b' = { b with time := b'.time, recorder := b'.recorder, pay := { b.pay with cores := b'.pay.cores } }

variable {b} {b' b'' : Block}

theorem Block.OnlyTime.modTime (b : Block) (f : TimeBase → TimeBase) : b.OnlyTime (b.modTime f) := rfl

theorem Block.OnlyTime.noteTime (b : Block) (bit : Nat) : b.OnlyTime (b.noteTime bit) := by
  unfold Block.OnlyTime
  rw [b.onlyRec_noteTime bit]

theorem Block.OnlyTime.trans (h : b.OnlyTime b') (h' : b'.OnlyTime b'') : b.OnlyTime b'' := by
  unfold Block.OnlyTime at *
  rw [h', h]

end

/-! ## Holdover -/

section
variable (b : Block)

theorem Block.onlyTime_enterHoldover : b.OnlyTime b.enterHoldover := by
  unfold Block.enterHoldover
  split
  · exact .modTime ..
  · exact .trans (.modTime ..) (.noteTime ..)

theorem Block.pay_enterHoldover : b.enterHoldover.pay = b.pay := by
  unfold Block.enterHoldover
  split
  · rfl
  · rw [Block.pay_noteTime]
    rfl

/-- The time base as holdover begins. -/
def TimeBase.heldOver (t : TimeBase) : TimeBase :=
  if t.holdover then { t with timeValid := false }
  else { t with
    timeValid := false, holdover := true, hold := false, slew := false, absorb := 0, absorbLeft := 0
    slewPhase := 0, holdoverSeen := true }

theorem Block.time_enterHoldover : b.enterHoldover.time = b.time.heldOver := by
  unfold Block.enterHoldover TimeBase.heldOver
  split
  · rfl
  · rw [Block.time_noteTime]
    rfl

end

section
variable (t : TimeBase)

theorem TimeBase.heldOver_of_not (h : t.holdover = false) : t.heldOver = { t with
    timeValid := false, holdover := true, hold := false, slew := false, absorb := 0, absorbLeft := 0
    slewPhase := 0, holdoverSeen := true } := if_neg (by simp [h])

@[simp] theorem TimeBase.timeValid_heldOver : t.heldOver.timeValid = false := by
  unfold TimeBase.heldOver
  split <;> rfl

@[simp] theorem TimeBase.sched_heldOver : t.heldOver.sched = t.sched := by
  unfold TimeBase.heldOver
  split <;> rfl

@[simp] theorem TimeBase.interval_heldOver : t.heldOver.interval = t.interval := by
  unfold TimeBase.heldOver
  split <;> rfl

@[simp] theorem TimeBase.badNs_heldOver : t.heldOver.badNs = t.badNs := by
  unfold TimeBase.heldOver
  split <;> rfl

@[simp] theorem TimeBase.stbTimeouts_heldOver : t.heldOver.stbTimeouts = t.stbTimeouts := by
  unfold TimeBase.heldOver
  split <;> rfl

end

/-- Entry to holdover, with a further change of the time base, changes nothing but the time base and the recorder. -/
theorem holdover_frame (s : State) (f : TimeBase → TimeBase) : ({ s with blk := s.blk.enterHoldover.modTime f } : State) =
    { s with blk := { s.blk with
      time := (s.blk.enterHoldover.modTime f).time, recorder := (s.blk.enterHoldover.modTime f).recorder } } := by
  have h := s.blk.onlyTime_enterHoldover.trans (.modTime _ f)
  have hpay : (s.blk.enterHoldover.modTime f).pay = s.blk.pay := s.blk.pay_enterHoldover
  rw [Block.OnlyTime, hpay] at h
  rw [← h]

/-! ## Steps of the schedule tick -/

section
variable {b : Block}

theorem Block.applyStep_of_behind (h : b.time.diff ≤ -2) : b.applyStep = b.beginHold := if_pos h

/-- A change of the time base is what it makes of the time base that is there. -/
theorem Block.modTime_congr {f g : TimeBase → TimeBase} (h : f b.time = g b.time) : b.modTime f = b.modTime g := by
  unfold Block.modTime
  rw [h]

theorem Block.applyStep_of_absorbed (hlo : -1 ≤ b.time.diff) (hhi : b.time.diff ≤ 1) :
    ∃ n, b.applyStep = b.modTime fun t => { t with absorb := b.time.diff, absorbLeft := n } := by
  unfold Block.applyStep
  rw [if_neg (by omega), if_pos hhi]
  by_cases h : b.time.absorbLeft ≠ 0 ∧ b.time.absorb = b.time.diff
  · refine ⟨b.time.absorbLeft, Block.modTime_congr ?_⟩
    rw [if_pos h, ← h.2]
  · exact ⟨_, Block.modTime_congr (if_neg h)⟩

/-- The cores after a jump of the schedule tick by n. -/
def Block.jumpCores (b : Block) (n : Nat) : Block :=
  { b with pay := { b.pay with cores := b.pay.cores.map fun k => (k.1, k.2.jump (b.time.sched.setWidth 32) n) } }

theorem Core14.jump_default (now : BitVec 32) (n : Nat) : Core14.jump now n ({} : Core14) = ({} : Core14) := by
  simp [Core14.jump]

theorem Block.core_jumpCores (n v : Nat) : (b.jumpCores n).core v = (b.core v).jump (b.time.sched.setWidth 32) n :=
  Table.get_map ({} : Core14) (Core14.jump (b.time.sched.setWidth 32) n) (Core14.jump_default _ _) _ _

theorem Block.applyStep_of_jump (hlo : 2 ≤ b.time.diff) (hhi : b.time.diff ≤ 1000) : b.applyStep =
    Block.noteTime ((b.jumpCores b.time.diff.toNat).modTime fun t =>
      { t with sched := t.ext, absorb := 0, absorbLeft := 0, jumpSeen := true }) 10 := by
  unfold Block.applyStep
  rw [if_neg (by omega), if_neg (by omega), if_pos hhi]
  rfl

theorem Block.applyStep_of_slew (h : 1000 < b.time.diff) : b.applyStep =
    Block.noteTime (b.modTime fun t => { t with slew := true, slewPhase := 0, absorb := 0, absorbLeft := 0, slewSeen := true }) 11 := by
  unfold Block.applyStep
  rw [if_neg (by omega), if_neg (by omega), if_neg (by omega)]

theorem Block.onlyTime_applyStep : b.OnlyTime b.applyStep := by
  by_cases h1 : b.time.diff ≤ -2
  · rw [Block.applyStep_of_behind h1]
    exact .trans (.modTime ..) (.noteTime ..)
  · by_cases h2 : b.time.diff ≤ 1
    · obtain ⟨n, h⟩ := Block.applyStep_of_absorbed (b := b) (by omega) h2
      rw [h]
      exact .modTime ..
    · by_cases h3 : b.time.diff ≤ 1000
      · rw [Block.applyStep_of_jump (by omega) h3]
        exact .trans (b' := b.jumpCores b.time.diff.toNat) rfl (.trans (.modTime ..) (.noteTime ..))
      · rw [Block.applyStep_of_slew (by omega)]
        exact .trans (.modTime ..) (.noteTime ..)

/-- The time base with a sample taken. -/
def TimeBase.sampled (t : TimeBase) (ext : BitVec 64) : TimeBase :=
  { t with ext, timeValid := true, holdover := false, sinceSample := 0 }

section
variable (t : TimeBase) (ext : BitVec 64)

@[simp] theorem TimeBase.synced_sampled : (t.sampled ext).synced = t.synced := rfl
@[simp] theorem TimeBase.hold_sampled : (t.sampled ext).hold = t.hold := rfl
@[simp] theorem TimeBase.slew_sampled : (t.sampled ext).slew = t.slew := rfl
@[simp] theorem TimeBase.sched_sampled : (t.sampled ext).sched = t.sched := rfl
@[simp] theorem TimeBase.ext_sampled : (t.sampled ext).ext = ext := rfl
@[simp] theorem TimeBase.interval_sampled : (t.sampled ext).interval = t.interval := rfl
@[simp] theorem TimeBase.timeValid_sampled : (t.sampled ext).timeValid = true := rfl
@[simp] theorem TimeBase.holdover_sampled : (t.sampled ext).holdover = false := rfl
@[simp] theorem TimeBase.sinceSample_sampled : (t.sampled ext).sinceSample = 0 := rfl

theorem TimeBase.diff_sampled : (t.sampled ext).diff = (ext.toNat : Int) - t.sched.toNat := rfl

end

variable {sec ns : Nat}

theorem Block.timeSample_of_time (hup : b.mode.porstLow = false) (hns : ns < 1000000000) :
    b.timeSample sec ns true = (b.modTime fun t => t.sampled (BitVec.ofNat 64 (sec * 1000000 + ns / 1000))).updateTick := by
  unfold Block.timeSample
  rw [if_neg (by simp [hup]), if_pos rfl, if_neg (not_le.2 hns)]
  rfl

theorem Block.updateTick_of_steady (hsynced : b.time.synced = true) (hhold : b.time.hold = false) (hslew : b.time.slew = false) :
    b.updateTick = b.applyStep := by
  simp only [Block.updateTick, hsynced, hhold, hslew, Bool.not_true, Bool.false_eq_true, if_false]

/-- A sample outside a hold and a slew makes its step. -/
theorem Block.timeSample_steps (hup : b.mode.porstLow = false) (hns : ns < 1000000000) (hsynced : b.time.synced = true)
    (hhold : b.time.hold = false) (hslew : b.time.slew = false) :
    b.timeSample sec ns true = (b.modTime fun t => t.sampled (BitVec.ofNat 64 (sec * 1000000 + ns / 1000))).applyStep := by
  rw [Block.timeSample_of_time hup hns, Block.updateTick_of_steady]
  · rw [Block.time_modTime, TimeBase.synced_sampled, hsynced]
  · rw [Block.time_modTime, TimeBase.hold_sampled, hhold]
  · rw [Block.time_modTime, TimeBase.slew_sampled, hslew]

end

/-! ## A microsecond -/

section
variable (t : TimeBase)

theorem TimeBase.interval_advance : t.advance.interval = t.interval + 1 := by
  unfold TimeBase.advance
  simp only
  split_ifs <;> rfl

theorem TimeBase.sched_advance_of_holdover (h : t.holdover = true) : t.advance.sched = t.sched + 1 := by
  simp [TimeBase.advance, h]

theorem TimeBase.sched_advance_of_hold (hover : t.holdover = false) (hhold : t.hold = true) : t.advance.sched = t.sched := by
  simp only [TimeBase.advance, hover, hhold, Bool.false_eq_true, if_false, if_true]
  split_ifs <;> rfl

theorem TimeBase.sched_advance_of_slew (hover : t.holdover = false) (hhold : t.hold = false) (hslew : t.slew = true) :
    t.advance.sched = t.sched + (if t.slewPhase = 99 then 2 else 1) := by
  have hsched : t.advance.sched = t.sched + 1 + (if t.slewPhase == 99 then 1 else 0) := by
    simp only [TimeBase.advance, hover, hhold, hslew, Bool.false_eq_true, if_false, if_true]
    split_ifs <;> rfl
  rw [hsched]
  by_cases h : t.slewPhase = 99
  · simp only [h, beq_self_eq_true, if_true]
    ring
  · simp [h]

theorem TimeBase.sched_advance_of_plain (hover : t.holdover = false) (hhold : t.hold = false) (hslew : t.slew = false) :
    t.advance.sched = t.sched + 1 + (if t.absorbLeft = 1 then BitVec.ofInt 64 t.absorb else 0) := by
  simp only [TimeBase.advance, hover, hhold, hslew, Bool.false_eq_true, if_false]
  split_ifs <;> simp

end

section
variable (b : Block)

theorem Block.time_countStalls : b.countStalls.time = b.time := by
  unfold Block.countStalls
  simp only
  refine (foldl_keeps Block.time ?_ _ _).trans (foldl_keeps Block.time ?_ _ _)
  · exact fun _ _ => rfl
  · exact fun _ _ => rfl

theorem Block.time_microsecond : b.microsecond.time =
    if b.mode.porstLow then { b.time with interval := b.time.interval + 1 } else b.time.advance := by
  unfold Block.microsecond
  split
  · rfl
  · exact congrArg TimeBase.advance b.time_countStalls

/-- A tick in which no unit has met its final mismatch is one microsecond. -/
theorem Block.passTick_of_no_mismatch (h : ∀ u, (b.mathUnit u).fatal = none) : b.passTick = b.microsecond := by
  have hnone : (oxType.units ++ latType.units).filter (fun u => (b.mathUnit u).fatal.isSome) = [] :=
    List.filter_eq_nil_iff.2 fun u _ => by simp [h u]
  rw [Block.passTick, hnone, List.foldl_nil]

end

/-- What a step of the schedule tick makes of the time base and the cores, for a difference d of external time and schedule tick. -/
theorem applyStep_outcome (b : Block) (hold : b.time.hold = false) (slew : b.time.slew = false) :
    let d := b.time.diff
    let y := b.applyStep.time
    y.ext = b.time.ext ∧ y.timeValid = b.time.timeValid ∧ y.holdover = b.time.holdover ∧ y.sinceSample = b.time.sinceSample ∧
      y.interval = b.time.interval ∧
      (-1 ≤ d ∧ d ≤ 1 → y.sched = b.time.sched ∧ y.hold = false ∧ y.slew = false ∧ y.absorb = d) ∧
      (d ≤ -2 → y.hold = true ∧ y.backSeen = true ∧ y.sched = b.time.sched) ∧
      (2 ≤ d ∧ d ≤ 1000 → y.sched = b.time.ext ∧ y.jumpSeen = true ∧ y.hold = false ∧ y.slew = false) ∧
      (1000 < d → y.slew = true ∧ y.slewSeen = true ∧ y.sched = b.time.sched) ∧
      (∀ v, b.applyStep.core v = if 2 ≤ d ∧ d ≤ 1000 then (b.core v).jump (b.time.sched.setWidth 32) d.toNat else b.core v) := by
  intro d y
  have hnoted (x : Block) (bit v : Nat) : (x.noteTime bit).core v = x.core v := by rw [Block.core, Block.pay_noteTime, Block.core]
  by_cases h1 : d ≤ -2
  · have hstep := Block.applyStep_of_behind h1
    have hy : y = { b.time with hold := true, slew := false, absorb := 0, absorbLeft := 0, backSeen := true } := by
      simp only [y, hstep, Block.beginHold, Block.time_noteTime, Block.time_modTime]
    rw [hy]
    refine ⟨rfl, rfl, rfl, rfl, rfl, by omega, fun _ => ⟨rfl, rfl, rfl⟩, by omega, by omega, fun v => ?_⟩
    rw [hstep, Block.beginHold, hnoted, if_neg (by omega)]
    rfl
  by_cases h2 : d ≤ 1
  · obtain ⟨n, hstep⟩ := Block.applyStep_of_absorbed (b := b) (by omega) h2
    have hy : y = { b.time with absorb := d, absorbLeft := n } := by simp only [y, hstep, Block.time_modTime, d]
    rw [hy]
    refine ⟨rfl, rfl, rfl, rfl, rfl, fun _ => ⟨rfl, hold, slew, rfl⟩, by omega, by omega, by omega, fun v => ?_⟩
    rw [hstep, if_neg (by omega)]
    rfl
  by_cases h3 : d ≤ 1000
  · have hstep := Block.applyStep_of_jump (b := b) (by omega) h3
    have hy : y = { b.time with sched := b.time.ext, absorb := 0, absorbLeft := 0, jumpSeen := true } := by
      simp only [y, hstep, Block.time_noteTime, Block.time_modTime]
      rfl
    rw [hy]
    refine ⟨rfl, rfl, rfl, rfl, rfl, by omega, by omega, fun _ => ⟨rfl, rfl, hold, slew⟩, by omega, fun v => ?_⟩
    rw [hstep, hnoted, if_pos (by omega)]
    exact Block.core_jumpCores ..
  · have hstep := Block.applyStep_of_slew (b := b) (by omega)
    have hy : y = { b.time with slew := true, slewPhase := 0, absorb := 0, absorbLeft := 0, slewSeen := true } := by
      simp only [y, hstep, Block.time_noteTime, Block.time_modTime]
    rw [hy]
    refine ⟨rfl, rfl, rfl, rfl, rfl, by omega, by omega, by omega, fun _ => ⟨rfl, rfl, rfl⟩, fun v => ?_⟩
    rw [hstep, hnoted, if_neg (by omega)]
    rfl

/-- A change of the time base, the recorder and the cores, as a change of the state. -/
theorem Block.OnlyTime.next {s : State} {b : Block} (h : s.blk.OnlyTime b) : ({ s with blk := b } : State) =
    { s with blk := { s.blk with time := b.time, recorder := b.recorder, pay := { s.blk.pay with cores := b.pay.cores } } } := by
  rw [← h]

/-- What an accepted sample of external time makes of the block outside a hold and a slew. -/
theorem sample_outcome (s : State) {sec ns : Nat} (hup : s.blk.mode.porstLow = false) (hns : ns < 1000000000)
    (hsynced : s.blk.time.synced = true) (hhold : s.blk.time.hold = false) (hslew : s.blk.time.slew = false)
    (ext : BitVec 64) (hext : BitVec.ofNat 64 (sec * 1000000 + ns / 1000) = ext) :
    let d : Int := (ext.toNat : Int) - s.blk.time.sched.toNat
    ∃ t, exec (.timeSample sec ns true) s = .next t ∧ t.blk.time.ext = ext ∧ t.blk.time.timeValid = true ∧
      t.blk.time.holdover = false ∧ t.blk.time.sinceSample = 0 ∧ t.blk.time.interval = s.blk.time.interval ∧
      (-1 ≤ d ∧ d ≤ 1 → t.blk.time.sched = s.blk.time.sched ∧ t.blk.time.hold = false ∧ t.blk.time.slew = false ∧
        t.blk.time.absorb = d) ∧
      (d ≤ -2 → t.blk.time.hold = true ∧ t.blk.time.backSeen = true ∧ t.blk.time.sched = s.blk.time.sched) ∧
      (2 ≤ d ∧ d ≤ 1000 → t.blk.time.sched = ext ∧ t.blk.time.jumpSeen = true ∧ t.blk.time.hold = false ∧ t.blk.time.slew = false) ∧
      (1000 < d → t.blk.time.slew = true ∧ t.blk.time.slewSeen = true ∧ t.blk.time.sched = s.blk.time.sched) ∧
      (∀ v, t.blk.core v = if 2 ≤ d ∧ d ≤ 1000 then (s.blk.core v).jump (s.blk.time.sched.setWidth 32) d.toNat else s.blk.core v) ∧
      t = { s with blk := { s.blk with
        time := t.blk.time, recorder := t.blk.recorder, pay := { s.blk.pay with cores := t.blk.pay.cores } } } := by
  intro d
  have he : exec (.timeSample sec ns true) s = .next { s with blk := s.blk.timeSample sec ns true } := rfl
  rw [Block.timeSample_steps hup hns hsynced hhold hslew, hext] at he
  obtain ⟨y1, y2, y3, y4, y5, y6, y7, y8, y9, y10⟩ :=
    applyStep_outcome (s.blk.modTime fun t => t.sampled ext) hhold hslew
  exact ⟨_, he, y1, y2, y3, y4, y5, y6, y7, y8, y9, y10,
    Block.OnlyTime.next (.trans (.modTime _ fun t => t.sampled ext) Block.onlyTime_applyStep)⟩

/-- Settles O17: a sample is counted, begins holdover or makes a step of the schedule tick; a step on an empty queue is one
microsecond. -/
theorem timeSamples : Obligations.TimeSamples := by
  unfold Obligations.TimeSamples
  refine ⟨fun s sec ns hlow valid => ?_, fun s sec ns hup => ⟨fun hns => ?_, ?_, fun hvalid hlate => ?_⟩, ?_, fun s hqueue hfatal => ?_⟩
  · show Host.Outcome.next { s with blk := s.blk.timeSample sec ns valid } = _
    rw [Block.timeSample, if_pos hlow]
  · show Host.Outcome.next { s with blk := s.blk.timeSample sec ns true } = _
    rw [Block.timeSample, hup, if_neg (by simp), if_pos rfl, if_pos hns]
    rfl
  · have he : exec (.timeSample sec ns false) s =
        .next { s with blk := (s.blk.enterHoldover).modTime fun t => { t with sinceSample := 0 } } := by
      show Host.Outcome.next { s with blk := s.blk.timeSample sec ns false } = _
      rw [Block.timeSample, hup, if_neg (by simp), if_neg (by simp)]
    refine ⟨_, he, ?_, rfl, fun hover => ?_, ?_, ?_, ?_, holdover_frame s _⟩
    · rw [Block.time_modTime, Block.time_enterHoldover, TimeBase.timeValid_heldOver]
    · rw [Block.time_modTime, Block.time_enterHoldover, TimeBase.heldOver_of_not _ hover]
      exact ⟨rfl, rfl, rfl, rfl⟩
    · rw [Block.time_modTime, Block.time_enterHoldover, TimeBase.sched_heldOver]
    · rw [Block.time_modTime, Block.time_enterHoldover, TimeBase.interval_heldOver]
    · rw [Block.time_modTime, Block.time_enterHoldover, TimeBase.badNs_heldOver]
  · have he : exec .stbTimeout s =
        .next { s with blk := (s.blk.enterHoldover).modTime fun t => { t with stbTimeouts := satAdd 16 t.stbTimeouts 1 } } := by
      show Host.Outcome.next { s with blk := s.blk.stbTimeout } = _
      rw [Block.stbTimeout, if_pos (by simp [hvalid, hlate])]
    refine ⟨_, he, ?_, ?_, fun hover => ?_, ?_, holdover_frame s _⟩
    · rw [Block.time_modTime, Block.time_enterHoldover, TimeBase.timeValid_heldOver]
    · rw [Block.time_modTime, Block.time_enterHoldover, TimeBase.stbTimeouts_heldOver]
      rfl
    · rw [Block.time_modTime, Block.time_enterHoldover, TimeBase.heldOver_of_not _ hover]
      exact ⟨rfl, rfl⟩
    · rw [Block.time_modTime, Block.time_enterHoldover, TimeBase.sched_heldOver]
  · intro s sec ns hup hns hsynced hhold hslew
    exact sample_outcome s hup hns hsynced hhold hslew _ rfl
  · rw [step, hqueue]
    refine ⟨_, rfl, rfl, rfl, ?_⟩
    intro x
    have htime := s.blk.time_microsecond
    rw [← Block.passTick_of_no_mismatch _ hfatal] at htime
    simp only [htime]
    cases hlow : s.blk.mode.porstLow with
    | true => exact ⟨rfl, fun _ => rfl, fun h => absurd h (by simp)⟩
    | false => exact ⟨x.interval_advance, fun h => absurd h (by simp), fun _ => ⟨x.sched_advance_of_holdover,
        x.sched_advance_of_hold, x.sched_advance_of_slew, x.sched_advance_of_plain⟩⟩

end Sys2Proof.Machine

/-! Set-up, doorbells, push writes, retraction and STOP of a ring pair (04 R70 to R90). -/

namespace Sys2Proof.Machine

open Sys2Proof

/-! ## Fields -/

theorem field_eq (x hi lo : Nat) : field x hi lo = x / 2 ^ lo % 2 ^ (hi - lo + 1) := by rw [field, Nat.shiftRight_eq_div_pow]

theorem ofNat_field_low (x : BitVec 64) : BitVec.ofNat 32 (field x.toNat 31 0) = x.setWidth 32 := by
  apply BitVec.eq_of_toNat_eq
  simp [field_eq]

theorem ofNat_field_high (x : BitVec 64) : BitVec.ofNat 32 (field x.toNat 63 32) = (x >>> 32).setWidth 32 := by
  apply BitVec.eq_of_toNat_eq
  simp [field_eq, Nat.shiftRight_eq_div_pow]

/-- The low field of a low half. -/
theorem field_field_low (x : Nat) {n : Nat} (hn : n ≤ 31) : field (field x 31 0) n 0 = field x n 0 := by
  simp only [field_eq, pow_zero, Nat.div_one, Nat.sub_zero]
  exact Nat.mod_mod_of_dvd x (Nat.pow_dvd_pow 2 (by omega))

/-! ## Set-up -/

section
variable {s : State} {k tag : Nat}

/-- A taken write to the page of ring k, as a change of the block. -/
theorem exec_ringPage {i : Instr} {off : Nat} {f : Block → Block} (h : s.blk.TakesRingWrite k tag)
    (he : exec i s = s.run fun b => b.ringWrite k tag off f) : exec i s = .next { s with blk := f s.blk.okWrite } := by
  rw [he, State.run, h.ringWrite]

variable {i : Instr} {off : Nat} {f : Block → Block} {g : StateItem → Bool}

/-- An access that waits for an earlier write to its register is not accepted (02 R30, R31). -/
theorem exec_waits (hheld : s.blk.forwarding g = true)
    (he : exec i s = s.run fun b => b.accessUnless (b.forwarding g) fun b => b.ringWrite k tag off f) :
    exec i s = .next { s with blk := s.blk.notTaken } := by
  rw [he, State.run, Block.accessUnless, if_pos hheld]

/-- An access that waits for none. -/
theorem exec_no_wait (h : s.blk.TakesRingWrite k tag) (hheld : s.blk.forwarding g = false)
    (he : exec i s = s.run fun b => b.accessUnless (b.forwarding g) fun b => b.ringWrite k tag off f) :
    exec i s = .next { s with blk := f s.blk.okWrite } := by
  rw [he, State.run, Block.accessUnless, if_neg (by simp [hheld]), h.ringWrite]

variable {b : Block}

theorem Block.takesSetup_of_disabled (h : (b.ring k).st = .disabled) : b.takesSetup k = true := by simp [Block.takesSetup, h]

theorem Block.enableRing_of_disabled (h : (b.ring k).st = .disabled) : b.enableRing k =
    (b.modRing k fun r => if b.setupCause k = 0 then r.latched b.now else { r with setupErr := true, setupCause := b.setupCause k }).modRing
      k fun r => { r with setup := List.replicate 8 0, setupMask := 0 } := by
  unfold Block.enableRing
  rw [if_pos (Block.takesSetup_of_disabled h)]

/-- An ENABLE on a ring that is not DISABLED, nor STOPPING on a block that only mirrors it. -/
theorem Block.enableRing_of_other (h : (b.ring k).st = .running ∨ (b.ring k).st = .halted ∨ (b.ring k).st = .fault ∨
    (b.ring k).st = .stopping ∧ (b.role (b.ownerD k)).executes = true) :
    b.enableRing k = b.modRing k fun r => { r.discardPush with setupErr := true, setupCause := 8 } := by
  have htakes : b.takesSetup k = false := by
    obtain h | h | h | ⟨h, hexec⟩ := h
    · simp [Block.takesSetup, h]
    · simp [Block.takesSetup, h]
    · simp [Block.takesSetup, h]
    · simp [Block.takesSetup, h, hexec]
  unfold Block.enableRing
  rw [if_neg (by simp [htakes])]

theorem Block.setupWord_of_disabled (h : (b.ring k).st = .disabled) {word : Nat} (hword : word < 8) (value : BitVec 64) :
    b.setupWord k word value = b.modRing k fun r =>
      { r with setup := r.setup.set word value, setupMask := r.setupMask ||| BitVec.ofNat 8 (2 ^ word) } := by
  unfold Block.setupWord
  simp only [Block.takesSetup_of_disabled h, hword, and_self, if_true]

end

/-- Settles O18: ENABLE latches a record without a failed check, notes the first failed check otherwise, and is refused in another
state. -/
theorem ringSetup : Obligations.RingSetup := by
  unfold Obligations.RingSetup
  intro s k tag word value htakes r start cmp
  have hok := OnlyRing.okWrite s k
  have hcause : s.blk.okWrite.setupCause k = s.blk.setupCause k := rfl
  have henable (hfree : s.blk.forwarding (StateItem.stops k) = false) :
      exec (.enable k tag) s = .next { s with blk := s.blk.okWrite.enableRing k } :=
    exec_no_wait (f := fun b => b.enableRing k) (off := 0x20) htakes hfree rfl
  refine ⟨fun hst hword => ?_, ?_⟩
  · refine ⟨_, exec_ringPage (f := fun b => b.setupWord k word value) htakes rfl, ?_, ?_⟩
    · rw [Block.setupWord_of_disabled (b := s.blk.okWrite) hst hword]
      exact hok.modRing _
    · rw [Block.setupWord_of_disabled (b := s.blk.okWrite) hst hword, Block.ring_modRing, if_pos rfl]
      rfl
  · intro waits
    refine ⟨fun hwaits => exec_waits hwaits rfl, fun hfree hst hpass => ?_, fun hfree hst hfail => ?_, fun hmask => ?_,
      fun hmask hsize => ?_, fun hfree hst => ?_⟩
    · refine ⟨_, henable hfree, ?_, ?_⟩
      · rw [Block.enableRing_of_disabled (b := s.blk.okWrite) hst]
        exact (hok.modRing _).modRing _
      · have hring : (s.blk.okWrite.enableRing k).ring k =
            { r.latched s.blk.now with setup := List.replicate 8 0, setupMask := 0 } := by
          rw [Block.enableRing_of_disabled (b := s.blk.okWrite) hst, Block.ring_modRing, if_pos rfl, Block.ring_modRing, if_pos rfl,
            hcause, if_pos hpass]
          rfl
        have hstart : BitVec.ofNat 32 (field (r.sw 4) 31 0) = start := ofNat_field_low _
        have hcmp : BitVec.ofNat 32 (field (r.sw 4) 63 32) = cmp := ofNat_field_high _
        rw [hring]
        exact ⟨rfl, hstart, hstart, hstart, hcmp, hcmp, rfl, rfl, rfl, rfl, rfl⟩
    · refine ⟨_, henable hfree, ?_, ?_⟩
      · rw [Block.enableRing_of_disabled (b := s.blk.okWrite) hst]
        exact (hok.modRing _).modRing _
      · rw [Block.enableRing_of_disabled (b := s.blk.okWrite) hst, Block.ring_modRing, if_pos rfl, Block.ring_modRing, if_pos rfl,
          hcause, if_neg hfail]
        rfl
    · exact if_pos hmask
    · have hsize' : field (field (r.sw 3) 31 0) 4 0 < 4 ∨ 20 < field (field (r.sw 3) 31 0) 4 0 := by
        rwa [field_field_low _ (by decide)]
      exact (if_neg (not_not.2 hmask)).trans (if_pos (hsize'.imp_right .inl))
    · refine ⟨_, henable hfree, ?_, ?_⟩
      · rw [Block.enableRing_of_other (b := s.blk.okWrite) hst]
        exact hok.modRing _
      · rw [Block.enableRing_of_other (b := s.blk.okWrite) hst, Block.ring_modRing, if_pos rfl]
        rfl

/-! ## Doorbells -/

section
variable {s : State} {k tag : Nat} {b : Block} {v : Index}

theorem Block.doorbellWrite_of_executes (h : (b.role (b.ownerD k)).executes = true) : b.doorbellWrite k v = b.ringDoorbell k v :=
  if_pos h

theorem Block.ringDoorbell_eq : b.ringDoorbell k v =
    let b' := b.modRing k RingRec.discardPush
    match (b.ring k).st with
    | .running | .fault =>
      if (b.ring k).poll then b'.modRing k fun r => { r with dbIgnored := true }
      else if 2 ^ (b.ring k).subLog2 < dist v (b.ring k).c then b'.overrun k v
      else if dist v (b.ring k).c < dist (b.ring k).p (b.ring k).c then b'.modRing k fun r => { r with dbStale := true }
      else b'.modRing k fun r => { r with p := v }
    | .disabled | .stopping | .halted => b'.modRing k fun r => { r with dbIgnored := true } := by
  have hring : (b.modRing k RingRec.discardPush).ring k = (b.ring k).discardPush := by rw [Block.ring_modRing, if_pos rfl]
  unfold Block.ringDoorbell
  simp only [hring]
  rfl

/-- A doorbell of a ring that takes them: RUNNING or FAULT, without polling. -/
theorem Block.ringDoorbell_of_live (hst : (b.ring k).st = .running ∨ (b.ring k).st = .fault) (hpoll : (b.ring k).poll = false) :
    b.ringDoorbell k v =
      let b' := b.modRing k RingRec.discardPush
      if 2 ^ (b.ring k).subLog2 < dist v (b.ring k).c then b'.overrun k v
      else if dist v (b.ring k).c < dist (b.ring k).p (b.ring k).c then b'.modRing k fun r => { r with dbStale := true }
      else b'.modRing k fun r => { r with p := v } := by
  rw [Block.ringDoorbell_eq]
  obtain h | h := hst
  · simp only [h, hpoll, Bool.false_eq_true, if_false]
  · simp only [h, hpoll, Bool.false_eq_true, if_false]

/-- A doorbell of a ring that takes none. -/
theorem Block.ringDoorbell_of_ignored (h : (((b.ring k).st = .running ∨ (b.ring k).st = .fault) ∧ (b.ring k).poll = true) ∨
    (b.ring k).st = .disabled ∨ (b.ring k).st = .stopping ∨ (b.ring k).st = .halted) :
    b.ringDoorbell k v = (b.modRing k RingRec.discardPush).modRing k fun r => { r with dbIgnored := true } := by
  rw [Block.ringDoorbell_eq]
  obtain ⟨h | h, hpoll⟩ | h | h | h := h
  · simp only [h, hpoll, if_true]
  · simp only [h, hpoll, if_true]
  · simp only [h]
  · simp only [h]
  · simp only [h]

/-! ## Push writes -/

variable {slot word : Nat} {value : BitVec 64}

/-- A push slot with a word written. -/
def RingRec.slotWith (r : RingRec) (slot word : Nat) (value : BitVec 64) : PushSlot :=
  { words := (nth {} r.push slot).words.set word value, mask := (nth {} r.push slot).mask ||| BitVec.ofNat 8 (2 ^ word) }

/-- A word of a push slot on a RUNNING ring without polling. -/
theorem Block.pushWord_of_running (hst : (b.ring k).st = .running) (hpoll : (b.ring k).poll = false) :
    b.pushWord k slot word value =
      if ((b.ring k).slotWith slot word value).mask = 0xFF then
        (b.modRing k fun r => { r with push := r.push.set slot {} }).commitPush k slot ((b.ring k).slotWith slot word value).words
      else b.modRing k fun r => { r with push := r.push.set slot ((b.ring k).slotWith slot word value) } := by
  unfold Block.pushWord
  simp only [hst, hpoll, Bool.false_eq_true, if_false]
  rfl

/-- A word that its ring drops. -/
theorem Block.pushWord_of_dropped (h : (b.ring k).st = .running ∧ (b.ring k).poll = true ∨ (b.ring k).st = .stopping ∨
    (b.ring k).st = .halted ∨ (b.ring k).st = .fault) :
    b.pushWord k slot word value = b.modRing k fun r => { r with pushDropped := true } := by
  unfold Block.pushWord
  obtain ⟨h, hpoll⟩ | h | h | h := h
  · simp only [h, hpoll, if_true]
  · simp only [h]
  · simp only [h]
  · simp only [h]

/-- The entry that a committed slot makes. -/
def Block.pushedEntry (b : Block) (k : Nat) (words : List (BitVec 64)) : Entry :=
  let raw := words.flatMap fun w => toLE 8 w.toNat
  { ring := k, sub := (b.ring k).p, part := b.ownerD k, raw, d := Desc.ofBytes raw, stage := .ahead, fetchedAt := b.now }

/-- The completion reservation does not look at the push slots, nor at P. -/
theorem Block.room_push (f : RingRec → List PushSlot) (g : RingRec → Index) :
    ((b.modRing k fun r => { r with push := f r }).modRing k fun r => { r with p := g r }).room k = b.room k := by
  simp only [Block.room, Block.inFlight, Block.overrunSlots, Block.ring_modRing, if_true]
  rfl

/-- A slot that commits within the ring's size. -/
theorem Block.commitPush_of_within {words : List (BitVec 64)} (hsize : ((b.ring k).p + 1 - (b.ring k).c).toNat ≤ 2 ^ (b.ring k).subLog2) :
    b.commitPush k slot words =
      let b' := b.modRing k fun q => { q with p := (b.ring k).p + 1 }
      if slot = (b.ring k).p.toNat % 4 ∧ b'.fetchAllowed (b'.ownerD k) = true ∧ 1 ≤ b'.room k then
        Block.absorb { b' with entries := b.entries ++ [b.pushedEntry k words] } k
      else b'.modRing k fun r => { r with pushDropped := true } := by
  unfold Block.commitPush
  simp only [dist, not_lt.2 hsize, if_false]
  rfl

/-- Entries pushed ahead wait while a burst is outstanding. -/
theorem Block.absorb_of_burst (h : (b.ring k).burst.isSome = true) : b.absorb k = b := by
  simp only [Block.absorb, Block.absorbAux, h, if_true]

theorem Block.windowWrite_of_executes (h : (b.role (b.ownerD k)).executes = true) :
    b.windowWrite k slot word value = b.pushWord k slot word value := if_pos h

end

/-- Settles O19: on a block that executes the ring's partition a doorbell is `Block.ringDoorbell` and a push write
`Block.pushWord`. -/
theorem submission : Obligations.Submission := by
  unfold Obligations.Submission
  refine ⟨?_, ?_⟩
  · intro st k tag value htakes hrole r v s p becomes
    have hok := OnlyRing.okWrite st k
    have he : exec (.doorbell k tag value) st = .next { st with blk := st.blk.okWrite.ringDoorbell k v } := by
      rw [← Block.doorbellWrite_of_executes (b := st.blk.okWrite) hrole]
      exact exec_ringPage (f := fun b => b.doorbellWrite k (value.setWidth 32)) htakes rfl
    have hbecomes (f : RingRec → RingRec)
        (hstep : st.blk.okWrite.ringDoorbell k v = (st.blk.okWrite.modRing k RingRec.discardPush).modRing k f) :
        becomes (f r.discardPush) := by
      refine ⟨_, he, ?_, ?_⟩
      · rw [hstep]
        exact (hok.modRing _).modRing _
      · rw [hstep, Block.ring_modRing, if_pos rfl, Block.ring_modRing, if_pos rfl]
        rfl
    refine ⟨fun hst hpoll => ⟨fun hps hs => ?_, fun hsp hs => ?_, fun hs => ?_⟩, fun hst hpoll => ?_, fun hst => ?_⟩
    · refine hbecomes (fun r => { r with p := v }) ?_
      rw [Block.ringDoorbell_of_live (b := st.blk.okWrite) hst hpoll]
      exact (if_neg (not_lt.2 hs)).trans (if_neg (not_lt.2 hps))
    · refine hbecomes (fun r => { r with dbStale := true }) ?_
      rw [Block.ringDoorbell_of_live (b := st.blk.okWrite) hst hpoll]
      exact (if_neg (not_lt.2 hs)).trans (if_pos hsp)
    · rw [he, Block.ringDoorbell_of_live (b := st.blk.okWrite) hst hpoll]
      exact next_congr (if_pos hs)
    · exact hbecomes (fun r => { r with dbIgnored := true }) (Block.ringDoorbell_of_ignored (b := st.blk.okWrite) (.inl ⟨hst, hpoll⟩))
    · exact hbecomes (fun r => { r with dbIgnored := true }) (Block.ringDoorbell_of_ignored (b := st.blk.okWrite) (.inr hst))
  · intro s k tag slot word value htakes hslot hword hrole r old mask words i
    have hok := OnlyRing.okWrite s k
    have he : exec i s = .next { s with blk := s.blk.okWrite.pushWord k slot word value } := by
      rw [← Block.windowWrite_of_executes (b := s.blk.okWrite) hrole]
      exact exec_ringPage (f := fun b => b.windowWrite k slot word value) htakes rfl
    have hslotw : (s.blk.okWrite.ring k).slotWith slot word value = { words, mask } := rfl
    -- the block with the slot emptied, and the same with P past the entry
    let b₀ := s.blk.okWrite.modRing k fun r => { r with push := r.push.set slot {} }
    let b₁ := b₀.modRing k fun q => { q with p := r.p + 1 }
    have hring₀ : b₀.ring k = { r with push := r.push.set slot {} } := by
      simp only [b₀, Block.ring_modRing, if_true]
      rfl
    have hring₁ : b₁.ring k = { r with push := r.push.set slot {}, p := r.p + 1 } := by
      simp only [b₁, Block.ring_modRing, if_true, hring₀]
    have hroom : b₁.room k = s.blk.room k :=
      Block.room_push (b := s.blk.okWrite) (k := k) (fun r => r.push.set slot {}) fun _ => r.p + 1
    have hcommit (hst : r.st = .running) (hpoll : r.poll = false) (hmask : mask = 0xFF)
        (hsize : (r.p + 1 - r.c).toNat ≤ 2 ^ r.subLog2) : s.blk.okWrite.pushWord k slot word value =
          if slot = r.p.toNat % 4 ∧ s.blk.fetchAllowed (s.blk.ownerD k) = true ∧ 1 ≤ s.blk.room k then
            Block.absorb { b₁ with entries := s.blk.entries ++ [b₀.pushedEntry k words] } k
          else b₁.modRing k fun r => { r with pushDropped := true } := by
      rw [Block.pushWord_of_running (b := s.blk.okWrite) hst hpoll, hslotw, if_pos hmask]
      show b₀.commitPush k slot words = _
      rw [Block.commitPush_of_within (by rw [hring₀]; exact hsize), hring₀, ← hroom]
      rfl
    refine ⟨fun hst hpoll hmask => ?_, fun hst hpoll hmask hsize hout => ?_, fun hst hpoll hmask hsize hslot' hallowed hroom' => ?_,
      fun hst => ?_⟩
    · have hstep : s.blk.okWrite.pushWord k slot word value =
          s.blk.okWrite.modRing k fun r => { r with push := r.push.set slot { words, mask } } := by
        rw [Block.pushWord_of_running (b := s.blk.okWrite) hst hpoll, hslotw, if_neg hmask]
      refine ⟨_, he, ?_, ?_⟩
      · rw [hstep]
        exact hok.modRing _
      · rw [hstep, Block.ring_modRing, if_pos rfl]
        rfl
    · have hstep := hcommit hst hpoll hmask hsize
      rw [if_neg] at hstep
      · refine ⟨_, he, ?_, ?_⟩
        · rw [hstep]
          exact ((hok.modRing _).modRing _).modRing _
        · rw [hstep, Block.ring_modRing, if_pos rfl, hring₁]
      · rintro ⟨hs, ha, hr⟩
        obtain hne | hno | hzero := hout
        · exact hne hs
        · rw [hno] at ha
          exact absurd ha (by decide)
        · omega
    · intro b raw e b'
      have hstep := hcommit hst hpoll hmask hsize
      rw [if_pos ⟨hslot', hallowed, hroom'⟩] at hstep
      have hpushed : b₀.pushedEntry k words = e := by
        simp only [Block.pushedEntry, hring₀]
        rfl
      rw [hpushed] at hstep
      refine ⟨?_, fun hburst => ?_⟩
      · rw [he, hstep]
      · rw [he, hstep, Block.absorb_of_burst]
        have hring' : Block.ring { b₁ with entries := s.blk.entries ++ [e] } k = b₁.ring k := rfl
        rw [hring', hring₁]
        exact hburst
    · have hstep := Block.pushWord_of_dropped (b := s.blk.okWrite) (k := k) (slot := slot) (word := word) (value := value) hst
      refine ⟨_, he, ?_, ?_⟩
      · rw [hstep]
        exact hok.modRing _
      · rw [hstep, Block.ring_modRing, if_pos rfl]
        rfl

end Sys2Proof.Machine

/-! Retraction, STOP and consumption in STANDBY (04 R81, R90, 14 R320). -/

namespace Sys2Proof.Machine

open Sys2Proof

/-! ## Changes of one ring -/

/-- From b to b' nothing changes but ring k. -/
structure Block.RingsOnly (b b' : Block) (k : Nat) : Prop where
  block : b' = { b with rings := b'.rings }
  ring : ∀ j, j ≠ k → b'.ring j = b.ring j

theorem Block.RingsOnly.refl (b : Block) (k : Nat) : b.RingsOnly b k := ⟨rfl, fun _ _ => rfl⟩

section
variable {b b' : Block} {k : Nat}

theorem Block.RingsOnly.trans {c : Block} (h : b.RingsOnly b' k) (h' : b'.RingsOnly c k) : b.RingsOnly c k where
  block := h'.block.trans (congrArg (fun x : Block => { x with rings := c.rings }) h.block)
  ring j hj := (h'.ring j hj).trans (h.ring j hj)

theorem Block.RingsOnly.modRing (h : b.RingsOnly b' k) (f : RingRec → RingRec) : b.RingsOnly (b'.modRing k f) k where
  block := congrArg (fun x : Block => x.modRing k f) h.block
  ring j hj := by simpa [hj.symm] using h.ring j hj

theorem Block.RingsOnly.markStall (h : b.RingsOnly b' k) : b.RingsOnly (b'.markStall k) k := by
  unfold Block.markStall
  split
  · exact h.modRing _
  · exact h

end

/-! ## What an entry pushed ahead and a count of entries look at -/

section
variable {b b' : Block} {k : Nat}

/-- F past the entries pushed ahead looks at the entries, F and C. -/
theorem Block.fetchedTo_congr (he : b'.entries = b.entries) (hf : (b'.ring k).f = (b.ring k).f) (hc : (b'.ring k).c = (b.ring k).c) :
    b'.fetchedTo k = b.fetchedTo k := by
  simp only [Block.fetchedTo, Block.aheadOf, he, hf, hc]

/-- A second discard of the push slots finds none. -/
theorem RingRec.discardPush_discardPush (r : RingRec) : r.discardPush.discardPush = r.discardPush := by
  simp [RingRec.discardPush]

/-- Where no entry of the ring is in the block, none was pushed ahead. -/
theorem Block.aheadOf_of_no_entry (h : ∀ e ∈ b.entries, e.ring ≠ k) : b.aheadOf k = [] := by
  simp only [Block.aheadOf, List.filter_eq_nil_iff]
  intro e he
  simp [h e he]

theorem Block.fetchedTo_of_no_entry (h : ∀ e ∈ b.entries, e.ring ≠ k) : b.fetchedTo k = (b.ring k).f := by
  simp only [Block.fetchedTo, Block.aheadOf_of_no_entry h, List.foldl_nil]

theorem Block.unfetched_of_no_entry (h : ∀ e ∈ b.entries, e.ring ≠ k) :
    b.unfetched k = ((b.ring k).p - (b.ring k).f).toNat := by
  simp only [Block.unfetched, Block.aheadOf_of_no_entry h, List.length_nil, Nat.sub_zero, dist]

/-- A cut that meets no entry leaves the block. -/
theorem Block.cutAll_of_no_entry {sel : Entry → Bool} {status detail : Nat} (h : ∀ e ∈ b.entries, sel e = false) :
    b.cutAll sel status detail = b := by
  have hes : (b.entries.filter fun e => sel e && !e.isScattered) = [] := by
    rw [List.filter_eq_nil_iff]
    intro e he
    simp [h e he]
  simp only [Block.cutAll, hes, List.foldl_nil]

theorem Block.inFlight_of_no_entry (h : ∀ e ∈ b.entries, e.ring ≠ k) (hburst : (b.ring k).burst = none) : b.inFlight k = 0 := by
  have hes : (b.entries.filter fun e => e.ring == k) = [] := by
    rw [List.filter_eq_nil_iff]
    intro e he
    simp [h e he]
  simp only [Block.inFlight, hes, hburst, List.length_nil, Nat.add_zero]

theorem Block.entries_markStall : (b.markStall k).entries = b.entries := by
  unfold Block.markStall
  split <;> rfl

theorem Block.mport_markStall : (b.markStall k).mport = b.mport := by
  unfold Block.markStall
  split <;> rfl

/-! ## Retraction -/

theorem Block.retractWrite_of_apply {v : Index} (h : b.route (b.ownerD k) = .apply) :
    b.retractWrite k v = (b.modRing k RingRec.discardPush).retractRing k v := by
  unfold Block.retractWrite
  have hroute : (b.modRing k RingRec.discardPush).route ((b.modRing k RingRec.discardPush).ownerD k) = .apply := h
  simp only [hroute]

/-- What a retraction makes of the ring's record: `end_` is F past the entries pushed ahead. -/
def RingRec.retracted' (r : RingRec) (target end_ : Index) : RingRec :=
  if (r.st = .running ∨ r.st = .fault) ∧ !r.poll ∧ dist target r.c < dist r.p r.c then
    { r with p := r.c + BitVec.ofNat 32 (max (dist target r.c) (dist end_ r.c))
             retracted := dist r.p r.c - max (dist target r.c) (dist end_ r.c)
             retractP := r.c + BitVec.ofNat 32 (max (dist target r.c) (dist end_ r.c)) }
  else { r with retracted := 0, retractP := r.p }

theorem Block.retractRing_eq {v : Index} : b.retractRing k v =
    ((b.markStall k).modRing k RingRec.discardPush).modRing k fun r => r.retracted' v (b.fetchedTo k) := by
  have hend : ((b.markStall k).modRing k RingRec.discardPush).fetchedTo k = b.fetchedTo k := by
    refine Block.fetchedTo_congr Block.entries_markStall ?_ ?_
    · rw [Block.ring_modRing, if_pos rfl, Block.ring_markStall]
      rfl
    · rw [Block.ring_modRing, if_pos rfl, Block.ring_markStall]
      rfl
  rw [← hend]
  rfl

/-! ## STOP -/

/-- The block in which a STOP has marked its ring STOPPING and withdrawn what it has not fetched. -/
def Block.stopMark (b : Block) (k : Nat) : Block :=
  (((b.markStall k).modRing k RingRec.discardPush).withdraw k).modRing k fun r => { r with
    st := .stopping, chain := none, kept := [], pollDue := false, failedF := if r.burst.isSome then r.failedF else none }

theorem Block.stopRing_of_running (hst : (b.ring k).st = .running) :
    b.stopRing k = ((b.stopMark k).cutAll (fun e => e.ring == k) St.aborted 1).settleRing k := if_pos (.inl hst)

theorem Block.ringsOnly_stopMark : b.RingsOnly (b.stopMark k) k := (((Block.RingsOnly.refl b k).markStall.modRing _).modRing _).modRing _

theorem Block.entries_stopMark : (b.stopMark k).entries = b.entries :=
  (congrArg Block.entries Block.ringsOnly_stopMark.block).trans rfl

theorem Block.ring_stopMark (h : ∀ e ∈ b.entries, e.ring ≠ k) : (b.stopMark k).ring k =
    { (b.ring k).discardPush with
      p := (b.ring k).f, f := (b.ring k).f, retracted := ((b.ring k).p - (b.ring k).f).toNat, retractP := (b.ring k).f
      st := .stopping, chain := none, kept := [], pollDue := false, stallMark := (b.ring k).stallMark || b.stalled k
      failedF := if (b.ring k).burst.isSome then (b.ring k).failedF else none } := by
  let m := (b.markStall k).modRing k RingRec.discardPush
  have hring : m.ring k = { (b.ring k).discardPush with stallMark := (b.ring k).stallMark || b.stalled k } := by
    simp only [m, Block.ring_modRing, if_true, Block.ring_markStall]
    rfl
  have hentries : ∀ e ∈ m.entries, e.ring ≠ k := by
    have : m.entries = b.entries := Block.entries_markStall
    rwa [this]
  have hf : m.fetchedTo k = (b.ring k).f := (Block.fetchedTo_of_no_entry hentries).trans (by rw [hring]; rfl)
  have hn : m.unfetched k = ((b.ring k).p - (b.ring k).f).toNat :=
    (Block.unfetched_of_no_entry hentries).trans (by rw [hring]; rfl)
  have hmark : b.stopMark k = (m.modRing k fun r => { r with
      p := m.fetchedTo k, f := m.fetchedTo k, retracted := m.unfetched k, retractP := m.fetchedTo k }).modRing k fun r => { r with
      st := .stopping, chain := none, kept := [], pollDue := false, failedF := if r.burst.isSome then r.failedF else none } := rfl
  rw [hmark, Block.ring_modRing, if_pos rfl, Block.ring_modRing, if_pos rfl, hring, hf, hn]
  rfl

/-- The key-management lock of partition p is freed where ring k holds it. -/
def Block.freeLockOf (b : Block) (p k : Nat) : Block :=
  if (b.part p).lock.held && (b.part p).lock.holder == k then b.freeLock p else b

theorem Block.freeLockOf_frame (p : Nat) : b.freeLockOf p k = { b with parts := (b.freeLockOf p k).parts } := by
  unfold Block.freeLockOf
  split <;> rfl

theorem Block.ring_freeLockOf (p j : Nat) : (b.freeLockOf p k).ring j = b.ring j := by
  unfold Block.freeLockOf
  split <;> rfl

theorem Block.part_freeLockOf (p : Nat) : (b.freeLockOf p k).part p =
    if (b.part p).lock.held = true ∧ (b.part p).lock.holder = k then
      { b.part p with lock := { (b.part p).lock with held := false, holder := 0 } } else b.part p := by
  unfold Block.freeLockOf
  simp only [Bool.and_eq_true, beq_iff_eq]
  split
  · simp only [Block.freeLock, Block.part_modPart, if_true]
  · rfl

theorem Block.part_freeLockOf_ne {p q : Nat} (h : q ≠ p) : (b.freeLockOf p k).part q = b.part q := by
  unfold Block.freeLockOf
  split
  · simp only [Block.freeLock, Block.part_modPart, h.symm, if_false]
  · rfl

/-- A STOPPING ring of which nothing is left becomes DISABLED and gives its partition's key-management lock back. -/
theorem Block.settleRing_of_done (hst : (b.ring k).st = .stopping) (hfly : b.inFlight k = 0) (hheld : (b.ring k).held = [])
    (hfailedF : (b.ring k).failedF = none) (hfailedW : (b.ring k).failedW = []) (hsig : (b.ring k).sig = [])
    (hw : b.writing k = false) :
    b.settleRing k = (b.modRing k RingRec.disabled).freeLockOf (b.ownerD k) k := by
  unfold Block.settleRing
  rw [if_pos (by simp [hst, hfly, hheld, hfailedF, hfailedW, hsig, hw])]
  rfl

/-- A STOP of a RUNNING ring that has nothing in the block. -/
theorem Block.stopRing_of_idle (hst : (b.ring k).st = .running) (h : ∀ e ∈ b.entries, e.ring ≠ k) (hburst : (b.ring k).burst = none)
    (hheld : (b.ring k).held = []) (hfailedW : (b.ring k).failedW = []) (hsig : (b.ring k).sig = []) (hw : b.writing k = false) :
    b.stopRing k = ((b.stopMark k).modRing k RingRec.disabled).freeLockOf (b.ownerD k) k := by
  have hring := Block.ring_stopMark h
  have hframe := (Block.ringsOnly_stopMark (b := b) (k := k)).block
  have hentries : ∀ e ∈ (b.stopMark k).entries, e.ring ≠ k := by rwa [Block.entries_stopMark]
  have hnone : ((b.stopMark k).ring k).burst = none := by rw [hring]; exact hburst
  rw [Block.stopRing_of_running hst, Block.cutAll_of_no_entry fun e he => by simp [hentries e he],
    Block.settleRing_of_done (by rw [hring]) (Block.inFlight_of_no_entry hentries hnone) (by rw [hring]; exact hheld)
      (by rw [hring]; simp [hburst]) (by rw [hring]; exact hfailedW) (by rw [hring]; exact hsig)
      (by rw [hframe]; exact hw)]
  have howner : (b.stopMark k).ownerD = b.ownerD := by rw [hframe]; rfl
  rw [howner]

theorem Block.stopRing_of_other (h : (b.ring k).st = .disabled ∨ (b.ring k).st = .stopping ∨ (b.ring k).st = .halted) :
    b.stopRing k = b.modRing k RingRec.discardPush := by
  unfold Block.stopRing
  obtain h | h | h := h <;> simp only [h, reduceCtorEq, or_self, if_false]

theorem Block.stopWrite_of_apply (h : b.route (b.ownerD k) = .apply) :
    b.stopWrite k = (b.modRing k RingRec.discardPush).stopRing k := by
  unfold Block.stopWrite
  have hroute : (b.modRing k RingRec.discardPush).route ((b.modRing k RingRec.discardPush).ownerD k) = .apply := h
  simp only [hroute]

end

/-- Settles O20: a retraction is `RingRec.retracted'` on the ring's record, a STOP of a ring with nothing in the block ends at once in
DISABLED, and a STANDBY partition's consumption takes any value. -/
theorem retractionAndStop : Obligations.RetractionAndStop := by
  unfold Obligations.RetractionAndStop
  refine ⟨?_, ?_, ?_⟩
  · intro st k tag value htakes hroute hfree r d f v stallMark
    have hok := OnlyRing.okWrite st k
    let m := st.blk.okWrite.modRing k RingRec.discardPush
    have hm : m.ring k = r.discardPush := by simp only [m, Block.ring_modRing, if_true]; rfl
    have hfetched : m.fetchedTo k = st.blk.fetchedTo k :=
      Block.fetchedTo_congr rfl (by rw [hm]; rfl) (by rw [hm]; rfl)
    have he : exec (.retract k tag value) st = .next { st with blk := m.retractRing k v } := by
      rw [exec_no_wait (f := fun b => b.retractWrite k v) (off := 0x30) htakes hfree rfl]
      exact next_congr (Block.retractWrite_of_apply (b := st.blk.okWrite) hroute)
    have hstalled : m.stalled k = st.blk.stalled k := by
      simp only [Block.stalled, Block.unfetched, Block.room, Block.inFlight, Block.overrunSlots, Block.aheadOf, hm]
      rfl
    have hring : (m.retractRing k v).ring k = { r.discardPush with stallMark }.retracted' v (st.blk.fetchedTo k) := by
      rw [Block.retractRing_eq, Block.ring_modRing, if_pos rfl, Block.ring_modRing, if_pos rfl, Block.ring_markStall, hm,
        hfetched, hstalled]
      exact congrArg (fun x : RingRec => { x with stallMark }.retracted' v (st.blk.fetchedTo k)) r.discardPush_discardPush
    have honly : OnlyRing st { st with blk := m.retractRing k v } k := by
      rw [Block.retractRing_eq]
      exact ((hok.modRing _).markStall.modRing _).modRing _
    refine ⟨fun hst hpoll hlt => ⟨_, he, honly, ?_⟩, fun hout => ⟨_, he, honly, ?_⟩⟩
    · rw [hring]
      exact if_pos ⟨hst, by simp [RingRec.discardPush, hpoll], hlt⟩
    · rw [hring]
      refine if_neg ?_
      rintro ⟨hst, hpoll, hlt⟩
      have hpoll' : r.poll = false := by simpa [RingRec.discardPush] using hpoll
      obtain hne | hyes | hle := hout
      · exact hne hst
      · rw [hpoll'] at hyes
        exact absurd hyes (by decide)
      · exact absurd hlt (not_lt.2 hle)
  · intro s k tag htakes hroute hfree r p
    have hok := OnlyRing.okWrite s k
    let m := s.blk.okWrite.modRing k RingRec.discardPush
    have hm : m.ring k = r.discardPush := by simp only [m, Block.ring_modRing, if_true]; rfl
    have he : exec (.stop k tag) s = .next { s with blk := m.stopRing k } := by
      rw [exec_no_wait (f := fun b => b.stopWrite k) (off := 0x20) htakes hfree rfl]
      exact next_congr (Block.stopWrite_of_apply (b := s.blk.okWrite) hroute)
    refine ⟨fun hst hentries hburst hheld hfailedW hsig hwriting => ?_, fun hst => ⟨_, he, ?_, ?_⟩⟩
    · have hstop := Block.stopRing_of_idle (b := m) (k := k) (by rw [hm]; exact hst) hentries (by rw [hm]; exact hburst)
        (by rw [hm]; exact hheld) (by rw [hm]; exact hfailedW) (by rw [hm]; exact hsig) hwriting
      obtain ⟨w, hwdef⟩ : ∃ w, w = (m.stopMark k).modRing k RingRec.disabled := ⟨_, rfl⟩
      have hw : s.blk.okWrite.RingsOnly w k := by
        rw [hwdef]
        exact (((Block.RingsOnly.refl _ k).modRing _).trans Block.ringsOnly_stopMark).modRing _
      have hring : w.ring k = ((m.stopMark k).ring k).disabled := by rw [hwdef, Block.ring_modRing, if_pos rfl]
      rw [Block.ring_stopMark (b := m) hentries, hm] at hring
      rw [← hwdef] at hstop
      have hparts : w.part = s.blk.part := by
        rw [hw.block]
        rfl
      have hblock : w.freeLockOf p k =
          { s.blk.okWrite with rings := (w.freeLockOf p k).rings, parts := (w.freeLockOf p k).parts }  := by
        have hfree := congrArg (fun x : Block => { x with parts := (w.freeLockOf p k).parts }) hw.block
        rw [w.freeLockOf_frame (k := k) p]
        exact hfree
      rw [he, hstop]
      refine ⟨_, rfl, ?_, ?_, ?_, ?_, ?_, ?_, ?_, ?_, fun j hj => (Block.ring_freeLockOf p j).trans (hw.ring j hj), ?_, fun q hq => ?_, ?_⟩
      iterate 8 · exact (congrArg _ ((Block.ring_freeLockOf p k).trans hring)).trans rfl
      · exact (Block.part_freeLockOf p).trans (by rw [hparts])
      · exact (Block.part_freeLockOf_ne hq).trans (congrFun hparts q)
      · exact congrArg (fun x : Block => { s with blk := x }) hblock
    · rw [Block.stopRing_of_other (b := m) (by rw [hm]; exact hst)]
      exact (hok.modRing _).modRing _
    · rw [Block.stopRing_of_other (b := m) (by rw [hm]; exact hst), Block.ring_modRing, if_pos rfl, hm]
      exact r.discardPush_discardPush
  · intro s k tag value htakes hrole
    rw [exec_consume htakes]
    refine next_congr ?_
    exact if_pos (.inl hrole)

end Sys2Proof.Machine

/-! Interrupt moderation, interrupt messages, partition sleep and the key-management lock (02 R43, 13 R299 to R303, 10 R230, R231). -/

namespace Sys2Proof.Machine

open Sys2Proof

/-! ## Moderation -/

section
variable {s : State} {b : Block} {k v tag : Nat}

theorem Block.modVec_congr {f g : IrqVec → IrqVec} (h : f (b.vec v) = g (b.vec v)) : b.modVec v f = b.modVec v g := by
  simp only [Block.vec] at h
  simp only [Block.modVec, Table.modify, h]

/-- Nothing falls due while nothing is pending, or while the message is due already. -/
theorem Block.examineVec_of_quiet (h : (b.vec v).pending = 0 ∨ (b.vec v).due = true) : b.examineVec v = b := by
  unfold Block.examineVec
  obtain h | h := h
  · simp [IrqVec.reached, h]
  · simp [h]

/-- A change of a vector's thresholds is all that follows while nothing is pending, or while the message is due already. -/
theorem Block.examineVec_modVec_of_quiet {f : IrqVec → IrqVec} (hpending : (f (b.vec v)).pending = (b.vec v).pending)
    (hdue : (f (b.vec v)).due = (b.vec v).due) (h : (b.vec v).pending = 0 ∨ (b.vec v).due = true) :
    (b.modVec v f).examineVec v = b.modVec v f := by
  refine Block.examineVec_of_quiet ?_
  rw [Block.vec_modVec, if_pos rfl, hpending, hdue]
  exact h

/-- A write by partition 0 to a table of the interrupt registers. -/
theorem exec_table {i : Instr} {addr size : Nat} {f : Block → Block} (hup : s.blk.mode.porstLow = false)
    (hsize : size = 8 ∨ size = 4) (halign : addr % size = 0)
    (he : exec i s = s.run fun b => b.access addr size 0 true fun b => b.globalWrite 0 addr f) :
    exec i s = .next { s with blk := f s.blk.okWrite } := by
  have hsize' : size = 8 ∨ size = 4 ∧ (true = true ∨ addr < 0x200000 ∨ 0x300000 ≤ addr) := by
    obtain h | h := hsize
    · exact .inl h
    · exact .inr ⟨h, .inl rfl⟩
  rw [he, State.run, Block.access_of_aligned hup hsize' halign]
  simp only [Block.globalWrite, hup, Bool.false_eq_true, if_false, if_true]

theorem coveredWord_of_outside {off size w : Nat} (h : ¬ (off ≤ w ∧ w + 4 ≤ off + size)) (data : BitVec 64) :
    coveredWord off size data w = none := if_neg h

theorem coveredWord_first {off size : Nat} (h : 4 ≤ size) (data : BitVec 64) :
    coveredWord off size data off = some (data.toNat % 2 ^ 32) := by
  rw [coveredWord, if_pos ⟨le_rfl, by omega⟩]
  simp

theorem coveredWord_second {off : Nat} (data : BitVec 64) :
    coveredWord off 8 data (off + 4) = some (data.toNat / 2 ^ 32) := by
  have hlt : data.toNat / 2 ^ 32 < 2 ^ 32 := by have := data.isLt; omega
  rw [coveredWord, if_pos ⟨by omega, by omega⟩, Nat.add_sub_cancel_left, Nat.shiftRight_eq_div_pow]
  exact congrArg some (Nat.mod_eq_of_lt hlt)

end

/-- Settles O23: a threshold that is written is the vector's, and nothing that is not pending falls due by it. -/
theorem interruptModeration : Obligations.InterruptModeration := by
  unfold Obligations.InterruptModeration
  intro s k v tag value x only
  have honly (f : IrqVec → IrqVec) : only { s with blk := s.blk.okWrite.modVec v f } :=
    ⟨fun w hw => by rw [Block.vec_modVec, if_neg hw.symm]; rfl, rfl⟩
  have hvec (f : IrqVec → IrqVec) : (s.blk.okWrite.modVec v f).vec v = f x := by rw [Block.vec_modVec, if_pos rfl]; rfl
  have hbecomes {c : Instr} {f : IrqVec → IrqVec} (hquiet : x.pending = 0 ∨ x.due = true)
      (hpending : (f x).pending = x.pending) (hdue : (f x).due = x.due)
      (he : exec c s = .next { s with blk := (s.blk.okWrite.modVec v f).examineVec v }) :
      ∃ t, exec c s = .next t ∧ only t ∧ t.blk.vec v = f x := by
    rw [Block.examineVec_modVec_of_quiet (b := s.blk.okWrite) hpending hdue hquiet] at he
    exact ⟨_, he, honly f, hvec f⟩
  refine ⟨fun htakes hvector hquiet => ⟨?_, ?_⟩, fun hup hquiet => ⟨?_, ?_⟩⟩
  · have hfield : field value.toNat 15 0 = value.toNat % 2 ^ 16 := by simp [field_eq]
    rw [← hfield]
    refine hbecomes (f := fun x => { x with countThresh := field value.toNat 15 0 }) hquiet rfl rfl ?_
    rw [exec_ringPage (f := fun b => b.modCount k value.toNat) htakes rfl]
    refine next_congr ?_
    have hv : s.blk.okWrite.ringVector k = some v := hvector
    simp only [Block.modCount, hv]
  · have hfield : field value.toNat 31 0 = value.toNat % 2 ^ 32 := by simp [field_eq]
    rw [← hfield]
    refine hbecomes (f := fun x => { x with timeThresh := field value.toNat 31 0 }) hquiet rfl rfl ?_
    rw [exec_ringPage (f := fun b => b.modTicks k value.toNat) htakes rfl]
    refine next_congr ?_
    have hv : s.blk.okWrite.ringVector k = some v := hvector
    simp only [Block.modTicks, hv]
  · refine hbecomes (f := fun x => { x with countThresh := value.toNat % 2 ^ 16, timeThresh := value.toNat / 2 ^ 32 }) hquiet rfl rfl ?_
    rw [exec_table (f := fun b => b.modTable v 0 8 value) (addr := 0x180000 + 16 * v + 0) (size := 8) hup (.inl rfl) (by omega) rfl]
    refine next_congr (congrArg (Block.examineVec · v) (Block.modVec_congr ?_))
    rw [coveredWord_first (by decide), coveredWord_second (off := 0), coveredWord_of_outside (by decide)]
    simp [Nat.mod_mod_of_dvd]
  · refine hbecomes (f := fun x => { x with wake := value.getLsbD 0 }) hquiet rfl rfl ?_
    rw [exec_table (f := fun b => b.modTable v 12 4 value) (addr := 0x180000 + 16 * v + 12) (size := 4) hup (.inr rfl) (by omega) rfl]
    refine next_congr (congrArg (Block.examineVec · v) (Block.modVec_congr ?_))
    simp [coveredWord, bit, BitVec.getLsbD]

/-! ## Messages -/

section
variable {b b' : Block} {v : Nat}

/-- From b to b' nothing changes but vector v and what goes out on the boundary. -/
structure Block.VecOnly (b b' : Block) (v : Nat) : Prop where
  block : b' = { b with irq := b'.irq, mport := b'.mport, bus := b'.bus }
  vec : ∀ w, w ≠ v → b'.vec w = b.vec w

theorem Block.VecOnly.refl (b : Block) (v : Nat) : b.VecOnly b v := ⟨rfl, fun _ _ => rfl⟩

theorem Block.VecOnly.trans {c : Block} (h : b.VecOnly b' v) (h' : b'.VecOnly c v) : b.VecOnly c v where
  block := h'.block.trans (congrArg (fun x : Block => { x with irq := c.irq, mport := c.mport, bus := c.bus }) h.block)
  vec w hw := (h'.vec w hw).trans (h.vec w hw)

theorem Block.VecOnly.modVec (h : b.VecOnly b' v) (f : IrqVec → IrqVec) : b.VecOnly (b'.modVec v f) v where
  block := congrArg (fun x : Block => x.modVec v f) h.block
  vec w hw := by rw [Block.vec_modVec, if_neg hw.symm]; exact h.vec w hw

theorem Block.VecOnly.issueOrdered (h : b.VecOnly b' v) (port part ring addr : Nat) (data : Bytes) (pur : Purpose) (again : Bool) :
    b.VecOnly (b'.issueOrdered port part ring addr data pur again) v where
  block := congrArg (fun x : Block => { x with
    mport := (b'.issueOrdered port part ring addr data pur again).mport
    bus := (b'.issueOrdered port part ring addr data pur again).bus }) h.block
  vec w hw := h.vec w hw

theorem Block.VecOnly.withSport (h : b.VecOnly b' v) {a : Block} (ha : b = { a with sport := b.sport }) :
    b' = { a with sport := b'.sport, irq := b'.irq, mport := b'.mport, bus := b'.bus } := by
  have hsport : b'.sport = b.sport := (congrArg Block.sport h.block).trans rfl
  rw [hsport]
  exact h.block.trans (congrArg (fun x : Block => { x with irq := b'.irq, mport := b'.mport, bus := b'.bus }) ha)

/-- The message of a vector, as it goes out. -/
def IrqVec.message (x : IrqVec) (p : Nat) : Sent := .write x.port p 0xFFFF x.addr.toNat true (toLE 4 x.data.toNat)

/-- A vector whose message has gone out. -/
def IrqVec.sent (x : IrqVec) (woke : Bool) : IrqVec := { x with pending := 0, due := false, woke := x.woke || woke }

/-- The message of an aligned vector goes out, and the vector has none due. -/
theorem Block.sendIrq_of_aligned (h : (b.vec v).addr.toNat % 4 = 0) (woke : Bool) :
    b.VecOnly (b.sendIrq v woke) v ∧
    (b.sendIrq v woke).bus = b.bus ++ [(b.vec v).message ((b.vecOwner v).getD 0)] ∧
    (b.sendIrq v woke).vec v = (b.vec v).sent woke := by
  have hsend : b.sendIrq v woke = (b.issueOrdered (b.vec v).port ((b.vecOwner v).getD 0) 0xFFFF (b.vec v).addr.toNat
      (toLE 4 (b.vec v).data.toNat) (.irq v) false).modVec v (IrqVec.sent · woke) := by
    unfold Block.sendIrq
    exact if_neg (by simp [IrqVec.misaligned, h])
  rw [hsend]
  exact ⟨((VecOnly.refl b v).issueOrdered _ _ _ _ _ _ _).modVec _, rfl, by rw [Block.vec_modVec, if_pos rfl]; rfl⟩

theorem Block.sendIrq_of_misaligned (h : (b.vec v).addr.toNat % 4 ≠ 0) (woke : Bool) :
    b.sendIrq v woke = ((b.modVec v fun x => { x with due := true }).countPort (b.vec v).port).noteRec 0x0061 0 (b.vec v).port 4 := by
  unfold Block.sendIrq
  exact if_pos (by simp [IrqVec.misaligned, h])

theorem Block.examineVec_of_reached (hdue : (b.vec v).due = false) (hreached : (b.vec v).reached b.now = true) :
    b.examineVec v = b.fallDue v := if_pos (by simp [hdue, hreached])

theorem Block.examineVec_of_not_reached (h : (b.vec v).reached b.now = false ∨ (b.vec v).due = true) : b.examineVec v = b :=
  if_neg (by obtain h | h := h <;> simp [h])

/-- A message that falls due goes out, unless it is held. -/
theorem Block.fallDue_of_open (hmask : (b.vec v).masked = false) (hmuted : b.muted v = false)
    (hsleep : (b.part ((b.vecOwner v).getD 0)).asleep = false) : b.fallDue v = b.sendIrq v false :=
  if_neg (by simp [hmask, hmuted, Block.asleep, hsleep])

theorem Block.fallDue_of_held (h : (b.vec v).masked = true ∨ b.muted v = true ∨
    (b.part ((b.vecOwner v).getD 0)).asleep = true) : b.fallDue v = b.modVec v fun x => { x with due := true } :=
  if_pos (by rw [Bool.or_eq_true, Bool.or_eq_true, or_assoc]; exact h)

/-! ## What lets a message go -/

/-- The message of an awake partition's vector that is due goes out. -/
theorem Block.releaseVec_of_due (hmask : (b.vec v).masked = false) (hmuted : b.muted v = false)
    (hsleep : b.asleep ((b.vecOwner v).getD 0) = false) (hdue : (b.vec v).due = true) : b.releaseVec v = b.sendIrq v false := by
  unfold Block.releaseVec
  simp [hmask, hmuted, hsleep, hdue]

/-- A vector of a partition that sleeps sends the wake message, where it may. -/
theorem Block.releaseVec_of_asleep (hmask : (b.vec v).masked = false) (hmuted : b.muted v = false)
    (hsleep : b.asleep ((b.vecOwner v).getD 0) = true) :
    b.releaseVec v = if b.mayWake v then b.sendIrq v true else b := by
  unfold Block.releaseVec
  simp [hmask, hmuted, hsleep]

/-! ## The vector table -/

/-- A vector's table entry with the words that a write covers. -/
def IrqVec.written (x : IrqVec) (word : Nat → Option Nat) : IrqVec := { x with
  addr := BitVec.ofNat 64 ((word 0).getD (x.addr.toNat % 2 ^ 32) + at_ 32 ((word 4).getD (x.addr.toNat / 2 ^ 32)))
  data := match word 8 with | some w => BitVec.ofNat 32 w | none => x.data
  ctl := match word 12 with | some w => BitVec.ofNat 32 (field w 0 0) | none => x.ctl }

theorem Block.vecTable_eq (off size : Nat) (data : BitVec 64) : b.vecTable v off size data =
    if (b.vec v).masked || (b.vec v).misaligned then
      (b.modVec v (IrqVec.written · (coveredWord off size data))).releaseVec v
    else b.modVec v (IrqVec.written · (coveredWord off size data)) := rfl

theorem toNat_append_words (hi lo : BitVec 32) : (hi ++ lo : BitVec 64).toNat = lo.toNat + 2 ^ 32 * hi.toNat := by
  rw [BitVec.toNat_append, Nat.shiftLeft_eq, Nat.mul_comm, ← Nat.two_pow_add_eq_or_of_lt lo.isLt, Nat.add_comm]

theorem addr_written (x data : BitVec 64) :
    BitVec.ofNat 64 (x.toNat % 2 ^ 32 + at_ 32 (x.toNat / 2 ^ 32)) = x ∧
    BitVec.ofNat 64 (data.toNat % 2 ^ 32 + at_ 32 (x.toNat / 2 ^ 32)) = x.extractLsb' 32 32 ++ data.setWidth 32 ∧
    BitVec.ofNat 64 (x.toNat % 2 ^ 32 + at_ 32 (data.toNat % 2 ^ 32)) = (data.setWidth 32 : BitVec 32) ++ x.setWidth 32 := by
  have hx := x.isLt
  have hd := data.isLt
  refine ⟨BitVec.eq_of_toNat_eq ?_, BitVec.eq_of_toNat_eq ?_, BitVec.eq_of_toNat_eq ?_⟩
  · rw [at_eq, BitVec.toNat_ofNat]
    omega
  · rw [at_eq, BitVec.toNat_ofNat]
    refine Eq.trans ?_ (toNat_append_words _ _).symm
    simp [Nat.shiftRight_eq_div_pow]
    omega
  · rw [at_eq, BitVec.toNat_ofNat]
    refine Eq.trans ?_ (toNat_append_words _ _).symm
    simp
    omega

theorem ctl_written (w : Nat) : BitVec.ofNat 32 (field w 0 0) = if w.testBit 0 then 1 else 0 := by
  have h : field w 0 0 = w % 2 := by simp [field_eq]
  rw [h, Nat.testBit_zero]
  obtain h | h := Nat.mod_two_eq_zero_or_one w <;> simp [h]

/-- What each write of the vector table makes of the entry. -/
theorem IrqVec.written_eq (x : IrqVec) (data : BitVec 64) :
    x.written (coveredWord 0 8 data) = { x with addr := data } ∧
    x.written (coveredWord 0 4 data) = { x with addr := x.addr.extractLsb' 32 32 ++ data.setWidth 32 } ∧
    x.written (coveredWord 4 4 data) = { x with addr := (data.setWidth 32 : BitVec 32) ++ x.addr.setWidth 32 } ∧
    x.written (coveredWord 8 4 data) = { x with data := data.setWidth 32 } ∧
    x.written (coveredWord 8 8 data) = { x with data := data.setWidth 32, ctl := if data.getLsbD 32 then 1 else 0 } ∧
    x.written (coveredWord 12 4 data) = { x with ctl := if data.getLsbD 0 then 1 else 0 } := by
  obtain ⟨hkeep, hlow, hhigh⟩ := addr_written x.addr data
  have hdata : BitVec.ofNat 32 (data.toNat % 2 ^ 32) = data.setWidth 32 := BitVec.eq_of_toNat_eq (by simp)
  have hctl (n : Nat) : BitVec.ofNat 32 (field (n % 2 ^ 32) 0 0) = if n.testBit 0 then 1 else 0 := by
    rw [ctl_written, Nat.testBit_mod_two_pow]
    simp
  have hbit : (data.toNat / 2 ^ 32).testBit 0 = data.getLsbD 32 := by
    rw [Nat.testBit_div_two_pow, Nat.zero_add]
    rfl
  have hfirst (off size : Nat) (h : 4 ≤ size) := coveredWord_first (off := off) h data
  have hsecond (off : Nat) := coveredWord_second (off := off) data
  have hout (off size w : Nat) (h : ¬ (off ≤ w ∧ w + 4 ≤ off + size)) := coveredWord_of_outside h data
  refine ⟨?_, ?_, ?_, ?_, ?_, ?_⟩
  · simp only [IrqVec.written, hfirst 0 8 (by decide), hsecond 0, hout 0 8 8 (by decide), hout 0 8 12 (by decide), Option.getD_some,
      (addr_written data data).1]
  · simp only [IrqVec.written, hfirst 0 4 (by decide), hout 0 4 4 (by decide), hout 0 4 8 (by decide), hout 0 4 12 (by decide),
      Option.getD_some, Option.getD_none, hlow]
  · simp only [IrqVec.written, hfirst 4 4 (by decide), hout 4 4 0 (by decide), hout 4 4 8 (by decide), hout 4 4 12 (by decide),
      Option.getD_some, Option.getD_none, hhigh]
  · simp only [IrqVec.written, hfirst 8 4 (by decide), hout 8 4 0 (by decide), hout 8 4 4 (by decide), hout 8 4 12 (by decide),
      Option.getD_none, hkeep, hdata]
  · simp only [IrqVec.written, hfirst 8 8 (by decide), hsecond 8, hout 8 8 0 (by decide), hout 8 8 4 (by decide),
      Option.getD_none, hkeep, hdata, ctl_written, hbit]
  · simp only [IrqVec.written, hfirst 12 4 (by decide), hout 12 4 0 (by decide), hout 12 4 4 (by decide), hout 12 4 8 (by decide),
      Option.getD_none, hkeep, hctl]
    rfl

/-! ## Partition sleep -/

variable {s : State} {p tag : Nat}

/-- A taken write runs its meaning after the OK response. -/
theorem Block.TakesPartWrite.partWrite (h : b.TakesPartWrite p tag) (off : Nat) (f : Block → Block) :
    b.partWrite p tag off f = f b.okWrite := by
  simp only [Block.partWrite, h.up, h.ready, Bool.not_true, Bool.false_eq_true, if_false]
  exact if_pos h.owns

/-- A taken write to the page of partition p, as a change of the block. -/
theorem exec_partPage {i : Instr} {off : Nat} {f : Block → Block} (h : s.blk.TakesPartWrite p tag)
    (he : exec i s = s.run fun b => b.partWrite p tag off f) : exec i s = .next { s with blk := f s.blk.okWrite } := by
  rw [he, State.run, h.partWrite]

theorem exec_partitionSleep (h : s.blk.TakesPartWrite p tag) :
    exec (.partitionSleep p tag) s = .next { s with blk := s.blk.okWrite.sleep p } :=
  exec_partPage (f := fun b => b.sleep p) (off := 0x20) h rfl

theorem exec_partitionWake (h : s.blk.TakesPartWrite p tag) :
    exec (.partitionWake p tag) s = .next { s with blk := s.blk.okWrite.wakeUp p } :=
  exec_partPage (f := fun b => b.wakeUp p) (off := 0x20) h rfl

/-- The partition asleep, its sleeps counted. -/
def Block.slept (b : Block) (p : Nat) : Block :=
  b.modPart p fun q => { q with asleep := true, sleeps := min (q.sleeps + 1) (2 ^ 16 - 1) }

/-- The partition awake. -/
def Block.woken (b : Block) (p : Nat) : Block := b.modPart p fun q => { q with asleep := false }

/-- What waking does to a vector. -/
def Block.wakeVec (b : Block) (v : Nat) : Block :=
  let b := b.modVec v fun x => { x with woke := false }
  if (b.vec v).due then b.releaseVec v else b.examineVec v

theorem Block.sleep_of_awake (h : (b.part p).asleep = false) : b.sleep p = (b.vecsOf p).foldl Block.releaseVec (b.slept p) :=
  if_neg (by simp [Block.asleep, h])

theorem Block.sleep_of_asleep (h : (b.part p).asleep = true) : b.sleep p = b := if_pos h

theorem Block.wakeUp_of_asleep (h : (b.part p).asleep = true) : b.wakeUp p = (b.vecsOf p).foldl Block.wakeVec (b.woken p) :=
  if_neg (by simp [Block.asleep, h])

theorem Block.wakeUp_of_awake (h : (b.part p).asleep = false) : b.wakeUp p = b := if_pos (by simp [Block.asleep, h])

end

/-- Settles O24: what falls due is `Block.fallDue`, what lets a held message go `Block.releaseVec`. -/
theorem interruptMessages : Obligations.InterruptMessages := by
  unfold Obligations.InterruptMessages
  refine ⟨?_, ?_, ?_⟩
  · intro s v x p reached only sent
    have he : exec (.modTimeExpiry v) s = .next { s with blk := s.blk.examineVec v } := rfl
    have hreached : x.reached s.blk.now = true ↔ reached := by
      simp only [IrqVec.reached, Bool.and_eq_true, Bool.or_eq_true, decide_eq_true_eq]
      rfl
    have honly {b : Block} (h : s.blk.VecOnly b v) : only { s with blk := b } :=
      ⟨h.vec, congrArg (fun b : Block => { s with blk := b }) (h.withSport rfl)⟩
    have hwrite (hup : s.blk.mode.porstLow = false) (off size : Nat) (data : BitVec 64) (hsize : size = 8 ∨ size = 4)
        (halign : (0x100000 + 16 * v + off) % size = 0) : exec (.vectorTableWrite v off size 0 data) s =
          let b := s.blk.okWrite.modVec v fun _ => x.written (coveredWord off size data)
          .next { s with blk := if x.ctl.getLsbD 0 = true ∨ x.addr.toNat % 4 ≠ 0 then b.releaseVec v else b } := by
      rw [exec_table (f := fun b => b.vecTable v off size data) hup hsize halign rfl]
      refine next_congr ?_
      have hheld : ((s.blk.okWrite.vec v).masked || (s.blk.okWrite.vec v).misaligned) = true ↔
          x.ctl.getLsbD 0 = true ∨ x.addr.toNat % 4 ≠ 0 := by
        rw [Bool.or_eq_true, IrqVec.misaligned, bne_iff_ne]
        rfl
      rw [Block.vecTable_eq, Block.modVec_congr (g := fun _ => x.written (coveredWord off size data)) rfl]
      exact if_congr hheld rfl rfl
    have hdue (hr : reached) (hdue : x.due = false) : exec (.modTimeExpiry v) s = .next { s with blk := s.blk.fallDue v } := by
      rw [he]
      exact next_congr (Block.examineVec_of_reached hdue (hreached.2 hr))
    refine ⟨fun h => ?_, fun hr hd => ⟨fun hmask hmuted hsleep halign => ?_, fun hmask hmuted hsleep halign => ?_, fun h => ?_⟩,
      fun hup off size data y hmem => ?_, fun hup hmask hd hmuted hsleep halign data hbit => ?_⟩
    · rw [he]
      refine next_congr (Block.examineVec_of_not_reached ?_)
      rw [← Bool.not_eq_true]
      exact h.imp_left fun h => mt hreached.1 h
    · rw [hdue hr hd, Block.fallDue_of_open hmask hmuted hsleep]
      obtain ⟨honly', hbus, hvec⟩ := Block.sendIrq_of_aligned (b := s.blk) (v := v) halign false
      refine ⟨_, rfl, honly honly', hbus, hvec.trans ?_⟩
      simp only [IrqVec.sent, Bool.or_false]
      rfl
    · rw [hdue hr hd, Block.fallDue_of_open hmask hmuted hsleep]
      exact next_congr (Block.sendIrq_of_misaligned halign false)
    · rw [hdue hr hd, Block.fallDue_of_held h]
      exact ⟨_, rfl, honly ((Block.VecOnly.refl _ v).modVec _), rfl, by dsimp only; rw [Block.vec_modVec, if_pos rfl]⟩
    · intro b held
      have hy : x.written (coveredWord off size data) = y ∧ (size = 8 ∨ size = 4) ∧ (0x100000 + 16 * v + off) % size = 0 := by
        obtain ⟨h1, h2, h3, h4, h5, h6⟩ := x.written_eq data
        simp only [List.mem_cons, Prod.mk.injEq, List.not_mem_nil, or_false] at hmem
        obtain ⟨rfl, rfl, rfl⟩ | ⟨rfl, rfl, rfl⟩ | ⟨rfl, rfl, rfl⟩ | ⟨rfl, rfl, rfl⟩ | ⟨rfl, rfl, rfl⟩ | ⟨rfl, rfl, rfl⟩ := hmem
        · exact ⟨h1, .inl rfl, by omega⟩
        · exact ⟨h2, .inr rfl, by omega⟩
        · exact ⟨h3, .inr rfl, by omega⟩
        · exact ⟨h4, .inr rfl, by omega⟩
        · exact ⟨h5, .inl rfl, by omega⟩
        · exact ⟨h6, .inr rfl, by omega⟩
      obtain ⟨hy, hsize, halign⟩ := hy
      rw [hwrite hup off size data hsize halign, hy]
    · have hy : x.written (coveredWord 12 4 data) = { x with ctl := 0 } := by
        obtain ⟨-, -, -, -, -, h⟩ := x.written_eq data
        rw [h, hbit]
        rfl
      let b := s.blk.okWrite.modVec v fun _ => { x with ctl := 0 }
      have hb : b.vec v = { x with ctl := 0 } := by simp only [b, Block.vec_modVec, if_true]
      have hbonly : s.blk.okWrite.VecOnly b v := (Block.VecOnly.refl _ v).modVec _
      have hsend : b.releaseVec v = b.sendIrq v false :=
        Block.releaseVec_of_due (by rw [hb]; exact (by decide : (0 : BitVec 32).getLsbD 0 = false)) hmuted hsleep (by rw [hb]; exact hd)
      obtain ⟨honly', hbus, hvec⟩ := Block.sendIrq_of_aligned (b := b) (v := v) (by rw [hb]; exact halign) false
      rw [hb] at hbus hvec
      have hall : s.blk.okWrite.VecOnly (b.sendIrq v false) v := hbonly.trans honly'
      have hnext : exec (.vectorTableWrite v 12 4 0 data) s = .next { s with blk := b.sendIrq v false } := by
        rw [hwrite hup 12 4 data (.inr rfl) (by omega), hy]
        exact next_congr ((if_pos (.inl hmask)).trans hsend)
      refine ⟨_, hnext, ⟨hall.vec, congrArg (fun b : Block => { s with blk := b }) (hall.withSport rfl)⟩, hbus, hvec.trans ?_⟩
      simp only [IrqVec.sent, Bool.or_false]
  · intro s p tag htakes b slept woken wakes
    refine ⟨fun h => ?_, fun h => ?_, fun h => ?_, fun h => ?_⟩
    · rw [exec_partitionSleep htakes, Block.sleep_of_asleep (b := s.blk.okWrite) h]
    · rw [exec_partitionSleep htakes, Block.sleep_of_awake (b := s.blk.okWrite) h]
      rfl
    · rw [exec_partitionWake htakes, Block.wakeUp_of_awake (b := s.blk.okWrite) h]
    · rw [exec_partitionWake htakes, Block.wakeUp_of_asleep (b := s.blk.okWrite) h]
      rfl
  · intro s p tag v htakes hvecs howner hmask halign hpending hmuted x msg only
    have hpart {f : PartRec → PartRec} {b : Block} (h : (s.blk.okWrite.modPart p f).VecOnly b v) :
        only { s with blk := b } ∧ b.part p = f (s.blk.part p) := by
      have hparts (q : Nat) : b.part q = (s.blk.okWrite.modPart p f).part q := (congrArg (fun x : Block => x.part q) h.block).trans rfl
      have hparts' : b.parts = (s.blk.okWrite.modPart p f).parts := (congrArg Block.parts h.block).trans rfl
      refine ⟨⟨h.vec, fun q hq => ?_, ?_⟩, ?_⟩
      · rw [hparts, Block.part_modPart, if_neg hq.symm]
        rfl
      · refine congrArg (fun b : Block => { s with blk := b }) ?_
        show b = { s.blk.okWrite with parts := b.parts, irq := b.irq, mport := b.mport, bus := b.bus }
        rw [hparts']
        exact h.block
      · rw [hparts, Block.part_modPart, if_pos rfl]
        rfl
    refine ⟨fun hawake => ?_, fun hasleep hdue => ?_⟩
    · let b := s.blk.okWrite.slept p
      have hb : b.vec v = x := rfl
      have howner' : (b.vecOwner v).getD 0 = p := by
        show (s.blk.vecOwner v).getD 0 = p
        rw [howner]
        rfl
      have hbp : b.part p = { s.blk.part p with asleep := true, sleeps := min ((s.blk.part p).sleeps + 1) (2 ^ 16 - 1) } := by
        simp only [b, Block.slept, Block.part_modPart, if_true]
        rfl
      have hsleeps : b.asleep ((b.vecOwner v).getD 0) = true := by rw [howner', Block.asleep, hbp]
      have hmuted' : b.muted v = false := by rw [Block.muted, howner', hbp]; exact hmuted
      have hrelease := Block.releaseVec_of_asleep (b := b) (v := v) hmask hmuted' hsleeps
      have hmay : b.mayWake v = (x.wake && !x.woke) := by
        simp only [Block.mayWake, hsleeps, hb, Bool.true_and]
        rw [decide_eq_true hpending, Bool.and_true]
      have he : exec (.partitionSleep p tag) s = .next { s with blk := b.releaseVec v } := by
        rw [exec_partitionSleep htakes, Block.sleep_of_awake (b := s.blk.okWrite) hawake]
        have hvecs' : s.blk.okWrite.vecsOf p = [v] := hvecs
        rw [hvecs']
        rfl
      obtain ⟨honly', hbus, hvec⟩ := Block.sendIrq_of_aligned (b := b) (v := v) halign true
      rw [hb] at hbus hvec
      rw [howner'] at hbus
      cases hw : (x.wake && !x.woke)
      · rw [hmay, hw, if_neg (by decide)] at hrelease
        rw [hrelease] at he
        obtain ⟨honly, hp⟩ := hpart (Block.VecOnly.refl b v)
        refine ⟨_, he, honly, hp, fun h1 h2 => ?_, fun _ => ⟨rfl, rfl⟩⟩
        simp [h1, h2] at hw
      · rw [hmay, hw, if_pos rfl] at hrelease
        rw [hrelease] at he
        obtain ⟨honly, hp⟩ := hpart honly'
        refine ⟨_, he, honly, hp, fun h1 h2 => ⟨hbus, hvec.trans ?_⟩, fun h => ?_⟩
        · simp only [IrqVec.sent, Bool.or_true]
        · rw [Bool.and_eq_true, Bool.not_eq_true'] at hw
          obtain h | h := h
          · rw [hw.1] at h; exact absurd h (by decide)
          · rw [hw.2] at h; exact absurd h (by decide)
    · let b := s.blk.okWrite.woken p
      let c := b.modVec v fun x => { x with woke := false }
      have hc : c.vec v = { x with woke := false } := by
        simp only [c, Block.vec_modVec, if_true]
        rfl
      have howner' : (c.vecOwner v).getD 0 = p := by
        show (s.blk.vecOwner v).getD 0 = p
        rw [howner]
        rfl
      have hcp : c.part p = { s.blk.part p with asleep := false } := by
        show b.part p = _
        simp only [b, Block.woken, Block.part_modPart, if_true]
        rfl
      have hwoken : b.wakeVec v = c.sendIrq v false := by
        refine (if_pos (by rw [hc]; exact hdue)).trans (Block.releaseVec_of_due (by rw [hc]; exact hmask) ?_ ?_ (by rw [hc]; exact hdue))
        · rw [Block.muted, howner', hcp]
          exact hmuted
        · rw [howner', Block.asleep, hcp]
      have he : exec (.partitionWake p tag) s = .next { s with blk := c.sendIrq v false } := by
        rw [exec_partitionWake htakes, Block.wakeUp_of_asleep (b := s.blk.okWrite) hasleep]
        have hvecs' : s.blk.okWrite.vecsOf p = [v] := hvecs
        rw [hvecs']
        exact next_congr hwoken
      obtain ⟨honly', hbus, hvec⟩ := Block.sendIrq_of_aligned (b := c) (v := v) (by rw [hc]; exact halign) false
      rw [hc] at hbus hvec
      rw [howner'] at hbus
      obtain ⟨honly, hp⟩ := hpart (((Block.VecOnly.refl b v).modVec _).trans honly')
      exact ⟨_, he, honly, hp, hbus, hvec⟩

/-! ## The key-management lock -/

section
variable {s : State} {b : Block} {p k lease : Nat}

theorem OnlyPart.okWrite (s : State) (p : Nat) : OnlyPart s { s with blk := s.blk.okWrite } p :=
  { state := rfl, part := fun _ _ => rfl }

theorem OnlyPart.modPart (h : OnlyPart s { s with blk := b } p) (f : PartRec → PartRec) :
    OnlyPart s { s with blk := b.modPart p f } p where
  state := congrArg (fun t : State => { t with blk := t.blk.modPart p f }) h.state
  part q hq := (Block.part_modPart b p f q).trans ((if_neg hq.symm).trans (h.part q hq))

/-- The word of an ACQUIRE (j = 16) or a RELEASE (j = 17): the lease in its high half, the ring in its low 16 bits, and one bit. -/
theorem lockWord {j : Nat} (hk : k < 2 ^ 16) (hlease : lease < 2 ^ 24) (hj : 16 ≤ j) (hj' : j < 32) :
    let d := (BitVec.ofNat 64 (k + 2 ^ 32 * lease) ||| BitVec.ofNat 64 (2 ^ j)).toNat
    d / 2 ^ 32 = lease ∧ field (d % 2 ^ 32) 15 0 = k ∧
      ∀ i, 16 ≤ i → i < 32 → bit (d % 2 ^ 32) i = decide (i = j) := by
  intro d
  have hpow : 2 ^ j < 2 ^ 32 := Nat.pow_lt_pow_right (by decide) hj'
  have hd : d = (k + 2 ^ 32 * lease) ||| 2 ^ j := by
    simp only [d, BitVec.toNat_or, BitVec.toNat_ofNat]
    rw [Nat.mod_eq_of_lt (by omega), Nat.mod_eq_of_lt (by omega)]
  have hlow : (2 : Nat) ^ j % 2 ^ 16 = 0 := Nat.mod_eq_zero_of_dvd (Nat.pow_dvd_pow 2 hj)
  refine ⟨?_, ?_, fun i hi hi' => ?_⟩
  · rw [hd, Nat.or_div_two_pow, Nat.div_eq_of_lt hpow, Nat.or_zero]
    omega
  · rw [field_eq, pow_zero, Nat.div_one, Nat.mod_mod_of_dvd _ (by decide : 2 ^ (15 - 0 + 1) ∣ 2 ^ 32), hd]
    show _ % 2 ^ 16 = _
    rw [Nat.or_mod_two_pow, hlow, Nat.or_zero]
    omega
  · have hk32 : (k + 2 ^ 32 * lease) % 2 ^ 32 = k := by omega
    have hbit : (k + 2 ^ 32 * lease).testBit i = false := by
      have h := Nat.testBit_mod_two_pow (k + 2 ^ 32 * lease) 32 i
      rw [hk32, decide_eq_true hi', Bool.true_and] at h
      rw [← h]
      exact Nat.testBit_lt_two_pow (hk.trans_le (Nat.pow_le_pow_right (by decide) hi))
    rw [bit, Nat.testBit_mod_two_pow, hd, Nat.testBit_or, hbit, Nat.testBit_two_pow]
    simp [hi', eq_comm]

theorem Block.part_modLock (f : KmLock → KmLock) : (b.modLock p f).part p = { b.part p with lock := f (b.part p).lock } := by
  rw [Block.modLock, Block.part_modPart, if_pos rfl]

/-- The lock with what a write of AV_KM_LOCK brings before its request: the lease. -/
def Block.leased (b : Block) (p lease : Nat) : Block :=
  (b.modLock p fun l => { l with lease }).modLock p fun l => { l with
    contended := l.contended && true, expired := l.expired && true, badReq := l.badReq && true }

theorem Block.lock_leased : ((b.leased p lease).part p) = { b.part p with lock := { (b.part p).lock with lease } } := by
  simp only [Block.leased, Block.part_modLock, Bool.and_true]

/-- What a lock is does not decide the route of its partition's outcomes. -/
theorem Block.route_modLock (f : KmLock → KmLock) : (b.modLock p f).route p = b.route p := by
  have hrole : (b.modLock p f).role p = b.role p := by
    unfold Block.role
    rw [Block.part_modLock]
    rfl
  unfold Block.route
  rw [hrole]
  rfl

theorem Block.route_leased : (b.leased p lease).route p = b.route p :=
  (Block.route_modLock _).trans (Block.route_modLock _)

theorem Block.lockOutcome_of_apply (h : b.route p = .apply) (held : Bool) (holder n : Nat) :
    b.lockOutcome p held holder n = b.setLock p held holder n := by
  unfold Block.lockOutcome
  rw [h]

/-- A taken write of AV_KM_LOCK with a request for a RUNNING ring of the partition: `acquire` for ACQUIRE, RELEASE otherwise. -/
theorem Block.writeLock_eq {d : BitVec 64} (acquire : Bool) (hroute : b.route p = .apply) (howner : b.owner k = some p)
    (hrun : (b.ring k).st = .running) (hlease : lease < 2 ^ 24) (hhigh : d.toNat / 2 ^ 32 = lease)
    (hlow : field (d.toNat % 2 ^ 32) 15 0 = k)
    (hbit : ∀ i, 16 ≤ i → i < 32 → bit (d.toNat % 2 ^ 32) i = decide (i = if acquire then 16 else 17)) :
    b.writeLock p d =
      let c := b.leased p lease
      let l := { (b.part p).lock with lease }
      if acquire then
        if l.held && l.holder != k then c.modLock p fun l => { l with contended := true }
        else c.setLock p true k (leaseTicks lease)
      else if l.held && l.holder == k then c.setLock p false 0 0
      else c.modLock p fun l => { l with badReq := true } := by
  have hfield : field lease 23 0 = lease := by
    rw [field_eq, pow_zero, Nat.div_one]
    exact Nat.mod_eq_of_lt hlease
  have hc : (b.modLock p fun l => { l with lease }).route p ≠ .ignore := by
    rw [Block.route_modLock, hroute]
    decide
  have hbits : bit (d.toNat % 2 ^ 32) 16 = acquire ∧ bit (d.toNat % 2 ^ 32) 17 = !acquire ∧ bit (d.toNat % 2 ^ 32) 21 = false ∧
      bit (d.toNat % 2 ^ 32) 22 = false ∧ bit (d.toNat % 2 ^ 32) 23 = false := by
    rw [hbit 16 (by decide) (by decide), hbit 17 (by decide) (by decide), hbit 21 (by decide) (by decide),
      hbit 22 (by decide) (by decide), hbit 23 (by decide) (by decide)]
    cases acquire <;> decide
  obtain ⟨h16, h17, h21, h22, h23⟩ := hbits
  have hhigh' : b.lockHigh p (d.toNat / 2 ^ 32) = b.modLock p fun l => { l with lease } := by
    unfold Block.lockHigh
    rw [if_neg (by rw [hroute]; decide), hhigh, hfield]
  have howner' : (b.leased p lease).owner k = some p := howner
  have hrun' : ((b.leased p lease).ring k).st = .running := hrun
  have hlock : ((b.leased p lease).part p).lock = { (b.part p).lock with lease } := by rw [Block.lock_leased]
  have hout (held : Bool) (holder n : Nat) : (b.leased p lease).lockOutcome p held holder n = (b.leased p lease).setLock p held holder n :=
    Block.lockOutcome_of_apply (Block.route_leased.trans hroute) _ _ _
  have hleased : (b.modLock p fun l => { l with lease }).modLock p (fun l => { l with
      contended := l.contended && !false, expired := l.expired && !false, badReq := l.badReq && !false }) = b.leased p lease := rfl
  unfold Block.writeLock Block.lockLow
  rw [hhigh', if_neg hc]
  simp only [h16, h17, h21, h22, h23, hlow, hleased, howner', hrun', hlock, hout]
  cases acquire <;> simp

end

/-- Settles O25: an ACQUIRE or RELEASE brings its lease and then changes the lock as `Block.writeLock_eq` says. -/
theorem keyManagementLock : Obligations.KeyManagementLock := by
  unfold Obligations.KeyManagementLock
  intro s p tag k lease htakes hroute howner hrun hk hlease hfree q data ticks becomes
  obtain ⟨hhigh, hlow, hbit⟩ := lockWord hk hlease (j := 16) (by decide) (by decide)
  obtain ⟨hhigh', hlow', hbit'⟩ := lockWord hk hlease (j := 17) (by decide) (by decide)
  let c := s.blk.okWrite.leased p lease
  have hacquire : s.blk.okWrite.writeLock p (data ||| BitVec.ofNat 64 (2 ^ 16)) =
      if q.lock.held && q.lock.holder != k then c.modLock p fun l => { l with contended := true } else c.setLock p true k ticks :=
    Block.writeLock_eq (b := s.blk.okWrite) true hroute howner hrun hlease hhigh hlow hbit
  have hrelease : s.blk.okWrite.writeLock p (data ||| BitVec.ofNat 64 (2 ^ 17)) =
      if q.lock.held && q.lock.holder == k then c.setLock p false 0 0 else c.modLock p fun l => { l with badReq := true } :=
    Block.writeLock_eq (b := s.blk.okWrite) false hroute howner hrun hlease hhigh' hlow' hbit'
  have hc : OnlyPart s { s with blk := c } p := ((OnlyPart.okWrite s p).modPart _).modPart _
  have hcp : (c.part p) = { q with lock := { q.lock with lease } } := Block.lock_leased
  have hbecomes {i : Instr} {f : KmLock → KmLock} (he : exec i s = .next { s with blk := c.modLock p f }) :
      becomes i (f { q.lock with lease }) := by
    refine ⟨_, he, hc.modPart _, ?_⟩
    show (c.modLock p f).part p = _
    rw [Block.part_modLock, hcp]
  have hno (j : Nat) {i : Instr} (he : exec i s = s.run fun b => b.accessUnless (b.forwarding (StateItem.locks p)) fun b =>
      b.partWrite p tag 8 fun b => b.writeLock p (data ||| BitVec.ofNat 64 (2 ^ j))) :
      exec i s = .next { s with blk := s.blk.okWrite.writeLock p (data ||| BitVec.ofNat 64 (2 ^ j)) } := by
    rw [he, State.run, Block.accessUnless, if_neg (by simp [hfree]), htakes.partWrite]
  have hexec : exec (.acquire p tag data) s = .next { s with blk := s.blk.okWrite.writeLock p (data ||| BitVec.ofNat 64 (2 ^ 16)) } :=
    hno 16 rfl
  have hexec' : exec (.release p tag data) s = .next { s with blk := s.blk.okWrite.writeLock p (data ||| BitVec.ofNat 64 (2 ^ 17)) } :=
    hno 17 rfl
  have hset : c.setLock p true k ticks = c.modLock p fun l =>
      { l with held := true, holder := k, ends := s.blk.time.interval + ticks
               acquisitions := if l.held && l.holder == k then l.acquisitions else satAdd 8 l.acquisitions 1 } := rfl
  have hfreed : c.setLock p false 0 0 = c.modLock p fun l => { l with held := false, holder := 0 } := rfl
  refine ⟨fun hheld => ?_, fun hheld hholder => ?_, fun hheld hholder => ?_, fun hheld hholder => ?_, fun h => ?_, fun hheld hends => ?_⟩
  · rw [hacquire, if_neg (by simp [hheld]), hset] at hexec
    obtain ⟨t, he, honly, hpart⟩ := hbecomes hexec
    refine ⟨t, he, honly, hpart.trans ?_⟩
    simp only [hheld, Bool.false_and, Bool.false_eq_true, if_false]
    rfl
  · rw [hacquire, if_neg (by simp [hholder]), hset] at hexec
    obtain ⟨t, he, honly, hpart⟩ := hbecomes hexec
    refine ⟨t, he, honly, hpart.trans ?_⟩
    simp only [hheld, hholder, beq_self_eq_true, Bool.and_self, if_true]
  · rw [hacquire, if_pos (by simp [hheld, hholder])] at hexec
    exact hbecomes hexec
  · rw [hrelease, if_pos (by simp [hheld, hholder]), hfreed] at hexec'
    exact hbecomes hexec'
  · rw [hrelease, if_neg (by obtain h | h := h <;> simp [h])] at hexec'
    exact hbecomes hexec'
  · exact next_congr (if_pos (by rw [hheld, Bool.true_and]; exact decide_eq_true hends))

end Sys2Proof.Machine

/-! The thermal, clamp, voltage and frequency governors (01 R23, R24, 18 R386, R389, R391, R394). -/

namespace Sys2Proof.Machine

open Sys2Proof

/-! ## Lists by index -/

theorem nth_of_length_le {α : Type} {d : α} {l : List α} {i : Nat} (h : l.length ≤ i) : nth d l i = d := by
  simp [nth, h]

theorem nth_set_eq {α : Type} {d x : α} {l : List α} {i : Nat} (h : i < l.length) : nth d (l.set i x) i = x := by
  simp [nth, h]

/-- A list made of an index range. -/
theorem nth_map_range {α : Type} (d : α) (f : Nat → α) {n i : Nat} (h : i < n) : nth d ((List.range n).map f) i = f i := by
  simp [nth, h]

theorem nth_replicate_zero (n i : Nat) : nth 0 (List.replicate n 0) i = 0 := by
  rw [nth, List.getD_eq_getElem?_getD, List.getElem?_replicate]
  split <;> rfl

/-! ## Frequencies -/

/-- A change of every frequency by its domain: the time base's clock, and a domain that is not there, keep theirs. -/
theorem Power.nth_mapFreq (w : Power) (f : Nat → Nat → Nat) (d : Nat) :
    nth 0 (w.mapFreq f).freq d = if d < 139 ∧ d < w.freq.length then f d (nth 0 w.freq d) else nth 0 w.freq d := by
  by_cases h : d < w.freq.length
  · simp [Power.mapFreq, nth, h]
  · have hlen : (w.mapFreq f).freq.length ≤ d := by simpa [Power.mapFreq] using h
    rw [nth_of_length_le hlen, nth_of_length_le (not_lt.1 h), if_neg fun hd => h hd.2]

/-- A change that keeps 0 can be read off at every domain. -/
theorem Power.nth_mapFreq_of_zero (w : Power) {f : Nat → Nat → Nat} {d : Nat} (h : f d 0 = 0) :
    nth 0 (w.mapFreq f).freq d = if d < 139 then f d (nth 0 w.freq d) else nth 0 w.freq d := by
  rw [Power.nth_mapFreq]
  by_cases hd : d < w.freq.length
  · simp only [hd, and_true]
  · rw [if_neg fun h => hd h.2, nth_of_length_le (not_lt.1 hd), h, ite_self]

/-! ## The thermal governor -/

theorem stepCeiling_of_hot {sensors : List Int} {clamped : Bool} {c : Nat} (h : ∃ x ∈ sensors, 1150 ≤ x) :
    stepCeiling sensors clamped c = max 4 (c - 1) := if_pos (by simpa using h)

theorem stepCeiling_of_cool {sensors : List Int} {c : Nat} (h : ∀ x ∈ sensors, x < 1120) :
    stepCeiling sensors false c = min 16 (c + 1) := by
  unfold stepCeiling
  rw [if_neg, if_pos]
  · simpa using h
  · simp only [List.any_eq_true, decide_eq_true_eq, not_exists, not_and, not_le]
    intro x hx
    have := h x hx
    omega

theorem stepCeiling_of_warm {sensors : List Int} {clamped : Bool} {c : Nat} (h : ∀ x ∈ sensors, x < 1150)
    (hwarm : ∃ x ∈ sensors, 1120 ≤ x) : stepCeiling sensors clamped c = c := by
  unfold stepCeiling
  rw [if_neg, if_neg]
  · simpa using fun h : ∀ x ∈ sensors, x < 1120 => absurd hwarm (by simpa using h)
  · simpa using h

/-- Settles O57: the step is `stepCeiling` on each region, and the frequencies follow the ceilings. -/
theorem thermalGovernor : Obligations.ThermalGovernor := by
  unfold Obligations.ThermalGovernor
  intro s sensors d r b w now only
  have he : exec (.thermalStep sensors) s = .next { s with blk := b.thermalStep sensors } := rfl
  refine ⟨fun hup hfree hdue hd hr => ?_, fun h => ?_⟩
  · let w' := { w with
      thermalAt := now, tj := sensors
      ceiling := (List.range 8).map fun r => stepCeiling (regionSensors sensors r) (nth false w.clamped r) (nth 16 w.ceiling r) }
    have hstep : b.thermalStep sensors = Block.governs { b with power := w'.mapFreq fun d f => min f (w'.ceilingOf d) } 2 :=
      if_neg (by simp [hup, hfree]; exact hdue)
    have hceiling : nth 16 w'.ceiling r = stepCeiling (regionSensors sensors r) (nth false w.clamped r) (nth 16 w.ceiling r) :=
      nth_map_range 16 _ hr
    rw [he, hstep]
    refine ⟨_, rfl, rfl, rfl, rfl, rfl, rfl, fun h => ?_, fun h hc => ?_, fun h hwarm => ?_, ?_, ?_⟩
    · exact hceiling.trans (stepCeiling_of_hot h)
    · rw [hc] at hceiling
      exact hceiling.trans (stepCeiling_of_cool h)
    · exact hceiling.trans (stepCeiling_of_warm h hwarm)
    · exact (w'.nth_mapFreq_of_zero (f := fun d f => min f (w'.ceilingOf d)) (Nat.zero_min _)).trans (if_pos hd)
    · exact (w'.nth_mapFreq _ _).trans (if_neg fun h => absurd h.1 (by decide))
  · rw [he]
    refine next_congr (b' := s.blk) (if_pos ?_)
    obtain h | h := h
    · simp only [Bool.or_eq_true, decide_eq_true_eq]
      exact .inr h
    · simp [h]

/-! ## The voltage code -/

section
variable {b : Block}

/-- 20 µs have passed since the last change of the code (18 R386). -/
def Block.codeFree (b : Block) : Prop := ∀ t0, b.power.changedAt = some t0 → t0 + 20 ≤ b.now

/-- 20 µs have passed since a tick, if there is one. -/
def waited (at_ : Option Nat) (now : Nat) : Bool := match at_ with | some t => decide (t + 20 ≤ now) | none => true

theorem waited_iff {at_ : Option Nat} {now : Nat} : waited at_ now = true ↔ ∀ t0, at_ = some t0 → t0 + 20 ≤ now := by
  cases at_ <;> simp [waited]

theorem Block.stepCode_eq : b.stepCode =
    if !waited b.power.changedAt b.now then b
    else if b.power.code < b.power.want then b.setCode (min b.power.want (b.power.code + 8))
    else b.setCode (max b.power.want (b.power.code - 8)) := rfl

/-- A code that differs is taken, counted and asked for on the boundary. -/
theorem Block.setCode_of_ne {c : Nat} (h : c ≠ b.power.code) : b.setCode c = { b.put (.vcoreReq c) with power := { b.power with
    code := c, codeMin := min b.power.codeMin c, codeMax := max b.power.codeMax c
    codeChanges := satAdd 16 b.power.codeChanges 1, changedAt := some b.now
    raisedAt := if b.power.code < c then some b.now else b.power.raisedAt } } := if_neg h

theorem Block.setCode_frame (c : Nat) : b.setCode c = { b with power := (b.setCode c).power, bus := (b.setCode c).bus } := by
  unfold Block.setCode
  split <;> rfl

theorem Block.stepCode_of_rise (hfree : b.codeFree) (h : b.power.code < b.power.want) :
    b.stepCode = b.setCode (min b.power.want (b.power.code + 8)) := by
  rw [Block.stepCode_eq, if_neg (by simp [waited_iff.2 hfree]), if_pos h]

theorem Block.stepCode_of_fall (hfree : b.codeFree) (h : b.power.want ≤ b.power.code) :
    b.stepCode = b.setCode (max b.power.want (b.power.code - 8)) := by
  rw [Block.stepCode_eq, if_neg (by simp [waited_iff.2 hfree]), if_neg (not_lt.2 h)]

theorem Block.stepCode_of_quiet (h : ¬ b.codeFree ∨ b.power.want = b.power.code) : b.stepCode = b := by
  by_cases hfree : b.codeFree
  · have hcode := h.resolve_left (not_not.2 hfree)
    rw [Block.stepCode_of_fall hfree hcode.le, hcode, Nat.max_eq_left (Nat.sub_le _ _)]
    exact if_pos rfl
  · rw [Block.stepCode_eq]
    exact if_pos (by simpa using mt waited_iff.1 hfree)

theorem Block.stepCode_frame : b.stepCode = { b with power := b.stepCode.power, bus := b.stepCode.bus } := by
  by_cases hfree : b.codeFree
  · obtain h | h := lt_or_ge b.power.code b.power.want
    · rw [Block.stepCode_of_rise hfree h]
      exact Block.setCode_frame _
    · rw [Block.stepCode_of_fall hfree h]
      exact Block.setCode_frame _
  · rw [Block.stepCode_of_quiet (.inl hfree)]

/-- A step of the code changes nothing else of the power state than the code, its history and its counters. -/
theorem Block.power_stepCode : ∃ code lo hi n at_ raised, b.stepCode.power = { b.power with
    code := code, codeMin := lo, codeMax := hi, codeChanges := n, changedAt := at_, raisedAt := raised } := by
  have hset (c : Nat) : ∃ code lo hi n at_ raised, (b.setCode c).power = { b.power with
      code := code, codeMin := lo, codeMax := hi, codeChanges := n, changedAt := at_, raisedAt := raised } := by
    unfold Block.setCode
    split
    · exact ⟨_, _, _, _, _, _, rfl⟩
    · exact ⟨_, _, _, _, _, _, rfl⟩
  by_cases hfree : b.codeFree
  · obtain h | h := lt_or_ge b.power.code b.power.want
    · rw [Block.stepCode_of_rise hfree h]
      exact hset _
    · rw [Block.stepCode_of_fall hfree h]
      exact hset _
  · rw [Block.stepCode_of_quiet (.inl hfree)]
    exact ⟨_, _, _, _, _, _, rfl⟩

/-- What a block in which the code has changed shows. -/
structure Block.TakesCode (b b' : Block) (c : Nat) : Prop where
  code : b'.power.code = c
  changedAt : b'.power.changedAt = some b.now
  changes : b'.power.codeChanges = min (b.power.codeChanges + 1) (2 ^ 16 - 1)
  bus : b'.bus = b.bus ++ [.vcoreReq c]

theorem Block.takesCode_setCode {c : Nat} (h : c ≠ b.power.code) : b.TakesCode (b.setCode c) c := by
  rw [Block.setCode_of_ne h]
  exact ⟨rfl, rfl, rfl, rfl⟩

/-- The code rises by at most 8 towards the one wanted. -/
theorem Block.takesCode_of_rise (hfree : b.codeFree) (h : b.power.code < b.power.want) :
    b.TakesCode b.stepCode (min b.power.want (b.power.code + 8)) ∧ b.stepCode.power.raisedAt = some b.now := by
  have hlt : b.power.code < min b.power.want (b.power.code + 8) := by omega
  rw [Block.stepCode_of_rise hfree h]
  refine ⟨Block.takesCode_setCode hlt.ne', ?_⟩
  rw [Block.setCode_of_ne hlt.ne']
  exact if_pos hlt

/-- The code falls by at most 8 towards the one wanted. -/
theorem Block.takesCode_of_fall (hfree : b.codeFree) (h : b.power.want < b.power.code) :
    b.TakesCode b.stepCode (max b.power.want (b.power.code - 8)) ∧ b.stepCode.power.raisedAt = b.power.raisedAt := by
  have hlt : max b.power.want (b.power.code - 8) < b.power.code := by omega
  rw [Block.stepCode_of_fall hfree h.le]
  refine ⟨Block.takesCode_setCode hlt.ne, ?_⟩
  rw [Block.setCode_of_ne hlt.ne]
  exact if_neg (not_lt.2 hlt.le)

/-! ## Readings -/

/-- A domain's frequency once it has fallen to the one that a reading sets. -/
def Power.fallen (w : Power) (d f : Nat) : Nat := min f (nth f ((List.range 140).map w.goalOf) d)

/-- A power state with what a reading decides. -/
def Power.decided (w : Power) (want : Nat) (raising : List Nat) : Power := { w with want, raising }

/-- The power state of a reading, its frequencies fallen (18 R386). -/
def Block.readingLow (b : Block) : Power :=
  Power.mapFreq { b.power with
    readingAt := b.now, goal := (List.range 140).map b.power.goalOf, load := List.replicate 140 0
    gated := (List.range 94).filter fun d => !b.busyDomains.contains d && Config.gatesIdle d (nth 0 b.power.load d) } b.power.fallen

/-- The power state that a reading leaves before the code takes its step. -/
def Block.reading (b : Block) (needs : List Nat) : Power :=
  b.readingLow.decided (b.readingLow.wanted needs) ((List.range 139).filter fun d =>
    decide (nth 0 b.readingLow.freq d < nth 0 ((List.range 140).map b.power.goalOf) d) && !b.power.stopped.contains d)

theorem Block.dvfsReading_of_due {needs : List Nat} (hgov : b.governed = true) (hfree : b.governorFree 3 = true)
    (hdue : b.power.readingAt + 1000 ≤ b.now) :
    b.dvfsReading needs = (Block.stepCode { b with power := b.reading needs }).governs 3 :=
  if_neg (by simp [hgov, hfree, hdue])

theorem Block.dvfsReading_of_not_due {needs : List Nat} (h : b.now < b.power.readingAt + 1000 ∨ b.governorFree 3 = false) :
    b.dvfsReading needs = b :=
  if_pos (by obtain h | h := h <;> simp [h])

/-- The frequency that a reading leaves a domain before it rises. -/
def Power.lowOf (w : Power) (x : Nat) : Nat := if x < 139 then min (nth 0 w.freq x) (w.goalOf x) else nth 0 w.freq x

/-- A reading leaves the code and its history. -/
theorem Block.code_reading (needs : List Nat) :
    (b.reading needs).code = b.power.code ∧ (b.reading needs).changedAt = b.power.changedAt ∧
    (b.reading needs).codeChanges = b.power.codeChanges ∧ (b.reading needs).raisedAt = b.power.raisedAt := by
  have hdecided (w : Power) (want : Nat) (raising : List Nat) : (w.decided want raising).code = w.code ∧
    (w.decided want raising).changedAt = w.changedAt ∧ (w.decided want raising).codeChanges = w.codeChanges ∧
    (w.decided want raising).raisedAt = w.raisedAt := ⟨rfl, rfl, rfl, rfl⟩
  exact hdecided _ _ _

theorem Block.freq_reading (needs : List Nat) (x : Nat) : nth 0 (b.reading needs).freq x = b.power.lowOf x := by
  have hzero : b.power.fallen x 0 = 0 := Nat.zero_min _
  refine (Power.nth_mapFreq_of_zero _ hzero).trans ?_
  rw [Power.lowOf]
  split
  · next hx => exact congrArg (min _) (nth_map_range _ _ (by omega))
  · rfl

theorem Block.goal_reading (needs : List Nat) {x : Nat} (hx : x < 140) : nth 0 (b.reading needs).goal x = b.power.goalOf x :=
  nth_map_range _ _ hx

theorem Block.mem_raising_reading (needs : List Nat) (x : Nat) :
    x ∈ (b.reading needs).raising ↔ x < 139 ∧ b.power.lowOf x < b.power.goalOf x ∧ x ∉ b.power.stopped := by
  have hmem : x ∈ (b.reading needs).raising ↔ x < 139 ∧
      nth 0 (b.reading needs).freq x < nth 0 ((List.range 140).map b.power.goalOf) x ∧ x ∉ b.power.stopped := by
    simp only [Block.reading, Power.decided, Block.readingLow, Power.mapFreq, List.mem_filter, List.mem_range, Bool.and_eq_true, decide_eq_true_eq,
      Bool.not_eq_true', List.contains_eq_mem, decide_eq_false_iff_not]
  rw [hmem, Block.freq_reading]
  refine and_congr_right fun hx => ?_
  rw [nth_map_range 0 b.power.goalOf (by omega : x < 140)]

theorem Block.mem_gated_reading (needs : List Nat) (x : Nat) :
    x ∈ (b.reading needs).gated ↔ x < 94 ∧ x ∉ b.busyDomains ∧ Config.gatesIdle x (nth 0 b.power.load x) = true := by
  simp only [Block.reading, Power.decided, Block.readingLow, Power.mapFreq, List.mem_filter, List.mem_range, Bool.and_eq_true, Bool.not_eq_true',
    List.contains_eq_mem, decide_eq_false_iff_not]

end

/-! ## The clamp -/

section
variable {b : Block} {sensor : Nat} {temp : Int}

/-- The power state of a clamp before the frequencies of its region fall. -/
def Power.clampSet (w : Power) (sensor : Nat) (temp : Int) : Power := { w with
  tj := w.tj.set sensor temp, clamped := w.clamped.set (sensor / 4) true, clamps := satAdd 16 w.clamps 1
  ceiling := w.ceiling.set (sensor / 4) 4, raising := w.raising.filter fun d => regionOf d != sensor / 4 }

theorem Block.thermalClamp_of_hot (hup : b.mode.porstLow = false) (hot : 1250 ≤ temp)
    (hfree : nth false b.power.clamped (sensor / 4) = false) :
    b.thermalClamp sensor temp = { b with power := ((b.power.clampSet sensor temp).mapFreq fun d f =>
      if regionOf d = sensor / 4 then min f 4 else f) } := by
  unfold Block.thermalClamp
  rw [if_neg (by simp [hup, hot])]
  exact if_neg (by simp [hfree])

theorem Block.thermalClamp_of_mild (h : temp < 1250) : b.thermalClamp sensor temp = b := if_pos (by simp [h])

theorem Block.thermalClampLift_of_cool {r : Nat} {sensors : List Int} (hup : b.mode.porstLow = false) (h : ∀ x ∈ sensors, x < 1200) :
    b.thermalClampLift r sensors = { b with power := { b.power with
      clamped := b.power.clamped.set r false, tj := b.power.tj.take (4 * r) ++ sensors ++ b.power.tj.drop (4 * r + 4) } } := by
  refine if_neg ?_
  simpa [hup] using h

theorem Block.thermalClampLift_of_warm {r : Nat} {sensors : List Int} (h : ∃ x ∈ sensors, 1200 ≤ x) :
    b.thermalClampLift r sensors = b := by
  refine if_pos ?_
  rw [Bool.or_eq_true]
  exact .inr (by simpa using h)

/-! ## Raises and locks -/

variable {d : Nat}

/-- A domain's frequency once domain d has risen to the one set for it. -/
def Power.risen (w : Power) (d i f : Nat) : Nat := if i = d then max f (min (nth 0 w.goal d) (w.ceilingOf d)) else f

theorem Block.frequencyRaise_of_met (hgov : b.governed = true) (hraising : d ∈ b.power.raising) (hstopped : d ∉ b.power.stopped)
    (hmet : b.power.want ≤ b.power.code) (hheld : ∀ t0, b.power.raisedAt = some t0 → t0 + 20 ≤ b.now) :
    b.frequencyRaise d = { b with power := { b.power.mapFreq (b.power.risen d) with
      raising := b.power.raising.filter (· != d) } } := by
  have hwaited : waited b.power.raisedAt b.now = true := waited_iff.2 hheld
  refine if_neg ?_
  show ¬ (!b.governed || !b.power.raising.contains d || b.power.stopped.contains d || decide (b.power.code < b.power.want) ||
    !waited b.power.raisedAt b.now) = true
  simp [hgov, hraising, hstopped, hmet, hwaited]

theorem Block.frequencyRaise_of_unmet (h : b.power.code < b.power.want) : b.frequencyRaise d = b := by
  refine if_pos ?_
  rw [Bool.or_eq_true, Bool.or_eq_true]
  exact .inl (.inr (decide_eq_true h))

theorem Block.pllUnlock_one (hup : b.mode.porstLow = false) : b.pllUnlock [d] = { b with power := { b.power with
    pllUnlock := true
    stopped := if d = 139 ∨ d ∈ b.power.stopped then b.power.stopped else b.power.stopped ++ [d] } } := by
  unfold Block.pllUnlock
  rw [if_neg (by simp [hup])]
  by_cases h : d = 139 ∨ d ∈ b.power.stopped
  · have hfilter : ([d].filter fun d => d != 139 && !b.power.stopped.contains d) = [] := by
      obtain h | h := h <;> simp [h]
    rw [hfilter, if_pos h, List.append_nil]
  · have hfilter : ([d].filter fun d => d != 139 && !b.power.stopped.contains d) = [d] := by
      simpa using h
    rw [hfilter, if_neg h]

end

/-- Settles O58: the code moves as `Block.stepCode` says, and what a reading sets is `Block.reading`. -/
theorem powerGovernors : Obligations.PowerGovernors := by
  unfold Obligations.PowerGovernors
  intro s sensors d r b w now only free takes goal low
  refine ⟨fun temp hot hup hr hfree hclamped hceiling hd => ?_, fun temp hcool => ?_, fun hup hcool => ?_, fun hwarm => ?_,
    fun needs hgov hgfree hdue => ?_, fun needs h => ?_, fun hgov => ?_, fun hgov hraising hstopped hd hlen => ⟨fun hmet hheld => ?_, fun hunmet => ?_⟩,
    fun hup => ?_, fun ds => ?_⟩
  · have he : exec (.thermalClamp r temp) s = .next { s with blk := b.thermalClamp r temp } := rfl
    have hr4 : r / 4 < 8 := by omega
    rw [he, Block.thermalClamp_of_hot hup hot hfree]
    refine ⟨_, rfl, rfl, nth_set_eq (hr4.trans_le hclamped), rfl, nth_set_eq (hr4.trans_le hceiling), rfl, ?_, ?_⟩
    · refine (Power.nth_mapFreq_of_zero _ ?_).trans (if_pos hd)
      split <;> rfl
    · simp only [Power.mapFreq, Power.clampSet, List.mem_filter, bne_iff_ne]
      rfl
  · exact next_congr (Block.thermalClamp_of_mild hcool)
  · exact next_congr (Block.thermalClampLift_of_cool hup hcool)
  · exact next_congr (Block.thermalClampLift_of_warm hwarm)
  · have he : exec (.dvfsReading needs) s = .next { s with blk := b.dvfsReading needs } := rfl
    obtain ⟨v, hv⟩ : ∃ v, b.reading needs = v := ⟨_, rfl⟩
    obtain ⟨c, hc, hbus, hnow, hpow⟩ : ∃ c : Block, { b with power := v } = c ∧ c.bus = b.bus ∧ c.now = now ∧ c.power = v :=
      ⟨_, rfl, rfl, rfl, rfl⟩
    rw [← hv] at hc hpow
    obtain ⟨code, lo, hi, n, at_, raised, hpower⟩ := c.power_stepCode
    have hframe : c.stepCode.governs 3 = { b with
        power := c.stepCode.power, bus := c.stepCode.bus, sched := { b.sched with governor := (now, 3) } } := by
      rw [c.stepCode_frame, ← hc]
      rfl
    have hcode : c.power.code = w.code ∧ c.power.changedAt = w.changedAt ∧ c.power.codeChanges = w.codeChanges ∧
        c.power.raisedAt = w.raisedAt := by
      rw [hpow]
      exact Block.code_reading needs
    obtain ⟨hcode, hchangedAt, hchanges, hraisedAt⟩ := hcode
    have hwant : c.stepCode.power.want = c.power.want := by rw [hpower]
    have hfree : free ↔ c.codeFree := by rw [Block.codeFree, hchangedAt, hnow]
    have htakes {n : Nat} (h : c.TakesCode c.stepCode n) : c.stepCode.power.code = n ∧ c.stepCode.power.changedAt = some now ∧
        c.stepCode.power.codeChanges = min (w.codeChanges + 1) (2 ^ 16 - 1) ∧ c.stepCode.bus = b.bus ++ [.vcoreReq n] := by
      refine ⟨h.code, ?_, ?_, ?_⟩
      · rw [h.changedAt, hnow]
      · rw [h.changes, hchanges]
      · rw [h.bus, hbus]
    have hstep : exec (.dvfsReading needs) s = .next { s with blk := c.stepCode.governs 3 } := by
      rw [he, Block.dvfsReading_of_due hgov hgfree hdue, hc]
    refine ⟨_, hstep, ?_, ?_, fun x => ⟨?_, ?_, fun hx => ?_, ?_, ?_⟩, fun hf hlt => ?_, fun hf hlt => ?_, fun h => ?_, ?_⟩
    · show c.stepCode.power.readingAt = now
      rw [hpower, hpow]
      rfl
    · show c.stepCode.power.want = c.stepCode.power.wanted needs
      rw [hpower, hpow]
      rfl
    · show nth 0 c.stepCode.power.freq x = low x
      rw [hpower, hpow]
      exact Block.freq_reading needs x
    · show nth 0 c.stepCode.power.load x = 0
      rw [hpower, hpow]
      exact nth_replicate_zero _ _
    · show nth 0 c.stepCode.power.goal x = goal x
      rw [hpower, hpow]
      exact Block.goal_reading needs hx
    · show x ∈ c.stepCode.power.gated ↔ _
      rw [hpower, hpow]
      exact Block.mem_gated_reading needs x
    · show x ∈ c.stepCode.power.raising ↔ _
      rw [hpower, hpow]
      exact Block.mem_raising_reading needs x
    · obtain ⟨htaken, hraised⟩ := Block.takesCode_of_rise (hfree.1 hf) (hcode.trans_lt (hlt.trans_eq hwant))
      rw [hcode, ← hwant] at htaken
      exact ⟨htakes htaken, hraised.trans (congrArg some hnow)⟩
    · obtain ⟨htaken, hraised⟩ := Block.takesCode_of_fall (hfree.1 hf) (hwant.symm.trans_lt (hlt.trans_eq hcode.symm))
      rw [hcode, ← hwant] at htaken
      exact ⟨htakes htaken, hraised.trans hraisedAt⟩
    · have hquiet : c.stepCode = c := Block.stepCode_of_quiet
        (h.imp (mt hfree.2) fun h => hwant.symm.trans (h.trans hcode.symm))
      show c.stepCode.power.code = w.code ∧ c.stepCode.bus = b.bus
      rw [hquiet]
      exact ⟨hcode, hbus⟩
    · exact congrArg (fun x : Block => { s with blk := x }) hframe
  · exact next_congr (Block.dvfsReading_of_not_due h)
  · have he : exec .vcoreCodeStepDue s = .next { s with blk := b.stepCode } := next_congr (if_pos hgov)
    obtain ⟨code, lo, hi, n, at_, raised, hpower⟩ := b.power_stepCode
    refine ⟨_, he, ?_, ?_, ?_, ?_, fun hf hlt => ?_, fun hf hlt => ?_, fun h => ?_⟩
    · show b.stepCode.power.want = w.want
      rw [hpower]
    · show b.stepCode.power.raising = w.raising
      rw [hpower]
    · show b.stepCode.power.freq = w.freq
      rw [hpower]
    · exact congrArg (fun x : Block => { s with blk := x }) b.stepCode_frame
    · obtain ⟨htakes, -⟩ := Block.takesCode_of_rise hf hlt
      exact ⟨htakes.code, htakes.changedAt, htakes.changes, htakes.bus⟩
    · obtain ⟨htakes, -⟩ := Block.takesCode_of_fall hf hlt
      exact ⟨htakes.code, htakes.changedAt, htakes.changes, htakes.bus⟩
    · exact congrArg (fun x : Block => { s with blk := x }) (Block.stepCode_of_quiet h)
  · have he : exec (.frequencyRaise d) s = .next { s with blk := b.frequencyRaise d } := rfl
    rw [he, Block.frequencyRaise_of_met hgov hraising hstopped hmet hheld]
    refine ⟨_, rfl, rfl, ?_, fun x hx => ?_, ?_, rfl⟩
    · exact (w.nth_mapFreq (w.risen d) d).trans ((if_pos ⟨hd, hlen⟩).trans (if_pos rfl))
    · refine (w.nth_mapFreq (w.risen d) x).trans ?_
      split
      · exact if_neg hx
      · rfl
    · simp
  · exact next_congr (Block.frequencyRaise_of_unmet hunmet)
  · exact next_congr (Block.pllUnlock_one hup)
  · have he : exec (.pllLock ds) s = .next { s with blk := b.pllLock ds } := rfl
    refine ⟨_, he, rfl, fun x => ?_, rfl, rfl⟩
    simp only [Block.pllLock, List.mem_filter, List.contains_eq_mem, Bool.not_eq_true', decide_eq_false_iff_not]
    rfl

end Sys2Proof.Machine

/-! Failed master-port requests, and completions as they are written (02 R41, 04 R82 to R86). -/

namespace Sys2Proof.Machine

open Sys2Proof

/-! ## Failed requests -/

section
variable {b : Block} {r : Request} {timedOut : Bool}

theorem Block.releaseFor_of_not_home (h : b.role r.part ≠ .home) : b.releaseFor r = b := if_neg fun hr => h hr.1

/-- The error registers after a failed request: its bit and its port's count. -/
def MasterPorts.failed (m : MasterPorts) (r : Request) (timedOut : Bool) : MasterPorts := { m with
  err := m.err ||| BitVec.ofNat 8 (2 ^ ((if timedOut then 3 else r.kind.errBit) + 4 * r.port))
  count0 := if r.port = 0 then satAdd 32 m.count0 1 else m.count0
  count1 := if r.port = 0 then m.count1 else satAdd 32 m.count1 1 }

/-- A failed request is recorded in the error registers and the recorder, and nowhere else. -/
theorem Block.recordFailure_eq : b.recordFailure r timedOut =
    { b with mport := b.mport.failed r timedOut, recorder := (b.recordFailure r timedOut).recorder } := by
  have hports : b.recordFailure r timedOut = ({ b with mport := b.mport.failed r timedOut } : Block).noteRec 0x0061 0 r.port
      (if timedOut then 3 else r.kind.errBit) := by
    unfold Block.recordFailure Block.countPort MasterPorts.failed
    by_cases h : r.port = 0 <;> simp only [h, if_true, if_false]
  rw [hports]
  exact Block.onlyRec_noteRec _ _ _ _ _ (by decide)

/-- The detail of an ST_SG_FAULT. -/
theorem sgDetail_eq {cause port : Nat} (h : port < 2) :
    sgDetail cause port timedOut = cause + 64 * port + if timedOut then 128 else 0 := by
  rw [sgDetail, at_eq, at_eq, Nat.mod_eq_of_lt h]
  cases timedOut <;> rfl

/-- A failed request of an entry in its stage. -/
theorem Block.sgFault_of_stage {k : Nat} {i : Index} {e : Entry} {cause : Nat} (h : b.entry? k i = some e) (hport : r.port < 2) :
    b.sgFault k i e.stage cause r timedOut =
      b.finish e St.sgFault (cause + 64 * r.port + if timedOut then 128 else 0) e.engine 0 (BitVec.ofNat 64 r.addr) := by
  unfold Block.sgFault
  rw [h]
  exact (if_pos rfl).trans (by rw [sgDetail_eq hport])

end

/-- Settles O16: what a failure records is `Block.recordFailure_eq`, what its work takes `Block.failedOutcome`. -/
theorem masterPortFailure : Obligations.MasterPortFailure := by
  unfold Obligations.MasterPortFailure
  refine ⟨?_, ?_⟩
  · intro s r timedOut hup hfind hport htime c which failed
    have hrequest : s.blk.request? r.id = some r := (if_neg (by simp [hup])).trans hfind
    have hwhich : which = if timedOut then 3 else r.kind.errBit := by cases timedOut <;> cases hk : r.kind <;> simp [which, hk, ReqKind.errBit]
    have he : exec c s = .next { s with blk := (failed.failedOutcome r timedOut).releaseFor r } := by
      cases timedOut
      · show s.run (fun b => match b.request? r.id with | some r => b.portFailed r false | none => b) = _
        rw [State.run, hrequest]
        rfl
      · show s.run (fun b => match b.request? r.id with
          | some r => if r.issued + 10000 ≤ b.now then b.portFailed r true else b | none => b) = _
        rw [State.run, hrequest]
        exact next_congr (if_pos (htime rfl))
    have hfailed : failed = { s.blk.retireReq r with
        mport := (s.blk.retireReq r).mport.failed r timedOut, recorder := failed.recorder } := Block.recordFailure_eq
    clear_value failed
    have hrole : failed.role = s.blk.role := by
      rw [hfailed]
      rfl
    have hentry (k : Nat) (i : Index) : failed.entry? k i = s.blk.entry? k i := by
      rw [hfailed]
      rfl
    have hnow : failed.now = s.blk.now := by
      rw [hfailed]
      rfl
    refine ⟨he, ⟨?_, ?_, ?_, ?_, ?_⟩, fun k i e cause hentry' hmem => ?_, fun hhome => ⟨fun k i hp => ?_, fun v hp => ⟨fun hagain => ?_, fun hagain => ?_⟩⟩⟩
    · rw [hfailed, hwhich]
      rfl
    · rw [hfailed]
      rfl
    · rw [hfailed]
      rfl
    · rw [hfailed]
      rfl
    · conv_lhs => rw [hfailed]
      rw [show failed.mport = (s.blk.retireReq r).mport.failed r timedOut from (congrArg Block.mport hfailed).trans rfl]
      rfl
    · have hfault {stage : Stage} (hstage : e.stage = stage)
          (h : failed.failedOutcome r timedOut = failed.sgFault k i stage cause r timedOut) :
          failed.failedOutcome r timedOut =
            failed.finish e St.sgFault (cause + 64 * r.port + if timedOut then 128 else 0) e.engine 0 (BitVec.ofNat 64 r.addr) := by
        rw [h, ← hstage]
        exact Block.sgFault_of_stage ((hentry k i).trans hentry') hport
      simp only [List.mem_cons, Prod.mk.injEq, List.not_mem_nil, or_false] at hmem
      obtain ⟨hp, rfl, hs⟩ | ⟨hp, rfl, hs⟩ | ⟨hp, rfl, hs⟩ | ⟨hp, rfl, hs⟩ | ⟨hp, rfl, hs⟩ | ⟨hp, rfl, hs⟩ := hmem
      all_goals
        refine hfault hs ?_
        unfold Block.failedOutcome
        rw [hp]
    · have hout : failed.failedOutcome r timedOut = failed := by
        unfold Block.failedOutcome
        rw [hp]
        rfl
      rw [he, hout, Block.releaseFor_of_not_home (by rw [hrole]; exact hhome)]
    · have hout : failed.failedOutcome r timedOut = failed.irqFailed v r := by
        unfold Block.failedOutcome
        rw [hp]
      rw [he, hout, Block.irqFailed, if_neg (by simp [hagain]), hnow]
      exact next_congr (Block.releaseFor_of_not_home (by rw [show (failed.modVec v _).role = failed.role from rfl, hrole]; exact hhome))
    · have hout : failed.failedOutcome r timedOut = failed.irqFailed v r := by
        unfold Block.failedOutcome
        rw [hp]
      rw [he, hout, Block.irqFailed, if_pos hagain]
      refine next_congr (Block.releaseFor_of_not_home ?_)
      have hrec : failed.OnlyRec (failed.noteRec 0x0061 2 r.port 5) := Block.onlyRec_noteRec _ _ _ _ _ (by decide)
      have hrole' : (failed.noteRec 0x0061 2 r.port 5).role = failed.role := (congrArg Block.role hrec).trans rfl
      rw [hrole', hrole]
      exact hhome
  · intro s v port addr due data rest hreissue hdue
    have he : exec (.irqMessageReissue v) s = .next { s with blk := s.blk.reissueIrq v } := rfl
    refine ⟨fun hmuted => ?_, fun hmuted => ?_⟩
    · have hstep : s.blk.reissueIrq v = (s.blk.issueOrdered port ((s.blk.vecOwner v).getD 0) 0xFFFF addr data (.irq v) true).modVec v
          fun x => { x with reissue := rest } := by
        unfold Block.reissueIrq
        rw [hreissue]
        exact if_pos ⟨hdue, by simp [hmuted]⟩
      rw [he, hstep]
      refine ⟨_, rfl, ?_, fun w hw => ?_, rfl, ⟨_, rfl, rfl, rfl, rfl, rfl⟩, rfl⟩
      · exact (Block.vec_modVec _ _ _ _).trans (if_pos rfl)
      · exact (Block.vec_modVec _ _ _ _).trans (if_neg hw.symm)
    · rw [he]
      refine next_congr (b' := s.blk) ?_
      unfold Block.reissueIrq
      rw [hreissue]
      exact if_neg fun h => by simp [hmuted] at h

/-! ## Completions -/

section
variable {b : Block} {c : Completion} {k : Nat}

/-- Completions take no overrun's place where none is an overrun. -/
theorem Block.ring_placeOverrun_of_no_overrun (h : ∀ x ∈ (b.ring k).held, x.overrun = false) (j : Nat) :
    (b.placeOverrun k).ring j = b.ring j := by
  have hnone : (b.ring k).held.findIdx? (fun c => c.overrun && c.slot.isNone) = none := by
    rw [List.findIdx?_eq_none_iff]
    intro x hx
    simp [h x hx]
  unfold Block.placeOverrun
  split
  · rfl
  · rw [Block.ring_modRing]
    split
    · next hj => simp only [hnone, ← hj]
    · rfl

theorem Block.RingsOnly.placeOverrun {b' : Block} (h : b.RingsOnly b' k) : b.RingsOnly (b'.placeOverrun k) k := by
  unfold Block.placeOverrun
  split
  · exact h
  · exact h.modRing _

/-- The bytes of a completion of which none are held ready. -/
theorem Block.bytesOf_eq (q : Index) : b.bytesOf c q =
    let word := c.status % 256 + 2 ^ 8 * (c.detail % 256) +
      2 ^ 16 * ((1 - q.toNat / 2 ^ (b.ring c.ring).cmpLog2 % 2) % 2) + 2 ^ 17 * (b.twin.side % 2) + 2 ^ 24 * (c.engine % 256)
    toLE 8 c.tag.toNat ++ toLE 4 word ++ toLE 4 c.outLen ++ toLE 4 c.sub.toNat ++ toLE 4 (b.time.sched.toNat % 2 ^ 32) ++
      toLE 8 c.result.toNat := by
  simp only [Block.bytesOf, completionBytes, statusWord, phaseOf, at_eq, Nat.shiftRight_eq_div_pow]

/-- From b to b' a completion of ring k has been written: ring k, the completion counters, and what goes out. -/
structure Block.Wrote (b b' : Block) (k : Nat) : Prop where
  block : b' = { b with rings := b'.rings, mport := b'.mport, bus := b'.bus, pay := b'.pay }
  ring : ∀ j, j ≠ k → b'.ring j = b.ring j

theorem Block.Wrote.after {b' b'' : Block} (h : b.RingsOnly b' k) (h' : b'.Wrote b'' k) : b.Wrote b'' k where
  block := h'.block.trans (congrArg (fun x : Block => { x with rings := b''.rings, mport := b''.mport, bus := b''.bus, pay := b''.pay }) h.block)
  ring j hj := (h'.ring j hj).trans (h.ring j hj)

theorem Block.Wrote.before {b' b'' : Block} (h : b.Wrote b' k) (h' : b'.RingsOnly b'' k) : b.Wrote b'' k where
  block := by
    have hpay : b''.pay = b'.pay := (congrArg Block.pay h'.block).trans rfl
    have hbus : b''.bus = b'.bus := (congrArg Block.bus h'.block).trans rfl
    have hmport : b''.mport = b'.mport := (congrArg Block.mport h'.block).trans rfl
    rw [hpay, hbus, hmport]
    exact h'.block.trans (congrArg (fun x : Block => { x with rings := b''.rings }) h.block)
  ring j hj := (h'.ring j hj).trans (h.ring j hj)

/-- The write of a completion that ends no entry of the block. -/
theorem Block.writeCompletion_of_no_entry (hentry : b.entry? c.ring c.sub = none) (hbytes : c.bytes = none) :
    b.Wrote (b.writeCompletion c) c.ring ∧
    (∃ i, (b.writeCompletion c).ring c.ring = { b.ring c.ring with
      q := (b.ring c.ring).q + 1, c := i
      sig := (b.ring c.ring).sig ++ [{ q := (b.ring c.ring).q, raises := c.raises, port := c.port }] }) ∧
    (b.writeCompletion c).bus = b.bus ++ [.write c.port (b.ownerD c.ring) c.ring
      ((b.ring c.ring).cmpBase.toNat + 32 * ((b.ring c.ring).q.toNat % 2 ^ (b.ring c.ring).cmpLog2)) true
      (b.bytesOf c (b.ring c.ring).q)] := by
  let o := b.issueOrdered c.port (b.ownerD c.ring) c.ring
    ((b.ring c.ring).cmpBase.toNat + 32 * ((b.ring c.ring).q.toNat % 2 ^ (b.ring c.ring).cmpLog2)) (b.bytesOf c (b.ring c.ring).q)
    (.completion c.ring (b.ring c.ring).q) false
  let m := o.modRing c.ring fun r => { r with q := r.q + 1, sig := r.sig ++ [{ q := r.q, raises := c.raises, port := c.port }] }
  let n := m.modRing c.ring fun r => { r with c := m.release c.ring }
  have hwrite : b.writeCompletion c = { n with pay := n.pay.counted c.status } := by
    have hnone (port part ring addr : Nat) (data : Bytes) (pur : Purpose) (again : Bool) :
        (b.issueOrdered port part ring addr data pur again).entry? c.ring c.sub = none := hentry
    unfold Block.writeCompletion
    simp only [hbytes, Option.getD_none, hnone, ite_self]
    rfl
  have hring (j : Nat) : (b.writeCompletion c).ring j = n.ring j := by
    rw [hwrite]
    rfl
  refine ⟨⟨?_, fun j hj => ?_⟩, ⟨m.release c.ring, ?_⟩, ?_⟩
  · rw [hwrite]
    rfl
  · rw [hring]
    simp only [n, m, Block.ring_modRing, hj.symm, if_false]
    rfl
  · rw [hring]
    simp only [n, Block.ring_modRing, if_true]
    simp only [m, Block.ring_modRing, if_true]
    rfl
  · rw [hwrite]
    rfl

/-- A flush of a RUNNING ring whose one held completion may be written. -/
theorem Block.flushHeld_of_one (hheld : (b.ring k).held = [c]) (hover : c.overrun = false) (hslot : c.slot = none)
    (hfailed : (b.ring k).failedW = []) (hstopped : (b.part (b.ownerD k)).tw.stopped = false)
    {w : Block} (hw : w = ((b.placeOverrun k).modRing k fun r => { r with held := r.held.eraseIdx 0 }).writeCompletion c)
    (hnone : (w.ring k).held = []) (hst : (w.ring k).st ≠ .stopping) : b.flushHeld k = w.placeOverrun k := by
  have hall : ∀ x ∈ (b.ring k).held, x.overrun = false := by
    rw [hheld]
    intro x hx
    rw [List.mem_singleton.1 hx, hover]
  have hring := Block.ring_placeOverrun_of_no_overrun hall k
  have hpart : (b.placeOverrun k).part ((b.placeOverrun k).ownerD k) = b.part (b.ownerD k) := by
    rw [((RingsOnly.refl b k).placeOverrun).block]
    rfl
  have hfind : [c].findIdx? ((b.placeOverrun k).writable k) = some 0 := by
    simp [Block.writable, hslot, hover, List.findIdx?_cons]
  have hstep : Block.flushHeldAux k 2 b = Block.flushHeldAux k 1 w := by
    rw [Block.flushHeldAux]
    simp only [hring, hpart, hheld, hfailed, hstopped, hfind, List.isEmpty_nil, Bool.not_true, Bool.or_self, Bool.false_eq_true,
      if_false, List.getElem?_cons_zero]
    rw [hw]
  rw [Block.flushHeld, hheld]
  show (Block.flushHeldAux k 2 b).settleRing k = _
  rw [hstep, Block.flushHeldAux_of_no_held hnone 0, Block.settleRing_of_not_stopping]
  rwa [Block.ring_placeOverrun_of_no_held hnone]

/-! ## Acceptance -/

/-- The acceptance of an outstanding write. -/
theorem exec_writeResponse {s : State} {q : Request} (hup : s.blk.mode.porstLow = false)
    (hfind : (s.blk.mport.outst.find? fun y => y.id == q.id) = some q) (hkind : q.kind = .write) :
    exec (.writeResponse q.port q.id) s = .next { s with blk := (s.blk.retireReq q).acceptedOutcome q } := by
  have hrequest : s.blk.request? q.id = some q := (if_neg (by simp [hup])).trans hfind
  show s.run (fun b => match b.request? q.id with
    | some r => if r.kind = .write ∧ r.port = q.port then (b.retireReq r).acceptedOutcome r else b | none => b) = _
  rw [State.run, hrequest]
  exact next_congr (if_pos ⟨hkind, rfl⟩)

/-- The acceptance of a completion's write. -/
theorem Block.acceptedOutcome_of_completion {q : Request} {i : Index} (h : q.purpose = .completion k i) :
    b.acceptedOutcome q = (((b.modRing k fun r => { r with
      failedW := r.failedW.filter fun x => !(x.out && x.req == q.id) }).completionAccepted k i).resumeRing k).flushHeld k := by
  have hout : b.acceptedOutcome q = b.orderedAccepted k q := by
    unfold Block.acceptedOutcome
    rw [h]
  rw [hout]
  unfold Block.orderedAccepted
  rw [h]

/-- The shadow word goes out. -/
theorem Block.wrote_writeShadow (port : Nat) (q : Index) : b.Wrote (b.writeShadow k port q) k := ⟨rfl, fun _ _ => rfl⟩

/-- The one completion that waits for its acceptance is accepted, and raises no vector. -/
theorem Block.completionAccepted_of_one {x : Signal} (hsig : (b.ring k).sig = [x]) (hraises : x.raises = false)
    (hstopped : (b.part (b.ownerD k)).tw.stopped = false) :
    b.completionAccepted k x.q = ((b.modRing k fun r => { r with sig := r.sig.map fun s =>
      if s.q == x.q then { s with accepted := true } else s }).modRing k fun r => { r with sig := r.sig.drop 1 }).writeShadow k
        x.port (x.q + 1) := by
  have hring : ((b.modRing k fun r => { r with sig := r.sig.map fun s =>
      if s.q == x.q then { s with accepted := true } else s }).ring k).sig = [{ x with accepted := true }] := by
    rw [Block.ring_modRing, if_pos rfl]
    show (b.ring k).sig.map _ = _
    rw [hsig]
    simp
  unfold Block.completionAccepted Block.signal
  rw [hring]
  refine (if_neg ?_).trans ?_
  · show ¬ (b.part (b.ownerD k)).tw.stopped = true
    simp [hstopped]
  · simp [hraises]

theorem Block.RingsOnly.resumeRing {b' : Block} (h : b.RingsOnly b' k) : b.RingsOnly (b'.resumeRing k) k := h.modRing _

/-- A ring that is not in FAULT has no fault to end. -/
theorem Block.ring_resumeRing_of_no_fault (h : (b.ring k).st ≠ .fault) : (b.resumeRing k).ring k = b.ring k := by
  rw [Block.resumeRing, Block.ring_modRing, if_pos rfl]
  exact if_neg fun hf => h hf.1

end

/-- Settles O26: a completion is `Block.writeCompletion`, and its acceptance `Block.completionAccepted`. -/
theorem completionWritten : Obligations.CompletionWritten := by
  unfold Obligations.CompletionWritten
  refine ⟨?_, ?_⟩
  · intro b c r p hheld hfailed hst hstopped hbytes hslot hover hentry b' raises word
    obtain ⟨h, hh⟩ : ∃ h, h = b.modRing c.ring fun r => { r with held := r.held ++ [c] } := ⟨_, rfl⟩
    obtain ⟨o, ho⟩ : ∃ o, o = (h.placeOverrun c.ring).modRing c.ring fun r => { r with held := r.held.eraseIdx 0 } := ⟨_, rfl⟩
    obtain ⟨w, hw⟩ : ∃ w, w = o.writeCompletion c := ⟨_, rfl⟩
    have hhring : h.ring c.ring = { r with held := [c] } := by
      rw [hh, Block.ring_modRing, if_pos rfl, show (b.ring c.ring).held = [] from hheld]
      rfl
    have hall : ∀ x ∈ (h.ring c.ring).held, x.overrun = false := by
      rw [hhring]
      intro x hx
      rw [List.mem_singleton.1 hx, hover]
    have horing : o.ring c.ring = r := by
      rw [ho, Block.ring_modRing, if_pos rfl, Block.ring_placeOverrun_of_no_overrun hall, hhring]
      show { r with held := [] } = r
      rw [← hheld]
    have honly : b.RingsOnly h c.ring := by
      rw [hh]
      exact (Block.RingsOnly.refl b c.ring).modRing _
    have honly' : b.RingsOnly o c.ring := by
      rw [ho]
      exact honly.placeOverrun.modRing _
    have hstopped' : (h.part (h.ownerD c.ring)).tw.stopped = false := by
      rw [honly.block]
      exact hstopped
    have hown : o.ownerD = b.ownerD := by
      rw [honly'.block]
      rfl
    have hentry' : o.entry? c.ring c.sub = none := by
      rw [honly'.block]
      exact hentry
    obtain ⟨hwrote, ⟨i, hwring⟩, hbus⟩ := Block.writeCompletion_of_no_entry hentry' hbytes
    rw [← hw] at hwrote hwring hbus
    rw [horing] at hwring hbus
    have hbytes' : o.bytesOf c r.q = b.bytesOf c r.q := by
      rw [Block.bytesOf_eq, horing, honly'.block]
      exact (Block.bytesOf_eq r.q).symm
    have hnone : (w.ring c.ring).held = [] := by
      rw [hwring]
      exact hheld
    have hst' : (w.ring c.ring).st ≠ .stopping := by
      rw [hwring]
      show r.st ≠ _
      rw [hst]
      decide
    have hemit : b.emit c = h.flushHeld c.ring := by rw [hh]; rfl
    have hflush : b' = w.placeOverrun c.ring := hemit.trans
      (Block.flushHeld_of_one (by rw [hhring]) hover hslot (by rw [hhring]; exact hfailed) hstopped' (by rw [hw, ho]) hnone hst')
    have hring : b'.ring c.ring = w.ring c.ring := by
      rw [hflush, Block.ring_placeOverrun_of_no_held hnone]
    have hwhole : b.Wrote b' c.ring := by
      rw [hflush]
      exact (hwrote.after honly').before ((Block.RingsOnly.refl w c.ring).placeOverrun)
    have hbus' : b'.bus = w.bus := by
      rw [hflush, ((Block.RingsOnly.refl w c.ring).placeOverrun).block]
    have hobus : o.bus = b.bus := by rw [honly'.block]
    rw [hring, hwring]
    refine ⟨rfl, hheld, rfl, rfl, ?_, ?_, hwhole.ring, ?_, hwhole.block⟩
    · show r.sig ++ _ = r.sig ++ _
      have hraises : c.raises = raises := by
        simp only [raises, Completion.raises, hover, Bool.or_false]
      rw [hraises]
    · rw [hbus', hbus, hbytes', hown, hobus, Block.bytesOf_eq]
    · exact (congrArg Block.entries hwhole.block).trans rfl
  · intro s k q x hup hfind hkind hpurpose r p hsig hraises hst hheld hfailed hstopped
    have he := exec_writeResponse hup hfind hkind
    obtain ⟨b, hb⟩ : ∃ b, b = s.blk.retireReq q := ⟨_, rfl⟩
    obtain ⟨m, hm⟩ : ∃ m, m = b.modRing k fun r => { r with failedW := r.failedW.filter fun x => !(x.out && x.req == q.id) } := ⟨_, rfl⟩
    obtain ⟨n, hn⟩ : ∃ n, n = (m.modRing k fun r => { r with sig := r.sig.map fun s =>
      if s.q == x.q then { s with accepted := true } else s }).modRing k fun r => { r with sig := r.sig.drop 1 } := ⟨_, rfl⟩
    obtain ⟨w, hw⟩ : ∃ w, w = n.writeShadow k x.port (x.q + 1) := ⟨_, rfl⟩
    have hbring : b.ring = s.blk.ring := by rw [hb]; rfl
    have hmring : m.ring k = r := by
      rw [hm, Block.ring_modRing, if_pos rfl, hbring]
      show { r with failedW := r.failedW.filter _ } = r
      rw [hfailed, List.filter_nil, ← hfailed]
    have honly : b.RingsOnly m k := by
      rw [hm]
      exact (Block.RingsOnly.refl b k).modRing _
    have honly' : b.RingsOnly n k := by
      rw [hn]
      exact (honly.modRing _).modRing _
    have hnring : n.ring k = { r with sig := [] } := by
      rw [hn, Block.ring_modRing, if_pos rfl, Block.ring_modRing, if_pos rfl, hmring]
      show { r with sig := (r.sig.map _).drop 1 } = _
      rw [hsig]
      rfl
    have hmstopped : (m.part (m.ownerD k)).tw.stopped = false := by
      rw [honly.block, hb]
      exact hstopped
    have haccepted : m.completionAccepted k x.q = w := by
      rw [hw, hn]
      exact Block.completionAccepted_of_one (by rw [hmring]; exact hsig) hraises hmstopped
    have hwring : w.ring k = { r with sig := [] } := by
      rw [hw, ← hnring]
      rfl
    have hst' : (w.ring k).st ≠ .fault := by
      rw [hwring]
      show r.st ≠ _
      rw [hst]
      decide
    have houtcome : b.acceptedOutcome q = (w.resumeRing k).flushHeld k := by
      rw [Block.acceptedOutcome_of_completion hpurpose, ← hm, haccepted]
    have hresume := Block.ring_resumeRing_of_no_fault hst'
    have hheld' : ((w.resumeRing k).ring k).held = [] := by
      rw [hresume, hwring]
      exact hheld
    have hstopping : ((w.resumeRing k).ring k).st ≠ .stopping := by
      rw [hresume, hwring]
      show r.st ≠ _
      rw [hst]
      decide
    rw [Block.flushHeld_of_no_held hheld' hstopping] at houtcome
    obtain ⟨z, hz⟩ : ∃ z, z = b.acceptedOutcome q := ⟨_, rfl⟩
    rw [← hb, ← hz] at he
    rw [houtcome] at hz
    have hwhole : b.Wrote z k := by
      rw [hz, hw]
      exact ((Block.wrote_writeShadow _ _).after honly').before ((Block.RingsOnly.refl _ k).resumeRing.placeOverrun)
    have hzring : z.ring k = { r with sig := [] } := by
      rw [hz, Block.ring_placeOverrun_of_no_held hheld', hresume, hwring]
    have hzbus : z.bus = s.blk.bus ++ [.write x.port p k r.shadow.toNat true (toLE 4 (x.q + 1).toNat ++ toLE 4 r.c.toNat)] := by
      have hwbus : z.bus = w.bus := by
        rw [hz, ((Block.RingsOnly.refl w k).resumeRing.placeOverrun).block]
      have hshadow : w.bus = n.bus ++ [.write x.port (n.ownerD k) k (n.ring k).shadow.toNat true
          (toLE 4 (x.q + 1).toNat ++ toLE 4 (n.ring k).c.toNat)] := by
        rw [hw]
        rfl
      have hown : n.ownerD k = p ∧ n.bus = s.blk.bus := by
        rw [honly'.block, hb]
        exact ⟨rfl, rfl⟩
      rw [hwbus, hshadow, hnring, hown.1, hown.2]
    have hpay : z.pay = b.pay := by
      rw [hz, ((Block.RingsOnly.refl w k).resumeRing.placeOverrun).block, hw]
      exact (congrArg Block.pay honly'.block).trans rfl
    refine ⟨_, he, hzring, fun j hj => (hwhole.ring j hj).trans (congrFun hbring j), hzbus, ?_⟩
    refine congrArg (fun x : Block => { s with blk := x }) (hwhole.block.trans ?_)
    rw [hpay, hb]
    rfl

end Sys2Proof.Machine

/-! Descriptors on their way: class credit, staging, work without an engine, output, the read-back and the time limit
(13 R294, 06 R124, 05 R103, R112, 02 R40, 01 R18). -/

namespace Sys2Proof.Machine

open Sys2Proof

/-! ## Entries -/

section
variable {b : Block} {k : Nat} {i : Index} {e : Entry}

theorem Block.key_of_entry? (h : b.entry? k i = some e) : e.ring = k ∧ e.sub = i := by
  have := List.find?_some h
  simpa using this

theorem find?_map_entry (f : Entry → Entry) (hf : ∀ e : Entry, e.ring = k → e.sub = i → (f e).ring = k ∧ (f e).sub = i)
    (l : List Entry) :
    ((l.map fun e => if e.ring == k && e.sub == i then f e else e).find? fun e => e.ring == k && e.sub == i) =
      (l.find? fun e => e.ring == k && e.sub == i).map f := by
  induction l with
  | nil => rfl
  | cons x l ih =>
    by_cases hx : x.ring = k ∧ x.sub = i
    · obtain ⟨hring, hsub⟩ := hf x hx.1 hx.2
      simp [hx.1, hx.2, hring, hsub]
    · have hne : (x.ring == k && x.sub == i) = false := by simpa using hx
      simp only [List.map_cons, List.find?_cons, hne, Bool.false_eq_true, if_false]
      exact ih

/-- An entry changed keeps its place in the block. -/
theorem Block.entry?_modEntry {f : Entry → Entry} (hf : ∀ e : Entry, e.ring = k → e.sub = i → (f e).ring = k ∧ (f e).sub = i) :
    (b.modEntry k i f).entry? k i = (b.entry? k i).map f := find?_map_entry f hf b.entries

/-- A change that leaves the key of every entry. -/
theorem Block.entry?_modEntry_of_keeps {f : Entry → Entry} (hf : ∀ e : Entry, (f e).ring = e.ring ∧ (f e).sub = e.sub)
    (h : b.entry? k i = some e) : (b.modEntry k i f).entry? k i = some (f e) := by
  rw [Block.entry?_modEntry fun e hk hi => ⟨(hf e).1.trans hk, (hf e).2.trans hi⟩, h]
  rfl

theorem Block.entry?_congr {b' : Block} (h : b'.entries = b.entries) (k : Nat) (i : Index) : b'.entry? k i = b.entry? k i := by
  simp only [Block.entry?, h]

/-- From b to b' nothing changes but the entries and what goes out on the boundary. -/
def Block.FlowOnly (b b' : Block) : Prop := b' = { b with entries := b'.entries, mport := b'.mport, bus := b'.bus }

theorem Block.FlowOnly.refl (b : Block) : b.FlowOnly b := rfl

theorem Block.FlowOnly.trans {b' b'' : Block} (h : b.FlowOnly b') (h' : b'.FlowOnly b'') : b.FlowOnly b'' := by
  unfold Block.FlowOnly at *
  rw [h', h]

theorem Block.flowOnly_modEntry (k : Nat) (i : Index) (f : Entry → Entry) : b.FlowOnly (b.modEntry k i f) := rfl

/-! ## Reads -/

/-- Reads of pieces go out in order; the entries stay. -/
theorem Block.issue_pieces (port part ring : Nat) (pur : Purpose) (l : List (Nat × Nat)) (b : Block) :
    let b' := l.foldl (fun b pc => (b.put (.read port part ring false pc.1 pc.2)).await port .read pur part pc.1 pc.2 [] false) b
    b'.bus = b.bus ++ l.map (fun x => .read port part ring false x.1 x.2) ∧ b'.entries = b.entries ∧ b.FlowOnly b' := by
  induction l generalizing b with
  | nil => exact ⟨(List.append_nil _).symm, rfl, rfl⟩
  | cons x l ih =>
    let first := (b.put (.read port part ring false x.1 x.2)).await port .read pur part x.1 x.2 [] false
    obtain ⟨hbus, hentries, honly⟩ := ih first
    have hfirst : b.FlowOnly first := rfl
    refine ⟨?_, hentries.trans rfl, hfirst.trans honly⟩
    refine hbus.trans ?_
    rw [List.map_cons]
    exact List.append_assoc _ _ _

theorem Block.issueRead_spec (port part ring addr len : Nat) (pur : Purpose) :
    (b.issueRead port part ring addr len pur).bus =
      b.bus ++ (pieces addr len).map (fun x => .read port part ring false x.1 x.2) ∧
    (b.issueRead port part ring addr len pur).entries = b.entries ∧ b.FlowOnly (b.issueRead port part ring addr len pur) :=
  Block.issue_pieces port part ring pur _ b

/-- A line is one piece. -/
theorem pieces_line (addr : Nat) : pieces (addr / 64 * 64) 64 = [(addr / 64 * 64, 64)] := by
  have halign : addr / 64 * 64 % 64 = 0 := Nat.mul_mod_left _ _
  have hroom : 64 ≤ 4096 - addr / 64 * 64 % 4096 := by omega
  have hmin : min (64 / 64 * 64) (4096 - addr / 64 * 64 % 4096) = 64 := by omega
  show piecesAux (3 + 1) _ _ = _
  rw [piecesAux]
  simp only [halign, hmin]
  rfl

/-! ## Output -/

/-- A completed descriptor with neither context nor key. -/
theorem Block.scattered_of_plain {r : Result} (hres : e.res = some r) (hctx : r.ctx = none) (hkey : r.key = none) :
    b.scattered e = b.finish e r.status r.detail e.engine r.out.length r.result := by
  unfold Block.scattered Block.writeBack
  simp only [hres, Option.getD_some, hctx, hkey, Option.isSome_none, Bool.false_and, Bool.false_eq_true, if_false]

/-- Output for one contiguous destination is laid out in one piece. -/
theorem layOut_contiguous {out : Bytes} (hsg : e.d.dstSg = false) (hpos : 0 < out.length) (hfits : out.length ≤ e.d.dstLen) :
    layOut e.destination out = [(e.d.dstAddr, out)] := by
  have hne : out.isEmpty = false := by
    rw [List.isEmpty_eq_false_iff]
    exact List.length_pos_iff.1 hpos
  simp [Entry.destination, hsg, layOut, hne, List.take_of_length_le hfits]

end

/-! ## The time limit -/

section
variable {b : Block} {k : Nat} {i : Index} {e : Entry} {t : Nat}

/-- What the time limit counts before the descriptor ends: a timeout of the OX or the lattice units. -/
def Block.countTimeout (b : Block) (family : Nat) : Block :=
  match family with
  | 3 => { b with ox := { b.ox with timeouts := satAdd 16 b.ox.timeouts 1 } }
  | 4 => { b with lat := { b.lat with timeouts := satAdd 16 b.lat.timeouts 1 } }
  | _ => b

theorem Block.timeLimit_eq (h : b.entry? k i = some e) (hat : e.dispatchedAt = some t) :
    b.timeLimit k i =
      if t + 20000000 ≤ b.now ∧ (e.stage = .dispatched ∨ e.stage = .queued) ∧ !(e.resultStands && t + 20000000 == b.now) then
        (b.countTimeout e.d.family).finish e St.timeout 1 e.engine 0 0
      else b := by
  unfold Block.timeLimit
  rw [h]
  simp only [hat]
  rfl

theorem Block.countTimeout_of_other {family : Nat} (h3 : family ≠ Fam.pk) (h4 : family ≠ Fam.lat) : b.countTimeout family = b := by
  unfold Block.countTimeout
  split
  · exact absurd rfl h3
  · exact absurd rfl h4
  · rfl

theorem Entry.resultStands_of_other (h3 : e.d.family ≠ Fam.pk) (h4 : e.d.family ≠ Fam.lat) : e.resultStands = false := by
  simp [Entry.resultStands, h3, h4]

end

/-- Settles O29: the last acceptance reads one line back, the read-back completes the descriptor, and the time limit ends what
still runs. -/
theorem outputAndTimeLimit : Obligations.OutputAndTimeLimit := by
  unfold Obligations.OutputAndTimeLimit
  refine ⟨?_, ?_⟩
  · intro s k i e r hentry hres
    refine ⟨fun q hup hfind hkind hpurpose hstage => ?_, fun hstage hkey hctx => ?_⟩
    · have he := exec_writeResponse hup hfind hkind
      have hout : (s.blk.retireReq q).acceptedOutcome q = (s.blk.retireReq q).outputAccepted k i := by
        unfold Block.acceptedOutcome
        rw [hpurpose]
      rw [hout] at he
      obtain ⟨b, hb⟩ : ∃ b, b = s.blk.retireReq q := ⟨_, rfl⟩
      have hentry' : b.entry? k i = some e := by rw [hb]; exact hentry
      rw [← hb] at he ⊢
      refine ⟨fun hawaits => ?_, fun hawaits hsg hpos hfits => ?_⟩
      · rw [he]
        refine next_congr ?_
        unfold Block.outputAccepted
        rw [hentry']
        exact if_pos (by simp [hawaits])
      · let m := b.modEntry k i fun e => { e with stage := .readback }
        have hstep : b.outputAccepted k i =
            m.issueRead e.outPort e.part k ((e.d.dstAddr + r.out.length - 1) / 64 * 64) 64 (.readback k i) := by
          unfold Block.outputAccepted
          rw [hentry']
          refine (if_neg (by simp [hstage, hawaits])).trans ?_
          rw [hres, Option.getD_some, layOut_contiguous hsg hpos hfits]
          rfl
        obtain ⟨hbus, hentries, honly⟩ := Block.issueRead_spec (b := m) e.outPort e.part k
          ((e.d.dstAddr + r.out.length - 1) / 64 * 64) 64 (.readback k i)
        rw [← hstep] at hbus hentries honly
        have hwhole : s.blk.FlowOnly (b.outputAccepted k i) := by
          refine Block.FlowOnly.trans ?_ ((b.flowOnly_modEntry k i _).trans honly)
          rw [hb]
          rfl
        refine ⟨_, he, ?_, ?_, congrArg (fun x : Block => { s with blk := x }) hwhole⟩
        · exact (Block.entry?_congr hentries k i).trans
            (Block.entry?_modEntry_of_keeps (f := fun e => { e with stage := .readback }) (fun _ => ⟨rfl, rfl⟩) hentry')
        · refine hbus.trans ?_
          rw [pieces_line]
          show b.bus ++ _ = _
          rw [hb]
          rfl
    · refine next_congr ?_
      show s.blk.readbackReturn k i = _
      unfold Block.readbackReturn
      rw [hentry]
      exact (if_neg (by simp [hstage])).trans (Block.scattered_of_plain hres hctx hkey)
  · intro s k i e at_ hentry hat hstage late
    have he : exec (.descriptorTimeLimit k i) s = .next { s with blk := s.blk.timeLimit k i } := rfl
    rw [Block.timeLimit_eq hentry hat] at he
    have hcond (htime : at_ + 20000000 < s.blk.time.interval ∨ at_ + 20000000 = s.blk.time.interval ∧ e.resultStands = false) :
        at_ + 20000000 ≤ s.blk.now ∧ (e.stage = .dispatched ∨ e.stage = .queued) ∧
          !(e.resultStands && at_ + 20000000 == s.blk.now) := by
      obtain hlt | ⟨heq, hstands⟩ := htime
      · have hne : (at_ + 20000000 == s.blk.now) = false := beq_eq_false_iff_ne.2 hlt.ne
        exact ⟨hlt.le, hstage, by rw [hne, Bool.and_false]; rfl⟩
      · exact ⟨heq.le, hstage, by rw [hstands, Bool.false_and]; rfl⟩
    refine ⟨fun hle h3 h4 => ?_, fun htime => ⟨fun h3 => ?_, fun h4 => ?_⟩, fun hstands heq => ?_, fun hlt => ?_⟩
    · rw [if_pos ⟨hle, hstage, by simp [Entry.resultStands_of_other h3 h4]⟩, Block.countTimeout_of_other h3 h4] at he
      exact he
    · rw [if_pos (hcond htime), h3] at he
      exact he
    · rw [if_pos (hcond htime), h4] at he
      exact he
    · rw [if_neg fun h => by simp [hstands, ← heq, Block.now] at h] at he
      exact he
    · rw [if_neg fun h => absurd h.1 (not_le.2 hlt)] at he
      exact he

/-! ## Class credit -/

section
variable {b : Block} {p : Nat} {e : Entry}

/-- The entry that waits for class credit is one of the partition. -/
theorem Block.part_of_creditNext (h : b.creditNext p = some e) : e.part = p := by
  unfold Block.creditNext at h
  obtain ⟨hwait, -⟩ := Option.filter_eq_some_iff.1 h
  obtain ⟨hmem, -⟩ := argMin_mem_and_min _ hwait
  obtain ⟨-, hmem⟩ := List.mem_filter.1 hmem
  rw [Bool.and_eq_true, beq_iff_eq] at hmem
  exact hmem.1

/-- The cost that check 2 gives an entry's estimate (13 R291). -/
def Block.estimate (b : Block) (p : Nat) (e : Entry) : Nat :=
  let alg := b.codeOf p e.d.k1
  let order2 := match b.persCfg? (b.persOf e alg) with | some c => c.maskOrder == 2 | none => false
  e.d.cost alg order2 (b.ownSlot p e.d.k1)

/-- The entry that waits, put to check 2 and to its class's credit. -/
theorem Block.creditAdmit_eq (hwait : b.stagingWait p = none) (h : b.creditNext p = some e) : b.creditAdmit p =
    match b.check2 e (b.codeOf p e.d.k1) with
    | some (detail, need) => b.refuse e St.length detail (BitVec.ofNat 64 need)
    | none =>
      if 0 < nth 0 (b.part p).balance e.d.engineClass then
        b.admitEntry e (b.estimate p e) (b.codeOf p e.d.k1) (b.persOf e (b.codeOf p e.d.k1)) false
      else if b.mayBorrow p e.d.engineClass then
        b.admitEntry e (b.estimate p e) (b.codeOf p e.d.k1) (b.persOf e (b.codeOf p e.d.k1)) true
      else b := by
  unfold Block.creditAdmit
  rw [hwait, h]
  rfl

/-- A partition with a charge of a class, or a loan. -/
def PartRec.charge (q : PartRec) (c cost : Nat) (borrowed : Bool) : PartRec := { q with
  balance := if borrowed then q.balance else modNth (· - (cost : Int)) c q.balance
  spent := modNth (· + cost) c q.spent }

/-- An admitted entry waits for staging lines, and nothing but its partition's credit changes with it. -/
theorem Block.admitEntry_spec (hpart : e.part = p) (hentry : b.entry? e.ring e.sub = some e) (cost alg pers : Nat) (borrowed : Bool) :
    (b.admitEntry e cost alg pers borrowed).entry? e.ring e.sub = some { e with
      stage := .staging, cost, cls := e.d.engineClass, charged := !borrowed, borrowed, waitSince := b.now, alg, pers } ∧
    (b.admitEntry e cost alg pers borrowed).part p = (b.part p).charge e.d.engineClass cost borrowed ∧
    (∀ q, q ≠ p → (b.admitEntry e cost alg pers borrowed).part q = b.part q) ∧
    b.admitEntry e cost alg pers borrowed = { b with
      parts := (b.admitEntry e cost alg pers borrowed).parts, entries := (b.admitEntry e cost alg pers borrowed).entries } := by
  subst hpart
  have hpart (q : Nat) : (b.admitEntry e cost alg pers borrowed).part q =
      (b.modPart e.part (PartRec.charge · e.d.engineClass cost borrowed)).part q := rfl
  refine ⟨?_, ?_, fun q hq => ?_, rfl⟩
  · exact Block.entry?_modEntry_of_keeps (b := b.modPart e.part (PartRec.charge · e.d.engineClass cost borrowed))
      (f := fun e' => { e' with
        stage := .staging, cost, cls := e.d.engineClass, charged := !borrowed, borrowed, waitSince := b.now, alg, pers })
      (fun _ => ⟨rfl, rfl⟩) hentry
  · rw [hpart, Block.part_modPart, if_pos rfl]
  · rw [hpart, Block.part_modPart, if_neg hq.symm]

end

/-- Settles O27: the next entry goes through `Block.creditAdmit_eq`, and a grant begins its gathering. -/
theorem creditAndStaging : Obligations.CreditAndStaging := by
  unfold Obligations.CreditAndStaging
  refine ⟨?_, ?_⟩
  · intro s p e hwait hnext hentry alg c pers order2 cost waits
    have he : exec (.creditAdmit p) s = .next { s with blk := s.blk.creditAdmit p } := rfl
    rw [Block.creditAdmit_eq hwait hnext] at he
    have hcost : s.blk.estimate p e = cost := rfl
    have hadmit (borrowed : Bool) := Block.admitEntry_spec (Block.part_of_creditNext hnext) hentry cost alg pers borrowed
    have hwaits (borrowed : Bool) : waits { s with blk := s.blk.admitEntry e cost alg pers borrowed } (!borrowed) := by
      obtain ⟨hentry', -, hother, hframe⟩ := hadmit borrowed
      refine ⟨?_, hother, congrArg (fun x : Block => { s with blk := x }) hframe⟩
      rw [Bool.not_not]
      exact hentry'
    refine ⟨fun detail need hcheck => ?_, fun hcheck hpos => ?_, fun hcheck hneg hmay => ?_, fun hcheck hneg hmay => ?_⟩
    · rw [hcheck] at he
      exact he
    · rw [hcheck] at he
      simp only [hcost] at he
      rw [if_pos hpos] at he
      obtain ⟨-, hpart, -, -⟩ := hadmit false
      have hbalance (d : Nat) : nth 0 ((s.blk.admitEntry e cost alg pers false).part p).balance d =
          nth 0 (modNth (· - (cost : Int)) c (s.blk.part p).balance) d := by
        rw [hpart]
        rfl
      have hin : c < (s.blk.part p).balance.length := by
        by_contra hout
        rw [nth_of_length_le (not_lt.1 hout)] at hpos
        exact lt_irrefl _ hpos
      refine ⟨_, he, hwaits false, ?_, fun d hd => ?_⟩
      · exact (hbalance c).trans ((nth_modNth _ _ _ _ _).trans (if_pos ⟨rfl, hin⟩))
      · exact (hbalance d).trans ((nth_modNth _ _ _ _ _).trans (if_neg fun h => hd h.1.symm))
    · rw [hcheck] at he
      simp only [hcost] at he
      rw [if_neg (not_lt.2 hneg), if_pos hmay] at he
      obtain ⟨-, hpart, -, -⟩ := hadmit true
      refine ⟨_, he, hwaits true, ?_⟩
      exact (congrArg PartRec.balance hpart).trans rfl
    · rw [hcheck] at he
      simp only [hcost] at he
      rw [if_neg (not_lt.2 hneg), if_neg (by rw [hmay]; decide)] at he
      exact he
  · intro s p e hwait hentry hmay hsrc hdst hprev hrange haux hpos
    have he : exec (.stagingGrant p) s = .next { s with blk := s.blk.stagingGrant p } := rfl
    obtain ⟨m, hm⟩ : ∃ m, m = s.blk.modEntry e.ring e.sub fun e => { e with lines := e.d.stagingLines } := ⟨_, rfl⟩
    obtain ⟨i, hi⟩ : ∃ i, i = m.issueRead m.pickPort e.part e.ring e.d.srcAddr e.d.srcLen (.gather e.ring e.sub) := ⟨_, rfl⟩
    have hgather : m.startGather e = i.modEntry e.ring e.sub fun e => { e with stage := .gather } := by
      unfold Block.startGather
      simp only [hrange, hprev, hsrc, haux, hpos.ne', Bool.false_eq_true, if_false, if_true, List.foldl_cons, List.foldl_nil,
        List.isEmpty_cons, Bool.false_and]
      rw [hi]
    have hstep : s.blk.stagingGrant p = i.modEntry e.ring e.sub fun e => { e with stage := .gather } := by
      unfold Block.stagingGrant
      rw [hwait]
      refine (if_neg (by simp [hmay])).trans ((if_neg (by simp [hsrc, hdst])).trans ?_)
      rw [← hm]
      exact hgather
    obtain ⟨hbus, hentries, honly⟩ := Block.issueRead_spec (b := m) m.pickPort e.part e.ring e.d.srcAddr e.d.srcLen (.gather e.ring e.sub)
    rw [← hi] at hbus hentries honly
    have hmentry : m.entry? e.ring e.sub = some { e with lines := e.d.stagingLines } := by
      rw [hm]
      exact Block.entry?_modEntry_of_keeps (f := fun e => { e with lines := e.d.stagingLines }) (fun _ => ⟨rfl, rfl⟩) hentry
    have hwhole : s.blk.FlowOnly (s.blk.stagingGrant p) := by
      rw [hstep]
      refine Block.FlowOnly.trans ?_ (honly.trans (i.flowOnly_modEntry _ _ _))
      rw [hm]
      exact Block.flowOnly_modEntry _ _ _
    refine ⟨_, he, ?_, ?_, congrArg (fun x : Block => { s with blk := x }) hwhole⟩
    · rw [hstep]
      exact Block.entry?_modEntry_of_keeps (f := fun e => { e with stage := .gather }) (fun _ => ⟨rfl, rfl⟩)
        ((Block.entry?_congr hentries _ _).trans hmentry)
    · rw [hstep]
      refine hbus.trans ?_
      rw [hm]
      rfl

end Sys2Proof.Machine

/-! Work without an engine: NOP and MOVE (05 R103, R112). -/

namespace Sys2Proof.Machine

open Sys2Proof

/-! ## The swap of MOVE -/

section
variable {n : Nat}

/-- Pieces enough are as good as more. -/
theorem chunksAux_of_le (hn : 0 < n) {fuel : Nat} {bs : Bytes} (h : bs.length ≤ fuel) : chunksAux n fuel bs = chunks n bs := by
  have hgen (f : Nat) : ∀ {bs : Bytes} {g : Nat}, bs.length ≤ f → bs.length ≤ g → chunksAux n f bs = chunksAux n g bs := by
    induction f with
    | zero =>
      intro bs g hf _
      have hnil : bs = [] := List.length_eq_zero_iff.1 (Nat.le_zero.1 hf)
      subst hnil
      cases g <;> rfl
    | succ f ih =>
      intro bs g hf hg
      cases bs with
      | nil => cases g <;> rfl
      | cons x bs =>
        obtain ⟨g, rfl⟩ : ∃ g', g = g' + 1 := Nat.exists_eq_add_one.2 (Nat.lt_of_lt_of_le (Nat.succ_pos _) hg)
        have hlen : ((x :: bs).drop n).length ≤ bs.length := by
          rw [List.length_drop, List.length_cons]
          omega
        simp only [List.length_cons] at hf hg
        exact congrArg (((x :: bs).take n) :: ·) (ih (hlen.trans (by omega)) (hlen.trans (by omega)))
  exact hgen fuel h le_rfl

theorem chunks_nil : chunks n [] = [] := rfl

/-- A byte string that begins with a whole piece. -/
theorem chunks_append (hn : 0 < n) {u : Bytes} (hu : u.length = n) (bs : Bytes) : chunks n (u ++ bs) = u :: chunks n bs := by
  obtain ⟨x, u, rfl⟩ : ∃ x v, u = x :: v := List.exists_cons_of_length_pos (hu ▸ hn)
  have htake : (x :: u ++ bs).take n = x :: u := by rw [← hu, List.take_left]
  have hdrop : (x :: u ++ bs).drop n = bs := by rw [← hu, List.drop_left]
  show ((x :: u ++ bs).take n) :: chunksAux n (u ++ bs).length ((x :: u ++ bs).drop n) = _
  rw [htake, hdrop, chunksAux_of_le hn (by simp)]

/-- A change of whole pieces that undoes itself does so on a byte string of whole pieces, and keeps its length. -/
theorem flatMap_chunks_twice (hn : 0 < n) {g : Bytes → Bytes} (hg : ∀ u : Bytes, u.length = n → (g u).length = n ∧ g (g u) = u) :
    ∀ m (bs : Bytes), bs.length = n * m →
      ((chunks n bs).flatMap g).length = bs.length ∧ (chunks n ((chunks n bs).flatMap g)).flatMap g = bs := by
  intro m
  induction m with
  | zero =>
    intro bs h
    have hnil : bs = [] := List.length_eq_zero_iff.1 h
    subst hnil
    exact ⟨rfl, rfl⟩
  | succ m ih =>
    intro bs h
    rw [Nat.mul_succ] at h
    have htake : (bs.take n).length = n := by rw [List.length_take]; omega
    have hdrop : (bs.drop n).length = n * m := by rw [List.length_drop]; omega
    obtain ⟨hlen, htwice⟩ := ih _ hdrop
    obtain ⟨hglen, hgg⟩ := hg _ htake
    have hsplit : chunks n bs = bs.take n :: chunks n (bs.drop n) := by
      conv_lhs => rw [← List.take_append_drop n bs]
      exact chunks_append hn htake _
    rw [hsplit, List.flatMap_cons]
    refine ⟨?_, ?_⟩
    · rw [List.length_append, hlen, hglen]
      omega
    · rw [chunks_append hn hglen, List.flatMap_cons, htwice, hgg, List.take_append_drop]

end

/-- The swap within a unit. -/
def swapWithin (v : Nat) (u : Bytes) : Bytes := if v = 3 then u.drop 2 ++ u.take 2 else u.reverse

theorem swapUnits_eq {v : Nat} (hv : v = 1 ∨ v = 2 ∨ v = 3 ∨ v = 4) (bs : Bytes) :
    swapUnits v bs = (chunks (swapUnit v) bs).flatMap (swapWithin v) := by
  obtain rfl | rfl | rfl | rfl := hv <;> rfl

theorem swapUnits_append {v : Nat} (hv : v = 1 ∨ v = 2 ∨ v = 3 ∨ v = 4) {u : Bytes} (hu : u.length = swapUnit v) (bs : Bytes) :
    swapUnits v (u ++ bs) = swapWithin v u ++ swapUnits v bs := by
  have hpos : 0 < swapUnit v := by obtain rfl | rfl | rfl | rfl := hv <;> decide
  rw [swapUnits_eq hv, swapUnits_eq hv, chunks_append hpos hu, List.flatMap_cons]

/-- The swap keeps the length of a byte string of whole units, and made twice gives it back. -/
theorem swapUnits_twice {v : Nat} (hv : v ≤ 4) {bs : Bytes} (h : bs.length % swapUnit v = 0) :
    (swapUnits v bs).length = bs.length ∧ swapUnits v (swapUnits v bs) = bs := by
  obtain rfl | hv : v = 0 ∨ (v = 1 ∨ v = 2 ∨ v = 3 ∨ v = 4) := by omega
  · exact ⟨rfl, rfl⟩
  · have hpos : 0 < swapUnit v := by obtain rfl | rfl | rfl | rfl := hv <;> decide
    have hg (u : Bytes) (hu : u.length = swapUnit v) : (swapWithin v u).length = swapUnit v ∧ swapWithin v (swapWithin v u) = u := by
      unfold swapWithin
      split
      · next h3 =>
        subst h3
        have hu4 : u.length = 4 := hu
        refine ⟨by simp [hu4, swapUnit], ?_⟩
        obtain ⟨a, b, c, d, rfl⟩ : ∃ a b c d, u = [a, b, c, d] := by
          match u, hu4 with
          | [a, b, c, d], _ => exact ⟨a, b, c, d, rfl⟩
        rfl
      · exact ⟨by rw [List.length_reverse, hu], List.reverse_reverse u⟩
    rw [swapUnits_eq hv, swapUnits_eq hv]
    exact flatMap_chunks_twice hpos hg (bs.length / swapUnit v) bs (Nat.mul_div_cancel' (Nat.dvd_of_mod_eq_zero h)).symm

/-! ## Executed entries -/

section
variable {b : Block} {k : Nat} {i : Index} {e : Entry} {r : Result}

/-- Writes of pieces go out in order; the entries stay. -/
theorem Block.issue_writes (port part ring addr : Nat) (data : Bytes) (pur : Purpose) (l : List (Nat × Nat)) (b : Block) :
    let b' := l.foldl (fun b pc => (b.put (.write port part ring pc.1 false (slice (pc.1 - addr) pc.2 data))).await port .write pur
      part pc.1 pc.2 [] false) b
    b'.entries = b.entries ∧ b.FlowOnly b' := by
  induction l generalizing b with
  | nil => exact ⟨rfl, rfl⟩
  | cons x l ih =>
    let first := (b.put (.write port part ring x.1 false (slice (x.1 - addr) x.2 data))).await port .write pur part x.1 x.2 [] false
    obtain ⟨hentries, honly⟩ := ih first
    have hfirst : b.FlowOnly first := rfl
    exact ⟨hentries.trans rfl, hfirst.trans honly⟩

/-- Output for any destination goes out; the entries stay. -/
theorem Block.issue_output (port part ring : Nat) (pur : Purpose) (l : List (Nat × Bytes)) (b : Block) :
    let b' := l.foldl (fun b x => b.issueWrite port part ring x.1 x.2 pur) b
    b'.entries = b.entries ∧ b.FlowOnly b' := by
  induction l generalizing b with
  | nil => exact ⟨rfl, rfl⟩
  | cons x l ih =>
    obtain ⟨hentries, honly⟩ := Block.issue_writes port part ring x.1 x.2 pur (pieces x.1 x.2.length) b
    obtain ⟨hentries', honly'⟩ := ih (b.issueWrite port part ring x.1 x.2 pur)
    exact ⟨hentries'.trans hentries, honly.trans honly'⟩

/-- Scattered output is in writing. -/
theorem Block.scatter_spec (out : Bytes) {f : Entry} (hf : b.entry? e.ring e.sub = some f) :
    (b.scatter e out).entry? e.ring e.sub = some { f with stage := .writing } ∧ b.FlowOnly (b.scatter e out) := by
  let m := b.modEntry e.ring e.sub fun e => { e with stage := .writing }
  have hm : m.entry? e.ring e.sub = some { f with stage := .writing } :=
    Block.entry?_modEntry_of_keeps (f := fun e => { e with stage := .writing }) (fun _ => ⟨rfl, rfl⟩) hf
  have honly : b.FlowOnly m := b.flowOnly_modEntry _ _ _
  obtain ⟨hentries, hout⟩ := Block.issue_output e.outPort e.part e.ring (.output e.ring e.sub) (layOut e.destination out) m
  unfold Block.scatter
  refine iteInduction (motive := fun x : Block => x.entry? e.ring e.sub = some { f with stage := .writing } ∧ b.FlowOnly x)
    (fun _ => ⟨hm, honly⟩) fun _ => ⟨(Block.entry?_congr hentries _ _).trans hm, honly.trans hout⟩

/-- From b to b' nothing changes but what an entry without an engine touches as it executes: the entries, its references, the kept
outputs, and what goes out. -/
def Block.RanHere (b b' : Block) : Prop := b' = { b with
  entries := b'.entries, mport := b'.mport, bus := b'.bus, keys := b'.keys, parts := b'.parts, rings := b'.rings }

theorem Block.RanHere.trans {b' b'' : Block} (h : b.RanHere b') (h' : b'.RanHere b'') : b.RanHere b'' := by
  unfold Block.RanHere at *
  rw [h', h]

theorem Block.FlowOnly.ranHere {b' : Block} (h : b.FlowOnly b') : b.RanHere b' := by
  unfold Block.FlowOnly Block.RanHere at *
  rw [h]

theorem Block.release_refs (l : List KeyCopy) (b : Block) :
    l.foldl Block.releaseRef b = { b with keys := (l.foldl Block.releaseRef b).keys } := by
  induction l generalizing b with
  | nil => rfl
  | cons x l ih => exact (ih (b.releaseRef x)).trans rfl

/-- An entry that leaves its engine has its references released and its time fixed. -/
theorem Block.leaveEngine_spec (used : Nat) {f : Entry} (hf : b.entry? e.ring e.sub = some f) :
    (∃ held, (b.leaveEngine e used).entry? e.ring e.sub = some { f with refsHeld := held, used := some used }) ∧
    b.RanHere (b.leaveEngine e used) ∧ (b.leaveEngine e used).mport = b.mport := by
  obtain ⟨m, hm⟩ : ∃ m, m = b.releaseRefs e := ⟨_, rfl⟩
  have hrefs : (∃ held, m.entry? e.ring e.sub = some { f with refsHeld := held }) ∧ b.RanHere m ∧ m.mport = b.mport := by
    rw [hm, Block.releaseRefs]
    split
    · rw [Block.release_refs e.keys b]
      exact ⟨⟨false, Block.entry?_modEntry_of_keeps (f := fun e => { e with refsHeld := false }) (fun _ => ⟨rfl, rfl⟩) hf⟩, rfl, rfl⟩
    · exact ⟨⟨_, hf⟩, rfl, rfl⟩
  obtain ⟨⟨held, hentry⟩, honly, hmport⟩ := hrefs
  have hused : (m.modEntry e.ring e.sub fun e => { e with used := some used }).entry? e.ring e.sub =
      some { f with refsHeld := held, used := some used } :=
    Block.entry?_modEntry_of_keeps (f := fun e => { e with used := some used }) (fun _ => ⟨rfl, rfl⟩) hentry
  have honly' : b.RanHere (m.modEntry e.ring e.sub fun e => { e with used := some used }) :=
    honly.trans (m.flowOnly_modEntry e.ring e.sub fun e => { e with used := some used }).ranHere
  unfold Block.leaveEngine
  rw [← hm]
  refine iteInduction (motive := fun x : Block => (∃ held, x.entry? e.ring e.sub = some { f with refsHeld := held, used := some used }) ∧
    b.RanHere x ∧ x.mport = b.mport) (fun _ => ⟨⟨held, hused⟩, honly'.trans rfl, hmport⟩) fun _ => ⟨⟨held, hused⟩, honly', hmport⟩

/-- An entry whose engine has released an output of a descriptor that keeps none: it is written. -/
theorem Block.executed_of_output (hres : e.res = some r) (hok : r.status = St.ok) (hkeep : e.d.dstKeep = false) (hout : r.out ≠ [])
    (used : Nat) : b.executed e used =
      ((b.leaveEngine e used).modEntry e.ring e.sub fun e => { e with port := some b.pickPort }).scatter
        { e with port := some b.pickPort } r.out := by
  unfold Block.executed
  simp only [hres, hok, hkeep, bne_self_eq_false, List.isEmpty_iff, hout, Bool.false_eq_true, if_false]

/-- An entry whose engine has released a result without output, context or key: it completes. -/
theorem Block.executed_of_plain (hres : e.res = some r) (hok : r.status = St.ok) (hkeep : e.d.dstKeep = false) (hout : r.out = [])
    (hctx : r.ctx = none) (hkey : r.key = none) (used : Nat) : b.executed e used =
      ((b.leaveEngine e used).modEntry e.ring e.sub fun e => { e with port := some b.pickPort }).finish
        { e with port := some b.pickPort } r.status r.detail e.engine r.out.length r.result := by
  rw [← Block.scattered_of_plain (e := { e with port := some b.pickPort }) hres hctx hkey]
  unfold Block.executed
  simp only [hres, hok, hkeep, bne_self_eq_false, hout, List.isEmpty_nil, Bool.false_eq_true, if_false, if_true]

/-- An entry dispatched without an engine. -/
def Block.here (b : Block) (e : Entry) (engine : Nat) (r : Result) : Entry :=
  { e with stage := .dispatched, engine, dispatchedAt := some b.now, res := some r }

/-- An entry that runs without an engine and writes its output. -/
theorem Block.runHere_of_output (hentry : b.entry? e.ring e.sub = some e) (hok : r.status = St.ok) (hkeep : e.d.dstKeep = false)
    (hout : r.out ≠ []) (engine used : Nat) :
    (∃ f : Entry, (b.runHere e engine used r).entry? e.ring e.sub = some f ∧ f.stage = .writing ∧ f.res = some r ∧ f.engine = engine ∧
      f.d = e.d ∧ f.port = some b.pickPort) ∧ b.RanHere (b.runHere e engine used r) := by
  obtain ⟨m, hm⟩ : ∃ m, m = b.modEntry e.ring e.sub fun _ => b.here e engine r := ⟨_, rfl⟩
  have hmentry : m.entry? e.ring e.sub = some (b.here e engine r) := by
    have hset := Block.entry?_modEntry (b := b) (k := e.ring) (i := e.sub) (f := fun _ => b.here e engine r) fun _ _ _ => ⟨rfl, rfl⟩
    rw [hm, hset, hentry]
    rfl
  have hport : m.pickPort = b.pickPort := by
    rw [hm]
    rfl
  have honly : b.RanHere m := by
    rw [hm]
    rfl
  obtain ⟨⟨held, hleft⟩, hleave, -⟩ := Block.leaveEngine_spec (b := m) (e := b.here e engine r) used hmentry
  have hrun : b.runHere e engine used r = m.executed (b.here e engine r) used := by
    rw [hm]
    rfl
  rw [hrun, Block.executed_of_output (e := b.here e engine r) rfl hok hkeep hout, hport]
  obtain ⟨n, hn⟩ : ∃ n, n = (m.leaveEngine (b.here e engine r) used).modEntry e.ring e.sub fun e => { e with port := some b.pickPort } :=
    ⟨_, rfl⟩
  have hnentry : n.entry? e.ring e.sub =
      some { b.here e engine r with refsHeld := held, used := some used, port := some b.pickPort } := by
    rw [hn]
    exact Block.entry?_modEntry_of_keeps (f := fun e => { e with port := some b.pickPort }) (fun _ => ⟨rfl, rfl⟩) hleft
  have hnonly : b.RanHere n := by
    rw [hn]
    exact honly.trans (hleave.trans rfl)
  obtain ⟨hwrites, hscatter⟩ := Block.scatter_spec (b := n) (e := { b.here e engine r with port := some b.pickPort }) r.out hnentry
  rw [hn] at hwrites hscatter hnonly
  exact ⟨⟨_, hwrites, rfl, rfl, rfl, rfl, rfl⟩, hnonly.trans hscatter.ranHere⟩

/-! ## The lengths of MOVE -/

theorem Desc.moveLengths_eq (d : Desc) (n : Nat) : d.moveLengths (some n) =
    if d.dstLen % swapUnit d.var ≠ 0 then some (2, 0) else if d.op = 2 ∧ n ≠ 0 then some (9, 0)
    else if d.op = 1 ∧ d.dstLen ≠ n then some (0xA, 0) else none := by
  simp only [Desc.moveLengths, LenFault.orElse, ofLen, bne_iff_ne, Bool.and_eq_true, beq_iff_eq]

/-- A MOVE whose order permits it. -/
theorem Block.move_eq {op : Nat} (hentry : b.entry? k i = some e) (hfam : e.d.family = Fam.move) (hop : e.d.op = op)
    (hstage : e.stage = .queued) (hordered : b.ordered e = true) : b.move k i op =
      match e.d.moveLengths (some (if op = 1 then (b.input e).length else 0)) with
      | some (detail, need) => b.refuse e St.length detail (BitVec.ofNat 64 need)
      | none => b.runHere e 0xF0 (max e.d.srcLen e.d.dstLen * 125)
          { out := swapUnits e.d.var (if op = 1 then b.input e else
              (List.replicate (ceilDiv e.d.dstLen 8) (toLE 8 e.d.param)).flatten.take e.d.dstLen) } := by
  unfold Block.move
  rw [hentry]
  exact if_pos ⟨hfam, hop, hstage, hordered⟩

/-- FILL's bytes are as many as its destination takes. -/
theorem length_fill (n : Nat) (x : Nat) : ((List.replicate (ceilDiv n 8) (toLE 8 x)).flatten.take n).length = n := by
  rw [List.length_take, List.length_flatten, List.map_replicate, length_toLE, List.sum_replicate, smul_eq_mul, ceilDiv]
  omega

end

/-- Settles O30: NOP and MOVE run on `Block.runHere`, and the swap of MOVE undoes itself. -/
theorem nopAndMove : Obligations.NopAndMove := by
  unfold Obligations.NopAndMove
  refine ⟨?_, ?_⟩
  · intro s k i e hentry hstage hordered hring hsub hvar unit writes
    subst hring hsub
    have hunit : unit = swapUnit e.d.var := by
      simp only [unit]
      obtain h | h | h | h | h : e.d.var = 0 ∨ e.d.var = 1 ∨ e.d.var = 2 ∨ e.d.var = 3 ∨ e.d.var = 4 := by omega
      all_goals
        rw [h]
        rfl
    have hwrites {c : Instr} {out data : Bytes} {used : Nat} (hkeep : e.d.dstKeep = false) (hdata : data.length % swapUnit e.d.var = 0)
        (hpos : 0 < data.length) (hout : out = swapUnits e.d.var data)
        (he : exec c s = .next { s with blk := s.blk.runHere e 0xF0 used { out := out } }) : writes c out := by
      have hne : out ≠ [] := by
        rw [hout, ← List.length_pos_iff, (swapUnits_twice hvar hdata).1]
        exact hpos
      obtain ⟨⟨f, hf, hstage, hres, hengine, hd, hport⟩, honly⟩ :=
        Block.runHere_of_output (r := { out := out }) hentry rfl hkeep hne 0xF0 used
      exact ⟨_, f, he, hf, hstage, hres, hengine, hd, hport, congrArg (fun x : Block => { s with blk := x }) honly⟩
    refine ⟨?_, fun hfam hop hkeep hprev hlen hpos hmod => ?_, fun hfam hop hkeep hpos hmod => ?_,
      fun hfam hop hmod => ?_⟩
    · intro hfam hkeep f b
      refine next_congr ?_
      show s.blk.nop e.ring e.sub = _
      unfold Block.nop
      rw [hentry]
      refine (if_pos ⟨hfam, hstage, hordered⟩).trans ?_
      exact Block.executed_of_plain (e := f) rfl rfl hkeep rfl rfl rfl 0
    · have he : exec (.copy e.ring e.sub) s = .next { s with blk := s.blk.move e.ring e.sub 1 } := rfl
      have hinput : s.blk.input e = e.src := if_neg (by simp [hprev])
      have hnone : e.d.moveLengths (some (if 1 = 1 then e.src.length else 0)) = none := by
        rw [Desc.moveLengths_eq, if_neg (not_not.2 (hunit ▸ hmod)), if_neg fun h => absurd (hop.symm.trans h.1) (by decide),
          if_neg fun h => h.2 hlen]
      rw [Block.move_eq hentry hfam hop hstage hordered, hinput, hnone] at he
      exact hwrites hkeep (by rw [← hlen, ← hunit]; exact hmod) (by rw [← hlen]; exact hpos) rfl he
    · have he : exec (.fill e.ring e.sub) s = .next { s with blk := s.blk.move e.ring e.sub 2 } := rfl
      have hnone : e.d.moveLengths (some (if 2 = 1 then (s.blk.input e).length else 0)) = none := by
        rw [Desc.moveLengths_eq, if_neg (not_not.2 (hunit ▸ hmod)), if_neg fun h => h.2 rfl,
          if_neg fun h => absurd (hop.symm.trans h.1) (by decide)]
      rw [Block.move_eq hentry hfam hop hstage hordered, hnone] at he
      have hlen := length_fill e.d.dstLen e.d.param
      exact hwrites (data := (List.replicate (ceilDiv e.d.dstLen 8) (toLE 8 e.d.param)).flatten.take e.d.dstLen) hkeep
        (by rw [hlen, ← hunit]; exact hmod) (by rw [hlen]; exact hpos) rfl he
    · have he : exec (.fill e.ring e.sub) s = .next { s with blk := s.blk.move e.ring e.sub 2 } := rfl
      have hsome : e.d.moveLengths (some (if 2 = 1 then (s.blk.input e).length else 0)) = some (2, 0) := by
        rw [Desc.moveLengths_eq, if_pos (hunit ▸ hmod)]
      rw [Block.move_eq hentry hfam hop hstage hordered, hsome] at he
      exact he
  · intro a b c d e f g h bs
    refine ⟨rfl, ?_, ?_, ?_, ?_, fun v hv hlen => (swapUnits_twice hv ?_).2⟩
    · exact swapUnits_append (v := 1) (by decide) (u := [a, b]) rfl bs
    · exact swapUnits_append (v := 2) (by decide) (u := [a, b, c, d]) rfl bs
    · exact swapUnits_append (v := 3) (by decide) (u := [a, b, c, d]) rfl bs
    · exact swapUnits_append (v := 4) (by decide) (u := [a, b, c, d, e, f, g, h]) rfl bs
    · have hdvd : swapUnit v ∣ 8 := by
        obtain rfl | rfl | rfl | rfl | rfl : v = 0 ∨ v = 1 ∨ v = 2 ∨ v = 3 ∨ v = 4 := by omega
        all_goals decide
      exact Nat.mod_eq_zero_of_dvd (hdvd.trans (Nat.dvd_of_mod_eq_zero hlen))

end Sys2Proof.Machine

/-! Service frames and adaptation periods (13 R292, R293, R298). -/

namespace Sys2Proof.Machine

open Sys2Proof

/-! ## Frames -/

section
variable {b : Block}

/-- From b to b' nothing changes but the schedule's record, the partitions and the recorder. -/
def Block.FrameOnly (b b' : Block) : Prop := b' = { b with sched := b'.sched, parts := b'.parts, recorder := b'.recorder }

theorem Block.FrameOnly.refl (b : Block) : b.FrameOnly b := rfl

theorem Block.FrameOnly.trans {b' b'' : Block} (h : b.FrameOnly b') (h' : b'.FrameOnly b'') : b.FrameOnly b'' := by
  unfold Block.FrameOnly at *
  rw [h', h]

/-- A fold keeps what each of its steps keeps. -/
theorem Block.FrameOnly.foldl {α : Type} {f : Block → α → Block} (hf : ∀ (b : Block) x, b.FrameOnly (f b x)) (l : List α) (b : Block) :
    b.FrameOnly (l.foldl f b) := by
  induction l generalizing b with
  | nil => exact .refl b
  | cons x l ih => exact (hf b x).trans (ih _)

theorem Block.frameOnly_endFrame : b.FrameOnly b.endFrame ∧ b.endFrame.sched.frames = b.sched.frames ∧
    b.endFrame.sched.periodFrames = b.sched.periodFrames + 1 := by
  unfold Block.endFrame
  refine ⟨Block.FrameOnly.trans ?_ (Block.FrameOnly.foldl ?_ _ _), ?_, ?_⟩
  · rfl
  · exact fun _ _ => rfl
  · refine (congrArg Sched.frames (foldl_keeps Block.sched ?_ _ _)).trans rfl
    exact fun _ _ => rfl
  · refine (congrArg Sched.periodFrames (foldl_keeps Block.sched ?_ _ _)).trans rfl
    exact fun _ _ => rfl

/-- A partition at the start of a frame: its allocation of each class, nothing spent, and its balances raised. -/
def PartRec.begin (q : PartRec) (a : List Nat) : PartRec := { q with
  alloc := a, spent := List.replicate 7 0, balance := List.zipWith (fun (x : Int) (y : Nat) => min (x + y) y) q.balance a }

/-- No balance is above its allocation, and nothing is spent. -/
def PartRec.Begun (q : PartRec) : Prop :=
  q.spent = List.replicate 7 0 ∧ List.Forall₂ (fun (x : Int) (a : Nat) => x ≤ a) q.balance (q.alloc.take q.balance.length)

theorem forall₂_raise (l : List Int) (a : List Nat) :
    List.Forall₂ (fun (x : Int) (a : Nat) => x ≤ a) (List.zipWith (fun (x : Int) (y : Nat) => min (x + y) y) l a)
      (a.take (List.zipWith (fun (x : Int) (y : Nat) => min (x + y) y) l a).length) := by
  induction l generalizing a with
  | nil => simp
  | cons x l ih =>
    cases a with
    | nil => simp
    | cons y a =>
      simp only [List.zipWith_cons_cons, List.length_cons, List.take_succ_cons]
      exact .cons (min_le_right _ _) (ih a)

theorem PartRec.begun_begin (q : PartRec) (a : List Nat) : (q.begin a).Begun := ⟨rfl, forall₂_raise q.balance a⟩

/-- Every partition of the list has begun its frame. -/
theorem Block.begun_of_mem (ofPart : Nat → List Nat) (l : List Nat) (b : Block) {p : Nat} (hp : p ∈ l ∨ (b.part p).Begun) :
    ((l.foldl (fun b p => b.modPart p (PartRec.begin · (ofPart p))) b).part p).Begun := by
  induction l generalizing b with
  | nil => exact hp.resolve_left (List.not_mem_nil)
  | cons x l ih =>
    refine ih _ ?_
    rw [Block.part_modPart]
    split
    · exact .inr (PartRec.begun_begin _ _)
    · next hne =>
      refine hp.imp_left fun h => ?_
      exact (List.mem_cons.1 h).resolve_left fun h => hne h.symm

/-- The allocation of each class to a partition in the frame that begins. -/
def Block.allocOf (b : Block) (p : Nat) : List Nat :=
  let caps := (List.range 7).map b.capacity
  ((List.range 7).map fun c => b.allocate c (nth 0 caps c)).map fun l => ((l.find? fun x => x.1 == p).map (·.2)).getD 0

theorem Block.beginFrame_eq : b.beginFrame = b.partitions.foldl (fun b' p => b'.modPart p (PartRec.begin · (b.allocOf p)))
    { b with sched := { b.sched with frames := b.sched.frames + 1, frameAt := b.now, caps := (List.range 7).map b.capacity } } := rfl

theorem Block.beginFrame_spec : b.FrameOnly b.beginFrame ∧ b.beginFrame.sched.frames = b.sched.frames + 1 ∧
    b.beginFrame.sched.frameAt = b.now ∧ b.beginFrame.sched.caps = (List.range 7).map b.capacity ∧
    b.beginFrame.sched.periodFrames = b.sched.periodFrames ∧ ∀ p ∈ b.partitions, (b.beginFrame.part p).Begun := by
  obtain ⟨c, hc⟩ : ∃ c, c = ({ b with sched := { b.sched with
    frames := b.sched.frames + 1, frameAt := b.now, caps := (List.range 7).map b.capacity } } : Block) := ⟨_, rfl⟩
  have hsched : b.beginFrame.sched = c.sched := by
    rw [Block.beginFrame_eq, ← hc]
    refine foldl_keeps Block.sched ?_ _ _
    exact fun _ _ => rfl
  rw [hsched, hc]
  refine ⟨?_, rfl, rfl, rfl, rfl, fun p hp => ?_⟩
  · rw [Block.beginFrame_eq, ← hc]
    refine Block.FrameOnly.trans (b' := c) (by rw [hc]; rfl) (Block.FrameOnly.foldl ?_ _ _)
    exact fun _ _ => rfl
  · rw [Block.beginFrame_eq]
    exact Block.begun_of_mem _ _ _ (.inl hp)

end

/-! ## Saturated classes -/

/-- The number whose bits say which elements of a list pass a test. -/
theorem bits_of_test {α : Type} (test : α → Bool) (d : α) (hd : test d = false) (l : List α) (k : Nat) :
    ∃ m, ((l.zipIdx k).map fun x => if test x.1 then 2 ^ x.2 else 0).sum = 2 ^ k * m ∧ ∀ j, m.testBit j = test (nth d l j) := by
  induction l generalizing k with
  | nil => exact ⟨0, rfl, fun j => by simp [nth, hd]⟩
  | cons x l ih =>
    obtain ⟨m, hm, hbits⟩ := ih (k + 1)
    refine ⟨(if test x then 1 else 0) + 2 * m, ?_, fun j => ?_⟩
    · rw [List.zipIdx_cons, List.map_cons, List.sum_cons, hm, pow_succ]
      split <;> ring
    · cases j with
      | zero => cases h : test x <;> simp [nth, h, Nat.testBit_zero]
      | succ j =>
        have hhalf : ((if test x then 1 else 0) + 2 * m) / 2 = m := by split <;> omega
        rw [Nat.testBit_succ, hhalf, hbits]
        rfl

section
variable {b : Block}
theorem Block.capacity_endFrame (c : Nat) : b.endFrame.capacity c = b.capacity c := by
  rw [Block.frameOnly_endFrame.1]
  rfl

end

/-- Settles O31: a frame ends with `Block.endFrame` and begins with `Block.beginFrame`, and a period's bits are those of the classes
that were saturated often enough. -/
theorem serviceFrames : Obligations.ServiceFrames := by
  unfold Obligations.ServiceFrames
  intro s
  refine ⟨fun hready hdue => ?_, fun hdue hlen => ?_⟩
  · obtain ⟨b, hb⟩ : ∃ b, b = s.blk.endFrame := ⟨_, rfl⟩
    obtain ⟨hend, hframes, hperiod⟩ := Block.frameOnly_endFrame (b := s.blk)
    rw [← hb] at hend hframes hperiod
    obtain ⟨hbegin, hframes', hat, hcaps, hperiod', hbegun⟩ := Block.beginFrame_spec (b := b)
    have he : exec .serviceFrame s = .next { s with blk := b.beginFrame.governs 5 } := by
      rw [hb]
      exact next_congr (if_pos ⟨hready, hdue⟩)
    have hnow : b.now = s.blk.now := by rw [hend]; rfl
    have hparts : b.partitions = s.blk.partitions := by rw [hend]; rfl
    refine ⟨_, he, hframes'.trans (by rw [hframes]), hat.trans hnow, hcaps.trans ?_, hperiod'.trans hperiod, fun p hp => ?_, ?_⟩
    · rw [hb]
      exact List.map_congr_left fun c _ => Block.capacity_endFrame c
    · exact hbegun p (hparts ▸ hp)
    · exact congrArg (fun x : Block => { s with blk := x }) ((hend.trans hbegin).trans (b'' := b.beginFrame.governs 5) rfl)
  · obtain ⟨m, hsum, hbits⟩ := bits_of_test (fun n => decide (500 < n)) 0 (by decide) s.blk.sched.satCount 0
    have he : exec .adaptationPeriod s = .next { s with blk := s.blk.adaptation } := rfl
    have hstep : s.blk.adaptation = { s.blk with sched := { s.blk.sched with
        satPeriod := BitVec.ofNat 7 m, satCount := List.replicate 7 0, periodFrames := 0 } } := by
      rw [pow_zero, one_mul] at hsum
      rw [← hsum]
      unfold Block.adaptation
      rw [if_pos hdue]
      simp only [decide_eq_true_eq]
    rw [hstep] at he
    refine ⟨_, he, fun c hc => ?_, rfl, rfl, rfl⟩
    show (BitVec.ofNat 7 m).getLsbD c = _
    rw [BitVec.getLsbD_ofNat, hbits, decide_eq_true hc, Bool.true_and]

end Sys2Proof.Machine

/-! Polling, turns, fetched data, and the repeats of failed requests (04 R77, R80, R91, 13 R296, R297). -/

namespace Sys2Proof.Machine

open Sys2Proof

/-! ## Turns -/

section
variable {b b' : Block} {k p : Nat}

/-- From b to b' nothing changes but ring k, what goes out on the boundary, and the schedule's record. -/
structure Block.Fetches (b b' : Block) (k : Nat) : Prop where
  block : b' = { b with rings := b'.rings, mport := b'.mport, bus := b'.bus, sched := b'.sched }
  ring : ∀ j, j ≠ k → b'.ring j = b.ring j

theorem Block.Fetches.refl (b : Block) (k : Nat) : b.Fetches b k := ⟨rfl, fun _ _ => rfl⟩

theorem Block.Fetches.trans {b'' : Block} (h : b.Fetches b' k) (h' : b'.Fetches b'' k) : b.Fetches b'' k where
  block := h'.block.trans (congrArg (fun x : Block => { x with
    rings := b''.rings, mport := b''.mport, bus := b''.bus, sched := b''.sched }) h.block)
  ring j hj := (h'.ring j hj).trans (h.ring j hj)

theorem Block.Fetches.modRing (h : b.Fetches b' k) (f : RingRec → RingRec) : b.Fetches (b'.modRing k f) k where
  block := congrArg (fun x : Block => x.modRing k f) h.block
  ring j hj := by rw [Block.ring_modRing, if_neg hj.symm]; exact h.ring j hj

/-- A request that goes out for a ring. -/
theorem Block.fetches_issueRead (port part ring addr len : Nat) (pur : Purpose) :
    b.Fetches (b.issueRead port part ring addr len pur) k ∧ (b.issueRead port part ring addr len pur).ring = b.ring ∧
    (b.issueRead port part ring addr len pur).sched = b.sched := by
  obtain ⟨-, hentries, honly⟩ := Block.issueRead_spec (b := b) port part ring addr len pur
  have hframe : b.issueRead port part ring addr len pur = { b with
      mport := (b.issueRead port part ring addr len pur).mport, bus := (b.issueRead port part ring addr len pur).bus } := by
    refine Eq.trans honly ?_
    rw [hentries]
  have hring : (b.issueRead port part ring addr len pur).ring = b.ring := (congrArg Block.ring hframe).trans rfl
  refine ⟨⟨?_, fun j _ => congrFun hring j⟩, hring, (congrArg Block.sched hframe).trans rfl⟩
  rw [hframe]

/-- The reads of a burst. -/
theorem Block.fetches_issueBurst (first : Index) (count : Nat) (pur : Purpose) :
    b.Fetches (b.issueBurst k first count pur) k ∧ (b.issueBurst k first count pur).ring = b.ring ∧
    (b.issueBurst k first count pur).sched = b.sched := by
  unfold Block.issueBurst
  refine iteInduction (motive := fun x : Block => b.Fetches x k ∧ x.ring = b.ring ∧ x.sched = b.sched) (fun _ => ?_) fun _ => ?_
  · obtain ⟨hfetch, hring, hsched⟩ := Block.fetches_issueRead (b := b) (k := k) b.pickPort (b.ownerD k) k
      ((b.ring k).subBase.toNat + 64 * (first.toNat % 2 ^ (b.ring k).subLog2))
      (64 * min count (2 ^ (b.ring k).subLog2 - first.toNat % 2 ^ (b.ring k).subLog2)) pur
    obtain ⟨hfetch', hring', hsched'⟩ := Block.fetches_issueRead (k := k) (b := b.issueRead b.pickPort (b.ownerD k) k
      ((b.ring k).subBase.toNat + 64 * (first.toNat % 2 ^ (b.ring k).subLog2))
      (64 * min count (2 ^ (b.ring k).subLog2 - first.toNat % 2 ^ (b.ring k).subLog2)) pur) b.pickPort (b.ownerD k) k
      (b.ring k).subBase.toNat (64 * (count - min count (2 ^ (b.ring k).subLog2 - first.toNat % 2 ^ (b.ring k).subLog2))) pur
    exact ⟨hfetch.trans hfetch', hring'.trans hring, hsched'.trans hsched⟩
  · exact Block.fetches_issueRead _ _ _ _ _ _

/-- The burst that ring k forms now. -/
def Block.burstNow (b : Block) (k : Nat) : Burst :=
  { first := (b.ring k).f, count := b.burstCount k, poll := false, at_ := b.now, order := b.sched.admitted }

/-- A fetch burst starts, and F passes it. -/
theorem Block.startBurst_spec (h : 0 < b.burstCount k) :
    b.Fetches (b.startBurst k) k ∧ (b.startBurst k).ring k =
      { b.ring k with burst := some (b.burstNow k), f := (b.ring k).f + BitVec.ofNat 32 (b.burstCount k) } := by
  obtain ⟨i, hi⟩ : ∃ i, i = b.issueBurst k (b.ring k).f (b.burstCount k) (.fetch k) := ⟨_, rfl⟩
  obtain ⟨hfetch, hring, hsched⟩ := Block.fetches_issueBurst (b := b) (k := k) (b.ring k).f (b.burstCount k) (.fetch k)
  rw [← hi] at hfetch hring hsched
  have hnow : i.now = b.now := (congrArg Block.now hfetch.block).trans rfl
  have hstart : b.startBurst k = i.nextTurn.modRing k fun r => { r with
      burst := some { first := r.f, count := b.burstCount k, poll := false, at_ := i.now, order := b.sched.admitted }
      f := r.f + BitVec.ofNat 32 (b.burstCount k) } := by
    rw [hi]
    exact if_neg h.ne'
  have hnext : b.Fetches i.nextTurn k := hfetch.trans ⟨rfl, fun _ _ => rfl⟩
  have hnring : i.nextTurn.ring k = b.ring k := congrFun hring k
  rw [hstart]
  refine ⟨hnext.modRing _, ?_⟩
  rw [Block.ring_modRing, if_pos rfl, hnring, hnow]
  rfl

/-- The burst of a ring looks at the ring, the entries and the image in force. -/
theorem Block.burstCount_congr (hentries : b'.entries = b.entries) (himg : b'.img = b.img) (hf : (b'.ring k).f = (b.ring k).f)
    (hp : (b'.ring k).p = (b.ring k).p) (hchain : (b'.ring k).chain = (b.ring k).chain) (hroom : b'.room k = b.room k) :
    b'.burstCount k = b.burstCount k := by
  have hcfg : b'.ringCfg k = b.ringCfg k := by rw [Block.ringCfg, himg]; rfl
  simp only [Block.burstCount, Block.aheadOf, RingRec.chainLeft, hentries, hf, hp, hchain, hroom, hcfg]

/-- The one ring of the one partition that takes a turn: whichever way the round's pointer stands, it is next. -/
theorem nextRider_one (ptr : Nat) (x : Rider) : nextRider ptr [x] = some x := by
  unfold nextRider
  by_cases h : ptr < x.id
  · simp [h]
  · simp [h]

/-- The block in which partition p has been granted its turn. -/
def Block.granted (b : Block) (p : Nat) : Block :=
  let b' := b.modPart p fun q => { q with inRound := true, turns := b.turnsOf p - 1 }
  { b' with sched := { b'.sched with partPtr := p } }

theorem Block.grantTurn_of_one (hparts : b.partitions = [p]) (helig : b.partEligible p = true)
    (hround : (b.part p).inRound = false) : b.grantTurn = (b.granted p).turnOf p := by
  have hriders : b.partRiders false = [⟨p, b.turnsOf p⟩] := by
    unfold Block.partRiders
    rw [hparts, List.filter_cons, if_pos helig]
    simp [hround]
  unfold Block.grantTurn
  rw [hparts]
  simp only [List.foldl_cons, List.foldl_nil, hround, Bool.false_and, Bool.false_eq_true, if_false, hriders, nextRider_one]
  rfl

/-- The block in which ring k has been given its partition's turn. -/
def Block.turned (b : Block) (p k : Nat) : Block :=
  (b.modRing k fun r => { r with inRound := true, turns := (b.ringCfg k).weight - 1 }).modPart p fun q => { q with ringPtr := k }

theorem Block.ring_turned : (b.turned p k).ring k =
    { b.ring k with inRound := true, turns := (b.ringCfg k).weight - 1 } :=
  (Block.ring_modRing b k (fun r => { r with inRound := true, turns := (b.ringCfg k).weight - 1 }) k).trans (if_pos rfl)

theorem Block.ring_turned_ne {j : Nat} (h : j ≠ k) : (b.turned p k).ring j = b.ring j :=
  (Block.ring_modRing b k (fun r => { r with inRound := true, turns := (b.ringCfg k).weight - 1 }) j).trans (if_neg h.symm)

theorem Block.part_turned_ne {q : Nat} (h : q ≠ p) : (b.turned p k).part q = b.part q :=
  (Block.part_modPart (b.modRing k fun r => { r with inRound := true, turns := (b.ringCfg k).weight - 1 }) p
    (fun q => { q with ringPtr := k }) q).trans (if_neg h.symm)

theorem Block.part_granted_ne {q : Nat} (h : q ≠ p) : (b.granted p).part q = b.part q :=
  (Block.part_modPart b p (fun q => { q with inRound := true, turns := b.turnsOf p - 1 }) q).trans (if_neg h.symm)

theorem Block.granted_frame : b.granted p = { b with parts := (b.granted p).parts, sched := (b.granted p).sched } := rfl

theorem Block.turned_frame : b.turned p k = { b with rings := (b.turned p k).rings, parts := (b.turned p k).parts } := rfl

theorem Block.turnOf_of_one (hlive : b.liveRings p = [k]) (helig : b.ringEligible k = true) (hround : (b.ring k).inRound = false) :
    b.turnOf p = (b.turned p k).takeTurn k := by
  have hriders : b.ringRiders p false = [⟨k, (b.ringCfg k).weight⟩] := by
    unfold Block.ringRiders
    rw [hlive, List.filter_cons, if_pos helig]
    simp [hround]
  unfold Block.turnOf
  rw [hlive]
  simp only [List.foldl_cons, List.foldl_nil, hround, Bool.false_and, Bool.false_eq_true, if_false, hriders, nextRider_one]
  rfl

/-- A ring without pushed entries that does not poll fetches with its turn. -/
theorem Block.takeTurn_of_fetch (hpushes : b.waitingPushes k = []) (hpoll : (b.ring k).poll = false) :
    b.takeTurn k = b.startBurst k := by
  unfold Block.takeTurn
  rw [hpushes, List.take_nil]
  exact (if_neg (by decide)).trans (if_neg (by simp [hpoll]))

/-! ## Fetched data -/

/-- A burst of one entry that returns. -/
theorem Block.fetchReturn_of_one {u : Burst} {data : Bytes} (hburst : (b.ring k).burst = some u) (hwaits : (b.ring k).burstWaits = false)
    (hlocked : u.locked = false) (hpoll : u.poll = false) (hcount : u.count = 1) (hlen : data.length = 64)
    (hnew : ∀ c ∈ (b.ring k).tw.committed, c.2.2 ≠ u.first) :
    b.fetchReturn k data =
      let b := ((b.arrived (.fetch k)).modRing k fun r => { r with burst := none, failedF := none }).resumeRing k
      let b := (b.accept k u.first data false u.at_ u.order).absorb k
      (b.modRing k fun r => { r with c := b.release k }).settleRing k := by
  obtain ⟨m, hm⟩ : ∃ m, m = ((b.arrived (.fetch k)).modRing k fun r => { r with burst := none, failedF := none }).resumeRing k := ⟨_, rfl⟩
  have htw : (m.ring k).tw = (b.ring k).tw := by
    rw [hm, Block.resumeRing, Block.ring_modRing, if_pos rfl, Block.ring_modRing, if_pos rfl]
    split <;> rfl
  have hany : ((m.ring k).tw.committed.any fun c => c.2.2 == u.first) = false := by
    rw [htw, List.any_eq_false]
    intro c hc
    simpa using hnew c hc
  have hsub : u.first + BitVec.ofNat 32 0 = u.first := by simp
  have hslice : slice (64 * 0) 64 data = data := by
    rw [slice, Nat.mul_zero, List.drop_zero, List.take_of_length_le hlen.le]
  unfold Block.fetchReturn
  rw [hburst]
  simp only [hwaits, hlocked, hpoll, hcount, hlen, Nat.mul_one, bne_self_eq_false, Bool.or_self, Bool.false_eq_true, if_false,
    List.range_one, List.foldl_cons, List.foldl_nil, ← hm, hsub, hslice, hany]

/-- A poll burst whose first entry carries another phase ends with nothing accepted. -/
theorem Block.pollReturn_of_other_phase {u : Burst} {data : Bytes} (hburst : (b.ring k).burst = some u)
    (hwaits : (b.ring k).burstWaits = false) (hlocked : u.locked = false) (hpoll : u.poll = true) (hst : (b.ring k).st = .running)
    (hphase : flag (bit (word32 data 0) 31) ≠ phaseOf (b.ring k).subLog2 (b.ring k).f) (hlen : data.length = 64 * u.count) :
    ∃ due : RingRec → Bool, b.pollReturn k data = (((b.arrived (.poll k)).modRing k fun r => { r with burst := none, failedF := none }).resumeRing k).modRing
      k fun r => { r with pollDue := due r, pollAt := u.at_ + r.pollN } := by
  obtain ⟨m, hm⟩ : ∃ m, m = ((b.arrived (.poll k)).modRing k fun r => { r with burst := none, failedF := none }).resumeRing k := ⟨_, rfl⟩
  have hring : m.ring k = { b.ring k with burst := none, failedF := none } := by
    have hbefore : ((b.arrived (.poll k)).modRing k fun r => { r with burst := none, failedF := none }).ring k =
        { b.ring k with burst := none, failedF := none } := by
      rw [Block.ring_modRing, if_pos rfl]
      rfl
    rw [hm, Block.ring_resumeRing_of_no_fault, hbefore]
    rw [hbefore]
    show (b.ring k).st ≠ _
    rw [hst]
    decide
  have hword : word32 (data.take 64) 0 = word32 data 0 := by
    simp only [word32, slice, List.drop_zero, List.take_take]
    rfl
  have haccept (n : Nat) : Block.pollAccept k u n data m 0 = (m, 0) := by
    cases n with
    | zero => rfl
    | succ n =>
      refine if_neg fun h => hphase ?_
      rw [← hword, h.2, hring]
  rw [← hm]
  refine ⟨fun r => 0 == u.count && r.st == .running, ?_⟩
  unfold Block.pollReturn
  rw [hburst]
  simp only [hwaits, hlocked, hpoll, hlen, Bool.not_true, bne_self_eq_false, Bool.or_self, Bool.false_eq_true, if_false, ← hm, haccept]
  refine if_neg ?_
  rw [hring]
  show ¬ ((b.ring k).st != .running) = true
  rw [hst]
  decide

/-! ## Repeats -/

/-- Repeated reads go out in order, as repeats. -/
theorem Block.repeat_reads (pur : Purpose) (l : List (Nat × Nat × Nat)) (b : Block) :
    let b' := l.foldl (fun b q =>
      (b.put (.read q.1 (b.ownerD k) k false q.2.1 q.2.2)).await q.1 .read pur (b.ownerD k) q.2.1 q.2.2 [] true) b
    b.Fetches b' k ∧ b'.ring = b.ring ∧ b'.bus = b.bus ++ l.map fun q => .read q.1 (b.ownerD k) k false q.2.1 q.2.2 := by
  induction l generalizing b with
  | nil => exact ⟨.refl b k, rfl, (List.append_nil _).symm⟩
  | cons x l ih =>
    let first := (b.put (.read x.1 (b.ownerD k) k false x.2.1 x.2.2)).await x.1 .read pur (b.ownerD k) x.2.1 x.2.2 [] true
    have hfirst : b.Fetches first k := ⟨rfl, fun _ _ => rfl⟩
    obtain ⟨hfetch, hring, hbus⟩ := ih first
    refine ⟨hfirst.trans hfetch, hring.trans rfl, hbus.trans ?_⟩
    rw [List.map_cons]
    exact List.append_assoc _ _ _

theorem Block.repeatReads_spec (x : Failed) : b.Fetches (b.repeatReads k x) k ∧ (b.repeatReads k x).ring = b.ring ∧
    (b.repeatReads k x).bus = b.bus ++ x.reads.map fun q => .read q.1 (b.ownerD k) k false q.2.1 q.2.2 :=
  Block.repeat_reads x.purpose x.reads b

theorem Block.repeatWrites_of_none (h : (b.ring k).failedW = []) (twice : Bool) : b.repeatWrites k twice = b := by
  unfold Block.repeatWrites
  rw [h]
  rfl

/-- The one failed write of a ring that is due is repeated. -/
theorem Block.repeatWrites_of_one {x : Failed} (h : (b.ring k).failedW = [x]) (hout : x.out = false) (hdue : x.due ≤ b.now)
    (hstopped : (b.part (b.ownerD k)).tw.stopped = false) :
    b.repeatWrites k x.twice = (b.issueOrdered x.port (b.ownerD k) k x.addr x.data x.purpose true).modRing k fun r => { r with
      failedW := modNth (fun y => { y with out := true, req := b.mport.nextId }) 0 r.failedW } := by
  have hget : (b.ring k).failedW[0]? = some x := by rw [h]; rfl
  have hwrite : Block.repeatWrite k b 0 = (b.issueOrdered x.port (b.ownerD k) k x.addr x.data x.purpose true).modRing k fun r =>
      { r with failedW := modNth (fun y => { y with out := true, req := b.mport.nextId }) 0 r.failedW } := by
    unfold Block.repeatWrite
    rw [hget]
    exact if_neg (by simp [hout, hdue, hstopped])
  unfold Block.repeatWrites
  rw [h]
  simp only [List.length_singleton, List.range_one, List.foldl_cons, List.foldl_nil, hget, if_true]
  exact hwrite

theorem Block.fetchRepeat_of_no_fetch (h : ((b.repeatWrites k false).ring k).failedF = none) :
    b.fetchRepeat k = b.repeatWrites k false := by
  simp only [Block.fetchRepeat, h]

/-- The failed reads of a burst, one tick later. -/
theorem Block.fetchRepeat_of_fetch {x : Failed} (hw : (b.ring k).failedW = []) (hf : (b.ring k).failedF = some x) (htwice : x.twice = false)
    (hout : x.out = false) (hdue : x.due ≤ b.now) :
    b.fetchRepeat k = (b.modRing k fun r => { r with failedF := some { x with out := true, reads := [] } }).repeatReads k x := by
  simp only [Block.fetchRepeat, Block.repeatWrites_of_none hw, hf]
  exact if_pos (by simp [htwice, hout, hdue])

theorem Block.faultRepeat_of_no_fetch (h : ((b.repeatWrites k true).ring k).failedF = none) :
    b.faultRepeat k = b.repeatWrites k true := by
  simp only [Block.faultRepeat, h]

/-- A fetch that has failed twice, when its repeat is due. -/
theorem Block.faultRepeat_of_fetch {x : Failed} (hst : (b.ring k).st = .fault) (hf : (b.ring k).failedF = some x) (htwice : x.twice = true)
    (hout : x.out = false) (hdue : x.due ≤ b.now) (hw : (b.ring k).failedW = []) (hburst : (b.ring k).burst = none)
    (hpoll : (b.ring k).poll = false) (hallowed : b.fetchAllowed (b.ownerD k) = true) (hcount : 0 < b.burstCount k) :
    b.faultRepeat k = (((b.startBurst k).markAgain (.fetch k)).markAgain (.poll k)).modRing k fun r => { r with
      failedF := some { x with due := b.now + 1000, out := true, reads := [] } } := by
  obtain ⟨hfetch, hring⟩ := Block.startBurst_spec hcount
  have hnow : (b.startBurst k).now = b.now := (congrArg Block.now hfetch.block).trans rfl
  have hsome : ((b.startBurst k).ring k).burst = some (b.burstNow k) := by rw [hring]
  simp only [Block.faultRepeat, Block.repeatWrites_of_none hw, hf]
  refine (if_pos hst).trans ?_
  unfold Block.faultFetch
  refine (if_neg (by simp [htwice, hout, hdue, hburst, hallowed])).trans ?_
  simp only [hpoll, Bool.false_eq_true, if_false, hsome, hnow]

/-- The acceptance of a shadow word's write. -/
theorem Block.acceptedOutcome_of_shadow {q : Request} (h : q.purpose = .shadow k) :
    b.acceptedOutcome q = ((b.modRing k fun r => { r with
      failedW := r.failedW.filter fun x => !(x.out && x.req == q.id) }).resumeRing k).flushHeld k := by
  have hout : b.acceptedOutcome q = b.orderedAccepted k q := by
    unfold Block.acceptedOutcome
    rw [h]
  rw [hout]
  unfold Block.orderedAccepted
  rw [h]

/-- A FAULT ring whose last failed request has been repeated, and that no STOP waits for, runs again. -/
theorem Block.ring_resumeRing_of_fault (hst : (b.ring k).st = .fault) (hw : (b.ring k).failedW = []) (hf : (b.ring k).failedF = none)
    (hstop : (b.ring k).stopAfter = false) : (b.resumeRing k).ring k = { b.ring k with st := .running } := by
  rw [Block.resumeRing, Block.ring_modRing, if_pos rfl]
  simp [hst, hw, hf, hstop]

end

/-- Settles O22: the one ring of the one partition that takes a turn starts its burst; a burst of one entry, and a poll that finds no
entry, are followed through; a repeat goes out as the failed request stood, and its acceptance ends FAULT. -/
theorem fetching : Obligations.Fetching := by
  unfold Obligations.Fetching
  refine ⟨?_, ?_, ?_, ?_⟩
  · intro s k p r n
    refine ⟨fun hst hpoll hdue hburst hat => ?_, fun hparts helig hround hlive hring hringRound hpushes hpoll hpos => ?_⟩
    · have he : exec (.pollDue k) s = .next { s with blk := s.blk.modRing k fun r => { r with pollDue := true } } :=
        next_congr (if_pos ⟨hst, hpoll, by simp [show (s.blk.ring k).pollDue = false from hdue],
          by simp [show (s.blk.ring k).burst = none from hburst], hat⟩)
      exact ⟨_, he, (Block.ring_modRing _ _ _ _).trans (if_pos rfl), fun j hj => (Block.ring_modRing _ _ _ _).trans (if_neg hj.symm), rfl⟩
    · obtain ⟨g, hg⟩ : ∃ g, g = s.blk.granted p := ⟨_, rfl⟩
      obtain ⟨t, ht⟩ : ∃ t, t = g.turned p k := ⟨_, rfl⟩
      have hgring (j : Nat) : g.ring j = s.blk.ring j := by rw [hg]; rfl
      have hgrant : s.blk.grantTurn = t.takeTurn k := by
        rw [Block.grantTurn_of_one hparts helig hround, ← hg, ht]
        exact Block.turnOf_of_one (by rw [hg]; exact hlive) (by rw [hg]; exact hring) (by rw [hgring]; exact hringRound)
      have htring : t.ring k = { r with inRound := true, turns := (s.blk.ringCfg k).weight - 1 } := by
        rw [ht, Block.ring_turned, hgring, hg]
        rfl
      have hother (j : Nat) (hj : j ≠ k) : t.ring j = s.blk.ring j := by rw [ht, Block.ring_turned_ne hj, hgring]
      have hpart (q : Nat) (hq : q ≠ p) : t.part q = s.blk.part q := by
        rw [ht, Block.part_turned_ne hq, hg, Block.part_granted_ne hq]
      have hframe : t = { s.blk with rings := t.rings, parts := t.parts, sched := t.sched } := by
        have hturned : t = { g with rings := t.rings, parts := t.parts } := by
          rw [ht]
          exact Block.turned_frame
        have hgranted : g = { s.blk with parts := g.parts, sched := g.sched } := by
          rw [hg]
          exact Block.granted_frame
        have hsched : t.sched = g.sched := (congrArg Block.sched hturned).trans rfl
        rw [hsched]
        exact hturned.trans (congrArg (fun x : Block => { x with rings := t.rings, parts := t.parts }) hgranted)
      have hentries : t.entries = s.blk.entries := by rw [hframe]
      have hroom : t.room k = s.blk.room k := by
        simp only [Block.room, Block.inFlight, Block.overrunSlots, hentries, htring]
        rfl
      have hcount : t.burstCount k = n :=
        Block.burstCount_congr hentries (by rw [hframe]) (by rw [htring]) (by rw [htring]) (by rw [htring]) hroom
      have hfetch : t.takeTurn k = t.startBurst k :=
        Block.takeTurn_of_fetch (by rw [hframe]; exact hpushes) (by rw [htring]; exact hpoll)
      obtain ⟨hspec, hspecRing⟩ := Block.startBurst_spec (b := t) (k := k) (by rw [hcount]; exact hpos)
      rw [hcount, htring] at hspecRing
      have hadmitted : t.sched.admitted = s.blk.sched.admitted := by rw [ht, hg]; rfl
      have hnow : t.now = s.blk.now := by rw [hframe]; rfl
      have hrun : r.st = .running := by
        have := hring
        simp only [Block.ringEligible, Bool.and_eq_true, beq_iff_eq] at this
        exact this.1.1.1.1
      have he : exec .turnGrant s = .next { s with blk := t.startBurst k } := next_congr (hgrant.trans hfetch)
      refine ⟨_, he, ?_, ?_, ?_, ?_, ?_, fun j hj => (hspec.ring j hj).trans (hother j hj), fun q hq => ?_, ?_⟩
      · show ((t.startBurst k).ring k).f = _
        rw [hspecRing]
      · show ((t.startBurst k).ring k).burst = _
        rw [hspecRing]
        show some (t.burstNow k) = _
        rw [Block.burstNow, hcount, htring, hadmitted, hnow]
        rfl
      · show ((t.startBurst k).ring k).p = _
        rw [hspecRing]
      · show ((t.startBurst k).ring k).c = _
        rw [hspecRing]
      · show ((t.startBurst k).ring k).st = _
        rw [hspecRing]
        exact hrun
      · show (t.startBurst k).part q = _
        rw [hspec.block]
        exact hpart q hq
      · refine congrArg (fun x : Block => { s with blk := x }) ?_
        have hparts' : (t.startBurst k).parts = t.parts := (congrArg Block.parts hspec.block).trans rfl
        show t.startBurst k = { s.blk with
          rings := (t.startBurst k).rings, parts := (t.startBurst k).parts, sched := (t.startBurst k).sched
          mport := (t.startBurst k).mport, bus := (t.startBurst k).bus }
        rw [hparts']
        exact hspec.block.trans (congrArg (fun x : Block => { x with
          rings := (t.startBurst k).rings, sched := (t.startBurst k).sched
          mport := (t.startBurst k).mport, bus := (t.startBurst k).bus }) hframe)
  · intro s k data u hburst hwaits hlocked
    refine ⟨fun hpoll hcount hlen hnew => ?_, fun hpoll hst hphase hlen => ?_⟩
    · exact next_congr (Block.fetchReturn_of_one hburst hwaits hlocked hpoll hcount hlen hnew)
    · obtain ⟨due, hdue⟩ := Block.pollReturn_of_other_phase hburst hwaits hlocked hpoll hst hphase hlen
      have he : exec (.pollBurstReturn k data) s = .next { s with blk := s.blk.pollReturn k data } := rfl
      rw [hdue] at he
      obtain ⟨m, hm⟩ : ∃ m, m = (s.blk.arrived (.poll k)).modRing k fun r => { r with burst := none, failedF := none } := ⟨_, rfl⟩
      have hmring : m.ring k = { s.blk.ring k with burst := none, failedF := none } := by
        rw [hm, Block.ring_modRing, if_pos rfl]
        rfl
      have hresume := Block.ring_resumeRing_of_no_fault (b := m) (k := k) (by rw [hmring]; show (s.blk.ring k).st ≠ _; rw [hst]; decide)
      obtain ⟨w, hw⟩ : ∃ w, w = (m.resumeRing k).modRing k fun r => { r with pollDue := due r, pollAt := u.at_ + r.pollN } := ⟨_, rfl⟩
      rw [← hm, ← hw] at he
      have honly : (s.blk.arrived (.poll k)).RingsOnly w k := by
        rw [hw, hm]
        exact ((Block.RingsOnly.refl _ k).modRing _).resumeRing.modRing _
      have hring : w.ring k = { s.blk.ring k with
          burst := none, failedF := none, pollAt := u.at_ + (s.blk.ring k).pollN
          pollDue := due { s.blk.ring k with burst := none, failedF := none } } := by
        rw [hw, Block.ring_modRing, if_pos rfl, hresume, hmring]
      refine ⟨_, he, ?_, ?_, ?_, ?_, (congrArg Block.entries honly.block).trans rfl, honly.ring⟩
      all_goals
        dsimp only
        rw [hring]
  · intro s k x hout hdue r p others written
    have hothers {b : Block} (h : s.blk.Fetches b k) : others { s with blk := b } :=
      ⟨h.ring, congrArg (fun x : Block => { s with blk := x }) h.block⟩
    have hrepeat : exec (.fetchRepeat k) s = .next { s with blk := s.blk.fetchRepeat k } := rfl
    have hfault : exec (.faultRepeat k) s = .next { s with blk := s.blk.faultRepeat k } := rfl
    obtain ⟨w, hw⟩ : ∃ w, w = (s.blk.issueOrdered x.port p k x.addr x.data x.purpose true).modRing k fun r => { r with
      failedW := modNth (fun y => { y with out := true, req := s.blk.mport.nextId }) 0 r.failedW } := ⟨_, rfl⟩
    have hwritten (hfailed : r.failedW = [x]) : w.ring k = { r with failedW := [{ x with out := true, req := s.blk.mport.nextId }] } := by
      rw [hw, Block.ring_modRing, if_pos rfl]
      show { r with failedW := modNth _ 0 r.failedW } = _
      rw [hfailed]
      rfl
    have hwfetch : s.blk.Fetches w k := by
      rw [hw]
      have hissue : s.blk.Fetches (s.blk.issueOrdered x.port p k x.addr x.data x.purpose true) k := ⟨rfl, fun _ _ => rfl⟩
      exact hissue.modRing _
    have hwbus : w.bus = s.blk.bus ++ [.write x.port p k x.addr true x.data] := by
      rw [hw]
      rfl
    refine ⟨fun hf htwice hfailed => ?_, fun hfailed htwice hf hstopped => ?_, fun hfailed htwice hf hstopped => ?_,
      fun hst hf htwice hfailed hburst hpoll hallowed hcount => ?_⟩
    · rw [Block.fetchRepeat_of_fetch hfailed hf htwice hout hdue] at hrepeat
      obtain ⟨m, hm⟩ : ∃ m, m = s.blk.modRing k fun r => { r with failedF := some { x with out := true, reads := [] } } := ⟨_, rfl⟩
      obtain ⟨hfetch, hring, hbus⟩ := Block.repeatReads_spec (b := m) (k := k) x
      rw [← hm] at hrepeat
      have hmfetch : s.blk.Fetches m k := by
        rw [hm]
        exact (Block.Fetches.refl s.blk k).modRing _
      refine ⟨_, hrepeat, hothers (hmfetch.trans hfetch), ?_, ?_⟩
      · refine (congrFun hring k).trans ?_
        rw [hm, Block.ring_modRing, if_pos rfl]
      · refine hbus.trans ?_
        rw [hm]
        rfl
    · have hstep := Block.repeatWrites_of_one hfailed hout hdue hstopped
      rw [htwice, ← hw] at hstep
      rw [Block.fetchRepeat_of_no_fetch (by rw [hstep, hwritten hfailed]; exact hf), hstep] at hrepeat
      exact ⟨_, hrepeat, hothers hwfetch, hwritten hfailed, hwbus⟩
    · have hstep := Block.repeatWrites_of_one hfailed hout hdue hstopped
      rw [htwice, ← hw] at hstep
      rw [Block.faultRepeat_of_no_fetch (by rw [hstep, hwritten hfailed]; exact hf), hstep] at hfault
      exact ⟨_, hfault, hothers hwfetch, hwritten hfailed, hwbus⟩
    · obtain ⟨hfetch, hring⟩ := Block.startBurst_spec hcount
      rw [Block.faultRepeat_of_fetch hst hf htwice hout hdue hfailed hburst hpoll hallowed hcount] at hfault
      obtain ⟨m, hm⟩ : ∃ m, m = ((s.blk.startBurst k).markAgain (.fetch k)).markAgain (.poll k) := ⟨_, rfl⟩
      have hmring : m.ring = (s.blk.startBurst k).ring := by rw [hm]; rfl
      have hmfetch : s.blk.Fetches m k := by
        rw [hm]
        exact hfetch.trans ⟨rfl, fun _ _ => rfl⟩
      rw [← hm] at hfault
      refine ⟨_, hfault, hothers (hmfetch.modRing _), ?_⟩
      refine (Block.ring_modRing _ _ _ _).trans ((if_pos rfl).trans ?_)
      rw [hmring, hring]
      rfl
  · intro s k x q hup hfind hkind hpurpose hst hfailed hout hreq hf hstop hheld
    have he := exec_writeResponse hup hfind hkind
    obtain ⟨b, hb⟩ : ∃ b, b = s.blk.retireReq q := ⟨_, rfl⟩
    obtain ⟨m, hm⟩ : ∃ m, m = b.modRing k fun r => { r with failedW := r.failedW.filter fun x => !(x.out && x.req == q.id) } := ⟨_, rfl⟩
    rw [← hb, Block.acceptedOutcome_of_shadow hpurpose, ← hm] at he
    have hbring : b.ring = s.blk.ring := by rw [hb]; rfl
    have hmring : m.ring k = { s.blk.ring k with failedW := [] } := by
      rw [hm, Block.ring_modRing, if_pos rfl, hbring]
      simp [hfailed, hout, hreq]
    have hresume : (m.resumeRing k).ring k = { s.blk.ring k with failedW := [], st := .running } := by
      have h := Block.ring_resumeRing_of_fault (b := m) (k := k) (by rw [hmring]; exact hst) (by rw [hmring]) (by rw [hmring]; exact hf)
        (by rw [hmring]; exact hstop)
      rw [h, hmring]
    have hheld' : ((m.resumeRing k).ring k).held = [] := by
      rw [hresume]
      exact hheld
    rw [Block.flushHeld_of_no_held hheld' (by rw [hresume]; exact RingSt.noConfusion)] at he
    have honly : b.RingsOnly ((m.resumeRing k).placeOverrun k) k := by
      rw [hm]
      exact ((Block.RingsOnly.refl b k).modRing _).resumeRing.placeOverrun
    refine ⟨_, he, (Block.ring_placeOverrun_of_no_held hheld').trans hresume,
      fun j hj => (honly.ring j hj).trans (congrFun hbring j), ?_⟩
    refine congrArg (fun x : Block => { s with blk := x }) ?_
    rw [honly.block, hb]
    rfl

end Sys2Proof.Machine

/-! What the lanes compute: ciphers, digests and MACs (05 R104 to R107, 07 R146, R147). -/

namespace Sys2Proof.Machine

open Sys2Proof

/-! ## Pieces of a byte string -/

section
variable {n : Nat} {data : Bytes}

/-- A last piece that is not longer than the others. -/
theorem chunks_of_short (hpos : data ≠ []) (hlen : data.length ≤ n) : chunks n data = [data] := by
  obtain ⟨x, u, rfl⟩ := List.exists_cons_of_ne_nil hpos
  show ((x :: u).take n) :: chunksAux n u.length ((x :: u).drop n) = _
  rw [List.take_of_length_le hlen, List.drop_of_length_le hlen]
  cases u <;> rfl

/-- The pieces of a byte string, one at a time. -/
theorem chunks_of_ne_nil (hn : 0 < n) (hpos : data ≠ []) : chunks n data = data.take n :: chunks n (data.drop n) := by
  rcases Nat.lt_or_ge n data.length with hlong | hshort
  · have htake : (data.take n).length = n := by rw [List.length_take]; omega
    conv_lhs => rw [← List.take_append_drop n data]
    exact chunks_append hn htake _
  · rw [chunks_of_short hpos hshort, List.take_of_length_le hshort, List.drop_of_length_le hshort]
    rfl

/-- What a piece is known to be: not empty and not longer than n, and where n divides the whole, exactly n long. -/
structure PieceOf (n total : Nat) (x : Bytes) : Prop where
  pos : x ≠ []
  le : x.length ≤ n
  whole : total % n = 0 → x.length = n

theorem pieceOf_take (hn : 0 < n) (hpos : data ≠ []) : PieceOf n data.length (data.take n) where
  pos h := by
    rcases List.take_eq_nil_iff.1 h with h | h
    · omega
    · exact hpos h
  le := List.length_take_le _ _
  whole h := by
    have hlen := List.length_pos_iff.2 hpos
    have hle : n ≤ data.length := Nat.le_of_dvd hlen (Nat.dvd_of_mod_eq_zero h)
    rw [List.length_take, Nat.min_eq_left hle]

/-- A pass over a byte string's pieces is undone by a second one that undoes each piece, where a relation holds between the
states of the two. -/
theorem scan_scan {σ τ : Type} {f : σ → Bytes → Bytes × σ} {g : τ → Bytes → Bytes × τ} {R : σ → τ → Prop} (hn : 0 < n) {total : Nat}
    (hstep : ∀ s t x, R s t → PieceOf n total x →
      (f s x).1.length = x.length ∧ (g t (f s x).1).1 = x ∧ R (f s x).2 (g t (f s x).1).2) :
    ∀ (data : Bytes) (s : σ) (t : τ), (total % n = 0 → data.length % n = 0) → R s t →
      (Modes.scan g t (chunks n (Modes.scan f s (chunks n data)).1)).1 = data := by
  intro data
  induction hlen : data.length using Nat.strong_induction_on generalizing data with
  | _ m ih =>
    intro s t hwhole hst
    by_cases hdata : data = []
    · rw [hdata]
      rfl
    · subst hlen
      have hpos := List.length_pos_iff.2 hdata
      have hpiece := pieceOf_take hn hdata
      obtain ⟨hsame, hback, hnext⟩ := hstep s t (data.take n) hst ⟨hpiece.pos, hpiece.le, fun h => hpiece.whole (hwhole h)⟩
      have hrest := ih (data.drop n).length (by rw [List.length_drop]; omega) (data.drop n) rfl (f s (data.take n)).2
        (g t (f s (data.take n)).1).2 (fun h => by rw [List.length_drop]; exact (Nat.sub_mod_eq_zero_of_mod_eq (by rw [hwhole h, Nat.mod_self]))) hnext
      have hpieces : chunks n ((f s (data.take n)).1 ++ (Modes.scan f (f s (data.take n)).2 (chunks n (data.drop n))).1) =
          (f s (data.take n)).1 :: chunks n (Modes.scan f (f s (data.take n)).2 (chunks n (data.drop n))).1 := by
        rcases Nat.lt_or_ge n data.length with hlong | hshort
        · exact chunks_append hn (by rw [hsame, List.length_take]; omega) _
        · rw [List.drop_of_length_le hshort]
          show chunks n (_ ++ []) = _ :: []
          rw [List.append_nil]
          refine chunks_of_short (fun h => hpiece.pos ?_) (hsame ▸ hpiece.le)
          rw [← List.length_eq_zero_iff, ← hsame, h]
          rfl
      rw [chunks_of_ne_nil hn hdata]
      show (Modes.scan g t (chunks n ((f s (data.take n)).1 ++ (Modes.scan f (f s (data.take n)).2 (chunks n (data.drop n))).1))).1 = data
      rw [hpieces]
      show (g t (f s (data.take n)).1).1 ++ _ = data
      rw [hback, hrest, List.take_append_drop]

end

/-! ## The stream modes undo themselves (07 R146) -/

section
variable {c : Modes.Cipher} {iv data : Bytes}

theorem xorB_xorB {x k : Bytes} (h : x.length ≤ k.length) : xorB (xorB x k) k = x := by
  refine List.ext_getElem ?_ fun i _ _ => ?_
  · simp only [xorB, List.length_zipWith]
    omega
  · simp [xorB]

theorem xorB_xorB_left {x k : Bytes} (h : x.length ≤ k.length) : xorB k (xorB k x) = x := by
  refine List.ext_getElem ?_ fun i _ _ => ?_
  · simp only [xorB, List.length_zipWith]
    omega
  · simp [xorB]

theorem length_xorB {x k : Bytes} (h : x.length ≤ k.length) : (xorB x k).length = x.length := by
  rw [xorB, List.length_zipWith, Nat.min_eq_left h]

/-- The two passes of a mode stand at one state, as long as a block. -/
def SameState (c : Modes.Cipher) (s t : Bytes) : Prop := s = t ∧ s.length = c.b

theorem cbcDec_cbcEnc (hb : 0 < c.b) (henc : ∀ x, x.length = c.b → (c.enc x).length = c.b) (hiv : iv.length = c.b)
    (hdec : ∀ x, x.length = c.b → c.dec (c.enc x) = x) (hdata : data.length % c.b = 0) :
    (Modes.cbcDec c iv (Modes.cbcEnc c iv data).1).1 = data := by
  refine scan_scan (R := SameState c) (total := data.length) hb ?_ data iv iv id ⟨rfl, hiv⟩
  rintro s t x ⟨rfl, hs⟩ hx
  have hwhole : x.length = c.b := hx.whole hdata
  have hin : (xorB s x).length = c.b := (length_xorB (by rw [hs, hwhole])).trans hs
  refine ⟨(henc _ hin).trans hwhole.symm, ?_, rfl, henc _ hin⟩
  show xorB s (c.dec (c.enc (xorB s x))) = x
  rw [hdec _ hin, xorB_xorB_left (by rw [hs, hwhole])]

theorem cfb_cfb {n : Nat} (hn : 0 < n) (hle : n ≤ c.b) (henc : ∀ x, x.length = c.b → (c.enc x).length = c.b) (hiv : iv.length = c.b) :
    (Modes.cfb c n true iv (Modes.cfb c n false iv data).1).1 = data := by
  refine scan_scan (R := SameState c) (total := data.length) hn ?_ data iv iv id ⟨rfl, hiv⟩
  rintro s t x ⟨rfl, hs⟩ hx
  have hfits : x.length ≤ (c.enc s).length := by rw [henc s hs]; exact hx.le.trans hle
  have hlen : (xorB x (c.enc s)).length = x.length := length_xorB hfits
  have hstate : ((s ++ xorB x (c.enc s)).drop x.length).length = c.b := by
    rw [List.length_drop, List.length_append, hlen, hs]
    omega
  refine ⟨hlen, xorB_xorB hfits, ?_, hstate⟩
  show (s ++ xorB x (c.enc s)).drop x.length = (s ++ xorB x (c.enc s)).drop (xorB x (c.enc s)).length
  rw [hlen]

theorem ofb_ofb (hb : 0 < c.b) (henc : ∀ x, x.length = c.b → (c.enc x).length = c.b) (hiv : iv.length = c.b) :
    (Modes.ofb c iv (Modes.ofb c iv data).1).1 = data := by
  refine scan_scan (R := SameState c) (total := data.length) hb ?_ data iv iv id ⟨rfl, hiv⟩
  rintro s t x ⟨rfl, hs⟩ hx
  have hfits : x.length ≤ (c.enc s).length := by rw [henc s hs]; exact hx.le
  exact ⟨length_xorB hfits, xorB_xorB hfits, rfl, henc s hs⟩

theorem ctr_ctr (hb : 0 < c.b) (henc : ∀ x, x.length = c.b → (c.enc x).length = c.b) (hiv : iv.length = c.b) (bits : Nat) :
    (Modes.ctr c bits iv (Modes.ctr c bits iv data).1).1 = data := by
  refine scan_scan (R := SameState c) (total := data.length) hb ?_ data iv iv id ⟨rfl, hiv⟩
  rintro s t x ⟨rfl, hs⟩ hx
  have hfits : x.length ≤ (c.enc s).length := by rw [henc s hs]; exact hx.le
  exact ⟨length_xorB hfits, xorB_xorB hfits, rfl, (length_toBE _ _).trans hs⟩

end

/-! ## Results -/

section
variable {s : State} {b : Block} {l op : Nat} {e : Entry} {r : Result}

theorem Block.entry?_modEntry_ne {k : Nat} {i : Index} {f : Entry → Entry}
    (hf : ∀ e : Entry, e.ring = k → e.sub = i → (f e).ring = k ∧ (f e).sub = i) {j : Nat} {x : Index} (h : ¬ (j = k ∧ x = i)) :
    (b.modEntry k i f).entry? j x = b.entry? j x := by
  unfold Block.entry? Block.modEntry
  induction b.entries with
  | nil => rfl
  | cons e es ih =>
    have hkey : ((if e.ring == k && e.sub == i then f e else e).ring == j && (if e.ring == k && e.sub == i then f e else e).sub == x) =
        (e.ring == j && e.sub == x) := by
      by_cases hit : e.ring = k ∧ e.sub = i
      · obtain ⟨hring, hsub⟩ := hf e hit.1 hit.2
        simp [hit.1, hit.2, hring, hsub]
      · have hne : (e.ring == k && e.sub == i) = false := by simpa using hit
        rw [hne]
        rfl
    rw [List.map_cons, List.find?_cons, List.find?_cons, hkey]
    cases hx : e.ring == j && e.sub == x with
    | false => exact ih
    | true =>
      have hxe : e.ring = j ∧ e.sub = x := by simpa using hx
      have hne : (e.ring == k && e.sub == i) = false := by
        rw [hxe.1, hxe.2]
        simpa using h
      rw [hne]
      rfl

/-- A command that gives an entry of the block its result computes. -/
theorem computes_of_setResult {c : Instr} (hheld : s.blk.entry? e.ring e.sub = some e)
    (h : exec c s = .next { s with blk := s.blk.setResult e r }) : Computes s c e r :=
  ⟨_, h, ⟨rfl, fun _ _ hne => Block.entry?_modEntry_ne (f := fun e => { e with res := some r }) (fun _ hk hi => ⟨hk, hi⟩) hne⟩,
    Block.entry?_modEntry_of_keeps (f := fun e => { e with res := some r }) (fun _ => ⟨rfl, rfl⟩) hheld⟩

/-- The entry that a lane executes. -/
theorem Block.WorksOn.onLane {family : Nat} (h : b.WorksOn (b.lane l).job family op e) : b.onLane l family op = some e := by
  unfold Block.onLane
  rw [h.job]
  simp only [h.held]
  exact if_pos ⟨h.stage, by rw [h.fresh]; rfl, h.family, h.op⟩

theorem Block.WorksOn.symOn (h : b.WorksOn (b.lane l).job Fam.sym op e) : b.symOn l op = b.setResult e (e.symResult (b.input e)) := by
  unfold Block.symOn
  rw [h.onLane]

theorem Block.WorksOn.hashOn (h : b.WorksOn (b.lane l).job Fam.hash op e) :
    b.hashOn l op = b.setResult e (e.hashResult (b.input e)) := by
  unfold Block.hashOn
  rw [h.onLane]

theorem Block.WorksOn.encrypt (h : s.blk.WorksOn (s.blk.lane l).job Fam.sym 1 e) :
    Computes s (.encrypt l) e (e.symResult (s.blk.input e)) := computes_of_setResult h.held (next_congr h.symOn)

theorem Block.WorksOn.decrypt (h : s.blk.WorksOn (s.blk.lane l).job Fam.sym 2 e) :
    Computes s (.decrypt l) e (e.symResult (s.blk.input e)) := computes_of_setResult h.held (next_congr h.symOn)

theorem Computes.of_eq {c : Instr} {r' : Result} (h : Computes s c e r) (hr : r = r') : Computes s c e r' := hr ▸ h

end

/-- Settles O32: each mode's clause is the branch of `Entry.symResult` that VARIANT and the operation select; a stream mode's two
passes stand at one state before each piece, so the second gives each piece back. -/
theorem laneCiphers : Obligations.LaneCiphers := by
  unfold Obligations.LaneCiphers
  refine ⟨?_, ?_⟩
  · intro s l e d key c src start stream iv aad data tag
    refine ⟨fun h => ?_, fun h => ?_⟩
    · have hop : e.d.op = 1 := h.op
      have hresult := h.encrypt
      refine ⟨?_, ?_, ?_, ?_, ?_, ?_, ?_, ?_⟩
      all_goals
        intro hvar
        have hvar : e.d.var = _ := hvar
        refine hresult.of_eq ?_
        unfold Entry.symResult
        simp only [hvar, hop]
        rfl
    · have hop : e.d.op = 2 := h.op
      have hresult := h.decrypt
      refine ⟨?_, ?_, ?_, ?_, ?_, ?_, fun hvar htag => ?_, fun hvar htag => ?_, fun hvar htag => ?_, fun hvar htag => ?_⟩
      iterate 6
        · intro hvar
          have hvar : e.d.var = _ := hvar
          refine hresult.of_eq ?_
          unfold Entry.symResult
          simp only [hvar, hop]
          rfl
      all_goals
        have hvar : e.d.var = _ := hvar
        refine hresult.of_eq ?_
        unfold Entry.symResult
        simp only [hvar, hop]
      · exact if_pos htag
      · exact if_neg htag
      · exact if_pos htag
      · exact if_neg htag
  · intro c iv data hb henc hiv
    exact ⟨fun hdec hdata => cbcDec_cbcEnc hb henc hiv hdec hdata, cfb_cfb hb le_rfl henc hiv, cfb_cfb Nat.one_pos hb henc hiv,
      ofb_ofb hb henc hiv, fun bits => ctr_ctr hb henc hiv bits⟩

end Sys2Proof.Machine

/-! Digests and MACs on the lanes (05 R105 to R107, 07 R147). -/

namespace Sys2Proof.Machine

open Sys2Proof

section
variable {s : State} {b : Block} {l op : Nat} {e : Entry} {h : Hash.Fn}

theorem Block.WorksOn.hash (w : s.blk.WorksOn (s.blk.lane l).job Fam.hash 1 e) :
    Computes s (.hash l) e (e.hashResult (s.blk.input e)) := computes_of_setResult w.held (next_congr w.hashOn)

theorem Block.WorksOn.hashVerify (w : s.blk.WorksOn (s.blk.lane l).job Fam.hash 2 e) :
    Computes s (.hashVerify l) e (e.hashResult (s.blk.input e)) := computes_of_setResult w.held (next_congr w.hashOn)

theorem Block.WorksOn.macGenerate (w : s.blk.WorksOn (s.blk.lane l).job Fam.hash 3 e) :
    Computes s (.macGenerate l) e (e.hashResult (s.blk.input e)) := computes_of_setResult w.held (next_congr w.hashOn)

theorem Block.WorksOn.macVerify (w : s.blk.WorksOn (s.blk.lane l).job Fam.hash 4 e) :
    Computes s (.macVerify l) e (e.hashResult (s.blk.input e)) := computes_of_setResult w.held (next_congr w.hashOn)

theorem Block.WorksOn.xof (w : s.blk.WorksOn (s.blk.lane l).job Fam.hash 5 e) :
    Computes s (.xof l) e (e.hashResult (s.blk.input e)) := computes_of_setResult w.held (next_congr w.hashOn)

/-! ## The chaining function -/

/-- The digest of an operation that is no MAC. -/
theorem Entry.digest_of_hash (hh : Hash.ofCode (e.d.var % 16) = some h) (h3 : e.d.op ≠ 3) (h4 : e.d.op ≠ 4) (st src : Bytes)
    (total : Nat) (final : Bool) :
    e.digest st src total final = if final then Hash.finish h st src total e.d.dstLen else Hash.update h st src := by
  simp only [Entry.digest, hh, beq_eq_false_iff_ne.2 h3, beq_eq_false_iff_ne.2 h4, Bool.or_self, Bool.false_and, Bool.false_eq_true, if_false]
  cases final <;> rfl

theorem Entry.digestStart_of_hash (hh : Hash.ofCode (e.d.var % 16) = some h) (h3 : e.d.op ≠ 3) (h4 : e.d.op ≠ 4) :
    e.digestStart = Hash.init h := by
  simp only [Entry.digestStart, hh, beq_eq_false_iff_ne.2 h3, beq_eq_false_iff_ne.2 h4, Bool.or_self, Bool.false_and, Bool.false_eq_true,
    if_false]

/-- The operation makes or verifies a MAC. -/
def Entry.isMac (e : Entry) : Prop := e.d.op = 3 ∨ e.d.op = 4

theorem Entry.isMac.test (hm : e.isMac) : (e.d.op == 3 || e.d.op == 4) = true := by
  rcases hm with hm | hm <;> simp [hm]

/-- The MAC of a hash function over a whole message. -/
theorem Entry.digest_of_hmac (hh : Hash.ofCode (e.d.var % 16) = some h) (hm : e.isMac) (hvar : e.d.var < 0x20) (src : Bytes) :
    e.digest e.digestStart src src.length true = Hash.hmac h e.key1.slotRec.secret src := by
  have h20 : e.d.var ≠ 0x20 := by omega
  have h21 : e.d.var ≠ 0x21 := by omega
  have h22 : e.d.var ≠ 0x22 := by omega
  have hlow : decide (0x20 ≤ e.d.var) = false := decide_eq_false (by omega)
  have hstart : e.digestStart = Hash.hmacInit h e.key1.slotRec.secret := by
    simp only [Entry.digestStart, hm.test, hlow, hh, Bool.and_false, Bool.false_eq_true, if_false, if_true]
  simp only [Entry.digest, hstart, hh, hm.test, beq_eq_false_iff_ne.2 h20, beq_eq_false_iff_ne.2 h21, beq_eq_false_iff_ne.2 h22,
    Bool.and_false, Bool.not_true, Bool.false_eq_true, if_false, if_true]
  rfl

/-- The zero block that a MAC of a cipher starts from. -/
theorem Entry.digestStart_of_cipher (hm : e.isMac) (hvar : 0x20 ≤ e.d.var) :
    e.digestStart = zeros (if algTdea e.key1.slotRec.code then 8 else 16) := by
  simp only [Entry.digestStart, hm.test, hvar, decide_true, Bool.and_self, if_true]

/-- The block of an installed key's cipher is as long as the zero block. -/
theorem length_block {code : Nat} (hcode : 1 ≤ code) (key : Bytes) :
    (Modes.cipherOf code key).b = if algTdea code then 8 else 16 := by
  unfold Modes.cipherOf algTdea upTo
  by_cases h : code ≤ 2
  · simp only [h, hcode, decide_true, Bool.and_self, if_true]
    rfl
  · simp only [h, decide_false, Bool.and_false, Bool.false_eq_true, if_false]
    rfl

theorem Entry.digest_of_cmac (hm : e.isMac) (hvar : e.d.var = 0x20) (hcode : 1 ≤ e.key1.slotRec.code) (src : Bytes) (total : Nat) :
    e.digest e.digestStart src total true = Modes.cmac (Modes.cipherOf e.key1.slotRec.code e.key1.slotRec.secret) src := by
  have hblock := length_block hcode e.key1.slotRec.secret
  have hlen : (zeros (if algTdea e.key1.slotRec.code then 8 else 16)).length =
      (Modes.cipherOf e.key1.slotRec.code e.key1.slotRec.secret).b := by rw [hblock, zeros, List.length_replicate]
  have hstart : e.digestStart = zeros (Modes.cipherOf e.key1.slotRec.code e.key1.slotRec.secret).b := by
    rw [Entry.digestStart_of_cipher hm hvar.ge, hblock]
  simp only [Entry.digest, Entry.digestStart_of_cipher hm hvar.ge, hm.test, hvar, beq_self_eq_true, Bool.and_self, if_true, Modes.cmac]
  rw [List.take_of_length_le hlen.le, List.drop_of_length_le hlen.le, List.nil_append, hblock]

theorem Entry.digest_of_mac1 (hm : e.isMac) (hvar : e.d.var = 0x21) (src : Bytes) (total : Nat) :
    e.digest e.digestStart src total true = Modes.mac1Finish (Modes.cipherOf e.key1.slotRec.code e.key1.slotRec.secret)
      (field e.d.param 9 8) (zeros (if algTdea e.key1.slotRec.code then 8 else 16)) src total := by
  have h20 : (e.d.var == 0x20) = false := by rw [hvar]; rfl
  have h21 : (e.d.var == 0x21) = true := by rw [hvar]; rfl
  simp only [Entry.digest, Entry.digestStart_of_cipher hm (by omega), hm.test, h20, h21, Bool.and_false, Bool.and_true,
    Bool.false_eq_true, if_false, if_true]

theorem Entry.digest_of_mac3 (hm : e.isMac) (hvar : e.d.var = 0x22) (src : Bytes) (total : Nat) :
    e.digest e.digestStart src total true = Modes.mac3Finish e.key1.slotRec.secret
      (field e.d.param 9 8) (zeros (if algTdea e.key1.slotRec.code then 8 else 16)) src total := by
  have h20 : (e.d.var == 0x20) = false := by rw [hvar]; rfl
  have h21 : (e.d.var == 0x21) = false := by rw [hvar]; rfl
  have h22 : (e.d.var == 0x22) = true := by rw [hvar]; rfl
  simp only [Entry.digest, Entry.digestStart_of_cipher hm (by omega), hm.test, h20, h21, h22, Bool.and_false, Bool.and_true,
    Bool.false_eq_true, if_false, if_true]

/-! ## One stage -/

/-- A descriptor of one stage keeps no context. -/
theorem Entry.nextCtx_of_whole (hstage : e.d.stage = 0) (code gen n : Nat) (state : Bytes) : e.nextCtx code gen n state = none := by
  simp only [Entry.nextCtx, hstage]

theorem Desc.continues_of_first {d : Desc} (h : d.stage ≤ 1) : d.continues = false := by
  have hlow : decide (2 ≤ d.stage) = false := decide_eq_false (by omega)
  rw [Desc.continues, hlow, Bool.and_false]

/-- The digest that a descriptor of one stage computes. -/
def Entry.wholeDigest (e : Entry) (src : Bytes) : Bytes := e.digest e.digestStart src src.length true

/-- What a descriptor of one stage gives, by its operation. -/
def Entry.wholeResult (e : Entry) (src : Bytes) : Result :=
  let out := (e.wholeDigest src).take (e.d.macLen e.key1.slotRec.code)
  match e.d.op with
  | 1 => { out := e.wholeDigest src }
  | 5 => { out := e.wholeDigest src }
  | 2 => if e.wholeDigest src = e.aux then {} else { status := 0x31, detail := 1 }
  | 3 => { out }
  | _ => if out = e.aux then {} else { status := 0x31, detail := 2 }

theorem Entry.hashResult_of_whole (hstage : e.d.stage = 0) (src : Bytes) : e.hashResult src = e.wholeResult src := by
  have hcont : e.d.continues = false := Desc.continues_of_first (by omega)
  have hfinal : (e.d.stage == 0 || e.d.stage == 3) = true := by rw [hstage]; rfl
  simp only [Entry.hashResult, hcont, hfinal, Entry.nextCtx_of_whole hstage, Bool.false_eq_true, Bool.not_true, if_false, Nat.zero_add]
  rfl

/-- A first stage of a hash gives nothing but its context. -/
theorem Entry.hashResult_of_first (hh : Hash.ofCode (e.d.var % 16) = some h) (hop : e.d.op = 1) (hstage : e.d.stage = 1) (src : Bytes) :
    e.hashResult src = { ctx := e.nextCtx e.key1.slotRec.code e.key1.gen src.length (Hash.update h (Hash.init h) src) } := by
  have hcont : e.d.continues = false := Desc.continues_of_first (by omega)
  have hfinal : (e.d.stage == 0 || e.d.stage == 3) = false := by rw [hstage]; rfl
  have h3 : e.d.op ≠ 3 := by omega
  have h4 : e.d.op ≠ 4 := by omega
  simp only [Entry.hashResult, hcont, hfinal, Bool.false_eq_true, Bool.not_false, if_false, if_true, Nat.zero_add,
    Entry.digest_of_hash hh h3 h4, Entry.digestStart_of_hash hh h3 h4]

/-! ## The commands -/

/-- A MAC descriptor of one stage whose digest is known. -/
theorem computes_mac {src mac : Bytes} (hsrc : src = s.blk.input e) (hstage : e.d.stage = 0) (hdigest : e.isMac → e.wholeDigest src = mac) :
    (s.blk.WorksOn (s.blk.lane l).job Fam.hash 3 e →
      Computes s (.macGenerate l) e { out := mac.take (e.d.macLen e.key1.slotRec.code) }) ∧
    (s.blk.WorksOn (s.blk.lane l).job Fam.hash 4 e → mac.take (e.d.macLen e.key1.slotRec.code) = e.aux →
      Computes s (.macVerify l) e {}) ∧
    (s.blk.WorksOn (s.blk.lane l).job Fam.hash 4 e → mac.take (e.d.macLen e.key1.slotRec.code) ≠ e.aux →
      Computes s (.macVerify l) e { status := 0x31, detail := 2 }) := by
  refine ⟨fun w => w.macGenerate.of_eq ?_, fun w heq => w.macVerify.of_eq ?_, fun w hne => w.macVerify.of_eq ?_⟩
  · simp only [← hsrc, Entry.hashResult_of_whole hstage, Entry.wholeResult, w.op, hdigest (.inl w.op)]
  · simp only [← hsrc, Entry.hashResult_of_whole hstage, Entry.wholeResult, w.op, hdigest (.inr w.op)]
    exact if_pos heq
  · simp only [← hsrc, Entry.hashResult_of_whole hstage, Entry.wholeResult, w.op, hdigest (.inr w.op)]
    exact if_neg hne

/-- A hash descriptor of one stage. -/
theorem Entry.wholeDigest_of_hash (hh : Hash.ofCode (e.d.var % 16) = some h) (h3 : e.d.op ≠ 3) (h4 : e.d.op ≠ 4) (src : Bytes) :
    e.wholeDigest src = Hash.xof h src e.d.dstLen := by
  rw [Entry.wholeDigest, Entry.digest_of_hash hh h3 h4, Entry.digestStart_of_hash hh h3 h4]
  rfl

end

/-- Settles O33: in one stage the result is the operation's branch over the digest, and the digest is the whole message's hash, HMAC
or cipher MAC; a first stage's is the context it leaves. -/
theorem laneDigests : Obligations.LaneDigests := by
  unfold Obligations.LaneDigests
  intro s l e d key src runs whole c mac
  refine ⟨fun h hh => ?_, fun hvar hcode => ?_⟩
  · have hsha {op : Nat} (w : runs op) (hw : whole) (h3 : op ≠ 3) (h4 : op ≠ 4) :
        e.hashResult src = e.wholeResult src ∧ e.wholeDigest src = Hash.xof h src e.d.dstLen :=
      ⟨Entry.hashResult_of_whole hw.1 src, Entry.wholeDigest_of_hash hh (w.op ▸ h3) (w.op ▸ h4) src⟩
    have hmac (hlow : d.var < 0x20) : e.isMac → e.wholeDigest src = Hash.hmac h key.secret src := fun hm =>
      Entry.digest_of_hmac hh hm hlow src
    refine ⟨fun w hw => w.hash.of_eq ?_, fun w hw => w.xof.of_eq ?_, fun w hw heq => w.hashVerify.of_eq ?_,
      fun w hw hne => w.hashVerify.of_eq ?_, fun w hw hlow => (computes_mac rfl hw.1 (hmac hlow)).1 w,
      fun w hw hlow => (computes_mac rfl hw.1 (hmac hlow)).2.1 w, fun w hw hlow => (computes_mac rfl hw.1 (hmac hlow)).2.2 w,
      fun w hstage => ?_⟩
    · obtain ⟨hresult, hdigest⟩ := hsha w hw (by decide) (by decide)
      refine hresult.trans ?_
      simp only [Entry.wholeResult, w.op, hdigest]
      rfl
    · obtain ⟨hresult, hdigest⟩ := hsha w hw (by decide) (by decide)
      refine hresult.trans ?_
      simp only [Entry.wholeResult, w.op, hdigest]
      rfl
    · obtain ⟨hresult, hdigest⟩ := hsha w hw (by decide) (by decide)
      refine hresult.trans ?_
      simp only [Entry.wholeResult, w.op, hdigest]
      exact if_pos heq
    · obtain ⟨hresult, hdigest⟩ := hsha w hw (by decide) (by decide)
      refine hresult.trans ?_
      simp only [Entry.wholeResult, w.op, hdigest]
      exact if_neg hne
    · have hresult := Entry.hashResult_of_first hh w.op hstage src
      have hstage' : e.d.stage = 1 := hstage
      obtain ⟨ctx, hctx⟩ : ∃ ctx, e.nextCtx key.code e.key1.gen src.length (Hash.update h (Hash.init h) src) = some ctx :=
        Option.isSome_iff_exists.1 (by simp only [Entry.nextCtx, hstage', Option.isSome_some])
      exact ⟨ctx, hctx, w.hash.of_eq (hresult.trans (congrArg (fun x => ({ ctx := x } : Result)) hctx))⟩
  · have hmac : e.isMac → e.wholeDigest src = mac := by
      intro hm
      rcases hvar with hvar | hvar | hvar
      · exact (Entry.digest_of_cmac hm hvar hcode src _).trans (if_pos hvar).symm
      · refine (Entry.digest_of_mac1 hm hvar src _).trans (Eq.symm ?_)
        exact (if_neg (by rw [hvar]; decide)).trans (if_pos hvar)
      · refine (Entry.digest_of_mac3 hm hvar src _).trans (Eq.symm ?_)
        exact (if_neg (by rw [hvar]; decide)).trans (if_neg (by rw [hvar]; decide))
    exact ⟨fun w hw => (computes_mac rfl hw.1 hmac).1 w, fun w hw => (computes_mac rfl hw.1 hmac).2.1 w,
      fun w hw => (computes_mac rfl hw.1 hmac).2.2 w⟩

end Sys2Proof.Machine

/-! Dispatch: what leaves a queue and what a unit takes (07 R141, R152, R153, R156). -/

namespace Sys2Proof.Machine

open Sys2Proof

/-! ## What leaves a queue -/

/-- The first item of a list that something can be done for. -/
theorem findSome?_front {α β : Type} {f : α → Option β} {pre post : List α} {i : α} {r : β} (hpre : ∀ y ∈ pre, f y = none)
    (h : f i = some r) : (pre ++ i :: post).findSome? f = some r := by
  rw [List.findSome?_append, List.findSome?_eq_none_iff.2 hpre, List.findSome?_cons, h]
  rfl

section
variable {b : Block} {k : Nat} {sub : Index} {e : Entry} {j : Job} {y : QItem}

theorem nth_map_of_default {α β : Type} {d : α} {d' : β} (f : α → β) (hd : f d = d') (l : List α) (p : Nat) :
    nth d' (l.map f) p = f (nth d l p) := by
  subst hd
  simp only [nth, List.getD_map]

/-- No queue holds a job that has left. -/
theorem Block.job_of_mem_unqueue_pers {p : Nat} (h : y ∈ ((b.unqueue j).persState p).queue) : y.job ≠ j := by
  have hqueue : (b.unqueue j).persState p = { b.persState p with queue := (b.persState p).queue.filter fun i => i.job != j } :=
    nth_map_of_default (β := PersState) (d := ({} : PersState)) (d' := ({} : PersState)) (fun s => { s with queue := s.queue.filter fun i => i.job != j }) rfl
      b.lanes.pers p
  rw [hqueue] at h
  simpa using (List.mem_filter.1 h).2

theorem job_of_mem_filter {l : List QItem} (h : y ∈ l.filter fun i => i.job != j) : y.job ≠ j := by
  simpa using (List.mem_filter.1 h).2

/-! ## An entry given to a unit -/

/-- References taken change the slots alone. -/
theorem Block.takeRefs_frame (keys : List KeyCopy) (b : Block) :
    keys.foldl Block.takeRef b = { b with keys := { b.keys with slots := (keys.foldl Block.takeRef b).keys.slots } } := by
  induction keys generalizing b with
  | nil => rfl
  | cons x keys ih =>
    have hx : b.takeRef x = { b with keys := { b.keys with slots := (b.takeRef x).keys.slots } } := rfl
    rw [List.foldl_cons, ih (b.takeRef x)]
    exact congrArg (fun c : Block => { c with keys := { c.keys with slots := (keys.foldl Block.takeRef (b.takeRef x)).keys.slots } }) hx

/-- An entry as a unit takes it for the first time. -/
def Entry.given (e : Entry) (unit now : Nat) (keys : List KeyCopy) (ctx : Option CtxRec) : Entry :=
  { e with stage := .dispatched, engine := unit, dispatchedAt := some now, res := none, refsHeld := true, keys, ctx }

/-- An entry as a unit takes it. -/
def Entry.startedOn (e : Entry) (unit now : Nat) (keys : List KeyCopy) (ctx : Option CtxRec) : Entry :=
  { e with
    stage := .dispatched, engine := unit, dispatchedAt := some (e.dispatchedAt.getD now), res := none
    keys := if e.refsHeld then e.keys else keys, refsHeld := true
    ctx := if e.dispatchedAt.isSome then e.ctx else ctx }

theorem Entry.startedOn_of_first {e : Entry} (hrefs : e.refsHeld = false) (hfirst : e.dispatchedAt = none) (unit now : Nat)
    (keys : List KeyCopy) (ctx : Option CtxRec) : e.startedOn unit now keys ctx = e.given unit now keys ctx := by
  rw [Entry.startedOn, hfirst, hrefs]
  rfl

/-- The block in which an entry has been given to a unit for the first time. -/
def Block.gives (b : Block) (k : Nat) (sub : Index) (unit : Nat) (keys : List KeyCopy) (ctx : Option CtxRec) : Block :=
  (keys.foldl Block.takeRef b).modEntry k sub (Entry.startedOn · unit b.now keys ctx)

theorem Block.gives_frame (unit : Nat) (keys : List KeyCopy) (ctx : Option CtxRec) :
    b.gives k sub unit keys ctx = { b with
      entries := (b.gives k sub unit keys ctx).entries
      keys := { b.keys with slots := (keys.foldl Block.takeRef b).keys.slots } } := by
  conv_lhs => rw [Block.gives, Block.takeRefs_frame]
  rw [Block.gives, Block.takeRefs_frame]
  rfl

theorem Block.entry?_gives (hheld : b.entry? k sub = some e) (hrefs : e.refsHeld = false) (hfirst : e.dispatchedAt = none) (unit : Nat)
    (keys : List KeyCopy) (ctx : Option CtxRec) :
    (b.gives k sub unit keys ctx).entry? k sub = some (e.given unit b.now keys ctx) := by
  have hkeys : (keys.foldl Block.takeRef b).entry? k sub = some e := by
    rw [Block.takeRefs_frame]
    exact hheld
  refine (Block.entry?_modEntry_of_keeps (f := (Entry.startedOn · unit b.now keys ctx)) (fun _ => ⟨rfl, rfl⟩) hkeys).trans ?_
  rw [Entry.startedOn_of_first hrefs hfirst]

theorem Block.startEntry_of_first (hheld : b.entry? k sub = some e) (hrefs : e.refsHeld = false) (unit : Nat) (keys : List KeyCopy)
    (ctx : Option CtxRec) : b.startEntry k sub unit keys ctx = b.gives k sub unit keys ctx := by
  have hnow : (keys.foldl Block.takeRef b).now = b.now := by
    rw [Block.takeRefs_frame]
    rfl
  unfold Block.startEntry Block.gives
  rw [hheld]
  simp only [hrefs, Bool.false_eq_true, if_false, hnow]
  rfl

theorem Block.slot_gives_one (unit : Nat) (c : KeyCopy) (ctx : Option CtxRec) :
    (b.gives k sub unit [c] ctx).slot c.slot = { b.slot c.slot with refs := (b.slot c.slot).refs + 1 } :=
  (Block.slot_modSlot b c.slot (fun s => { s with refs := s.refs + 1 }) c.slot).trans (if_pos rfl)

end

/-! ## Lane dispatch -/

section
variable {b : Block} {p l k : Nat} {sub : Index} {i : QItem} {e : Entry}

/-- An item that a test of check 2 at dispatch refuses. -/
theorem Block.laneTry_of_check2 {st det : Nat} {r : BitVec 64} (hmay : b.mayDispatch i.job = true) (hjob : i.job = .entry k sub)
    (hheld : b.entry? k sub = some e) (hrefs : e.refsHeld = false) (hfault : b.lateCheck2 e = some (st, det, r)) :
    b.laneTry p i = some ((b.unqueue i.job).refuse e st det r) := by
  have hcheck : b.itemCheck2 i = some (e, st, det, r) := by
    simp only [Block.itemCheck2, hjob, hheld, Option.bind_some, hrefs, Bool.false_eq_true, if_false, hfault, Option.map_some]
  unfold Block.laneTry
  rw [hcheck]
  exact if_neg (by simp [hmay])

/-- An item that the lane idle longest takes. -/
theorem Block.laneTry_of_lane (hmay : b.mayDispatch i.job = true) (hcheck : b.itemCheck2 i = none) (hretry : i.retry = false)
    (hserve : b.unservable p = false) (hlane : argMin (fun m => ((b.lane m).idleSince : Int))
      (((b.carriers p).filter fun m => !(i.excluded.contains m)).filter fun m =>
        (b.lane m).job.isNone && (b.lane m).hasMasks (b.maskNeed i.job)) = some l) :
    b.laneTry p i = some (b.laneTake p l i) := by
  obtain ⟨hmem, -⟩ := argMin_mem_and_min _ hlane
  obtain ⟨hcarrier, hfree⟩ := List.mem_filter.1 hmem
  simp only [Bool.and_eq_true] at hfree
  have hmasks : (((b.carriers p).filter fun m => !(i.excluded.contains m)).all fun m => !(b.lane m).hasMasks (b.maskNeed i.job)) = false :=
    List.all_eq_false.2 ⟨l, hcarrier, by rw [hfree.2]; decide⟩
  unfold Block.laneTry
  rw [hcheck]
  refine (if_neg (by simp [hmay])).trans ?_
  refine (if_neg (by simp [hserve])).trans ?_
  refine (if_neg (by simp [hretry])).trans ?_
  refine (if_neg (by rw [hmasks]; simp)).trans ?_
  exact congrArg (Option.map fun l => b.laneTake p l i) hlane

/-- What a dispatched lane holds. -/
def Block.laneHolds (b : Block) (p l : Nat) (i : QItem) : Block :=
  (b.unqueue i.job).modLane l (LaneRec.take · i b.now (b.scaledTo l (b.laneCost p i.job)) (b.maskNeed i.job))

theorem Block.laneTake_of_fault {st det : Nat} {r : BitVec 64} (hjob : i.job = .entry k sub) (hheld : b.entry? k sub = some e)
    (hrefs : e.refsHeld = false) (hfault : b.laneFault e = some (st, det, r)) :
    b.laneTake p l i = (b.unqueue i.job).refuse e st det r := by
  simp only [Block.laneTake, hjob, hheld, hrefs, Bool.false_eq_true, if_false, hfault]

theorem Block.laneTake_of_first (hjob : i.job = .entry k sub) (hheld : b.entry? k sub = some e) (hrefs : e.refsHeld = false)
    (hfault : b.laneFault e = none) :
    b.laneTake p l i = ((b.laneHolds p l i).gives k sub l (if e.d.keyed then [b.copyKey e.d.k1] else [])
      (if e.d.continues then some (b.ctx e.d.ctx).c else none)).askSeed l := by
  have hstart := Block.startEntry_of_first (b := b.laneHolds p l i) (k := k) (sub := sub) (e := e) hheld hrefs l
    (if e.d.keyed then [b.copyKey e.d.k1] else []) (if e.d.continues then some (b.ctx e.d.ctx).c else none)
  rw [← hstart]
  simp only [Block.laneTake, hjob, hheld, hrefs, Bool.false_eq_true, if_false, hfault]
  simp only [Block.laneHolds, hjob]

/-- A lane that asks for a seed keeps what it holds. -/
theorem Block.askSeed_spec (b : Block) (l : Nat) :
    (∃ asked, (b.askSeed l).lane l = { b.lane l with seedAsked := asked }) ∧ (∀ m, m ≠ l → (b.askSeed l).lane m = b.lane m) ∧
    b.askSeed l = { b with
      lanes := { b.lanes with units := (b.askSeed l).lanes.units }, hen := { b.hen with waiting := (b.askSeed l).hen.waiting } } := by
  unfold Block.askSeed
  simp only
  split
  · refine ⟨⟨true, (Block.lane_modLane _ _ _ _).trans (if_pos rfl)⟩, fun m hm => (Block.lane_modLane _ _ _ _).trans (if_neg hm.symm), rfl⟩
  · exact ⟨⟨(b.lane l).seedAsked, rfl⟩, fun _ _ => rfl, rfl⟩

end

/-- Settles O36: the items before the first that may go wait; its tests come in the order check 2, check 4, and where both pass it is
given to the lane that `argMin` names. -/
theorem laneDispatch : Obligations.LaneDispatch := by
  unfold Obligations.LaneDispatch
  intro s l p k sub pre post i e b hqueue hpre hmay hretry hjob hheld hrefs hserve hlane
  have hwait (y : QItem) (hy : y ∈ pre) : b.laneTry p y = none := if_pos (by rw [hpre y hy]; rfl)
  have hdispatch {r : Block} (h : b.laneTry p i = some r) : exec (.laneDispatch p) s = .next { s with blk := r } :=
    next_congr (by
      show ((b.persState p).queue.findSome? (b.laneTry p)).getD b = r
      rw [hqueue, findSome?_front hwait h]
      rfl)
  have htake (h2 : b.lateCheck2 e = none) : b.laneTry p i = some (b.laneTake p l i) :=
    Block.laneTry_of_lane hmay (by
      simp only [Block.itemCheck2, hjob, hheld, Option.bind_some, hrefs, Bool.false_eq_true, if_false, h2, Option.map_none])
      hretry hserve hlane
  refine ⟨fun st det r hfault => ?_, fun h2 h4 hfirst => ?_⟩
  · cases h2 : b.lateCheck2 e with
    | some x =>
      rw [h2] at hfault
      obtain rfl : x = (st, det, r) := Option.some.inj hfault
      exact hdispatch (Block.laneTry_of_check2 hmay hjob hheld hrefs h2)
    | none =>
      rw [h2] at hfault
      rw [hdispatch (htake h2), Block.laneTake_of_fault hjob hheld hrefs hfault]
  · have he := hdispatch (htake h2)
    obtain ⟨keys, hkeys⟩ : ∃ keys, keys = if e.d.keyed then [b.copyKey e.d.k1] else [] := ⟨_, rfl⟩
    obtain ⟨ctx, hctx⟩ : ∃ ctx, ctx = if e.d.continues then some (b.ctx e.d.ctx).c else none := ⟨_, rfl⟩
    obtain ⟨m, hm⟩ : ∃ m, m = b.laneHolds p l i := ⟨_, rfl⟩
    obtain ⟨g, hg⟩ : ∃ g, g = m.gives k sub l keys ctx := ⟨_, rfl⟩
    rw [Block.laneTake_of_first hjob hheld hrefs h4, ← hkeys, ← hctx, ← hm, ← hg] at he
    obtain ⟨⟨asked, hasks⟩, hother, hframe⟩ := Block.askSeed_spec g l
    have hgframe := Block.gives_frame (b := m) (k := k) (sub := sub) l keys ctx
    rw [← hg] at hgframe
    have hmlane (n : Nat) : m.lane n = if l = n then
        (b.lane l).take i b.now (b.scaledTo l (b.laneCost p i.job)) (b.maskNeed i.job) else b.lane n := by
      rw [hm, Block.laneHolds, Block.lane_modLane]
      split
      · rfl
      · rfl
    have hglane (n : Nat) : g.lane n = m.lane n := by rw [hgframe]; rfl
    have hlane : g.lane l = (b.lane l).take i b.now (b.scaledTo l (b.laneCost p i.job)) (b.maskNeed i.job) := by
      rw [hglane, hmlane, if_pos rfl]
    have hmframe : m = { b with
        lanes := { b.lanes with pers := m.lanes.pers, units := m.lanes.units }, ox := { b.ox with queue := m.ox.queue }
        lat := { b.lat with queue := m.lat.queue }, keys := { b.keys with queue := m.keys.queue }
        pay := { b.pay with queue := m.pay.queue } } := by
      rw [hm]
      rfl
    have hentry : g.entry? k sub = some (e.given l b.now keys ctx) := by
      have hmheld : m.entry? k sub = some e := by rw [hm]; exact hheld
      have hnow : m.now = b.now := by rw [hm]; rfl
      rw [hg, Block.entry?_gives hmheld hrefs hfirst, hnow]
    refine ⟨_, he, ?_, ?_, ?_, ?_, fun n hn => ?_, fun y hy => ?_, fun hkeyed => ?_, ?_⟩
    · show (g.askSeed l).entry? k sub = _
      rw [hframe]
      exact hentry.trans (by rw [hkeys, hctx]; rfl)
    · show ((g.askSeed l).lane l).job = _
      rw [hasks, hlane]
      rfl
    · show ((g.askSeed l).lane l).startedAt = _
      rw [hasks, hlane]
      rfl
    · show ((g.askSeed l).lane l).blocks = _
      rw [hasks, hlane]
      rfl
    · show (g.askSeed l).lane n = _
      rw [hother n hn, hglane, hmlane, if_neg (Ne.symm hn)]
    · have hpers : (g.askSeed l).persState p = (b.unqueue i.job).persState p := by
        rw [hframe, hgframe, hm]
        rfl
      have hy' : y ∈ ((g.askSeed l).persState p).queue := hy
      rw [hpers] at hy'
      exact Block.job_of_mem_unqueue_pers hy'
    · have hslot : (g.askSeed l).slot e.d.k1.slot = g.slot e.d.k1.slot := by rw [hframe]; rfl
      have hcopy : keys = [b.copyKey e.d.k1] := hkeys.trans (if_pos hkeyed)
      have hone := Block.slot_gives_one (b := m) (k := k) (sub := sub) l (b.copyKey e.d.k1) ctx
      rw [← hcopy, ← hg] at hone
      show ((g.askSeed l).slot e.d.k1.slot).refs = _
      rw [hslot]
      refine (congrArg SlotRec.refs hone).trans ?_
      rw [hm]
      rfl
    · refine congrArg (fun x : Block => { s with blk := x }) ?_
      show g.askSeed l = _
      rw [hframe, hgframe, hmframe]

end Sys2Proof.Machine

/-! Lanes at work: loads, mismatches, switches and the balancer (01 R25, 07 R142 to R144, R158, R165). -/

namespace Sys2Proof.Machine

open Sys2Proof

section
variable {b b' : Block} {l p : Nat} {j : Job} {e : Entry} {r : Result}

/-! ## Work done and mismatches -/

/-- A data lane that is done with an entry, no retry after a mismatch. -/
theorem Block.dataLaneDone_of_entry (hjob : (b.lane l).job = some e.job) (hheld : b.entry? e.ring e.sub = some e)
    (hres : e.res = some r) (hmism : (b.lane l).jobMism = none) :
    b.dataLaneDone l p = ((b.freeLane l).modPers p fun y =>
      { y with busy := y.busy + ((b.lane l).cost - (b.lane l).counted) }).executed e (b.laneCost p e.job) := by
  obtain ⟨w, hw⟩ : ∃ w, w = (b.freeLane l).modPers p fun y =>
    { y with busy := y.busy + ((b.lane l).cost - (b.lane l).counted) } := ⟨_, rfl⟩
  have hheld' : w.entry? e.ring e.sub = some e := by rw [hw]; exact hheld
  rw [Entry.job] at hjob
  unfold Block.dataLaneDone
  simp only [hjob, hheld, hmism, Option.any_some, hres, Option.isSome_some, Bool.not_true, Bool.false_eq_true, if_false]
  rw [← hw]
  simp only [hheld']
  rfl

/-- The block that a mismatch on lane l leaves before its job is sent on. -/
def Block.mismatched (b : Block) (l : Nat) (j : Job) : Block := Block.freeUnit { b with lanes := { b.lanes with lastLane := l } } j

theorem Block.now_freeUnit (b : Block) (j : Job) : (b.freeUnit j).now = b.now := by
  refine foldl_keeps Block.now (fun c l => ?_) ((b.lanes.units.filter fun x => x.2.job == some j).map (·.1)) b
  unfold Block.countLane
  simp only
  split <;> rfl

theorem Block.laneMismatch_of_first (hjob : (b.lane l).job = some j) (hmism : (b.lane l).jobMism = none) :
    b.laneMismatch l false = ((b.mismatched l j).retryJob j ((b.lane l).jobRetry ++ [l]) (some b.now)).note 0x0031 1 l 1 := by
  have hnow : (b.mismatched l j).now = b.now := Block.now_freeUnit _ _
  unfold Block.laneMismatch
  simp only [hjob, hmism, Bool.false_and, Bool.false_eq_true, if_false]
  rw [← hnow]
  rfl

theorem Block.laneMismatch_of_retry {t f : Nat} (hjob : (b.lane l).job = some j) (hmism : (b.lane l).jobMism = some t)
    (hretry : (b.lane l).jobRetry = [f]) :
    b.laneMismatch l false = (((Block.failJob { b.mismatched l j with lanes := { (b.mismatched l j).lanes with
      double := min ((b.mismatched l j).lanes.double + 1) (2 ^ 16 - 1) } } j 0x60 1 l).note 0x0031 2 l 1).quarantine f).quarantine l := by
  unfold Block.laneMismatch
  simp only [hjob, hmism, hretry, Bool.false_and, Bool.false_eq_true, if_false]
  rfl

/-! ## Lanes alone -/

/-- From b to b' nothing changes but lane l. -/
structure Block.LaneOnly (b b' : Block) (l : Nat) : Prop where
  block : b' = { b with lanes := { b.lanes with units := b'.lanes.units } }
  lane : ∀ m, m ≠ l → b'.lane m = b.lane m

theorem Block.laneOnly_modLane (f : LaneRec → LaneRec) : b.LaneOnly (b.modLane l f) l :=
  ⟨rfl, fun _ hm => (Block.lane_modLane _ _ _ _).trans (if_neg hm.symm)⟩

theorem Block.lane_modLane_same (f : LaneRec → LaneRec) : (b.modLane l f).lane l = f (b.lane l) :=
  (Block.lane_modLane _ _ _ _).trans (if_pos rfl)

theorem Block.loadDone_of_data (hin : b.inService l = true) (hdue : (b.lane l).loadAt ≤ b.now) (hrole : (b.lane l).role = .loading p) :
    b.loadDone l = b.modLane l fun x => { x with role := .data p, idleSince := b.now } := by
  unfold Block.loadDone
  simp only [hin, hrole, decide_eq_false (not_lt.2 hdue), Bool.not_true, Bool.or_self, Bool.false_eq_true, if_false]

theorem Block.loadDone_of_key (hin : b.inService l = true) (hdue : (b.lane l).loadAt ≤ b.now) (hrole : (b.lane l).role = .keyLoading) :
    b.loadDone l = b.modLane l fun x => { x with role := .key, idleSince := b.now } := by
  unfold Block.loadDone
  simp only [hin, hrole, decide_eq_false (not_lt.2 hdue), Bool.not_true, Bool.or_self, Bool.false_eq_true, if_false]

theorem Block.starveSwitch_of_donor {q : Nat} (hstarved : b.starved p = true) (hdonor : b.minDonor p = some q)
    (hlane : b.donorLane q = some l) :
    b.starveSwitch p = { b.switchLane l p with lanes := { (b.switchLane l p).lanes with starve := satAdd 16 (b.switchLane l p).lanes.starve 1 } } := by
  unfold Block.starveSwitch
  rw [if_pos hstarved]
  simp only [hdonor, Option.bind_some, hlane]

/-! ## The balancer's count of lane time -/

/-- From b to b' nothing changes but what the lanes' time has been counted to. -/
structure Block.Counts (b b' : Block) : Prop where
  block : b' = { b with lanes := { b.lanes with units := b'.lanes.units, pers := b'.lanes.pers } }
  lane : ∀ m, ∃ n, b'.lane m = { b.lane m with counted := n }
  pers : b'.lanes.pers.length = b.lanes.pers.length

theorem Block.Counts.refl (b : Block) : b.Counts b := ⟨rfl, fun m => ⟨(b.lane m).counted, rfl⟩, rfl⟩

theorem Block.counts_countLane (b : Block) (l : Nat) : b.Counts (b.countLane l) := by
  unfold Block.countLane
  simp only
  split
  · refine ⟨rfl, fun m => ?_, length_modNth _ _ _⟩
    have hlane := Block.lane_modLane b l (fun x => { x with counted := (b.lane l).spent b.now }) m
    by_cases hm : l = m
    · obtain rfl := hm
      exact ⟨_, hlane.trans (if_pos rfl)⟩
    · exact ⟨(b.lane m).counted, hlane.trans (if_neg hm)⟩
  · exact .refl b

theorem Block.Counts.trans {b'' : Block} (h : b.Counts b') (h' : b'.Counts b'') : b.Counts b'' where
  block := h'.block.trans (congrArg (fun x : Block => { x with
    lanes := { x.lanes with units := b''.lanes.units, pers := b''.lanes.pers } }) h.block)
  lane m := by
    obtain ⟨n, hn⟩ := h.lane m
    obtain ⟨n', hn'⟩ := h'.lane m
    exact ⟨n', by rw [hn', hn]⟩
  pers := h'.pers.trans h.pers

theorem Block.counts_all (ls : List Nat) (b : Block) : b.Counts (ls.foldl Block.countLane b) := by
  induction ls generalizing b with
  | nil => exact .refl b
  | cons l ls ih => exact (Block.counts_countLane b l).trans (ih _)

/-- Counting keeps what a lane counts for. -/
theorem Block.Counts.persLanes (h : b.Counts b') (p : Nat) : b'.persLanes p = b.persLanes p := by
  have hservice (m : Nat) : b'.inService m = b.inService m := by rw [h.block]; rfl
  have hrole (m : Nat) : (b'.lane m).role = (b.lane m).role ∧ (b'.lane m).switchTo = (b.lane m).switchTo := by
    obtain ⟨n, hn⟩ := h.lane m
    rw [hn]
    exact ⟨rfl, rfl⟩
  simp only [Block.persLanes, Block.dataLanes, LaneRec.countsFor, hservice, hrole]

/-- Counting does not look at which governor has acted. -/
theorem Block.countAll_governs (ls : List Nat) (n : Nat) (b : Block) :
    ls.foldl Block.countLane (b.governs n) = (ls.foldl Block.countLane b).governs n := by
  induction ls generalizing b with
  | nil => rfl
  | cons l ls ih =>
    have hone : (b.governs n).countLane l = (b.countLane l).governs n := by
      unfold Block.countLane
      simp only
      show (match (b.lane l).role with | .data p => _ | _ => _) = _
      cases (b.lane l).role <;> rfl
    rw [List.foldl_cons, hone, ih]
    rfl

theorem Block.demand_governs (n : Nat) (b : Block) : (b.governs n).demand = b.demand := rfl

/-! ## Switches -/

theorem Block.oneSwitch_frame (h : b.oneSwitch = some b') : b' = { b with lanes := { b.lanes with units := b'.lanes.units } } := by
  unfold Block.oneSwitch at h
  simp only at h
  split at h
  · obtain ⟨l, -, rfl⟩ := Option.map_eq_some_iff.1 h
    rfl
  · cases h

/-- Switches change lanes alone, and are at most as many as are allowed. -/
theorem Block.switches_spec (n : Nat) (b : Block) (k : Nat) :
    (Block.switches n b k).1 = { b with lanes := { b.lanes with units := (Block.switches n b k).1.lanes.units } } ∧
    (Block.switches n b k).2 ≤ k + n := by
  induction n generalizing b k with
  | zero => exact ⟨rfl, le_rfl⟩
  | succ n ih =>
    cases h : b.oneSwitch with
    | none =>
      have hstop : Block.switches (n + 1) b k = (b, k) := by rw [Block.switches, h]
      rw [hstop]
      exact ⟨rfl, Nat.le_add_right _ _⟩
    | some c =>
      have hgo : Block.switches (n + 1) b k = Block.switches n c (k + 1) := by rw [Block.switches, h]
      obtain ⟨hframe, hle⟩ := ih c (k + 1)
      rw [hgo]
      refine ⟨hframe.trans (congrArg (fun x : Block => { x with
        lanes := { x.lanes with units := (Block.switches n c (k + 1)).1.lanes.units } }) (Block.oneSwitch_frame h)), by omega⟩

/-! ## The evaluation -/

/-- The targets that an evaluation sets: each personality's current count where the period had no demand. -/
def Block.goal (b : Block) : List Nat :=
  if b.demand.sum = 0 then (List.range b.lanes.pers.length).map fun p => (b.persLanes p).length
  else targets b.dataLanes.length ((List.zip b.demand (List.zip b.lanes.pers b.img.inForce.pers)).map fun x =>
    ({ demand := x.1, lo := x.2.1.minNow, hi := x.2.2.maxLanes } : Share))

/-- The block in which an evaluation has set its targets. -/
def Block.targeted (b : Block) : Block :=
  { b with lanes := { b.lanes with
    pers := List.zipWith (fun (s : PersState) t => { s with target := t, busy := 0 }) b.lanes.pers b.goal
    evalAt := b.now, evaluations := satAdd 24 b.lanes.evaluations 1 } }

/-- The switches of an evaluation counted. -/
def Block.countSwitches (x : Block × Nat) : Block :=
  { x.1 with lanes := { x.1.lanes with lastSwitched := x.2, switches := satAdd 16 x.1.lanes.switches x.2 } }

/-- The switches that follow the targets. -/
def Block.switchAll (b : Block) : Block × Nat := Block.switches b.img.inForce.switchLimit b 0

theorem Block.evaluate_of_due (hready : b.mode.ready = true) (hfree : b.governorFree 4 = true) (hdue : b.lanes.evalAt + 50000 ≤ b.now) :
    b.evaluate = Block.countSwitches (laneType.units.foldl Block.countLane (b.governs 4)).targeted.switchAll := by
  unfold Block.evaluate
  rw [if_neg (by simp [hready, hfree, hdue])]
  simp only [Block.targeted, Block.goal, Block.switchAll, Block.countSwitches]

theorem Block.evaluate_of_not_free (h : b.governorFree 4 = false) : b.evaluate = b := if_pos (by simp [h])

end

section
variable {b : Block}

/-- The state of a personality after an evaluation. -/
theorem Block.persState_targeted (p : Nat) :
    (b.targeted.persState p).busy = 0 ∧ (p < b.targeted.lanes.pers.length → b.demand.sum = 0 →
      (b.targeted.persState p).target = (b.persLanes p).length) := by
  have hstate : b.targeted.persState p =
      nth {} (List.zipWith (fun (s : PersState) t => { s with target := t, busy := 0 }) b.lanes.pers b.goal) p := rfl
  rw [hstate, nth, List.getD_eq_getElem?_getD, List.getElem?_zipWith]
  refine ⟨?_, fun hp hsum => ?_⟩
  · cases b.lanes.pers[p]? <;> cases b.goal[p]? <;> rfl
  · have hgoal : b.goal = (List.range b.lanes.pers.length).map fun p => (b.persLanes p).length := if_pos hsum
    have hlen : b.targeted.lanes.pers.length = min b.lanes.pers.length b.goal.length := List.length_zipWith
    have hp' : p < b.lanes.pers.length := by omega
    rw [hgoal, List.getElem?_map, List.getElem?_range hp', List.getElem?_eq_getElem hp']
    rfl

end

/-- Settles O37: a lane's reports are followed through, case by case; the evaluation counts, sets targets and switches lanes, none of
which looks at the governors' order. -/
theorem lanesAtWork : Obligations.LanesAtWork := by
  unfold Obligations.LanesAtWork
  refine ⟨?_, fun s h => next_congr (Block.evaluate_of_not_free h), ?_⟩
  · intro s l p j b x now onlyLane
    have honly {c : Block} (h : b.LaneOnly c l) : onlyLane { s with blk := c } := by
      refine ⟨h.lane, congrArg (fun y : Block => { s with blk := y }) (h.block.trans ?_)⟩
      rw [h.block]
    refine ⟨fun e r hrole hjob hheld hres hmism => ?_, fun hjob hmism => ?_, fun t0 f hjob hmism hretry => ?_,
      fun hin hdue hrole => ?_, fun hin hdue hrole => ?_, fun q hstarved hdonor hlane => ?_⟩
    · refine next_congr ?_
      have hrole' : (s.blk.lane l).role = .data p := hrole
      have hdone : s.blk.laneDone l = s.blk.dataLaneDone l p := by
        unfold Block.laneDone
        rw [hrole']
      exact hdone.trans (Block.dataLaneDone_of_entry hjob hheld hres hmism)
    · exact next_congr (Block.laneMismatch_of_first hjob hmism)
    · exact next_congr (Block.laneMismatch_of_retry hjob hmism hretry)
    · exact ⟨_, next_congr (Block.loadDone_of_data hin hdue hrole), honly (Block.laneOnly_modLane _), Block.lane_modLane_same _⟩
    · exact ⟨_, next_congr (Block.loadDone_of_key hin hdue hrole), honly (Block.laneOnly_modLane _), Block.lane_modLane_same _⟩
    · let f := fun x : LaneRec => if x.job.isNone then x.load p b.now else { x with switchTo := some p }
      exact ⟨_, next_congr (Block.starveSwitch_of_donor hstarved hdonor hlane),
        ⟨(Block.laneOnly_modLane (b := b) (l := l) f).lane, rfl⟩, rfl, Block.lane_modLane_same (b := b) (l := l) f⟩
  · intro s hready hfree hdue
    have he : exec .balancerEvaluation s = .next { s with blk := s.blk.evaluate } := rfl
    obtain ⟨w, hw⟩ : ∃ w, w = laneType.units.foldl Block.countLane s.blk := ⟨_, rfl⟩
    have hcounts : s.blk.Counts w := by
      rw [hw]
      exact Block.counts_all _ _
    rw [Block.evaluate_of_due hready hfree hdue, Block.countAll_governs, ← hw] at he
    obtain ⟨c, hc⟩ : ∃ c, c = (w.governs 4).targeted := ⟨_, rfl⟩
    rw [← hc] at he
    obtain ⟨hswitches, hle⟩ : c.switchAll.1 = { c with lanes := { c.lanes with units := c.switchAll.1.lanes.units } } ∧
        c.switchAll.2 ≤ 0 + c.img.inForce.switchLimit := Block.switches_spec c.img.inForce.switchLimit c 0
    have hwnow : w.now = s.blk.now := by rw [hcounts.block]; rfl
    have hwevals : w.lanes.evaluations = s.blk.lanes.evaluations ∧ w.lanes.switches = s.blk.lanes.switches := by
      rw [hcounts.block]
      exact ⟨rfl, rfl⟩
    obtain ⟨y, hy⟩ : ∃ y, y = c.switchAll := ⟨_, rfl⟩
    rw [← hy] at he hswitches hle
    have hcframe : c = { s.blk with
        lanes := c.lanes, sched := { s.blk.sched with governor := (s.blk.now, 4) } } := by
      rw [hc, ← hwnow, hcounts.block]
      rfl
    have hpers (p : Nat) : y.1.persState p = c.persState p := by rw [hswitches]; rfl
    have hstate (p : Nat) := Block.persState_targeted (b := w.governs 4) p
    rw [← hc] at hstate
    refine ⟨_, he, ?_, ?_, ?_, ?_, fun p => ?_, fun p hp hsum => ?_, ?_⟩
    · show y.1.lanes.evalAt = _
      rw [hswitches, hc]
      exact hwnow
    · show y.1.lanes.evaluations = _
      rw [hswitches, hc]
      exact congrArg (fun n => satAdd 24 n 1) hwevals.1
    · have himg : c.img = s.blk.img := by rw [hcframe]
      show y.2 ≤ _
      rw [himg] at hle
      omega
    · have hsw : y.1.lanes.switches = s.blk.lanes.switches := by
        rw [hswitches, hc]
        exact hwevals.2
      show satAdd 16 y.1.lanes.switches y.2 = _
      rw [hsw]
      rfl
    · exact (congrArg PersState.busy (hpers p)).trans (hstate p).1
    · have hlen : y.1.lanes.pers = c.lanes.pers := by rw [hswitches]
      have hp' : p < c.lanes.pers.length := hlen ▸ hp
      have hsum' : (w.governs 4).demand.sum = 0 := by
        rw [Block.demand_governs, hw]
        exact hsum
      refine (congrArg PersState.target (hpers p)).trans (((hstate p).2 hp' hsum').trans ?_)
      exact congrArg List.length (hcounts.persLanes p)
    · have hyframe : y.1 = { s.blk with lanes := y.1.lanes, sched := { s.blk.sched with governor := (s.blk.now, 4) } } := by
        rw [hswitches, hcframe]
      exact congrArg (fun x : Block => { s with blk := { x with lanes := (Block.countSwitches y).lanes } }) hyframe

end Sys2Proof.Machine

/-! OX and lattice units at work (08 R169, R175, R184 to R188, 09 R202, R209, R210). -/

namespace Sys2Proof.Machine

open Sys2Proof

/-! ## Notes of low severity -/

theorem RecCopy.reserveLock_counted (c : RecCopy) (kind subject : Nat) : (c.counted kind subject).reserveLock = c.reserveLock := by
  unfold RecCopy.counted
  split
  · rfl
  · split <;> rfl

theorem RecCopy.reserveLock_place {c c' : RecCopy} {r : Rec} (h : c.place r = some c') : c'.reserveLock = c.reserveLock := by
  unfold RecCopy.place at h
  split at h
  · cases h
    rfl
  · split at h
    · cases h
    · cases h
      rfl

section
variable {b c : Block} {u v k : Nat} {i : Index} {e : Entry} {j : Job} {x : MathUnit}

theorem Block.reserveLock_noteLow (b : Block) (kind sev subject detail : Nat) :
    (b.noteLow kind sev subject detail).recorder.copy.reserveLock = b.recorder.copy.reserveLock := by
  unfold Block.noteLow
  simp only
  split
  · exact RecCopy.reserveLock_counted _ _ _
  · split
    · next h => exact (RecCopy.reserveLock_place h).trans (RecCopy.reserveLock_counted _ _ _)
    · exact RecCopy.reserveLock_counted _ _ _

/-- A record of severity 0 to 2 never fills the reserve. -/
theorem Block.note_of_low {sev : Nat} (h : sev < 3) (b : Block) (kind subject detail : Nat) :
    b.note kind sev subject detail = b.noteRec kind sev subject detail := by
  have hlock : (b.noteRec kind sev subject detail).recorder.copy.reserveLock = b.recorder.copy.reserveLock := by
    rw [Block.noteRec, if_pos h]
    refine iteInduction (motive := fun y : Block => y.recorder.copy.reserveLock = b.recorder.copy.reserveLock) (fun _ => ?_) fun _ => ?_
    · rw [Block.copy_spacedCommit]
      exact b.reserveLock_noteLow kind sev subject detail
    · exact b.reserveLock_noteLow kind sev subject detail
  unfold Block.note
  simp only [hlock]
  exact if_neg (by simp)

theorem Block.onlyRec_note {sev : Nat} (h : sev < 3) (b : Block) (kind subject detail : Nat) : b.OnlyRec (b.note kind sev subject detail) := by
  rw [Block.note_of_low h]
  exact b.onlyRec_noteRec kind sev subject detail h

/-! ## Units -/

theorem Block.mathUnit_modMath (f : MathUnit → MathUnit) : (b.modMath u f).mathUnit u = f (b.mathUnit u) := by
  unfold Block.modMath Block.mathUnit
  split
  · exact (Block.oxUnit_modOx _ _ _ _).trans (if_pos rfl)
  · exact (Block.latUnit_modLat _ _ _ _).trans (if_pos rfl)

theorem Block.mathUnit_modMath_ne (f : MathUnit → MathUnit) (hu : 112 ≤ u) (hv : 112 ≤ v) (hne : v ≠ u) :
    (b.modMath u f).mathUnit v = b.mathUnit v := by
  unfold Block.modMath Block.mathUnit
  split
  · split
    · exact (Block.oxUnit_modOx _ _ _ _).trans (if_neg (by omega))
    · rfl
  · split
    · rfl
    · exact (Block.latUnit_modLat _ _ _ _).trans (if_neg (by omega))

theorem Block.modMath_frame (f : MathUnit → MathUnit) : b.modMath u f = { b with
    ox := { b.ox with units := (b.modMath u f).ox.units }, lat := { b.lat with units := (b.modMath u f).lat.units } } := by
  unfold Block.modMath
  split <;> rfl

/-- A job that leaves its unit leaves the entries. -/
theorem Block.entries_freeUnit (b : Block) (j : Job) : (b.freeUnit j).entries = b.entries := by
  have hcounts := Block.counts_all ((b.lanes.units.filter fun x => x.2.job == some j).map (·.1)) b
  exact (congrArg Block.entries hcounts.block :)

theorem Block.entries_countMath (b : Block) (u single double recheck : Nat) : (b.countMath u single double recheck).entries = b.entries := by
  unfold Block.countMath
  split <;> rfl

theorem Block.now_lastMath (b : Block) (u : Nat) : (b.lastMath u).now = b.now := by
  unfold Block.lastMath
  split <;> rfl

theorem Block.mathUnit_lastMath (b : Block) (u v : Nat) : (b.lastMath u).mathUnit v = b.mathUnit v := by
  unfold Block.lastMath
  split <;> rfl

theorem Block.inService_lastMath (b : Block) (u v : Nat) : (b.lastMath u).inService v = b.inService v := by
  unfold Block.lastMath
  split <;> rfl

theorem Block.mathJob_of (hjob : (b.mathUnit u).job = some j) (hfatal : (b.mathUnit u).fatal = none) : b.mathJob u = some j := by
  rw [Block.mathJob, hfatal]
  exact hjob

theorem Block.failJob_of_entry {status detail engine : Nat} (h : b.entry? k i = some e) :
    b.failJob (.entry k i) status detail engine = b.finish e status detail engine 0 0 := by
  unfold Block.failJob
  simp only [h]

theorem Block.afterMath_of_none (h : x.jobMism = none) (b : Block) : b.afterMath x = b := by
  unfold Block.afterMath
  rw [h]

/-! ## Check phases -/

theorem Block.validationReport_of_pass (hjob : (b.mathUnit u).job = some (.entry k i)) (hfatal : (b.mathUnit u).fatal = none)
    (hheld : b.entry? k i = some e) (hstage : e.stage = .dispatched) (hpass : (b.pkJob e).refusal = none) :
    b.validationReport u = b.modMath u fun y => { y with checked := true } := by
  simp only [Block.validationReport, Block.unitJob, Block.mathJob_of hjob hfatal, hheld, Option.bind_some, hstage, if_true, hpass]

theorem Block.validationReport_of_refusal {st det : Nat} (hjob : (b.mathUnit u).job = some (.entry k i))
    (hfatal : (b.mathUnit u).fatal = none) (hheld : b.entry? k i = some e) (hstage : e.stage = .dispatched)
    (hrefusal : (b.pkJob e).refusal = some (st, det)) (hmism : (b.mathUnit u).jobMism = none) :
    b.validationReport u =
      let freed := b.freeUnit (.entry k i)
      let c := if st = 0x60 then (freed.countMath u 0 0 1).note 0x0031 2 u det else freed
      Block.finish { c with ox := { c.ox with validation := satAdd 32 c.ox.validation 1 } } e st det u 0 0 := by
  have hreport : b.validationReport u = b.oxRefuse u (.entry k i) st det := by
    simp only [Block.validationReport, Block.unitJob, Block.mathJob_of hjob hfatal, hheld, Option.bind_some, hstage, if_true, hrefusal]
  obtain ⟨w, hw⟩ : ∃ w, w = if st = St.faultDetected then ((b.freeUnit (.entry k i)).countMath u 0 0 1).note 0x0031 2 u det
    else b.freeUnit (.entry k i) := ⟨_, rfl⟩
  have hentries : w.entries = b.entries := by
    rw [hw]
    refine iteInduction (motive := fun y : Block => y.entries = b.entries) (fun _ => ?_) fun _ => Block.entries_freeUnit b _
    have hnote := Block.onlyRec_note (sev := 2) (by decide) ((b.freeUnit (.entry k i)).countMath u 0 0 1) 0x0031 u det
    exact (congrArg Block.entries hnote).trans ((Block.entries_countMath _ _ _ _ _).trans (Block.entries_freeUnit b _))
  have hheld' : w.entry? k i = some e := (Block.entry?_congr hentries k i).trans hheld
  rw [hreport, Block.oxRefuse, Block.afterMath_of_none hmism]
  simp only [← hw]
  exact (Block.failJob_of_entry (b := { w with ox := { w.ox with validation := satAdd 32 w.ox.validation 1 } }) hheld').trans (by rw [hw]; rfl)

theorem Block.latChecked_of_pass (hjob : (b.mathUnit u).job = some (.entry k i)) (hfatal : (b.mathUnit u).fatal = none)
    (hheld : b.entry? k i = some e) (hstage : e.stage = .dispatched) (hchecked : (b.mathUnit u).checked = false)
    (hpass : e.latRefusal = none) :
    b.latChecked u = match e.d.latDraw with
      | some (prio, n) => (b.modMath u fun y => { y with checked := true }).mathDraw e prio n
      | none => b.modMath u fun y => { y with checked := true } := by
  simp only [Block.latChecked, Block.mathJob_of hjob hfatal, hheld, hstage, hchecked, Bool.not_false, and_self, if_true, hpass] <;> rfl

theorem Block.latChecked_of_refusal {st det : Nat} (hjob : (b.mathUnit u).job = some (.entry k i)) (hfatal : (b.mathUnit u).fatal = none)
    (hheld : b.entry? k i = some e) (hstage : e.stage = .dispatched) (hchecked : (b.mathUnit u).checked = false)
    (hrefusal : e.latRefusal = some (st, det)) (hmism : (b.mathUnit u).jobMism = none) :
    b.latChecked u =
      let freed := b.freeUnit e.job
      let c : Block := { freed with lat := { freed.lat with validation := satAdd 32 freed.lat.validation 1 } }
      (if e.d.op = 0x02 then c else (c.countMath u 0 0 1).note 0x0031 2 u det).finish e st det u 0 0 := by
  have hrefuse : b.latChecked u = b.latRefuse u e st det := by
    simp only [Block.latChecked, Block.mathJob_of hjob hfatal, hheld, hstage, hchecked, Bool.not_false, and_self, if_true, hrefusal]
  rw [hrefuse, Block.latRefuse, Block.afterMath_of_none hmism]

theorem Block.mathDraw_of_new {prio n : Nat} (hasked : e.asked = false) :
    b.mathDraw e prio n = if b.hen.phase = .stopped then b.noEntropy e.job 1 e.engine
      else (b.ask prio n (.entry e.ring e.sub)).modEntry e.ring e.sub fun f => { f with asked := true } := by
  rw [Block.mathDraw, hasked]
  exact if_neg Bool.false_ne_true

/-! ## Mismatches -/

/-- Another unit of a type is in service. -/
def Block.another (b : Block) (t : UnitType) (u : Nat) : Prop := ∃ v ∈ t.units, v ≠ u ∧ b.inService v = true

theorem mem_units {t : UnitType} : v ∈ t.units ↔ t.first ≤ v ∧ v < t.first + t.count := by
  simp only [UnitType.units, List.mem_map, List.mem_range]
  constructor
  · rintro ⟨n, hn, rfl⟩
    omega
  · rintro ⟨hlo, hhi⟩
    exact ⟨v - t.first, by omega, by omega⟩

theorem Block.mathMismatch_of_another {t : UnitType} (hjob : (b.mathUnit u).job = some j) (hfatal : (b.mathUnit u).fatal = none)
    (hmism : (b.mathUnit u).jobMism = none) (hother : b.another t u) :
    b.mathMismatch t u =
      (((b.lastMath u).freeUnit j).note 0x0031 1 u 3).retryJob j ((b.mathUnit u).jobRetry ++ [u]) (some b.now) := by
  obtain ⟨v, hv, hne, hin⟩ := hother
  have hall : (t.units.all fun v => v == u || !(b.lastMath u).inService v) = false :=
    List.all_eq_false.2 ⟨v, hv, by simp [hne, Block.inService_lastMath, hin]⟩
  simp only [Block.mathMismatch, hjob, hfatal, hmism, hall, Option.isSome_none, Bool.false_eq_true, if_false, Block.now_lastMath]

theorem Block.mathMismatch_of_alone {t : UnitType} (hjob : (b.mathUnit u).job = some j) (hfatal : (b.mathUnit u).fatal = none)
    (hmism : (b.mathUnit u).jobMism = none) (hother : ¬ b.another t u) :
    b.mathMismatch t u = ((b.lastMath u).note 0x0031 1 u 3).modMath u fun y => { y with fatal := some 7 } := by
  have hall : (t.units.all fun v => v == u || !(b.lastMath u).inService v) = true := by
    refine List.all_eq_true.2 fun v hv => ?_
    rw [Block.inService_lastMath]
    by_contra h
    simp only [Bool.or_eq_true, beq_iff_eq, Bool.not_eq_true', not_or, Bool.not_eq_false] at h
    exact hother ⟨v, hv, h.1, h.2⟩
  simp only [Block.mathMismatch, hjob, hfatal, hmism, hall, Option.isSome_none, Bool.false_eq_true, if_false, if_true]

theorem Block.mathMismatch_of_retry {t : UnitType} (hjob : (b.mathUnit u).job = some j) (hfatal : (b.mathUnit u).fatal = none)
    (hmism : (b.mathUnit u).jobMism.isSome = true) :
    b.mathMismatch t u = ((b.lastMath u).note 0x0031 2 u 3).modMath u fun y => { y with fatal := some 3 } := by
  simp only [Block.mathMismatch, hjob, hfatal, hmism, Option.isSome_none, Bool.false_eq_true, if_false, if_true]

/-! ## Jobs done -/

theorem Block.oxDone_of_entry {r : Result} (hjob : (b.mathUnit u).job = some (.entry k i)) (hfatal : (b.mathUnit u).fatal = none)
    (hheld : b.entry? k i = some e) (hres : e.res = some r) (hop : e.d.op ≠ 0x14) (hmism : (b.mathUnit u).jobMism = none) :
    b.oxDone u = (b.freeUnit (.entry k i)).executed e ((b.pkJob e).time r.out.length) := by
  simp only [Block.oxDone, Block.mathJob_of hjob hfatal, hheld, hres, hop, if_false, Block.afterMath_of_none hmism]

theorem Block.oxDone_of_keygen {r : Result} {t : Nat} (hjob : (b.mathUnit u).job = some (.entry k i))
    (hfatal : (b.mathUnit u).fatal = none) (hheld : b.entry? k i = some e) (hres : e.res = some r) (hop : e.d.op = 0x14)
    (hmism : (b.mathUnit u).jobMism = none) (hat : e.dispatchedAt = some t) :
    b.oxDone u = (Block.freeUnit { b with ox := { b.ox with max100ms := max b.ox.max100ms (min 200 ((b.now - t) / 100000)) } }
      (.entry k i)).executed e (b.mathSpent u) := by
  simp only [Block.oxDone, Block.mathJob_of hjob hfatal, hheld, hres, hop, if_true, Block.afterMath_of_none hmism, hat]

theorem Block.latDone_of_entry {r : Result} (hjob : (b.mathUnit u).job = some (.entry k i)) (hfatal : (b.mathUnit u).fatal = none)
    (hheld : b.entry? k i = some e) (hres : e.res = some r) (hmism : (b.mathUnit u).jobMism = none) :
    b.latDone u =
      let iter := r.result.toNat % 2 ^ 16
      let c : Block := if e.d.op = 0x12 ∧ r.status = 0 then { b with lat := b.lat.signed iter } else b
      (c.freeUnit e.job).executed e (Cost.lat e.d (some iter) * Cost.cycle) := by
  simp only [Block.latDone, Block.mathJob_of hjob hfatal, hheld, hres, Block.afterMath_of_none hmism]
  rfl

/-! ## Wipes -/

theorem Block.wipeDone_of_due (hwiping : (b.mathUnit u).wiping = true) (hmode : b.mode.wiping = false) (clean : Bool) :
    b.wipeDone u clean =
      let c := b.modMath u fun y => { y with wiping := false, verify := false, cutFor := none }
      if (b.mathUnit u).verify && !clean then (if (c.unit u).st = .spare then c.countQuarantine u 65 else c.quarantine u) else c := by
  simp only [Block.wipeDone, hwiping, hmode, Bool.not_true, Bool.false_eq_true, if_false]

/-! ## Dispatch -/

/-- A unit that asks for a seed keeps what it holds. -/
theorem Block.seedMath_spec (b : Block) (u : Nat) :
    (∃ asked, (b.seedMath u).mathUnit u = { b.mathUnit u with seedAsked := asked }) ∧
    b.seedMath u = { b with
      ox := { b.ox with units := (b.seedMath u).ox.units }, lat := { b.lat with units := (b.seedMath u).lat.units }
      hen := { b.hen with waiting := (b.seedMath u).hen.waiting } } := by
  unfold Block.seedMath
  simp only
  split
  · refine ⟨⟨true, Block.mathUnit_modMath _⟩, ?_⟩
    rw [Block.modMath_frame]
    rfl
  · exact ⟨⟨(b.mathUnit u).seedAsked, rfl⟩, rfl⟩

/-- What a unit holds as it takes an item. -/
def MathUnit.taking (x : MathUnit) (i : QItem) (now : Nat) : MathUnit :=
  { x with
    job := some i.job, jobRetry := i.excluded, jobMism := i.mism, startedAt := now, jobs := x.jobs + 1, checked := false
    fatal := none, cutAt := none }

/-- The block in which unit u holds item i, before its generator asks for a seed. -/
def Block.unitHolds (b : Block) (u : Nat) (i : QItem) : Block := (b.unqueue i.job).modMath u (MathUnit.taking · i b.now)

theorem Block.mathTake_eq (b : Block) (u : Nat) (i : QItem) : b.mathTake u i = (b.unitHolds u i).seedMath u := rfl

theorem Block.unitHolds_frame (b : Block) (u : Nat) (i : QItem) : b.unitHolds u i = { b with
    lanes := { b.lanes with pers := (b.unqueue i.job).lanes.pers }
    ox := { b.ox with units := (b.unitHolds u i).ox.units, queue := (b.unqueue i.job).ox.queue }
    lat := { b.lat with units := (b.unitHolds u i).lat.units, queue := (b.unqueue i.job).lat.queue }
    keys := { b.keys with queue := (b.unqueue i.job).keys.queue }, pay := { b.pay with queue := (b.unqueue i.job).pay.queue } } := by
  rw [Block.unitHolds, Block.modMath_frame]
  rfl

/-- Unit u takes an item; its fields but for the seed's request, and what stays of the block. -/
theorem Block.mathTake_spec (b : Block) (u : Nat) (i : QItem) :
    (∃ asked, (b.mathTake u i).mathUnit u = { (b.mathUnit u).taking i b.now with seedAsked := asked }) ∧
    b.mathTake u i = { b with
      lanes := { b.lanes with pers := (b.unqueue i.job).lanes.pers }
      ox := { b.ox with units := (b.mathTake u i).ox.units, queue := (b.unqueue i.job).ox.queue }
      lat := { b.lat with units := (b.mathTake u i).lat.units, queue := (b.unqueue i.job).lat.queue }
      keys := { b.keys with queue := (b.unqueue i.job).keys.queue }, pay := { b.pay with queue := (b.unqueue i.job).pay.queue }
      hen := { b.hen with waiting := (b.mathTake u i).hen.waiting } } := by
  obtain ⟨⟨asked, hasked⟩, hframe⟩ := Block.seedMath_spec (b.unitHolds u i) u
  rw [← Block.mathTake_eq] at hasked hframe
  refine ⟨⟨asked, ?_⟩, ?_⟩
  · rw [hasked, Block.unitHolds, Block.mathUnit_modMath]
    rfl
  · rw [hframe, Block.unitHolds_frame]

theorem Block.oxTry_waits {item : QItem} (h : b.mayDispatch item.job = false) : b.oxTry item = none := if_pos (by rw [h]; rfl)

theorem Block.latTry_waits {item : QItem} (h : b.mayDispatch item.job = false) : b.latTry item = none := if_pos (by rw [h]; rfl)

section
variable {item : QItem} (hmay : b.mayDispatch item.job = true) (hjob : item.job = .entry k i) (hretry : item.retry = false)
  (hheld : b.entry? k i = some e) (hrefs : e.refsHeld = false) (hfirst : e.dispatchedAt = none)
include hmay hjob hretry hheld hrefs hfirst

theorem Block.oxTry_of_first (hlong : b.longJob item.job = false) (hunit : b.unitFor oxType item = some u) (hfault : b.oxFault e = none) :
    b.oxTry item = some ((b.mathTake u item).gives k i u (if e.d.pkKeyed then [b.copyKey e.d.k1] else []) none) := by
  have hheld' : (b.mathTake u item).entry? k i = some e := by
    rw [(Block.mathTake_spec b u item).2]
    exact hheld
  have hstranded : b.stranded oxType item = false := by rw [Block.stranded, hretry]; rfl
  rw [hjob] at hmay hlong
  simp only [Block.oxTry, hmay, hlong, hstranded, hunit, hjob, hheld, hfirst, hfault, Bool.not_true, Bool.false_and, Bool.or_self,
    Bool.false_eq_true, if_false, Option.map_some, Option.isSome_none, Block.startEntry_of_first hheld' hrefs]

theorem Block.latTry_of_first (hunit : b.unitFor latType item = some u) (hfault : b.latFault e = none) :
    b.latTry item = some ((b.mathTake u item).gives k i u (if e.d.latKeyed then [b.copyKey e.d.k1] else []) none) := by
  have hheld' : (b.mathTake u item).entry? k i = some e := by
    rw [(Block.mathTake_spec b u item).2]
    exact hheld
  have hstranded : b.stranded latType item = false := by rw [Block.stranded, hretry]; rfl
  rw [hjob] at hmay
  simp only [Block.latTry, hmay, hstranded, hunit, hjob, hheld, hfirst, hfault, Bool.not_true,
    Bool.false_eq_true, if_false, Option.map_some, Option.isSome_none, Block.startEntry_of_first hheld' hrefs]

end

end

/-- Settles O38: the first item that may go is taken; every report is followed through for a unit that works on an entry. -/
theorem unitsAtWork : Obligations.UnitsAtWork := by
  unfold Obligations.UnitsAtWork
  intro s u k sub e b x now isOx onlyUnit takes hheld
  have honly {f : MathUnit → MathUnit} (hu : 112 ≤ u) : onlyUnit { s with blk := b.modMath u f } :=
    ⟨fun v hv hne => Block.mathUnit_modMath_ne f hu hv hne, congrArg (fun y : Block => { s with blk := y }) (Block.modMath_frame f)⟩
  refine ⟨fun pre post i hjob hpre hmay hretry hrefs hfirst => ?_, fun hjob hfatal hstage => ?_, fun hu hwiping hmode clean => ?_⟩
  · have htakes (keys : List KeyCopy) : takes { s with blk := (b.mathTake u i).gives k sub u keys none } i keys := by
      obtain ⟨m, hm⟩ : ∃ m, m = b.mathTake u i := ⟨_, rfl⟩
      obtain ⟨⟨asked, hunit⟩, hframe⟩ := Block.mathTake_spec b u i
      rw [← hm] at hunit hframe ⊢
      have hgframe := Block.gives_frame (b := m) (k := k) (sub := sub) u keys none
      have hmheld : m.entry? k sub = some e := by
        rw [hframe]
        exact hheld
      have hnow : m.now = b.now := by rw [hframe]; rfl
      obtain ⟨g, hg⟩ : ∃ g, g = m.gives k sub u keys none := ⟨_, rfl⟩
      have hgunit : g.mathUnit u = { (b.mathUnit u).taking i b.now with seedAsked := asked } := by
        rw [← hunit, hg, hgframe]
        rfl
      have hentry := Block.entry?_gives hmheld hrefs hfirst u keys none
      rw [← hg, hnow] at hentry
      rw [← hg] at hgframe ⊢
      refine ⟨hentry, ?_, ?_, ?_, ?_, ?_, fun y hy => ?_, ?_⟩
      · exact (congrArg MathUnit.job hgunit).trans rfl
      · exact (congrArg MathUnit.startedAt hgunit).trans rfl
      · exact (congrArg MathUnit.jobs hgunit).trans rfl
      · exact (congrArg MathUnit.checked hgunit).trans rfl
      · exact (congrArg MathUnit.fatal hgunit).trans rfl
      · have hqueues : g.ox.queue = (b.unqueue i.job).ox.queue ∧ g.lat.queue = (b.unqueue i.job).lat.queue := by
          rw [hgframe, hframe]
          exact ⟨rfl, rfl⟩
        rcases List.mem_append.1 hy with hy | hy
        · have hmem : y ∈ g.ox.queue := hy
          rw [hqueues.1] at hmem
          exact job_of_mem_filter hmem
        · have hmem : y ∈ g.lat.queue := hy
          rw [hqueues.2] at hmem
          exact job_of_mem_filter hmem
      · refine congrArg (fun y : Block => { s with blk := y }) ?_
        rw [hgframe, hframe]
    refine ⟨fun hqueue hlong hunit hfault => ⟨_, ?_, htakes _⟩, fun hqueue hunit hfault => ⟨_, ?_, htakes _⟩⟩
    · have htry := Block.oxTry_of_first hmay hjob hretry hheld hrefs hfirst hlong hunit hfault
      refine next_congr ?_
      show (b.ox.queue.findSome? b.oxTry).getD b = _
      rw [hqueue, findSome?_front (fun y hy => Block.oxTry_waits (hpre y hy)) htry]
      rfl
    · have htry := Block.latTry_of_first hmay hjob hretry hheld hrefs hfirst hunit hfault
      refine next_congr ?_
      show (b.lat.queue.findSome? b.latTry).getD b = _
      rw [hqueue, findSome?_front (fun y hy => Block.latTry_waits (hpre y hy)) htry]
      rfl
  · intro freed counted retries final other
    obtain ⟨hring, hsub⟩ := Block.key_of_entry? hheld
    have hejob : e.job = .entry k sub := by rw [Entry.job, hring, hsub]
    have hox {c : Block} (h : isOx) : (if u < 168 then c else b) = c := if_pos h.2
    have hlat {c : Block} (h : 168 ≤ u) : (if 168 ≤ u then c else b) = c := if_pos h
    have hanother {t : UnitType} : other t.first (t.first + t.count) ↔ b.another t u := by
      constructor
      · rintro ⟨v, hlo, hhi, hne, hin⟩
        exact ⟨v, mem_units.2 ⟨hlo, hhi⟩, hne, hin⟩
      · rintro ⟨v, hv, hne, hin⟩
        exact ⟨v, (mem_units.1 hv).1, (mem_units.1 hv).2, hne, hin⟩
    refine ⟨fun h hpass => ?_, fun st det h hrefusal hmism => ?_, fun h hchecked hpass hdraw => ?_, fun prio n h hchecked hpass hdraw hasked => ?_,
      fun st det h hchecked hrefusal hmism => ?_, fun h hmism hother => ?_, fun h hmism hother => ?_, fun h hmism hother => ?_,
      fun h hmism hother => ?_, fun h hmism => ?_, fun h hmism => ?_, fun r h hres hop hmism => ?_, fun r at_ h hres hop hmism hat => ?_,
      fun r h hres hmism => ?_⟩
    · exact ⟨_, next_congr (Block.validationReport_of_pass hjob hfatal hheld hstage hpass), honly h.1, Block.mathUnit_modMath _⟩
    · exact next_congr (Block.validationReport_of_refusal hjob hfatal hheld hstage hrefusal hmism)
    · have hstep : s.blk.latChecked u = b.modMath u fun y => { y with checked := true } := by
        rw [Block.latChecked_of_pass hjob hfatal hheld hstage hchecked hpass, hdraw]
      exact ⟨_, next_congr ((hlat h).trans hstep), honly (by omega), Block.mathUnit_modMath _⟩
    · intro c asks
      have hstep : s.blk.latChecked u = c.mathDraw e prio n := by
        rw [Block.latChecked_of_pass hjob hfatal hheld hstage hchecked hpass, hdraw]
      have hhen : c.hen.phase = b.hen.phase := (congrArg (fun y : Block => y.hen.phase) (Block.modMath_frame _)).trans rfl
      rw [Block.mathDraw_of_new hasked, hhen] at hstep
      exact ⟨fun hrun => next_congr ((hlat h).trans (hstep.trans (if_neg hrun))),
        fun hstop => next_congr ((hlat h).trans (hstep.trans (if_pos hstop)))⟩
    · refine next_congr ((hlat h).trans ?_)
      rw [Block.latChecked_of_refusal hjob hfatal hheld hstage hchecked hrefusal hmism, hejob]
      rfl
    · exact next_congr ((hox h).trans (Block.mathMismatch_of_another hjob hfatal hmism (hanother.1 hother)))
    · exact next_congr ((hlat h).trans (Block.mathMismatch_of_another hjob hfatal hmism (hanother.1 hother)))
    · exact next_congr ((hox h).trans (Block.mathMismatch_of_alone hjob hfatal hmism fun ho => hother (hanother.2 ho)))
    · exact next_congr ((hlat h).trans (Block.mathMismatch_of_alone hjob hfatal hmism fun ho => hother (hanother.2 ho)))
    · exact next_congr ((hox h).trans (Block.mathMismatch_of_retry hjob hfatal hmism))
    · exact next_congr ((hlat h).trans (Block.mathMismatch_of_retry hjob hfatal hmism))
    · exact next_congr ((hox h).trans (Block.oxDone_of_entry hjob hfatal hheld hres hop hmism))
    · exact next_congr ((hox h).trans (Block.oxDone_of_keygen hjob hfatal hheld hres hop hmism hat))
    · refine next_congr ((hlat h).trans ?_)
      rw [Block.latDone_of_entry hjob hfatal hheld hres hmism, hejob]
  · intro c
    have hstep := Block.wipeDone_of_due (b := b) hwiping hmode clean
    refine ⟨fun hverify => next_congr (hstep.trans (if_neg ?_)), fun hverify hclean hst => next_congr (hstep.trans ?_)⟩
    · rintro h
      simp only [Bool.and_eq_true, Bool.not_eq_true'] at h
      rcases hverify with hv | hv
      · exact Bool.false_ne_true (hv.symm.trans h.1)
      · exact Bool.false_ne_true (h.2.symm.trans hv)
    · have hunit : (c.unit u).st = (b.unit u).st := by
        have hframe : c = _ := Block.modMath_frame _
        rw [hframe]
        rfl
      refine (if_pos ?_).trans (if_neg ?_)
      · rw [show (b.mathUnit u).verify = true from hverify, hclean]
        rfl
      · show ¬ (c.unit u).st = _
        rw [hunit]
        exact hst

end Sys2Proof.Machine

/-! Payment dispatch and core faults (11 R234, R235, R238, 12 R263, R285). -/

namespace Sys2Proof.Machine

open Sys2Proof

section
variable {b : Block} {u k : Nat} {c : Fin 8} {sub : Index} {e : Entry} {i : QItem}

/-- A context in which a function starts. -/
def Block.functionCtx (b : Block) (e : Entry) : Ctx14 :=
  { Ctx14.fresh with
    pc := BitVec.ofNat 14 (0x100 + 2 * e.d.op), fn := some (e.ring, e.sub), op := e.d.op, var := e.d.var, part := e.part
    bank := b.startBank e e.keys, bay := startBay e.d e.keys }

/-- A function that starts for the first time. -/
theorem Block.startFunction_of_first (hheld : b.entry? e.ring e.sub = some e) (hrefs : e.refsHeld = false)
    (hfirst : e.dispatchedAt = none) :
    b.startFunction u c e =
      let g := b.gives e.ring e.sub (188 + u) (b.payCopies e) none
      g.modCx u c fun _ => g.functionCtx (e.given (188 + u) b.now (b.payCopies e) none) := by
  have hentry := Block.entry?_gives hheld hrefs hfirst (188 + u) (b.payCopies e) none
  unfold Block.startFunction
  simp only [Block.startEntry_of_first hheld hrefs, hentry]
  rfl

theorem Block.payTry_waits (h : b.mayDispatch i.job = false) : b.payTry i = none := if_pos (by rw [h]; rfl)

/-- The item that a core takes or check 4 refuses. -/
theorem Block.payTry_of_first (hmay : b.mayDispatch i.job = true) (hjob : i.job = .entry k sub) (hheld : b.entry? k sub = some e)
    (hfirst : e.dispatchedAt = none) (hcore : argMax (fun v => ((b.core v).freeCtxs.length : Int)) (b.payCores i) = some u)
    (hfree : (b.core u).freeCtxs.head? = some c) :
    b.payTry i = some (match b.payFault e with
      | some (st, det, r) => (b.unqueue i.job).refuse e st det r
      | none => (b.unqueue i.job).startFunction u c e) := by
  rw [hjob] at hmay
  simp only [Block.payTry, hmay, hcore, hjob, hheld, hfree, hfirst, Bool.not_true, Bool.false_eq_true, if_false, Option.bind_some,
    Option.isSome_none]
  rfl

theorem Block.faultFunction_of_none (h : (b.cx u c).fn = none) : b.faultFunction u c = b := by
  unfold Block.faultFunction
  rw [h]

/-- A core without functions fails: its service context ends. -/
theorem Block.coreFails_of_no_function (hin : b.inService (188 + u) = true) (hfn : ∀ d, (b.cx u d).fn = none) :
    b.coreFails u = (b.endFunction u 0).quarantine (188 + u) := by
  have hfold (l : List (Fin 8)) : l.foldl (fun b c => b.faultFunction u c) b = b := by
    induction l with
    | nil => rfl
    | cons c l ih => rw [List.foldl_cons, Block.faultFunction_of_none (hfn c), ih]
  unfold Block.coreFails
  rw [if_neg (by simp [hin])]
  simp only [hfold]

end

/-- Settles O39: the first item that may go starts on the core that `argMax` names, or is refused; a fault of a core whose contexts
hold no function ends its service context and quarantines it. -/
theorem paymentDispatch : Obligations.PaymentDispatch := by
  unfold Obligations.PaymentDispatch
  intro s u k sub c e pre post i b
  refine ⟨fun hqueue hpre hmay hjob hheld hfirst hrefs hcore hfree => ?_, fun hin hfn => ?_, fun hrun hcycles => ?_, fun hrun hcycles => ?_⟩
  · have htry := Block.payTry_of_first hmay hjob hheld hfirst hcore hfree
    have hdispatch : b.payDispatch = match b.payFault e with
        | some (st, det, r) => (b.unqueue i.job).refuse e st det r
        | none => (b.unqueue i.job).startFunction u c e := by
      rw [Block.payDispatch, hqueue, findSome?_front (fun y hy => Block.payTry_waits (hpre y hy)) htry]
      rfl
    refine ⟨fun st det r hfault => next_congr (hdispatch.trans ?_), fun hfault => ?_⟩
    · rw [hfault]
    · obtain ⟨rfl, rfl⟩ := Block.key_of_entry? hheld
      obtain ⟨m, hm⟩ : ∃ m, m = b.unqueue i.job := ⟨_, rfl⟩
      have hmheld : m.entry? e.ring e.sub = some e := by
        rw [hm]
        exact hheld
      have hcopies : m.payCopies e = b.payCopies e := by
        rw [hm]
        rfl
      have hnow : m.now = b.now := by
        rw [hm]
        rfl
      obtain ⟨g, hg⟩ : ∃ g, g = m.gives e.ring e.sub (188 + u) (b.payCopies e) none := ⟨_, rfl⟩
      obtain ⟨x, hx⟩ : ∃ x, x = g.functionCtx (e.given (188 + u) b.now (b.payCopies e) none) := ⟨_, rfl⟩
      have hstart : b.payDispatch = g.modCx u c fun _ => x := by
        rw [hdispatch, hfault, hx, hg, ← hm, ← hcopies, ← hnow]
        exact Block.startFunction_of_first hmheld hrefs hfirst
      have hgframe := Block.gives_frame (b := m) (k := e.ring) (sub := e.sub) (188 + u) (b.payCopies e) none
      rw [← hg] at hgframe
      have hentry := Block.entry?_gives hmheld hrefs hfirst (188 + u) (b.payCopies e) none
      rw [← hg, hnow] at hentry
      have hcx : (g.modCx u c fun _ => x).cx u c = x := (Block.cx_modCx _ _ _ _ _ _).trans (if_pos ⟨rfl, rfl⟩)
      refine ⟨_, next_congr hstart, hentry, ?_, ?_, ?_, ?_, ?_, fun v d hne => ?_, fun y hy => ?_, ?_⟩
      · exact (congrArg Ctx14.st hcx).trans (by rw [hx]; rfl)
      · exact (congrArg Ctx14.pc hcx).trans (by rw [hx]; rfl)
      · exact (congrArg Ctx14.fn hcx).trans (by rw [hx]; rfl)
      · exact (congrArg Ctx14.bay hcx).trans (by rw [hx]; rfl)
      · exact (congrArg Ctx14.g hcx).trans (by rw [hx]; rfl)
      · refine (Block.cx_modCx _ _ _ _ _ _).trans ((if_neg fun h => hne ⟨h.1.symm, h.2.symm⟩).trans ?_)
        rw [hgframe, hm]
        rfl
      · have hqueue' : (g.modCx u c fun _ => x).pay.queue = (b.unqueue i.job).pay.queue := by
          have hgq : g.pay.queue = m.pay.queue := by rw [hgframe]
          rw [← hm]
          exact hgq
        have hmem : y ∈ (g.modCx u c fun _ => x).pay.queue := hy
        rw [hqueue'] at hmem
        exact job_of_mem_filter hmem
      · refine congrArg (fun y : Block => { s with blk := y }) ?_
        show (g.modCx u c fun _ => x) = _
        rw [hgframe, hm]
        rfl
  · exact next_congr ((congrArg b.coreFails (Nat.add_sub_cancel_left 188 u)).trans (Block.coreFails_of_no_function hin hfn))
  · refine next_congr ?_
    show b.watchdog (188 + u - 188) = b.coreFails (188 + u - 188)
    rw [Nat.add_sub_cancel_left 188 u, Block.watchdog, hrun]
    exact if_pos hcycles
  · refine next_congr ?_
    show b.watchdog (188 + u - 188) = b
    rw [Nat.add_sub_cancel_left 188 u, Block.watchdog, hrun]
    exact if_neg (Nat.not_le.2 hcycles)

end Sys2Proof.Machine

/-! The key lane pair and the slots (07 R154, 10 R215, R220 to R222). -/

namespace Sys2Proof.Machine

open Sys2Proof

/-! ## Chains of slots -/

section
variable {b : Block} {head : Nat} {r : SlotRec}

/-- Slots in a row changed alike. -/
def Block.modSlots (b : Block) (first n : Nat) (f : SlotRec → SlotRec) : Block :=
  (List.range n).foldl (fun b i => b.modSlot (first + i) f) b

theorem Block.slot_modSlots (first n : Nat) (f : SlotRec → SlotRec) (b : Block) (j : Nat) :
    (b.modSlots first n f).slot j = if first ≤ j ∧ j < first + n then f (b.slot j) else b.slot j := by
  induction n with
  | zero => exact (if_neg (by omega)).symm
  | succ n ih =>
    have hstep : b.modSlots first (n + 1) f = (b.modSlots first n f).modSlot (first + n) f := by
      rw [Block.modSlots, List.range_succ, List.foldl_append]
      rfl
    rw [hstep, Block.slot_modSlot]
    by_cases hj : first + n = j
    · have hlast : (b.modSlots first n f).slot (first + n) = b.slot (first + n) := by
        rw [hj, ih]
        exact if_neg (by omega)
      rw [if_pos hj, hlast, hj]
      exact (if_pos (by omega)).symm
    · rw [if_neg hj, ih]
      exact if_congr (by omega) rfl rfl

theorem Block.modSlots_frame (first n : Nat) (f : SlotRec → SlotRec) (b : Block) :
    b.modSlots first n f = { b with keys := { b.keys with slots := (b.modSlots first n f).keys.slots } } := by
  induction n with
  | zero => rfl
  | succ n ih =>
    have hstep : b.modSlots first (n + 1) f = (b.modSlots first n f).modSlot (first + n) f := by
      rw [Block.modSlots, List.range_succ, List.foldl_append]
      rfl
    rw [hstep]
    exact congrArg (fun x : Block => x.modSlot (first + n) f) ih

theorem Block.emptySlots_eq (b : Block) (first n : Nat) : b.emptySlots first n = b.modSlots first n emptied := rfl

/-- The chain that a slot heads, as far as it holds or awaits a key. -/
def chainLength (s : SlotRec) : Nat := if s.st = .live ∨ s.st = .reserved then s.chain else 0

/-- The head of a chain that is written. -/
def rewrittenHead (r old : SlotRec) : SlotRec := { r with gen := nextGen old.gen, refs := old.refs, head := 0 }

/-- A continuation of a chain. -/
def continuationOf (head : Nat) (s : SlotRec) : SlotRec := { st := .continuation, gen := s.gen, head := head }

theorem Block.writeChain_eq (b : Block) (head : Nat) (r : SlotRec) :
    b.writeChain head r = (((b.modSlots (head + r.chain) (chainLength (b.slot head) - r.chain) emptied).modSlot head (rewrittenHead r)).modSlots
      (head + 1) (r.chain - 1) (continuationOf head)) := rfl

/-- Every slot after a chain is written. -/
theorem Block.slot_writeChain (hchain : 1 ≤ r.chain) (j : Nat) :
    (b.writeChain head r).slot j =
      if j = head then rewrittenHead r (b.slot head)
      else if head < j ∧ j < head + r.chain then continuationOf head (b.slot j)
      else if head + r.chain ≤ j ∧ j < head + chainLength (b.slot head) then emptied (b.slot j)
      else b.slot j := by
  rw [Block.writeChain_eq, Block.slot_modSlots, Block.slot_modSlot]
  by_cases hhead : j = head
  · rw [if_neg (by omega), if_pos hhead.symm, Block.slot_modSlots, if_neg (by omega), if_pos hhead]
  · rw [if_neg (Ne.symm hhead), if_neg hhead, Block.slot_modSlots]
    by_cases hin : head < j ∧ j < head + r.chain
    · rw [if_pos (by omega), if_neg (by omega), if_pos hin]
    · rw [if_neg (by omega), if_neg hin]
      exact if_congr (by omega) rfl rfl

theorem Block.writeChain_frame (b : Block) (head : Nat) (r : SlotRec) :
    b.writeChain head r = { b with keys := { b.keys with slots := (b.writeChain head r).keys.slots } } := by
  rw [Block.writeChain_eq, Block.modSlots_frame]
  exact congrArg (fun x : Block => { x with keys := { x.keys with
    slots := (((b.modSlots (head + r.chain) (chainLength (b.slot head) - r.chain) emptied).modSlot head (rewrittenHead r)).modSlots
      (head + 1) (r.chain - 1) (continuationOf head)).keys.slots } })
    (congrArg (fun x : Block => x.modSlot head (rewrittenHead r)) (Block.modSlots_frame _ _ _ b))

/-- A drain that nothing waits for ends. -/
theorem Block.drainEnd_of_no_waiting (hst : (b.slot head).st = .draining) (hchain : (b.slot head).chain ≠ 0)
    (hrefs : (b.slot head).refs = 0) (hdrains : ∀ d ∈ b.keys.drains, d.1 ≠ head) :
    b.drainEnd head = b.modSlots head (b.slot head).chain emptied := by
  obtain ⟨m, hm⟩ : ∃ m, m = b.modSlots head (b.slot head).chain emptied := ⟨_, rfl⟩
  have hframe := Block.modSlots_frame head (b.slot head).chain emptied b
  rw [← hm] at hframe
  have hkeys : m.keys.drains = b.keys.drains := by rw [hframe]
  have hnone : (m.keys.drains.filter fun d => d.1 == head) = [] :=
    List.filter_eq_nil_iff.2 fun d hd => by simpa using hdrains d (hkeys ▸ hd)
  have hall : (m.keys.drains.filter fun d => d.1 != head) = m.keys.drains :=
    List.filter_eq_self.2 fun d hd => by simpa using hdrains d (hkeys ▸ hd)
  unfold Block.drainEnd
  rw [if_neg (by simp [hst, hchain, hrefs])]
  simp only [Block.emptySlots_eq, ← hm, hnone, hall, List.foldl_nil]

end

/-! ## Dispatch to the key lane pair -/

section
variable {b : Block} {l m k : Nat} {sub : Index} {i : QItem} {e : Entry}

/-- What key lane l holds as it takes an item. -/
def Block.keyLaneHolds (b : Block) (l : Nat) (i : QItem) : Block :=
  let c := ((b.unqueue i.job).modLane l (LaneRec.take · i b.now keyTime (b.keyMasks i))).askSeed l
  { c with keys := { c.keys with lastLane := l } }

/-- The request goes to a key lane that did not serve the last. -/
theorem Block.keyDispatch_of_pair (hready : b.keys.queue.find? b.keyReady = some i) (hexcl : i.excluded = [])
    (hpair : b.keyLanes = [l, m]) (hl : (b.lane l).job = none) (hm : (b.lane m).job = none) (hrole : (b.lane l).role = .key)
    (hmasks : (b.lane l).hasMasks (b.keyMasks i) = true) (hlast : b.keys.lastLane ≠ l) :
    b.keyDispatch = b.keyTake l i (b.keyMasks i) := by
  have hlanes : (b.keyLanes.filter fun x => !(i.excluded.contains x) && (b.lane x).role == .key) =
      l :: [m].filter fun x => !(i.excluded.contains x) && (b.lane x).role == .key := by
    rw [hpair]
    exact List.filter_cons_of_pos (by rw [hexcl, hrole]; rfl)
  have hbusy : (b.keyLanes.any fun x => (b.lane x).job.isSome) = false := by
    rw [hpair]
    simp [hl, hm]
  unfold Block.keyDispatch
  simp only [hready, hlanes, hbusy, Bool.false_eq_true, if_false, List.all_cons, hmasks, Bool.not_true, Bool.false_and, Bool.and_false,
    List.filter_cons_of_pos, List.find?_cons_of_pos, bne_iff_ne, ne_eq, Ne.symm hlast, not_false_eq_true, Option.orElse_some]

/-- A first dispatch that check 4 passes. -/
theorem Block.keyTake_of_first (hjob : i.job = .entry k sub) (hheld : b.entry? k sub = some e) (hstage : e.stage = .queued)
    (hfirst : e.dispatchedAt = none) (hlate : b.lateLength e = none) (hfault : b.keyOpFault e = none) :
    b.keyTake l i (b.keyMasks i) = (b.keyLaneHolds l i).startEntry k sub l (b.keyOpCopies e) none := by
  simp only [Block.keyTake, hjob, hheld, hstage, hfirst, hlate, hfault, Option.isSome_none, Bool.false_eq_true, if_false, reduceCtorEq,
    Refuse.or, Block.keyLaneHolds]

/-- A key lane's item taken: its fields but for the seed's request, and what stays. -/
theorem Block.keyLaneHolds_spec (b : Block) (l : Nat) (i : QItem) :
    (∃ asked, (b.keyLaneHolds l i).lane l = { (b.lane l).take i b.now keyTime (b.keyMasks i) with seedAsked := asked }) ∧
    (∀ x, x ≠ l → (b.keyLaneHolds l i).lane x = b.lane x) ∧
    (b.keyLaneHolds l i).entries = b.entries ∧ (b.keyLaneHolds l i).now = b.now ∧
    (b.keyLaneHolds l i).keys.queue = (b.unqueue i.job).keys.queue ∧ (b.keyLaneHolds l i).keys.lastLane = l := by
  obtain ⟨c, hc⟩ : ∃ c, c = (b.unqueue i.job).modLane l (LaneRec.take · i b.now keyTime (b.keyMasks i)) := ⟨_, rfl⟩
  obtain ⟨⟨asked, hasked⟩, hother, hframe⟩ := Block.askSeed_spec c l
  have hholds : b.keyLaneHolds l i = { c.askSeed l with keys := { (c.askSeed l).keys with lastLane := l } } := by
    rw [hc]
    rfl
  have hlane (x : Nat) : (b.keyLaneHolds l i).lane x = (c.askSeed l).lane x := by rw [hholds]; rfl
  have hclane (x : Nat) := Block.lane_modLane (b.unqueue i.job) l (LaneRec.take · i b.now keyTime (b.keyMasks i)) x
  rw [← hc] at hclane
  refine ⟨⟨asked, ?_⟩, fun x hx => ?_, ?_, ?_, ?_, ?_⟩
  · rw [hlane, hasked, hclane, if_pos rfl]
    rfl
  · rw [hlane, hother x hx, hclane, if_neg (Ne.symm hx)]
    rfl
  · rw [hholds, hframe, hc]
    rfl
  · rw [hholds, hframe, hc]
    rfl
  · rw [hholds, hframe, hc]
    rfl
  · rw [hholds]

end

/-- Settles O42: the key lane that did not serve last takes the request; a chain is written slot by slot in disjoint ranges. -/
theorem keySlots : Obligations.KeySlots := by
  unfold Obligations.KeySlots
  refine ⟨?_, fun b head r hchain => ?_, fun s head hst hchain hrefs hdrains => ?_⟩
  · intro s l m k sub i e b hready hjob hretry hexcl hheld hstage hfirst hrefs hpair hne hl hm hrole hmasks hlast hlate hfault
    obtain ⟨⟨asked, hlane⟩, hother, hentries, hnow, hqueue, hlastLane⟩ := Block.keyLaneHolds_spec b l i
    obtain ⟨c, hc⟩ : ∃ c, c = b.keyLaneHolds l i := ⟨_, rfl⟩
    rw [← hc] at hlane hother hentries hnow hqueue hlastLane
    have hcheld : c.entry? k sub = some e := (Block.entry?_congr hentries k sub).trans hheld
    obtain ⟨g, hg⟩ : ∃ g, g = c.gives k sub l (b.keyOpCopies e) none := ⟨_, rfl⟩
    have hstep : b.keyDispatch = g := by
      rw [Block.keyDispatch_of_pair hready hexcl hpair hl hm hrole hmasks hlast, Block.keyTake_of_first hjob hheld hstage hfirst hlate hfault,
        ← hc, Block.startEntry_of_first hcheld hrefs, hg]
    have hgframe := Block.gives_frame (b := c) (k := k) (sub := sub) l (b.keyOpCopies e) none
    have hentry := Block.entry?_gives hcheld hrefs hfirst l (b.keyOpCopies e) none
    rw [← hg] at hgframe hentry
    rw [hnow] at hentry
    have hglane (x : Nat) : g.lane x = c.lane x := by rw [hgframe]; rfl
    refine ⟨_, next_congr hstep, hentry, ?_, ?_, fun x hx => (hglane x).trans (hother x hx), fun y hy => ?_, ?_⟩
    · exact (congrArg LaneRec.job ((hglane l).trans hlane)).trans rfl
    · exact (congrArg LaneRec.startedAt ((hglane l).trans hlane)).trans rfl
    · have hgqueue : g.keys.queue = (b.unqueue i.job).keys.queue := by rw [hgframe]; exact hqueue
      have hmem : y ∈ g.keys.queue := hy
      rw [hgqueue] at hmem
      exact job_of_mem_filter hmem
    · show g.keys.lastLane = l
      rw [hgframe]
      exact hlastLane
  · intro old length b'
    have hslot (j : Nat) := Block.slot_writeChain (b := b) (head := head) hchain j
    refine ⟨(hslot head).trans (if_pos rfl), fun n hn hlt => (hslot _).trans ?_, fun n hn hlt => (hslot _).trans ?_,
      fun n hn => (hslot n).trans ?_, Block.writeChain_frame b head r⟩
    · exact (if_neg (by omega)).trans (if_pos (by omega))
    · exact (if_neg (by omega)).trans ((if_neg (by omega)).trans (if_pos ⟨by omega, Nat.add_lt_add_left hlt head⟩))
    · have hlen : length = chainLength (b.slot head) := rfl
      exact (if_neg (by omega)).trans ((if_neg (by omega)).trans (if_neg (by omega)))
  · have hstep := Block.drainEnd_of_no_waiting hst hchain hrefs hdrains
    have hslot (j : Nat) := Block.slot_modSlots head (s.blk.slot head).chain emptied s.blk j
    refine ⟨_, next_congr hstep, fun n hn => (hslot _).trans (if_pos (by omega)), fun n hn => (hslot n).trans (if_neg (by omega)), ?_⟩
    exact congrArg (fun x : Block => { s with blk := x }) (Block.modSlots_frame _ _ _ _)

end Sys2Proof.Machine

/-! Dual control and the master-key ceremony (16 R361 to R365). -/

namespace Sys2Proof.Machine

open Sys2Proof

section
variable {b c : Block} {l op : Nat} {e : Entry} {r : Result} {f : Fuses} {n : Bytes}

/-! ## Results of dual control -/

theorem Block.entry?_setResult (h : b.entry? e.ring e.sub = some e) :
    (b.setResult e r).entry? e.ring e.sub = some { e with res := some r } :=
  Block.entry?_modEntry_of_keeps (f := fun e => { e with res := some r }) (fun _ => ⟨rfl, rfl⟩) h

/-- An administrative operation ends: its entry has its result, and of the rest only dual control, the mode, the recorder and the
free choices used may have changed. -/
structure Block.Concludes (b b' : Block) (e : Entry) (r : Result) : Prop where
  entry : b'.entry? e.ring e.sub = some { e with res := some r }
  block : b' = { b with
    entries := b'.entries, gander := b'.gander, mode := b'.mode, recorder := b'.recorder, free := b'.free }

/-- From b to b' only dual control, the mode and the free choices used have changed. -/
def Block.Governs (b b' : Block) : Prop := b' = { b with gander := b'.gander, mode := b'.mode, free := b'.free }

theorem Block.dualResult_frame (b : Block) (e : Entry) (r : Result) :
    b.dualResult e r = { b with entries := (b.dualResult e r).entries, recorder := (b.dualResult e r).recorder } := by
  have hnote := Block.onlyRec_note (sev := 2) (by decide) (b.setResult e r) 0x0010 e.d.op (r.status + at_ 8 r.detail)
  have hentries : (b.dualResult e r).entries = (b.setResult e r).entries := (congrArg Block.entries hnote).trans rfl
  rw [hentries]
  exact hnote

theorem Block.entry?_dualResult (h : b.entry? e.ring e.sub = some e) :
    (b.dualResult e r).entry? e.ring e.sub = some { e with res := some r } := by
  have hnote := Block.onlyRec_note (sev := 2) (by decide) (b.setResult e r) 0x0010 e.d.op (r.status + at_ 8 r.detail)
  exact (Block.entry?_congr ((congrArg Block.entries hnote).trans rfl) _ _).trans (Block.entry?_setResult h)

theorem Block.concludes_dualResult (hheld : b.entry? e.ring e.sub = some e) (hc : b.Governs c) : b.Concludes (c.dualResult e r) e r where
  entry := Block.entry?_dualResult (b := c) (by rw [show c = _ from hc]; exact hheld)
  block := by
    have hframe := Block.dualResult_frame c e r
    rw [hframe]
    exact congrArg (fun x : Block => { x with
      entries := (c.dualResult e r).entries, recorder := (c.dualResult e r).recorder }) hc

theorem Block.gander_dualResult (b : Block) (e : Entry) (r : Result) : (b.dualResult e r).gander = b.gander :=
  (congrArg Block.gander (Block.dualResult_frame b e r)).trans rfl

theorem Block.mode_dualResult (b : Block) (e : Entry) (r : Result) : (b.dualResult e r).mode = b.mode :=
  (congrArg Block.mode (Block.dualResult_frame b e r)).trans rfl

/-- A result that sets dual control's state with it. -/
theorem Block.concludes_setResult (hheld : b.entry? e.ring e.sub = some e) (g : Gander) :
    b.Concludes { b.setResult e r with gander := g } e r := ⟨Block.entry?_setResult hheld, rfl⟩

/-! ## The nonce -/

theorem Block.withNonce_of_none {f : Bytes → Block → Block} (h : b.gander.openNonce b.now = none) :
    b.withNonce e f = b.dualResult e (.bad St.keyUsage 0xE) := by
  unfold Block.withNonce
  rw [h]

/-- The block in which the nonce has been consumed. -/
def Block.spent (b : Block) : Block := { b with gander := { b.gander with nonce := none } }

theorem Block.withNonce_of_some {f : Bytes → Block → Block} (h : b.gander.openNonce b.now = some n) :
    b.withNonce e f = f n b.spent := by
  unfold Block.withNonce
  rw [h]
  rfl

/-! ## UNLOCK, ENROL, REVOKE -/

/-- Locks released one after another. -/
theorem Block.freeLocks_spec (ps : List Nat) (b : Block) :
    (∀ p, (ps.foldl Block.freeLock b).part p =
      if p ∈ ps then { b.part p with lock := { (b.part p).lock with held := false, holder := 0 } } else b.part p) ∧
    ps.foldl Block.freeLock b = { b with parts := (ps.foldl Block.freeLock b).parts } := by
  induction ps generalizing b with
  | nil => exact ⟨fun _ => (if_neg List.not_mem_nil).symm, rfl⟩
  | cons x ps ih =>
    obtain ⟨hpart, hframe⟩ := ih (b.freeLock x)
    have hone (p : Nat) := Block.part_modPart b x (fun q => { q with lock := { q.lock with held := false, holder := 0 } }) p
    refine ⟨fun p => ?_, ?_⟩
    · have hx : (b.freeLock x).part p =
          if x = p then { b.part x with lock := { (b.part x).lock with held := false, holder := 0 } } else b.part p := hone p
      rw [List.foldl_cons, hpart, hx]
      by_cases hxp : x = p
      · subst hxp
        simp
      · simp [hxp, Ne.symm hxp]
    · rw [List.foldl_cons]
      exact hframe

/-- The mode that UNLOCK gives. -/
theorem Block.leaveLocked_spec (b : Block) :
    b.leaveLocked.mode = { b.mode with mode := if b.gander.masterKey.isSome then .operational else .zeroized } ∧
    (∀ p, b.leaveLocked.part p = if b.gander.masterKey = none ∧ p ∈ b.partitions
      then { b.part p with lock := { (b.part p).lock with held := false, holder := 0 } } else b.part p) ∧
    b.leaveLocked = { b with mode := b.leaveLocked.mode, parts := b.leaveLocked.parts } := by
  unfold Block.leaveLocked
  cases hkey : b.gander.masterKey with
  | some key => exact ⟨rfl, fun p => (if_neg (by simp)).symm, rfl⟩
  | none =>
    obtain ⟨z, hz⟩ : ∃ z : Block, z = { b with mode := { b.mode with mode := .zeroized } } := ⟨_, rfl⟩
    obtain ⟨hpart, hframe⟩ := Block.freeLocks_spec b.partitions z
    simp only [Option.isSome_none, Bool.false_eq_true, if_false, ← hz]
    obtain ⟨y, hy⟩ : ∃ y, y = b.partitions.foldl Block.freeLock z := ⟨_, rfl⟩
    rw [← hy] at hframe
    simp only [← hy] at hpart ⊢
    refine ⟨by rw [hframe, hz], fun p => (hpart p).trans ?_, by rw [hframe, hz]⟩
    rw [hz]
    exact if_congr (by simp) rfl rfl

/-- UNLOCK with a nonce, no threat and two signatures. -/
theorem Block.unlockOn_of_signed (hnonce : b.gander.openNonce b.now = some n) (hthreat : b.gander.threatened f = false)
    (hreserve : b.recorder.copy.reserveLock = false)
    (hsigned : b.gander.signFault (sigRecords 2 (b.input e)) none none (dualMessage 1 f.serial b.gander.lockSeq n (zeros 32)) = none) :
    Block.unlockOn f b e = (Block.leaveLocked { b with gander := { b.gander with
      lockLatch := false, eraseLatch := false, nonce := none } }).dualResult e {} := by
  have hthreat' : b.spent.gander.threatened f = false := hthreat
  have hreserve' : b.spent.recorder.copy.reserveLock = false := hreserve
  have hsigned' : b.spent.gander.signFault (sigRecords 2 (b.spent.input e)) none none
    (dualMessage 1 f.serial b.spent.gander.lockSeq n (zeros 32)) = none := hsigned
  rw [Block.unlockOn, Block.withNonce_of_some hnonce]
  simp only [hthreat', hreserve', hsigned', Bool.false_eq_true, if_false]
  rfl

/-- ENROL with a nonce, a new custodian and the signatures it needs. -/
theorem Block.enrolOn_of_signed {i : Nat} {x : Custodian} {own : SigRecord} (hnonce : b.gander.openNonce b.now = some n)
    (hof : enrolmentOf e.aux = (i, x)) (hi : i < 8) (hnew : (b.gander.custodian i).enrolled = false) (hknown : b.gander.knows x = false)
    (hown : (sigRecords ((b.input e).length / 4736) (b.input e)).reverse.find? (fun r => r.index == i) = some own)
    (hsigned : b.gander.signFault
      (eraseFirst (fun r => r.index == i) (sigRecords ((b.input e).length / 4736) (b.input e)).reverse).reverse none (some (own, x))
      (dualMessage 2 f.serial b.gander.lockSeq n (Hash.hash .sha3_256 e.aux)) = none) :
    Block.enrolOn f b e = Block.dualResult { b with gander := { b.gander with cust := b.gander.cust.set i x, nonce := none } } e {} := by
  have hok : ¬ (8 ≤ i ∨ (b.spent.gander.custodian i).enrolled = true ∨ b.spent.gander.knows x = true) := by
    have hnew' : (b.spent.gander.custodian i).enrolled = false := hnew
    have hknown' : b.spent.gander.knows x = false := hknown
    simp [hnew', hknown', hi]
  have hown' : (sigRecords ((b.spent.input e).length / 4736) (b.spent.input e)).reverse.find? (fun r => r.index == i) = some own := hown
  have hsigned' : b.spent.gander.signFault
      (eraseFirst (fun r => r.index == i) (sigRecords ((b.spent.input e).length / 4736) (b.spent.input e)).reverse).reverse none
      (some (own, x)) (dualMessage 2 f.serial b.spent.gander.lockSeq n (Hash.hash .sha3_256 e.aux)) = none := hsigned
  rw [Block.enrolOn, Block.withNonce_of_some hnonce]
  simp only [hof, if_neg hok, hown', hsigned']
  rfl

/-- REVOKE with a nonce, an enrolled custodian that two others are left after, and their signatures. -/
theorem Block.revokeOn_of_signed (hnonce : b.gander.openNonce b.now = some n)
    (henrolled : (b.gander.custodian (ofLE (e.aux.take 1))).enrolled = true) (hcount : 3 ≤ b.gander.enrolled)
    (hsigned : b.gander.signFault (sigRecords 2 (b.input e)) (some (ofLE (e.aux.take 1))) none
      (dualMessage 3 f.serial b.gander.lockSeq n (Hash.hash .sha3_256 e.aux)) = none) :
    Block.revokeOn f b e = Block.dualResult { b with gander := { b.gander with
      cust := b.gander.cust.set (ofLE (e.aux.take 1)) {}, nonce := none } } e {} := by
  have hok : (!(b.spent.gander.custodian (ofLE (e.aux.take 1))).enrolled || decide (b.spent.gander.enrolled - 1 < 2)) = false := by
    have henrolled' : (b.spent.gander.custodian (ofLE (e.aux.take 1))).enrolled = true := henrolled
    have hcount' : 3 ≤ b.spent.gander.enrolled := hcount
    rw [henrolled', decide_eq_false (by omega)]
    rfl
  have hsigned' : b.spent.gander.signFault (sigRecords 2 (b.spent.input e)) (some (ofLE (e.aux.take 1))) none
      (dualMessage 3 f.serial b.spent.gander.lockSeq n (Hash.hash .sha3_256 e.aux)) = none := hsigned
  rw [Block.revokeOn, Block.withNonce_of_some hnonce]
  simp only [hok, hsigned', Bool.false_eq_true, if_false]
  rfl

/-! ## The ceremony -/

/-- What MK_BEGIN outputs for a scalar. -/
def Entry.beginOutput (e : Entry) (f : Fuses) (seq : BitVec 32) (d : Nat) : Bytes :=
  challengeBytes f.serial seq (e.rnd.take 32) ++ (Kem.keyGen (Kem.params 2) (slice 32 32 e.rnd) (slice 64 32 e.rnd)).1 ++
    Ec.encode Ec.p384 (Ec.mul Ec.p384 d (Ec.gen Ec.p384))

/-- The ceremony that MK_BEGIN opens. -/
def Entry.ceremony (e : Entry) (out : Bytes) (d now : Nat) : Ceremony :=
  { m := field e.d.param 3 0, kcv := e.aux.take 5, nonce := e.rnd.take 32
    dk := (Kem.keyGen (Kem.params 2) (slice 32 32 e.rnd) (slice 64 32 e.rnd)).2, scalar := d, context := Hash.hash .sha384 out, opened := now }

theorem Block.mkBeginOn_of_scalar {d : Nat} (hlo : 2 ≤ field e.d.param 3 0) (hhi : field e.d.param 3 0 ≤ 8) (hrnd : 144 ≤ e.rnd.length)
    (hd : Ec.scalarOf Ec.p384 (e.rnd.drop (e.rnd.length - 48)) = some d) :
    Block.mkBeginOn f b e = { b.setResult e { out := e.beginOutput f b.gander.lockSeq d } with
      gander := { b.gander with ceremony := some (e.ceremony (e.beginOutput f b.gander.lockSeq d) d b.now) } } := by
  unfold Block.mkBeginOn
  refine (if_neg (by omega)).trans ((if_neg (by omega)).trans ?_)
  rw [hd]
  rfl

theorem Entry.take_beginOutput (hrnd : 144 ≤ e.rnd.length) (seq : BitVec 32) (d : Nat) :
    (e.beginOutput f seq d).take 48 = challengeBytes f.serial seq (e.rnd.take 32) := by
  have hlen : (challengeBytes f.serial seq (e.rnd.take 32)).length = 48 := by
    simp only [challengeBytes, zeros, List.length_append, length_toBE, List.length_replicate, List.length_take]
    omega
  rw [Entry.beginOutput, List.append_assoc]
  exact List.take_left' hlen

/-- A share is accepted: the ceremony goes on, ends with the key, or ends without it. -/
theorem Block.mkShareOn_of_share {x : Nat × Nat × Bytes} {ceremony : Ceremony} (hopen : b.gander.openCeremony b.now = some ceremony)
    (hshare : Block.shareOf f b ceremony (b.input e) = .ok x) :
    let shares := ceremony.shares ++ [x]
    let key := recoverSecret (shares.map (·.2))
    let r : Result := { result := BitVec.ofNat 64 (shares.length + 256 * ceremony.m) }
    Block.mkShareOn f b e =
      if shares.length < ceremony.m then
        { b.setResult e r with gander := { b.gander with ceremony := some { ceremony with shares := shares } } }
      else if Pay.kcv 1 5 key = ceremony.kcv then
        Block.dualResult { b.tick with
          gander := { b.gander with ceremony := none, masterKey := some key, mkKcv := Pay.kcv 1 5 key, mkInstalled := true, bootstrap := false
                                    mkLine := (Config.internalDraw b.free).toNat % 255 }
          mode := { b.mode with mode := .operational } } e r
      else Block.dualResult { b with gander := { b.gander with ceremony := none } } e (.bad St.keyblockAuth 0xA) := by
  have hat : at_ 8 ceremony.m = 256 * ceremony.m := at_eq 8 ceremony.m
  intro shares key r
  unfold Block.mkShareOn
  simp only [hopen, hshare, hat]
  rfl

end

/-- Settles O43: every operation is followed through to its result; the nonce is spent before the tests, none of which looks at it. -/
theorem dualControl : Obligations.DualControl := by
  unfold Obligations.DualControl
  intro s l e b g now runs src gives signed
  have hgives {c : Block} {r : Result} (h : b.Concludes c e r) : gives { s with blk := c } r :=
    ⟨h.entry, congrArg (fun x : Block => { s with blk := x }) h.block⟩
  have hmode {c : Block} {r : Result} : (Block.dualResult c e r).mode = c.mode := Block.mode_dualResult c e r
  have hgander {c : Block} {r : Result} : (Block.dualResult c e r).gander = c.gander := Block.gander_dualResult c e r
  have hon {op : Nat} {f : Entry → Block} (w : runs op) : (match b.onKeyLane l op with | some e => f e | none => b) = f e := by
    rw [show b.onKeyLane l op = some e from w.onLane]
  refine ⟨fun w hrnd => ?_, fun x hx w hnone => ?_, fun n hnonce => ⟨fun w hthreat hreserve hsigned => ?_, ?_, ?_⟩, fun w hm => ?_,
    fun d w hlo hhi hrnd hd => ?_, fun w hnone => ?_, fun c x w hopen hshare => ?_, fun n at_ hn hexp => ?_, fun c hc hexp => ?_⟩
  · have hstep : Block.challengeOn s.fuses b e = { b.setResult e { out := challengeBytes s.fuses.serial g.lockSeq (e.rnd.take 32) } with
        gander := { g with nonce := some (e.rnd.take 32, now) } } := if_neg (by omega)
    exact ⟨_, next_congr ((hon w).trans hstep), hgives (Block.concludes_setResult w.held _), rfl, rfl⟩
  · have hrefused {f : Bytes → Block → Block} : b.withNonce e f = b.dualResult e (.bad St.keyUsage 0xE) := Block.withNonce_of_none hnone
    have hend := hgives (Block.concludes_dualResult (r := .bad St.keyUsage 0xE) w.held (show b.Governs b from rfl))
    simp only [List.mem_cons, List.not_mem_nil, or_false] at hx
    rcases hx with rfl | rfl | rfl
    · exact ⟨_, next_congr ((hon (f := Block.unlockOn s.fuses b) w).trans hrefused), hend, hgander, hmode⟩
    · exact ⟨_, next_congr ((hon (f := Block.enrolOn s.fuses b) w).trans hrefused), hend, hgander, hmode⟩
    · exact ⟨_, next_congr ((hon (f := Block.revokeOn s.fuses b) w).trans hrefused), hend, hgander, hmode⟩
  · obtain ⟨c, hc⟩ : ∃ c : Block, c = { b with gander := { g with lockLatch := false, eraseLatch := false, nonce := none } } := ⟨_, rfl⟩
    have hstep := (hon (f := Block.unlockOn s.fuses b) w).trans (Block.unlockOn_of_signed hnonce hthreat hreserve hsigned)
    rw [← hc] at hstep
    obtain ⟨hcmode, hcpart, hcframe⟩ := Block.leaveLocked_spec c
    have hframe := Block.dualResult_frame c.leaveLocked e {}
    refine ⟨_, next_congr hstep, ?_, ?_, ?_, fun p => ?_, ?_⟩
    · refine Block.entry?_dualResult ?_
      rw [hcframe, hc]
      exact w.held
    · refine hgander.trans ?_
      rw [hcframe, hc]
    · refine (hmode.trans hcmode).trans ?_
      rw [hc]
    · have hpart : (c.leaveLocked.dualResult e {}).part p = c.leaveLocked.part p := by rw [hframe]; rfl
      refine hpart.trans ((hcpart p).trans ?_)
      rw [hc]
      rfl
    · refine congrArg (fun x : Block => { s with blk := x }) ?_
      rw [hframe, hcframe, hc]
  · intro i c own w hof hi hnew hknown hown hsigned
    exact ⟨_, next_congr ((hon (f := Block.enrolOn s.fuses b) w).trans (Block.enrolOn_of_signed hnonce hof hi hnew hknown hown hsigned)),
      hgives (Block.concludes_dualResult w.held rfl), hgander, hmode⟩
  · intro i w hi henrolled hcount hsigned
    subst hi
    exact ⟨_, next_congr ((hon (f := Block.revokeOn s.fuses b) w).trans (Block.revokeOn_of_signed hnonce henrolled hcount hsigned)),
      hgives (Block.concludes_dualResult w.held rfl), hgander, hmode⟩
  · exact computes_of_setResult w.held (next_congr ((hon (f := Block.mkBeginOn s.fuses b) w).trans (if_pos hm)))
  · exact ⟨_, _, _, next_congr ((hon (f := Block.mkBeginOn s.fuses b) w).trans (Block.mkBeginOn_of_scalar hlo hhi hrnd hd)),
      hgives (Block.concludes_setResult w.held _), Entry.take_beginOutput hrnd _ _, rfl, rfl, rfl, rfl, rfl, rfl, rfl⟩
  · refine computes_of_setResult w.held (next_congr ((hon (f := Block.mkShareOn s.fuses b) w).trans ?_))
    unfold Block.mkShareOn
    rw [show b.gander.openCeremony b.now = none from hnone]
    rfl
  · intro shares key
    have hstep := (hon (f := Block.mkShareOn s.fuses b) w).trans (Block.mkShareOn_of_share hopen hshare)
    refine ⟨fun hmore => ?_, fun hall hkey => ?_, fun hall hkey => ?_⟩
    · exact ⟨_, next_congr (hstep.trans (if_pos hmore)), hgives (Block.concludes_setResult w.held _), rfl, rfl⟩
    · have hlast := hstep.trans ((if_neg (Nat.not_lt.2 hall)).trans (if_pos hkey))
      refine ⟨_, next_congr hlast, hgives (Block.concludes_dualResult w.held rfl), ?_, ?_, ?_, ?_, ?_⟩
      · exact (congrArg Gander.masterKey hgander).trans rfl
      · exact (congrArg Gander.ceremony hgander).trans rfl
      · exact (congrArg Gander.mkInstalled hgander).trans rfl
      · exact (congrArg Gander.bootstrap hgander).trans rfl
      · exact (congrArg (·.mode) hmode).trans rfl
    · exact ⟨_, next_congr (hstep.trans ((if_neg (Nat.not_lt.2 hall)).trans (if_neg hkey))),
        hgives (Block.concludes_dualResult w.held rfl), hgander, hmode⟩
  · have hclosed : b.gander.openNonce b.now = none := by
      rw [Gander.openNonce, hn, Option.bind_some]
      exact if_neg (Nat.not_lt.2 hexp)
    refine next_congr (if_neg ?_)
    rw [show s.blk.gander.openNonce s.blk.now = none from hclosed]
    decide
  · have hclosed : b.gander.openCeremony b.now = none := by
      rw [Gander.openCeremony, hc, Option.bind_some]
      exact if_neg (Nat.not_lt.2 hexp)
    refine next_congr (if_neg ?_)
    rw [show s.blk.gander.openCeremony s.blk.now = none from hclosed]
    decide

end Sys2Proof.Machine

/-! Start-up of HEN (15 R343): a lane's first seed leaves what its job has still to take (log entry 55). -/

namespace Sys2Proof.Machine

open Sys2Proof

section
variable {b : Block} {l m : Nat}

/-- Lane l is given its first seed. -/
def Block.seedOne (b : Block) (l : Nat) : Block := (b.drawSeed l).2.deliver { prio := 1, bytes := 32, asked := b.now, who := .lane l } []

/-- Unit 112 + u is given its first seed. -/
def Block.seedUnit (b : Block) (u : Nat) : Block :=
  (b.drawSeed u).2.deliver { prio := 1, bytes := 32, asked := b.now, who := .unit (112 + u) } []

/-- The block whose lane l has its seed, before it asks for the next. -/
def Block.seedTaken (b : Block) (l : Nat) : Block :=
  (b.drawSeed l).2.modLane l fun x => { x with blocks := x.toTake b.now, seeded := true, seedAsked := false }

theorem Block.lane_seedOne (b : Block) (l m : Nat) : (b.seedOne l).lane m = ((b.seedTaken l).askSeed l).lane m := rfl

theorem Block.lane_seedOne_ne (h : m ≠ l) : (b.seedOne l).lane m = b.lane m := by
  rw [Block.lane_seedOne, (Block.askSeed_spec (b.seedTaken l) l).2.1 m h]
  exact (Block.lane_modLane _ _ _ _).trans (if_neg h.symm)

/-- A seed leaves a lane's count at what its job has still to take. -/
theorem Block.blocks_seedOne (b : Block) (l : Nat) : ((b.seedOne l).lane l).blocks = (b.lane l).toTake b.now := by
  obtain ⟨⟨asked, hasked⟩, -⟩ := Block.askSeed_spec (b.seedTaken l) l
  have htaken : (b.seedTaken l).lane l = { b.lane l with blocks := (b.lane l).toTake b.now, seeded := true, seedAsked := false } :=
    (Block.lane_modLane _ _ _ _).trans (if_pos rfl)
  rw [Block.lane_seedOne, hasked, htaken]

theorem Block.lane_seedOnes (ls : List Nat) (h : m ∉ ls) (b : Block) : (ls.foldl Block.seedOne b).lane m = b.lane m := by
  induction ls generalizing b with
  | nil => rfl
  | cons l ls ih =>
    rw [List.mem_cons, not_or] at h
    rw [List.foldl_cons, ih h.2, Block.lane_seedOne_ne h.1]

theorem Block.lane_seedUnit (b : Block) (u : Nat) : (b.seedUnit u).lane m = b.lane m := by
  unfold Block.seedUnit Block.deliver
  simp only
  split <;> rfl

theorem Block.lane_refill (b : Block) : b.refill.lane m = b.lane m := by
  unfold Block.refill
  split <;> rfl

/-- The block in which every lane and unit has its first seed. -/
def Block.seedsGiven (b : Block) : Block := (List.range 76).foldl Block.seedUnit ((List.range 112).foldl Block.seedOne b)

/-- After the lanes and units GANDER takes its seed, and HEN runs. -/
def Block.seedsEnd (b : Block) : Block :=
  let x := b.drawSeed 12
  let c := x.2.deliver { prio := 1, bytes := 32, asked := x.2.now, who := .gander } x.1
  Block.refill { c with hen := { c.hen with phase := .running, phaseAt := c.now }, mode := { c.mode with henSeeded := true } }

theorem Block.seedAll_of_seeding (h : b.hen.phase = .seeding) : b.seedAll = b.seedsGiven.seedsEnd := by
  unfold Block.seedAll Block.seedsGiven Block.seedsEnd Block.seedOne Block.seedUnit
  rw [if_neg (by rw [h]; decide)]

theorem Block.lane_seedsEnd (b : Block) : b.seedsEnd.lane m = b.lane m := by
  unfold Block.seedsEnd
  exact (Block.lane_refill _).trans rfl

/-- After the seeds of start-up the first lane's count is what its job has still to take. -/
theorem Block.blocks_seedAll (h : b.hen.phase = .seeding) : (b.seedAll.lane 0).blocks = (b.lane 0).toTake b.now := by
  have hunits (c : Block) : ((List.range 76).foldl Block.seedUnit c).lane 0 = c.lane 0 :=
    foldl_keeps (fun c : Block => c.lane 0) (fun c u => Block.lane_seedUnit c u) _ c
  have hrange : List.range 112 = 0 :: (List.range 111).map Nat.succ := List.range_succ_eq_map
  have hlast : 0 ∉ (List.range 111).map Nat.succ := by
    rw [List.mem_map]
    rintro ⟨n, -, hn⟩
    exact Nat.succ_ne_zero n hn
  rw [Block.seedAll_of_seeding h, Block.lane_seedsEnd, Block.seedsGiven, hunits, hrange, List.foldl_cons, Block.lane_seedOnes _ hlast,
    Block.blocks_seedOne]

end

theorem Block.lane_mode {m : Nat} (b : Block) (mode : ModeCtl) : Block.lane { b with mode } m = b.lane m := rfl

/-- HEN_SEEDED gives the seeds and moves the boot on. -/
theorem exec_henSeeded (s : State) : ∃ mode, exec .henSeeded s = .next { s with blk := { s.blk.seedAll with mode } } := ⟨_, rfl⟩

/-- A block at the seeds of start-up whose lane 0 has a job with one generator block to take. -/
def seedingBlock : Block :=
  { hen := { phase := .seeding }, lanes := { units := [(0, { job := some (.entry 0 0), cost := 1, need := 1 })] } }

/-- Refutes O44: at HEN_SEEDED a lane that works on a job keeps in its count what the job has still to take of the generator's
blocks (log entry 55), so the count of lane 0 of `seedingBlock` is 1 and not 0. -/
theorem not_entropySource : ¬ Obligations.EntropySource := by
  unfold Obligations.EntropySource
  intro h
  obtain ⟨-, -, -, hseeded, -⟩ := h { State.reset with blk := seedingBlock }
  obtain ⟨t, ht, -, -, -, -, hlanes, -⟩ := hseeded rfl
  have hblk : t.blk.lane 0 = seedingBlock.seedAll.lane 0 := by
    obtain ⟨mode, hmode⟩ := exec_henSeeded { State.reset with blk := seedingBlock }
    rw [← Host.Outcome.next.inj (hmode.symm.trans ht)]
    exact Block.lane_mode _ _
  have hzero := (hlanes 0 (by decide)).2
  rw [hblk, Block.blocks_seedAll rfl] at hzero
  exact absurd hzero (by decide)

end Sys2Proof.Machine

/-! The generator of HEN (15 R340 to R342, R346, R347, SP 800-90A). -/

namespace Sys2Proof.Machine

open Sys2Proof

/-! ## Lengths of AES blocks -/

/-- The pieces of a byte string of whole pieces. -/
theorem length_of_mem_chunks {n : Nat} (hn : 0 < n) :
    ∀ (m : Nat) (data : Bytes), data.length = n * m → (chunks n data).length = m ∧ ∀ x ∈ chunks n data, x.length = n := by
  intro m
  induction m with
  | zero =>
    intro data h
    have hnil : data = [] := List.length_eq_zero_iff.1 h
    subst hnil
    exact ⟨rfl, fun x hx => absurd hx List.not_mem_nil⟩
  | succ m ih =>
    intro data h
    rw [Nat.mul_succ] at h
    have hpos : data ≠ [] := List.length_pos_iff.1 (by omega)
    obtain ⟨hlen, hall⟩ := ih (data.drop n) (by rw [List.length_drop]; omega)
    rw [chunks_of_ne_nil hn hpos]
    refine ⟨by rw [List.length_cons, hlen], fun x hx => ?_⟩
    rcases List.mem_cons.1 hx with rfl | hx
    · rw [List.length_take]
      omega
    · exact hall x hx

theorem length_flatten_of_words {n : Nat} {ws : List Bytes} (h : ∀ w ∈ ws, w.length = n) : ws.flatten.length = n * ws.length := by
  induction ws with
  | nil => rfl
  | cons w ws ih =>
    rw [List.flatten_cons, List.length_append, h w List.mem_cons_self, ih fun x hx => h x (List.mem_cons_of_mem _ hx), List.length_cons,
      Nat.mul_succ, Nat.add_comm]

/-- Every word of the key expansion has four bytes. -/
theorem length_expandAux {nk : Nat} (hnk : 0 < nk) (n : Nat) : ∀ (i : Nat) (rcon : Byte) (prev : List Bytes), nk ≤ prev.length →
    (∀ w ∈ prev, w.length = 4) →
    (Aes.expandAux nk n i rcon prev).length = prev.length + n ∧ ∀ w ∈ Aes.expandAux nk n i rcon prev, w.length = 4 := by
  induction n with
  | zero => exact fun _ _ prev _ h => ⟨rfl, h⟩
  | succ n ih =>
    intro i rcon prev hlen h
    have hback : (prev.getD (nk - 1) []).length = 4 := by
      rw [List.getD_eq_getElem _ _ (by omega)]
      exact h _ (List.getElem_mem _)
    have hlast : (prev.headD []).length = 4 := by
      obtain ⟨w, ws, rfl⟩ := List.exists_cons_of_length_pos (show 0 < prev.length by omega)
      exact h w List.mem_cons_self
    have hnext (rcon' : Byte) (w : Bytes) (hw : w.length = 4) :
        (Aes.expandAux nk n (i + 1) rcon' (w :: prev)).length = prev.length + (n + 1) ∧
        ∀ x ∈ Aes.expandAux nk n (i + 1) rcon' (w :: prev), x.length = 4 := by
      obtain ⟨hcount, hall⟩ := ih (i + 1) rcon' (w :: prev) (by rw [List.length_cons]; omega)
        fun x hx => (List.mem_cons.1 hx).elim (fun hx => hx ▸ hw) (h x)
      exact ⟨by rw [hcount, List.length_cons]; omega, hall⟩
    unfold Aes.expandAux
    simp only
    generalize prev.getD (nk - 1) [] = back at hback
    generalize prev.headD [] = last at hlast
    split
    · exact hnext _ _ (by simp [xorB, hback, hlast])
    · split
      · exact hnext _ _ (by simp [xorB, hback, hlast])
      · exact hnext _ _ (by simp [xorB, hback, hlast])

/-- The fifteen round keys of AES-256. -/
theorem length_roundKeys {key : Bytes} (h : key.length = 32) :
    (Aes.roundKeys key).length = 15 ∧ ∀ k ∈ Aes.roundKeys key, k.length = 16 := by
  obtain ⟨hcount, hwords⟩ := length_of_mem_chunks (n := 4) (by decide) 8 key h
  obtain ⟨hlen, hall⟩ := length_expandAux (nk := 8) (by decide) 52 8 1 (chunks 4 key).reverse (by rw [List.length_reverse, hcount])
    fun w hw => hwords w (List.mem_reverse.1 hw)
  rw [List.length_reverse, hcount] at hlen
  have hkeys : Aes.roundKeys key = chunks 16 (Aes.expandAux 8 52 8 1 (chunks 4 key).reverse).reverse.flatten := by
    unfold Aes.roundKeys
    rw [h]
  have hflat : (Aes.expandAux 8 52 8 1 (chunks 4 key).reverse).reverse.flatten.length = 16 * 15 := by
    rw [length_flatten_of_words fun w hw => hall w (List.mem_reverse.1 hw), List.length_reverse, hlen]
  rw [hkeys]
  exact length_of_mem_chunks (by decide) 15 _ hflat

theorem length_encRounds (ks : List Bytes) : ∀ s : Bytes, ks ≠ [] → (∀ k ∈ ks, k.length = 16) → (Aes.encRounds ks s).length = 16 := by
  induction ks with
  | nil => exact fun _ h => absurd rfl h
  | cons k ks ih =>
    intro s _ h
    cases ks with
    | nil =>
      show (xorB (Aes.shiftRows (s.map Aes.sbox)) k).length = 16
      simp [xorB, Aes.shiftRows, h k List.mem_cons_self]
    | cons k' ks => exact ih _ (List.cons_ne_nil _ _) fun x hx => h x (List.mem_cons_of_mem _ hx)

/-- A block under AES-256 has sixteen bytes. -/
theorem length_encWith {key : Bytes} (h : key.length = 32) (blk : Bytes) : (Aes.encWith (Aes.roundKeys key) blk).length = 16 := by
  obtain ⟨hcount, hall⟩ := length_roundKeys h
  obtain ⟨k, ks, hks⟩ := List.exists_cons_of_length_pos (show 0 < (Aes.roundKeys key).length by omega)
  rw [hks] at hcount hall ⊢
  refine length_encRounds ks _ (fun hnil => ?_) fun x hx => hall x (List.mem_cons_of_mem _ hx)
  rw [hnil, List.length_singleton] at hcount
  exact absurd hcount (by decide)

/-! ## Draws -/

section
variable {b : Block} {k inst : Nat} {i : Index} {e : Entry} {d : Drbg} {r : HenReq}

theorem length_generate (h : d.key.length = 32) (n : Nat) : (d.generate n).1.length = n := by
  have hblocks : (drbgBlocks d.key d.v (ceilDiv n 16)).length = 16 * ceilDiv n 16 := by
    have hwords := length_flatten_of_words (n := 16)
      (ws := (List.range (ceilDiv n 16)).map fun i => Aes.encWith (Aes.roundKeys d.key) (drbgCtr d.v (i + 1))) (by
        intro w hw
        obtain ⟨i, -, rfl⟩ := List.mem_map.1 hw
        exact length_encWith h _)
    rw [List.length_map, List.length_range] at hwords
    exact hwords
  have hceil : n ≤ 16 * ceilDiv n 16 := by
    rw [ceilDiv]
    omega
  show (List.take n _).length = n
  rw [List.length_take, hblocks, Nat.min_eq_left hceil]

theorem Drbg.not_due {now : Nat} (hreq : d.requests < 2 ^ 20) (hdue : d.reseedDue = false) (hat : now < d.reseedAt + 10000) :
    d.due now = false := by
  rw [Drbg.due, hdue, decide_eq_false (Nat.not_le.2 hreq), decide_eq_false (Nat.not_le.2 hat)]
  rfl

/-- A request served from a generator that needs no reseed. -/
theorem Block.drawDone_of_fresh (hnext : b.nextDraw inst = some r) (hrun : b.hen.phase = .running)
    (hseeded : (nth {} b.hen.insts inst).seeded = true) (hpr : r.pr = false) (hdue : (nth {} b.hen.insts inst).due b.now = false)
    (hbytes : 0 < r.bytes) :
    b.drawDone inst = (Block.deliver { b with hen := { b.hen with
      insts := b.hen.insts.set inst { ((nth {} b.hen.insts inst).generate r.bytes).2 with idleSince := b.now }
      waiting := b.hen.waiting.erase r } } r ((nth {} b.hen.insts inst).generate r.bytes).1).refill := by
  have hready : (b.hen.phase != .running) = false := by rw [hrun]; rfl
  simp only [Block.drawDone, hnext, hready, hseeded, hpr, hdue, Bool.or_self, Bool.not_true, Bool.false_and, Bool.false_eq_true, if_false,
    Nat.ne_of_gt hbytes]

/-- The last bytes of an entry's request, for a family other than RNG. -/
theorem Block.deliver_of_entry {out : Bytes} (hwho : r.who = .entry k i) (hmore : r.more = 0) (hheld : b.entry? k i = some e)
    (hfam : e.d.family ≠ Fam.rng) :
    b.deliver r out = b.modEntry k i fun e => { e with rnd := e.rnd ++ out, asked := false } := by
  have hentry : (b.modEntry k i fun e => { e with rnd := e.rnd ++ out, asked := false }).entry? k i =
      some { e with rnd := e.rnd ++ out, asked := false } :=
    Block.entry?_modEntry_of_keeps (f := fun e => { e with rnd := e.rnd ++ out, asked := false }) (fun _ => ⟨rfl, rfl⟩) hheld
  unfold Block.deliver
  simp only [hwho, hmore, Nat.lt_irrefl, decide_false, if_false]
  unfold Block.rngDone
  simp only [hentry, hfam, if_false]

theorem Block.refill_frame (b : Block) : b.refill = { b with hen := { b.hen with waiting := b.refill.hen.waiting } } := by
  unfold Block.refill
  split <;> rfl

/-- The generator that an RNG descriptor goes to. -/
theorem Block.idleInst_spec (b : Block) :
    b.idleInst < 16 ∧ ∀ j, j < 16 → (nth {} b.hen.insts b.idleInst).idleSince ≤ (nth {} b.hen.insts j).idleSince := by
  cases hmin : argMin (fun i => ((nth {} b.hen.insts i).idleSince : Int)) (List.range 16) with
  | none =>
    have hnil : List.range 16 = [] := (argMax_eq_none_iff _ _).1 hmin
    exact absurd hnil (by decide)
  | some v =>
    have hidle : b.idleInst = v := by rw [Block.idleInst, hmin]; rfl
    obtain ⟨hmem, hle⟩ := argMin_mem_and_min _ hmin
    rw [hidle]
    exact ⟨List.mem_range.1 hmem, fun j hj => Int.ofNat_le.1 (hle j (List.mem_range.2 hj))⟩

/-- An RNG descriptor's first request. -/
theorem Block.rng_of_queued {op : Nat} (hheld : b.entry? k i = some e) (hfam : e.d.family = Fam.rng) (hop : e.d.op = op)
    (hstage : e.stage = .queued) (hordered : b.ordered e = true) (hphase : b.hen.phase ≠ .stopped) (htest : b.hen.testEn = false)
    (hsome : ¬ (e.d.dstLen = 0 ∧ op = 1)) :
    b.rng k i op = (b.modEntry k i fun _ =>
      { e with stage := .dispatched, engine := 0xE0 + b.idleInst, dispatchedAt := some b.now, asked := true }).ask 4 (min 65536 e.d.dstLen)
        (.entry k i) (op == 2) (some b.idleInst) (e.d.dstLen - min 65536 e.d.dstLen) := by
  unfold Block.rng
  simp only [hheld]
  refine (if_neg (by simp [hfam, hop, hstage, hordered])).trans ((if_neg (by simp [hphase, htest])).trans ?_)
  exact if_neg hsome

/-! ## The register port and the test register -/

/-- A global register's write by partition 0. -/
theorem Block.globalWrite_of_owner {f : Block → Block} {addr : Nat} (hup : b.mode.porstLow = false) :
    b.globalWrite 0 addr f = f b.okWrite := by
  rw [Block.globalWrite, if_neg (by rw [hup]; decide), if_pos rfl]

theorem Block.readRng_of_full (h : 4 ≤ b.hen.fifo.length) :
    b.readRng 0x3008 4 = ((Block.okRead { b with hen := { b.hen with fifo := b.hen.fifo.drop 4 } }) (ofLE (b.hen.fifo.take 4))).refill := by
  unfold Block.readRng
  simp only [h, decide_true, if_true]
  rfl

theorem Block.readRng_of_short (h : b.hen.fifo.length < 4) :
    b.readRng 0x3008 4 = (Block.okRead { b with hen := { b.hen with rngEmpty := true } } 0).refill := by
  unfold Block.readRng
  simp only [Nat.not_le.2 h, decide_false, Bool.false_eq_true, if_false]
  rfl

theorem field_two_ne_zero (x : Nat) : (field x 2 1 != 0) = (x.testBit 1 || x.testBit 2) := by
  have hbits : x.testBit 1 = decide (x / 2 ^ 1 % 2 = 1) ∧ x.testBit 2 = decide (x / 2 ^ 2 % 2 = 1) :=
    ⟨Nat.testBit_eq_decide_div_mod_eq, Nat.testBit_eq_decide_div_mod_eq⟩
  rw [hbits.1, hbits.2, field_eq, Bool.eq_iff_iff]
  simp only [bne_iff_ne, ne_eq, Bool.or_eq_true, decide_eq_true_eq]
  omega

theorem ofNat_field_two (x : BitVec 64) : BitVec.ofNat 2 (field x.toNat 2 1) = x.extractLsb' 1 2 := by
  apply BitVec.eq_of_toNat_eq
  rw [BitVec.toNat_ofNat, BitVec.extractLsb'_toNat, field, Nat.mod_mod]

/-- AV_HEN_TEST elsewhere than in FACTORY. -/
theorem Block.writeHenTest_of_not_factory (h : b.mode.mode ≠ .factory) (data : BitVec 64) :
    b.writeHenTest data = { b with hen := { b.hen with
      testRefused := (data.getLsbD 0 || data.getLsbD 1 || data.getLsbD 2 || data.getLsbD 4) || (b.hen.testRefused && !data.getLsbD 8) } } := by
  have hset : (bit data.toNat 0 || field data.toNat 2 1 != 0 || bit data.toNat 4) =
      (data.getLsbD 0 || data.getLsbD 1 || data.getLsbD 2 || data.getLsbD 4) := by
    rw [field_two_ne_zero, ← Bool.or_assoc]
    rfl
  unfold Block.writeHenTest
  simp only [h, if_false, hset]
  rfl

/-- AV_HEN_TEST in FACTORY, without TEST_EN. -/
theorem Block.writeHenTest_of_factory (h : b.mode.mode = .factory) {data : BitVec 64} (hbit : data.getLsbD 0 = false) :
    b.writeHenTest data = { b with hen := { b.hen with
      testEn := false, sources := data.extractLsb' 1 2, rawSel := data.getLsbD 4, testRefused := b.hen.testRefused && !data.getLsbD 8 } } := by
  have hzero : bit data.toNat 0 = false := hbit
  unfold Block.writeHenTest
  simp only [h, hzero, if_true, Bool.false_eq_true, false_and, if_false, ofNat_field_two]
  rfl

end

/-- Settles O45: a request served without a reseed gives AES blocks cut to its bytes; the other commands are followed through. -/
theorem randomGenerator : Obligations.RandomGenerator := by
  unfold Obligations.RandomGenerator
  intro s k i e b h now
  refine ⟨fun inst r hnext hrun _ hwho hmore hpr hbytes hheld hfam => ?_, fun inst hseeded hat => ?_,
    fun op c hc hheld hfam hop hstage hordered hphase htest => ?_, fun hup => ⟨fun hfull => ?_, fun hshort => ?_, fun data hmode => ?_,
      fun data hmode hbit => ?_⟩⟩
  · intro d hseeded hkey hreq hdue hat
    have hstep := Block.drawDone_of_fresh hnext hrun hseeded hpr (Drbg.not_due hreq hdue hat) hbytes
    obtain ⟨m, hm⟩ : ∃ m : Block, m = { b with hen := { b.hen with
      insts := b.hen.insts.set inst { (d.generate r.bytes).2 with idleSince := b.now }, waiting := b.hen.waiting.erase r } } := ⟨_, rfl⟩
    have hmheld : m.entry? k i = some e := by rw [hm]; exact hheld
    have hdeliver := Block.deliver_of_entry (out := (d.generate r.bytes).1) hwho hmore hmheld hfam
    rw [← hm, hdeliver] at hstep
    obtain ⟨z, hz⟩ : ∃ z, z = m.modEntry k i fun e => { e with rnd := e.rnd ++ (d.generate r.bytes).1, asked := false } := ⟨_, rfl⟩
    rw [← hz] at hstep
    have hframe := Block.refill_frame z
    have hentry : z.entry? k i = some { e with rnd := e.rnd ++ (d.generate r.bytes).1, asked := false } := by
      rw [hz]
      exact Block.entry?_modEntry_of_keeps (f := fun e => { e with rnd := e.rnd ++ (d.generate r.bytes).1, asked := false })
        (fun _ => ⟨rfl, rfl⟩) hmheld
    refine ⟨_, next_congr hstep, ?_, ?_, length_generate hkey _, rfl, ?_⟩
    · show z.refill.entry? k i = _
      rw [hframe]
      exact hentry
    · show z.refill.hen.insts = _
      rw [hframe, hz, hm]
      rfl
    · refine congrArg (fun x : Block => { s with blk := x }) ?_
      rw [hframe, hz, hm]
      rfl
  · exact next_congr (if_pos (by simp [show (nth {} s.blk.hen.insts inst).seeded = true from hseeded,
      show (nth {} s.blk.hen.insts inst).reseedAt + 10000 ≤ s.blk.now from hat]))
  · obtain ⟨hlt, hle⟩ := Block.idleInst_spec b
    have hsome : ¬ (e.d.dstLen = 0 ∧ op = 1) := by
      rintro ⟨hzero, hone⟩
      rcases hc with ⟨-, -, hpos⟩ | ⟨htwo, -⟩
      · omega
      · omega
    have hstep := Block.rng_of_queued hheld hfam hop hstage hordered hphase htest hsome
    have hexec : exec c s = .next { s with blk := b.rng k i op } := by
      rcases hc with ⟨rfl, rfl, -⟩ | ⟨rfl, rfl⟩ <;> rfl
    obtain ⟨rfl, rfl⟩ := Block.key_of_entry? hheld
    have hentry := Block.entry?_modEntry (b := b) (k := e.ring) (i := e.sub)
      (f := fun _ => { e with stage := .dispatched, engine := 0xE0 + b.idleInst, dispatchedAt := some b.now, asked := true })
      fun _ _ _ => ⟨rfl, rfl⟩
    rw [hheld] at hentry
    exact ⟨_, b.idleInst, hexec.trans (next_congr hstep), hlt, hle, hentry, rfl, rfl⟩
  · have hstep : b.access 0x3008 4 0 false (fun b => if (0 : Nat) = 0 then b.readRng 0x3008 4 else b.refuseOwner 0x3008 0 false) = _ :=
      (Block.access_of_aligned hup (.inr ⟨rfl, .inr (.inl (by decide))⟩) rfl).trans (Block.readRng_of_full hfull)
    refine ⟨_, next_congr hstep, ?_, ?_, ?_, ?_⟩
    all_goals
      dsimp only
      rw [Block.refill_frame]
      rfl
  · have hstep : b.access 0x3008 4 0 false (fun b => if (0 : Nat) = 0 then b.readRng 0x3008 4 else b.refuseOwner 0x3008 0 false) = _ :=
      (Block.access_of_aligned hup (.inr ⟨rfl, .inr (.inl (by decide))⟩) rfl).trans (Block.readRng_of_short hshort)
    refine ⟨_, next_congr hstep, ?_, ?_, ?_⟩
    all_goals
      dsimp only
      rw [Block.refill_frame]
      rfl
  · exact next_congr ((Block.globalWrite_of_owner hup).trans (Block.writeHenTest_of_not_factory (b := s.blk.okWrite) hmode data))
  · exact next_congr ((Block.globalWrite_of_owner hup).trans (Block.writeHenTest_of_factory (b := s.blk.okWrite) hmode hbit))

end Sys2Proof.Machine

/-! Raw channels of MULE (O46): a transfer's start, its one chunk, its accepted writes, its end, DISABLE and the errors of lists. -/

namespace Sys2Proof.Machine

open Sys2Proof

section
variable {b b' b'' : Block} {ch : Nat} {r : ChanRun}

/-! ## What a channel's work leaves unchanged -/

/-- From b to b' nothing changes but channel ch, what is outstanding and sent, the response channel and the undefined values used. -/
def Block.ChanOnly (ch : Nat) (b b' : Block) : Prop :=
  (∀ j, j ≠ ch → b'.chan j = b.chan j) ∧
    b' = { b with sport := b'.sport, mule := b'.mule, mport := b'.mport, bus := b'.bus, free := b'.free }

theorem Block.ChanOnly.refl (b : Block) : b.ChanOnly ch b := ⟨fun _ _ => rfl, rfl⟩

theorem Block.ChanOnly.trans (h : Block.ChanOnly ch b b') (h' : Block.ChanOnly ch b' b'') : Block.ChanOnly ch b b'' := by
  obtain ⟨hchan, hrest⟩ := h
  obtain ⟨hchan', hrest'⟩ := h'
  refine ⟨fun j hj => (hchan' j hj).trans (hchan j hj), ?_⟩
  rw [hrest', hrest]

theorem Block.chan_congr (h : b'.mule = b.mule) (j : Nat) : b'.chan j = b.chan j :=
  congrArg (fun m : Table Channel => Table.get ({} : Channel) m j) h

/-- A change that leaves the channels and everything but the response channel, requests and the boundary. -/
theorem Block.ChanOnly.of_ports (h : b' = { b with sport := b'.sport, mport := b'.mport, bus := b'.bus, free := b'.free }) :
    Block.ChanOnly ch b b' := by
  have hmule : b'.mule = b.mule := (congrArg Block.mule h).trans rfl
  refine ⟨fun j _ => Block.chan_congr hmule j, ?_⟩
  rw [hmule]
  exact h

theorem Block.chanOnly_modChan (f : Channel → Channel) : b.ChanOnly ch (b.modChan ch f) := by
  refine ⟨fun j hj => ?_, rfl⟩
  rw [Block.chan_modChan, if_neg hj.symm]

/-- The whole state, when only channel ch and what goes with it changed. -/
theorem Block.ChanOnly.state {s : State} (h : Block.ChanOnly ch s.blk b') :
    let t : State := { s with blk := b' }
    (∀ j, j ≠ ch → t.blk.chan j = s.blk.chan j) ∧
      t = { s with blk := { s.blk with
        sport := t.blk.sport, mule := t.blk.mule, mport := t.blk.mport, bus := t.blk.bus, free := t.blk.free } } :=
  ⟨h.1, congrArg (fun x : Block => ({ s with blk := x } : State)) h.2⟩

/-! ## Requests of a channel -/

theorem Block.chanOnly_issueRead (port part ring addr len : Nat) (pur : Purpose) :
    b.ChanOnly ch (b.issueRead port part ring addr len pur) := by
  obtain ⟨_, hentries, honly⟩ := Block.issueRead_spec (b := b) port part ring addr len pur
  refine .of_ports ?_
  unfold Block.FlowOnly at honly
  rw [hentries] at honly
  exact honly.trans (by rw [honly])

/-- A channel is as it was when reads have gone out. -/
theorem Block.chan_issueRead (port part ring addr len : Nat) (pur : Purpose) (j : Nat) :
    (b.issueRead port part ring addr len pur).chan j = b.chan j :=
  Block.chan_congr ((congrArg Block.mule (Block.issueRead_spec (b := b) port part ring addr len pur).2.2).trans rfl) j

/-- A read of one line is one request. -/
theorem Block.issueRead_of_line (port part ring addr : Nat) (pur : Purpose) :
    b.issueRead port part ring (addr / 64 * 64) 64 pur =
      (b.put (.read port part ring false (addr / 64 * 64) 64)).await port .read pur part (addr / 64 * 64) 64 [] false := by
  unfold Block.issueRead
  rw [pieces_line]
  rfl

theorem Block.chanOnly_ask (m : Sent) (port : Nat) (kind : ReqKind) (pur : Purpose) (part addr len : Nat) (data : Bytes) (again : Bool) :
    b.ChanOnly ch ((b.put m).await port kind pur part addr len data again) := .of_ports rfl

theorem Block.chan_ask (m : Sent) (port : Nat) (kind : ReqKind) (pur : Purpose) (part addr len : Nat) (data : Bytes) (again : Bool)
    (j : Nat) : ((b.put m).await port kind pur part addr len data again).chan j = b.chan j := rfl

/-- One piece of a relaxed write goes out. -/
def Block.putPiece (port part ring addr : Nat) (data : Bytes) (pur : Purpose) (b : Block) (x : Nat × Nat) : Block :=
  (b.put (.write port part ring x.1 false (slice (x.1 - addr) x.2 data))).await port .write pur part x.1 x.2 [] false

theorem Block.putPieces_spec (port part ring addr : Nat) (data : Bytes) (pur : Purpose) (l : List (Nat × Nat)) (b : Block) :
    let b' := l.foldl (Block.putPiece port part ring addr data pur) b
    b'.bus = b.bus ++ l.map (fun x => .write port part ring x.1 false (slice (x.1 - addr) x.2 data)) ∧
      ((∃ x ∈ b.mport.outst, x.purpose = pur) ∨ l ≠ [] → ∃ x ∈ b'.mport.outst, x.purpose = pur) ∧
      b' = { b with mport := b'.mport, bus := b'.bus } := by
  induction l generalizing b with
  | nil => exact ⟨(List.append_nil _).symm, fun h => h.resolve_right fun hne => hne rfl, rfl⟩
  | cons x l ih =>
    have hone : (b.putPiece port part ring addr data pur x).bus =
      b.bus ++ [.write port part ring x.1 false (slice (x.1 - addr) x.2 data)] := rfl
    have hreq : ∃ y ∈ (b.putPiece port part ring addr data pur x).mport.outst, y.purpose = pur :=
      ⟨_, List.mem_append_right _ (List.mem_singleton.2 rfl), rfl⟩
    obtain ⟨hbus, hout, honly⟩ := ih (b.putPiece port part ring addr data pur x)
    refine ⟨?_, fun _ => hout (.inl hreq), ?_⟩
    · exact hbus.trans ((congrArg (· ++ _) hone).trans (List.append_assoc _ _ _))
    · exact honly.trans rfl

/-- A range that is not empty has a piece. -/
theorem pieces_ne_nil (addr : Nat) {len : Nat} (h : 0 < len) : pieces addr len ≠ [] := by
  show piecesAux (_ + 3 + 1) addr len ≠ []
  rw [piecesAux, if_neg (Nat.ne_of_gt h)]
  exact List.cons_ne_nil _ _

/-- A write goes out piece by piece, and is outstanding. -/
theorem Block.issueWrite_spec (port part ring addr : Nat) (data : Bytes) (pur : Purpose) (hdata : 0 < data.length) :
    (b.issueWrite port part ring addr data pur).bus =
      b.bus ++ (pieces addr data.length).map (fun x => .write port part ring x.1 false (slice (x.1 - addr) x.2 data)) ∧
      (∃ x ∈ (b.issueWrite port part ring addr data pur).mport.outst, x.purpose = pur) ∧
      b.issueWrite port part ring addr data pur = { b with
        mport := (b.issueWrite port part ring addr data pur).mport
        bus := (b.issueWrite port part ring addr data pur).bus } := by
  obtain ⟨hbus, hout, honly⟩ := Block.putPieces_spec port part ring addr data pur (pieces addr data.length) b
  exact ⟨hbus, hout (.inr (pieces_ne_nil addr hdata)), honly⟩

theorem Block.chanWriting_iff : b.chanWriting ch = true ↔ ∃ x ∈ b.mport.outst, ∃ m, x.purpose = .chanWrite ch m := by
  unfold Block.chanWriting
  rw [List.any_eq_true]
  refine exists_congr fun x => and_congr_right fun _ => ?_
  cases x.purpose <;> simp

/-! ## One chunk -/

theorem ChanRun.chunkCount_of_one (hpos : 0 < r.count) (hle : r.count ≤ 4096) : r.chunkCount = 1 := by
  show (r.count + 4096 - 1) / 4096 = 1
  omega

/-- A transfer of at most one chunk copies that chunk. -/
theorem Channel.order_of_one {c : Channel} (hpos : 0 < r.count) (hle : r.count ≤ 4096) : c.order r = [0] := by
  unfold Channel.order
  rw [ChanRun.chunkCount_of_one hpos hle]
  exact ite_self _

/-- The pieces of a single range that all its bytes take. -/
theorem cutRanges_whole (a : Nat) {n : Nat} (hpos : 0 < n) : cutRanges [(a, n)] 0 n = [(a, n)] := by
  simp [cutRanges, Nat.ne_of_gt hpos]

/-- Nothing more is asked for once every chunk has been. -/
theorem Block.askChunks_of_asked (hrun : (b.chan ch).run = some r)
    (hasked : ((b.chan ch).order r).find? (fun m => !r.asked.contains m) = none) (fuel : Nat) : Block.askChunks ch fuel b = b := by
  cases fuel with
  | zero => rfl
  | succ fuel =>
    unfold Block.askChunks
    simp only [hrun, hasked, ite_self]

theorem Block.chan_modRun (f : ChanRun → ChanRun) : (b.modRun ch f).chan ch = { b.chan ch with run := (b.chan ch).run.map f } := by
  unfold Block.modRun
  rw [Block.chan_modChan, if_pos rfl]

theorem Block.chanOnly_modRun (f : ChanRun → ChanRun) : b.ChanOnly ch (b.modRun ch f) := Block.chanOnly_modChan _

/-- The run of a contiguous transfer of one chunk asks for it. -/
theorem Block.startChunks_of_one (hrun : (b.chan ch).run = some r) (hpos : 0 < r.count) (hle : r.count ≤ 4096)
    (hasked : r.asked = []) (hwritten : r.written = []) (hsel : r.srcSel = 0) (hlist : r.srcList = []) :
    b.startChunks ch = (b.modRun ch fun r => { r with asked := r.asked ++ [0] }).issueRead (b.chan ch).port (b.chan ch).part 0xFFFF
      r.src r.count (.chanRead ch 0) := by
  let asked := b.modRun ch fun r => { r with asked := r.asked ++ [0] }
  let read := asked.issueRead (b.chan ch).port (b.chan ch).part 0xFFFF r.src r.count (.chanRead ch 0)
  have hread : (read.chan ch).run = some { r with asked := [0] } := by
    rw [Block.chan_issueRead, Block.chan_modRun, hrun]
    show some { r with asked := r.asked ++ [0] } = _
    rw [hasked]
    rfl
  have hnext : ((b.chan ch).order r).find? (fun m => !r.asked.contains m) = some 0 := by
    rw [Channel.order_of_one hpos hle, hasked]
    rfl
  have hlen : r.chunkLen 0 = r.count := Nat.min_eq_right hle
  have hsources : cutRanges r.sources (4096 * 0) (r.chunkLen 0) = [(r.src, r.count)] := by
    unfold ChanRun.sources
    rw [hlen, hlist]
    exact cutRanges_whole r.src hpos
  have hroom : ¬ 4 ≤ r.asked.length - r.written.length := by simp [hasked]
  have hone : Block.askChunks ch (r.chunkCount + 1) b = Block.askChunks ch r.chunkCount read := by
    rw [Block.askChunks]
    simp only [hrun, hnext, hsel, ne_eq, not_true_eq_false, if_false, hsources, List.foldl_cons, List.foldl_nil]
    exact if_neg hroom
  have hrest : Block.askChunks ch r.chunkCount read = read := by
    refine Block.askChunks_of_asked hread ?_ _
    rw [Channel.order_of_one (r := { r with asked := [0] }) hpos hle]
    rfl
  have hdone : read.finishChunks ch = read := by
    unfold Block.finishChunks
    simp only [hread]
    refine if_pos ?_
    rw [ChanRun.chunkCount_of_one (r := { r with asked := [0] }) hpos hle, hwritten]
    rfl
  unfold Block.startChunks
  simp only [hrun]
  rw [hone, hrest, hdone]

/-- The one chunk of a transfer is written, and its writes are outstanding. -/
theorem Block.writeChunk_of_one {data : Bytes} (hsel : r.dstSel = 0) (hlist : r.dstList = [])
    (hcount : r.count = data.length) (hpos : 0 < data.length) (hswap : (b.chan ch).swap = 0) :
    b.writeChunk ch r 0 data = (b.issueWrite (b.chan ch).port (b.chan ch).part 0xFFFF r.dst data (.chanWrite ch 0)).modRun ch
      fun r' => { r' with written := r'.written ++ [0], lastWrite := r.dst + data.length - 1 } := by
  have hout : swapUnits (b.chan ch).swap data = data := by rw [hswap]; rfl
  have htargets : cutRanges r.targets (4096 * 0) data.length = [(r.dst, data.length)] := by
    unfold ChanRun.targets
    rw [hlist, hcount]
    exact cutRanges_whole r.dst hpos
  have hlay : layOut [(r.dst, data.length)] data = [(r.dst, data)] := by
    rw [layOut, if_neg (by simpa using List.ne_nil_of_length_pos hpos), List.take_length, List.drop_length]
    rfl
  unfold Block.writeChunk
  simp only [hout, htargets, hsel, ne_eq, not_true_eq_false, if_false, hlay, List.foldl_cons, List.foldl_nil, List.getLast?_singleton]

/-! ## START -/

theorem exec_muleStart {s : State} {data : BitVec 64} (hup : s.blk.mode.porstLow = false) (hch : ch < 48)
    (hstart : data.getLsbD 1 = false) :
    exec (.muleStart ch 0 data) s = .next { s with blk := s.blk.okWrite.muleStart ch (data ||| 1) } := by
  show s.run (fun b => b.chanWriteBy ch 0 0x18 fun b => b.muleCtl ch (data ||| 1)) = _
  refine next_congr ?_
  refine (if_neg (by simp [hup])).trans ((if_pos ⟨rfl, hch⟩).trans ?_)
  show s.blk.okWrite.muleCtl ch (data ||| 1) = _
  unfold Block.muleCtl
  rw [if_neg (by simpa using hstart), if_pos (by simp)]

theorem Block.chanCtl_of_idle (hidle : (b.chan ch).run = none) (data : BitVec 64) :
    let d := data.toNat
    (b.chanCtl ch data).chan ch = { b.chan ch with
      srcSg := bit d 2, dstSg := bit d 3, swap := field d 6 4, irqEn := bit d 8, vector := field d 29 16, part := field d 43 32 } := by
  unfold Block.chanCtl
  rw [Block.chan_modChan, if_pos rfl, if_neg (by simp [hidle])]

theorem Block.run_chanCtl (data : BitVec 64) : ((b.chanCtl ch data).chan ch).run = (b.chan ch).run := by
  unfold Block.chanCtl
  rw [Block.chan_modChan, if_pos rfl]
  split <;> rfl

theorem Block.chanOnly_chanCtl (data : BitVec 64) : b.ChanOnly ch (b.chanCtl ch data) := Block.chanOnly_modChan _

/-- A transfer without lists, vector or swap whose ranges lie in memory begins at once. -/
theorem Block.startChan_of_plain {c : Channel} (hc : b.chan ch = c) (hsrcSg : c.srcSg = false) (hdstSg : c.dstSg = false)
    (hswap : c.swap = 0) (hirq : c.irqEn = false) (hpart : b.enabled c.part = true)
    (hsrc : c.src.toNat + c.count.toNat ≤ 2 ^ 64) (hdst : c.dst.toNat + c.count.toNat ≤ 2 ^ 64) :
    ∃ down, b.startChan ch 0 0 = (b.modChan ch fun c' => { c' with
      done := false, err := false, disabled := false, port := b.pickPort, descending := down
      run := some { src := c.src.toNat, dst := c.dst.toNat, count := c.count.toNat, listsRead := true } }).startChunks ch := by
  refine ⟨!c.srcSg && !c.dstSg && (0 : Nat) == 0 && decide (c.src.toNat < c.dst.toNat) &&
    decide (c.dst.toNat < c.src.toNat + c.count.toNat), ?_⟩
  have hnopass : ∀ a n : Nat, a + n ≤ 2 ^ 64 → ¬ (((0 : Nat) == 0 && rangePasses a n) = true) := by
    intro a n h
    simp only [rangePasses, beq_self_eq_true, Bool.true_and, Bool.and_eq_true, decide_eq_true_eq]
    omega
  have hcause : ∀ f : Channel → Channel, (f c).part = c.part → (f c).swap = 0 → (f c).srcSg = false → (f c).dstSg = false →
      (f c).irqEn = false → (b.modChan ch f).startCause ch = none := by
    intro f hfpart hfswap hfsrc hfdst hfirq
    have hunit : (f c).count.toNat % swapUnit 0 = 0 := Nat.mod_one _
    have hen : (b.modChan ch f).enabled c.part = true := hpart
    unfold Block.startCause
    simp only [Block.chan_modChan, if_true, hc, hfpart, hfswap, hfsrc, hfdst, hfirq, hunit, hen]
    rfl
  unfold Block.startChan
  simp only [hc]
  rw [hcause _ rfl hswap hsrcSg hdstSg hirq]
  simp only [hsrcSg, hdstSg]
  rw [if_neg (by simp), if_neg (hnopass _ _ hsrc), if_neg (hnopass _ _ hdst)]
  rfl

/-- START of a transfer of at most one chunk reads its source. -/
theorem Block.muleStart_of_one {c : Channel} {data : BitVec 64} (hc : b.chan ch = c) (hidle : c.run = none)
    (hmode : b.mode.mode.copies = true) (hremoved : c.removed = false) (hsrcSg : bit data.toNat 2 = false)
    (hdstSg : bit data.toNat 3 = false) (hswap : field data.toNat 6 4 = 0) (hirq : bit data.toNat 8 = false)
    (hpart : b.enabled (field data.toNat 43 32) = true) (hpos : 0 < c.count.toNat) (hle : c.count.toNat ≤ 4096)
    (hsrc : c.src.toNat + c.count.toNat ≤ 2 ^ 64) (hdst : c.dst.toNat + c.count.toNat ≤ 2 ^ 64) :
    let b' := b.muleStart ch data
    b.ChanOnly ch b' ∧
      b'.bus = b.bus ++ ((pieces c.src.toNat c.count.toNat).map fun x =>
        .read b.pickPort (field data.toNat 43 32) 0xFFFF false x.1 x.2) ∧
      (b'.chan ch).done = false ∧ (b'.chan ch).err = false ∧ (b'.chan ch).part = field data.toNat 43 32 ∧
      (b'.chan ch).count = c.count ∧
      (b'.chan ch).run = some
        { src := c.src.toNat, dst := c.dst.toNat, count := c.count.toNat, listsRead := true, asked := [0] } := by
  obtain ⟨w, hw⟩ : ∃ w, w = b.chanCtl ch data := ⟨_, rfl⟩
  have hwonly : b.ChanOnly ch w := by rw [hw]; exact Block.chanOnly_chanCtl data
  have hwc := Block.chanCtl_of_idle (b := b) (ch := ch) (hc ▸ hidle) data
  rw [← hw, hc] at hwc
  have hwpart : w.enabled (field data.toNat 43 32) = true := by rw [hw]; exact hpart
  have hwport : w.pickPort = b.pickPort := by rw [hw]; rfl
  have hwbus : w.bus = b.bus := by rw [hw]; rfl
  obtain ⟨down, hplain⟩ := Block.startChan_of_plain (b := w) hwc hsrcSg hdstSg hswap hirq hwpart hsrc hdst
  obtain ⟨v, hv⟩ : ∃ v : Block, v = w.modChan ch fun c' => { c' with
      done := false, err := false, disabled := false, port := w.pickPort, descending := down
      run := some { src := c.src.toNat, dst := c.dst.toNat, count := c.count.toNat, listsRead := true } } := ⟨_, rfl⟩
  have hvonly : w.ChanOnly ch v := by rw [hv]; exact Block.chanOnly_modChan _
  have hvc := (congrArg (fun x : Block => x.chan ch) hv).trans ((Block.chan_modChan w ch _ ch).trans (if_pos rfl))
  simp only [hwc] at hvc
  have hvrun : (v.chan ch).run = some
      { src := c.src.toNat, dst := c.dst.toNat, count := c.count.toNat, listsRead := true } := by rw [hvc]
  have hvport : (v.chan ch).port = b.pickPort := by rw [hvc]; exact hwport
  have hvpart : (v.chan ch).part = field data.toNat 43 32 := by rw [hvc]
  have hstart : b.muleStart ch data = v.startChunks ch := by
    unfold Block.muleStart
    rw [if_pos (by simp [hc, hidle, hmode, hremoved]), ← hw, hplain, ← hv]
  have hone := Block.startChunks_of_one hvrun hpos hle rfl rfl rfl rfl
  rw [hvport, hvpart] at hone
  obtain ⟨u, hu⟩ : ∃ u, u = v.modRun ch fun r => { r with asked := r.asked ++ [0] } := ⟨_, rfl⟩
  have huonly : v.ChanOnly ch u := by rw [hu]; exact Block.chanOnly_modRun _
  have hubus : u.bus = b.bus := by rw [hu, ← hwbus, hv]; rfl
  have huc : u.chan ch = { v.chan ch with run := (v.chan ch).run.map fun r => { r with asked := r.asked ++ [0] } } := by
    rw [hu]
    exact Block.chan_modRun _
  rw [hvrun] at huc
  intro b'
  have hb' : b' = u.issueRead b.pickPort (field data.toNat 43 32) 0xFFFF c.src.toNat c.count.toNat (.chanRead ch 0) := by
    rw [hu]
    exact hstart.trans hone
  have hchan : b'.chan ch = u.chan ch := by rw [hb']; exact Block.chan_issueRead _ _ _ _ _ _ _
  refine ⟨?_, ?_, ?_⟩
  · rw [hb']
    exact ((hwonly.trans hvonly).trans huonly).trans (Block.chanOnly_issueRead _ _ _ _ _ _)
  · rw [hb', (Block.issueRead_spec _ _ _ _ _ _).1, hubus]
  · rw [hchan, huc, hvc]
    exact ⟨rfl, rfl, rfl, rfl, rfl⟩

/-- START where a transfer runs, the mode copies nothing, or the window has gone. -/
theorem Block.muleStart_of_refused {data : BitVec 64}
    (h : (b.chan ch).run.isSome = true ∨ b.mode.mode.copies = false ∨ (b.chan ch).removed = true) :
    b.muleStart ch data = (b.chanCtl ch data).modChan ch fun c => { c with startRefused := true } := by
  unfold Block.muleStart
  refine if_neg ?_
  rintro ⟨hidle, hmode, hremoved⟩
  rcases h with h | h | h
  · rw [Option.isNone_iff_eq_none] at hidle
    simp [hidle] at h
  · simp [h] at hmode
  · simp [h] at hremoved

/-! ## DISABLE -/

/-- DISABLE of a transfer: it stops once nothing of it is outstanding. -/
theorem Block.muleDisable_of_run {c : Channel} {data : BitVec 64} (hc : b.chan ch = c) (hrun : c.run = some r)
    (hstopped : r.stopped = false) :
    let b' := b.muleDisable ch data
    b.ChanOnly ch b' ∧ b'.bus = b.bus ∧ b'.chan ch = { c with
      busyWrite := true, disabled := true, src := Config.undefinedReg b.free 0, dst := Config.undefinedReg b.free 1
      count := (Config.undefinedReg b.free 2).setWidth 32
      run := if b.mport.outst.any fun q => q.purpose.ofChan ch then some { r with stopped := true } else none } := by
  have hctl : (b.chanCtl ch data).chan ch = { c with busyWrite := true } := by
    unfold Block.chanCtl
    rw [Block.chan_modChan, if_pos rfl, hc, if_pos (by simp [hrun])]
  have hstop : b.muleDisable ch data = (b.chanCtl ch data).stopChan ch := by
    unfold Block.muleDisable
    simp only [hc, hrun, hstopped]
    rfl
  intro b'
  have hrun' : ((b.chanCtl ch data).chan ch).run = some r := by rw [hctl]; exact hrun
  have hb' : b' = ({ b.chanCtl ch data with free := b.free + 1 } : Block).modChan ch fun c => { c with
      disabled := true, src := Config.undefinedReg b.free 0, dst := Config.undefinedReg b.free 1
      count := (Config.undefinedReg b.free 2).setWidth 32
      run := if b.mport.outst.any fun q => q.purpose.ofChan ch then c.run.map (fun r => { r with stopped := true }) else none } := by
    refine hstop.trans ?_
    unfold Block.stopChan
    simp only [hrun']
    rfl
  have hchan : ({ b.chanCtl ch data with free := b.free + 1 } : Block).chan ch = { c with busyWrite := true } := hctl
  refine ⟨?_, by rw [hb']; rfl, ?_⟩
  · rw [hb']
    exact ((Block.chanOnly_chanCtl data).trans (.of_ports rfl)).trans (Block.chanOnly_modChan _)
  · rw [hb', Block.chan_modChan, if_pos rfl, hchan]
    simp only [hrun, Option.map_some]


/-! ## The chunk comes back -/

/-- The data of a transfer's one chunk are written. -/
theorem Block.chunkReturn_of_one {c : Channel} {bs : Bytes} (hc : b.chan ch = c) (hrun : c.run = some r) (hstopped : r.stopped = false)
    (hdstSel : r.dstSel = 0) (hdstList : r.dstList = []) (hasked : r.asked = [0]) (hgot : r.got = []) (hwritten : r.written = [])
    (hcount : r.count = bs.length) (hpos : 0 < bs.length) (hle : bs.length ≤ 4096) (hswap : c.swap = 0)
    (hawaits : b.awaits (.chanRead ch 0) = true) :
    let b' := b.chunkReturn ch 0 bs
    b.ChanOnly ch b' ∧
      b'.bus = b.bus ++ ((pieces r.dst bs.length).map fun x => .write c.port c.part 0xFFFF x.1 false (slice (x.1 - r.dst) x.2 bs)) ∧
      b'.chan ch = { c with run := some { r with got := [(0, bs)], written := [0], lastWrite := r.dst + bs.length - 1 } } := by
  have hrpos : 0 < r.count := hcount ▸ hpos
  have hrle : r.count ≤ 4096 := hcount ▸ hle
  have horder : ∀ (c : Channel) (r' : ChanRun), r'.count = r.count → c.order r' = [0] := fun c r' h =>
    Channel.order_of_one (h ▸ hrpos) (h ▸ hrle)
  obtain ⟨v, hv⟩ : ∃ v, v = (b.arrived (.chanRead ch 0)).modRun ch fun r => { r with got := r.got ++ [(0, bs)] } := ⟨_, rfl⟩
  have hvonly : b.ChanOnly ch v := by
    rw [hv]
    exact (Block.ChanOnly.of_ports rfl).trans (Block.chanOnly_modRun _)
  have hvc : v.chan ch = { c with run := some { r with got := [(0, bs)] } } := by
    rw [hv, Block.chan_modRun]
    rw [show (b.arrived (.chanRead ch 0)).chan ch = c from hc, hrun, Option.map_some, hgot]
    rfl
  have hvrun : (v.chan ch).run = some { r with got := [(0, bs)] } := by rw [hvc]
  have hvbus : v.bus = b.bus := by rw [hv]; rfl
  obtain ⟨u, hu⟩ : ∃ u, u = v.issueWrite c.port c.part 0xFFFF r.dst bs (.chanWrite ch 0) := ⟨_, rfl⟩
  obtain ⟨hubus, huout, hurest⟩ := Block.issueWrite_spec (b := v) c.port c.part 0xFFFF r.dst bs (.chanWrite ch 0) hpos
  rw [← hu] at hubus huout hurest
  have huc : u.chan ch = v.chan ch := Block.chan_congr ((congrArg Block.mule hurest).trans rfl) ch
  obtain ⟨w, hw⟩ : ∃ w, w = u.modRun ch fun r' => { r' with written := r'.written ++ [0], lastWrite := r.dst + bs.length - 1 } :=
    ⟨_, rfl⟩
  have hwc : w.chan ch = { c with run := some { r with got := [(0, bs)], written := [0], lastWrite := r.dst + bs.length - 1 } } := by
    rw [hw, Block.chan_modRun, huc, hvc, Option.map_some, hwritten]
    rfl
  have hwrun := congrArg Channel.run hwc
  have hwrite : v.writeChunk ch { r with got := [(0, bs)] } 0 bs = w := by
    rw [hw, hu]
    refine (Block.writeChunk_of_one (r := { r with got := [(0, bs)] }) hdstSel hdstList hcount hpos ?_).trans ?_
    · rw [hvc]
      exact hswap
    · rw [hvc]
  have hnone : ((w.chan ch).order { r with got := [(0, bs)], written := [0], lastWrite := r.dst + bs.length - 1 }).find?
      (fun m => !([0] : List Nat).contains m) = none :=
    (congrArg (List.find? _) (horder _ { r with got := [(0, bs)], written := [0], lastWrite := r.dst + bs.length - 1 } rfl)).trans rfl
  have hrest : ∀ n, Block.drainChunks ch n w = w := by
    intro n
    cases n with
    | zero => rfl
    | succ n =>
      unfold Block.drainChunks
      simp only [hwrun, hnone]
  have hdrain : Block.drainChunks ch 4 v = w := by
    have hfirst : ((v.chan ch).order { r with got := [(0, bs)] }).find? (fun m => !r.written.contains m) = some 0 := by
      rw [horder _ { r with got := [(0, bs)] } rfl, hwritten]
      rfl
    rw [Block.drainChunks]
    simp only [hvrun, hfirst]
    exact (congrArg (Block.drainChunks ch 3) hwrite).trans (hrest 3)
  have hask : Block.askChunks ch (r.chunkCount + 1) w = w := by
    refine Block.askChunks_of_asked hwrun ?_ _
    rw [horder _ { r with got := [(0, bs)], written := [0], lastWrite := r.dst + bs.length - 1 } rfl]
    show [0].find? (fun m => !r.asked.contains m) = none
    rw [hasked]
    rfl
  have hwriting : w.chanWriting ch = true := by
    obtain ⟨x, hx, hpur⟩ := huout
    refine Block.chanWriting_iff.2 ⟨x, ?_, 0, hpur⟩
    rw [hw]
    exact hx
  have hfinish : w.finishChunks ch = w := by
    unfold Block.finishChunks
    simp only [hwrun, hwriting, Bool.or_true, if_true]
  have hlen : r.chunkLen 0 = bs.length := (Nat.min_eq_right hrle).trans hcount
  have hwhole : b.chunkReturn ch 0 bs = w := by
    unfold Block.chunkReturn
    simp only [hc, hrun, hawaits, hstopped, hlen, Bool.not_true, bne_self_eq_false, Bool.and_false, if_false, Bool.false_eq_true, ← hv, hdrain]
    rw [hask, hfinish]
  intro b'
  rw [show b' = w from hwhole]
  refine ⟨?_, ?_, hwc⟩
  · refine (hvonly.trans (.of_ports ?_)).trans (hw ▸ Block.chanOnly_modRun _)
    exact hurest.trans (by rw [hurest])
  · rw [hw]
    exact hubus.trans (congrArg (· ++ _) hvbus)

/-! ## Accepted writes -/

theorem Block.chanAccepted_of_run {c : Channel} (hc : b.chan ch = c) (hrun : c.run = some r) (hstopped : r.stopped = false) (n : Nat) :
    b.chanAccepted ch n = (b.modChan ch fun c => { c with count := c.count - BitVec.ofNat 32 n }).finishChunks ch := by
  unfold Block.chanAccepted
  simp only [hc, hrun, hstopped]
  rfl

theorem Block.chanAccepted_of_stopped {c : Channel} (hc : b.chan ch = c) (hrun : c.run = some r) (hstopped : r.stopped = true) (n : Nat)
    (hquiet : ∀ x ∈ b.mport.outst, x.purpose.ofChan ch = false) :
    b.chanAccepted ch n = b.modChan ch fun c => { c with run := none } := by
  have hbusy : (b.mport.outst.any fun q => q.purpose.ofChan ch) = false :=
    List.any_eq_false.2 fun x hx => by rw [hquiet x hx]; exact Bool.false_ne_true
  unfold Block.chanAccepted Block.settleChan
  simp only [hc, hrun, hstopped, hbusy]
  rfl

theorem Block.finishChunks_of_writing (hwriting : b.chanWriting ch = true) : b.finishChunks ch = b := by
  unfold Block.finishChunks
  simp only [hwriting, Bool.or_true, if_true]
  cases (b.chan ch).run <;> rfl

/-- With the last write accepted the line of the last byte is read back. -/
theorem Block.finishChunks_of_written {c : Channel} (hc : b.chan ch = c) (hrun : c.run = some r) (hwritten : r.written.length = r.chunkCount)
    (hreadback : r.readback = false) (hquiet : b.chanWriting ch = false) (hsel : r.dstSel = 0) (hcount : r.count ≠ 0) :
    b.finishChunks ch = ((b.put (.read c.port c.part 0xFFFF false (r.lastWrite / 64 * 64) 64)).await c.port .read (.chanReadback ch)
      c.part (r.lastWrite / 64 * 64) 64 [] false).modRun ch fun r => { r with readback := true } := by
  unfold Block.finishChunks
  simp only [hc, hrun]
  rw [if_neg (by simp [hwritten, hreadback, hquiet]), if_neg (by simp [hsel, hcount]), Block.issueRead_of_line]

/-! ## The end of a transfer -/

/-- No core waits for a channel of partition 0. -/
theorem Block.blockEnds_of_host (hch : ch < 48) (mcs : Nat) : b.blockEnds ch mcs = b := by
  have huser : b.channelUser ch = none := if_pos hch
  unfold Block.blockEnds
  simp only [huser]

theorem Block.chanComplete_of_quiet (hch : ch < 48) (hirq : (b.chan ch).irqEn = false) :
    b.chanComplete ch = (b.forgetChannel ch).modChan ch fun c => { c with done := true, count := 0, run := none } := by
  have hoff : (((b.forgetChannel ch).modChan ch fun c => { c with done := true, count := 0, run := none }).chan ch).irqEn = false := by
    rw [Block.chan_modChan, if_pos rfl]
    exact hirq
  unfold Block.chanComplete
  rw [Block.blockEnds_of_host hch]
  exact if_neg fun h => Bool.false_ne_true (hoff.symm.trans (Bool.and_eq_true_iff.1 h).2)

theorem Block.chanError_of_host (hch : ch < 48) (cause addr : Nat) :
    b.chanError ch cause addr = ((b.forgetChannel ch).tick).modChan ch fun c => { c with
      err := true, cause := cause, errAddr := addr, run := none, count := (Config.undefinedReg b.free 2).setWidth 32 } :=
  Block.blockEnds_of_host hch _

/-! ## Lists -/

/-- Lists that fail a test, other than that of the total, end the transfer with their cause. -/
theorem Block.chanLists_of_fault {c : Channel} {srcL dstL : Bytes} {cause a : Nat} (hc : b.chan ch = c) (hrun : c.run = some r)
    (hstopped : r.stopped = false) (hread : r.listsRead = false) (hawaits : b.awaits (.chanSrcList ch) = true)
    (hfault : listsFault ((if c.srcSg then [(r.src, srcL)] else []) ++ (if c.dstSg then [(r.dst, dstL)] else [])) r.count = some (cause, a))
    (hcause : cause ≠ 7) :
    b.chanLists ch srcL dstL = ((b.arrived (.chanSrcList ch)).arrived (.chanDstList ch)).chanError ch cause a := by
  unfold Block.chanLists
  simp only [hc, hrun, hread, hawaits, hstopped, hfault, Bool.true_or, Bool.not_true, Bool.or_false, if_false, Bool.false_eq_true]
  split
  · rename_i heq _
    exact absurd (congrArg Prod.fst (Option.some.inj heq)) hcause
  · rename_i heq _
    rw [Option.some.injEq, Prod.mk.injEq] at heq
    rw [heq.1, heq.2]
  · rename_i heq _
    exact absurd heq (Option.some_ne_none _)
  · rename_i heq _
    exact absurd heq (Option.some_ne_none _)

/-- A source list that passes begins the transfer. -/
theorem Block.chanLists_of_source {c : Channel} {srcL : Bytes} (hc : b.chan ch = c) (hrun : c.run = some r)
    (hstopped : r.stopped = false) (hread : r.listsRead = false) (hsrcSg : c.srcSg = true) (hdstSg : c.dstSg = false)
    (hawaits : b.awaits (.chanSrcList ch) = true) (hpass : listsFault [(r.src, srcL)] r.count = none) (hdst : r.dst + r.count ≤ 2 ^ 64) :
    b.chanLists ch srcL [] = ((((b.arrived (.chanSrcList ch)).arrived (.chanDstList ch)).modRun ch fun r => { r with
      listsRead := true, srcList := ((listToEnd (listEntries srcL)).getD []).map fun e => (e.1, e.2.1), dstList := [] }).startChunks ch) := by
  have hnopass : rangePasses r.dst r.count = false := by
    simp only [rangePasses, Bool.and_eq_false_iff, decide_eq_false_iff_not]
    omega
  unfold Block.chanLists
  simp only [hc, hrun, hread, hawaits, hstopped, hsrcSg, hdstSg, hnopass, Bool.true_or, Bool.not_true, Bool.or_false, if_false,
    Bool.false_eq_true, if_true, List.append_nil, hpass, Bool.and_false, Bool.false_and]


/-! ## The block of a core -/

/-- The channel of a core takes the block that waits first. -/
theorem Block.blockStart_of_first {u : Nat} {x : Fin 8} {blk : Bytes} {rest : List (Fin 8 × Bytes)}
    (hblocks : (b.core u).blocks = (x, blk) :: rest) (hbusy : (b.core u).busy = false) (hserving : b.inService (coreUnit u) = true)
    (hidle : (b.chan (b.fwChan u)).run = none) (hmode : b.mode.mode.copies = true) :
    let f := sidesOf blk
    let b' := (b.modCore u fun k => { k with busy := true }).modChan (b.fwChan u) fun y => { y with
      src := BitVec.ofNat 64 f.src, dst := BitVec.ofNat 64 f.dst, count := BitVec.ofNat 32 f.count
      srcSg := f.srcSg, dstSg := f.dstSg, swap := f.swap, irqEn := false, part := (b.cx u x).part }
    b.blockStart u = b'.startChan (b.fwChan u) f.srcSel f.dstSel := by
  have hcx : ((b.modCore u fun k => { k with busy := true }).cx u x).part = (b.cx u x).part := by
    unfold Block.cx
    rw [Block.core_modCore, if_pos rfl]
  unfold Block.blockStart
  simp only [hblocks, hbusy, hserving, hidle, hmode, hcx]
  rfl


end

/-! ## The obligation -/

/-- Settles O46: each command of a raw channel, by what it does to the channel and what it sends. -/
theorem rawChannels : Obligations.RawChannels := by
  unfold Obligations.RawChannels
  intro s ch data hch hup b c d only part
  refine ⟨?_, ?_, ?_, ?_, ?_, ?_, ?_, ?_, ?_⟩
  · intro hidle hmode hremoved hbit hsrcSg hdstSg hswap hirq hpart hpos hle hsrc hdst
    obtain ⟨honly, hbus, hdone, herr, hcpart, hcount, hrun⟩ := Block.muleStart_of_one (b := b.okWrite) (ch := ch) (data := data ||| 1)
      (c := c) rfl hidle hmode hremoved hsrcSg hdstSg hswap hirq hpart hpos hle hsrc hdst
    have hok : Block.ChanOnly ch b b.okWrite := .of_ports rfl
    exact ⟨_, exec_muleStart hup hch hbit, (hok.trans honly).state, hbus, hdone, herr, hcpart, hcount, hrun⟩
  · intro hbit hrefused
    have hb := Block.muleStart_of_refused (b := b.okWrite) (ch := ch) (data := data ||| 1) hrefused
    have hok : Block.ChanOnly ch b b.okWrite := .of_ports rfl
    have honly := (hok.trans (Block.chanOnly_chanCtl (data ||| 1))).trans (Block.chanOnly_modChan fun c => { c with startRefused := true })
    refine ⟨_, exec_muleStart hup hch hbit, ?_⟩
    rw [hb]
    refine ⟨honly.state, rfl, ?_, ?_⟩
    · rw [Block.chan_modChan, if_pos rfl]
    · rw [Block.chan_modChan, if_pos rfl]
      exact Block.run_chanCtl _
  · intro r bs hrun hstopped _ _ hdstSel _ hdstList hasked hgot hwritten hcount hpos hle hswap hawaits
    obtain ⟨honly, hbus, hchan⟩ := Block.chunkReturn_of_one (b := b) (c := c) rfl hrun hstopped hdstSel hdstList hasked hgot hwritten
      hcount hpos hle hswap hawaits
    have hcount' := congrArg Channel.count hchan
    have hrun' := congrArg Channel.run hchan
    exact ⟨_, rfl, honly.state, hbus, hcount', hrun'⟩
  · intro req q m r hfind hkind hpurpose hrun
    have hid : q.id = req := by simpa using List.find?_some hfind
    subst hid
    have hexec : exec (.writeResponse q.port q.id) s = .next { s with blk := (b.retireReq q).chanAccepted ch q.len } :=
      (exec_writeResponse hup hfind hkind).trans (next_congr (by unfold Block.acceptedOutcome; rw [hpurpose]))
    obtain ⟨v, hv⟩ : ∃ v : Block, v = b.retireReq q := ⟨_, rfl⟩
    rw [← hv] at hexec
    have hvonly : Block.ChanOnly ch b v := .of_ports (by rw [hv]; rfl)
    have hvc : v.chan ch = c := by rw [hv]; rfl
    have hvbus : v.bus = b.bus := by rw [hv]; rfl
    have hmem : ∀ x, x ∈ v.mport.outst ↔ x ∈ b.mport.outst ∧ x.id ≠ q.id := by
      intro x
      rw [hv]
      exact List.mem_filter.trans (and_congr_right fun _ => bne_iff_ne)
    have hcounted : (v.modChan ch fun c => { c with count := c.count - BitVec.ofNat 32 q.len }).chan ch =
        { c with count := c.count - BitVec.ofNat 32 q.len } := by
      rw [Block.chan_modChan, if_pos rfl, hvc]
    refine ⟨fun hstopped hmore => ?_, fun hstopped hreadback hwritten hsel hcount hquiet => ?_, fun hstopped hquiet => ?_⟩
    · have hwriting : (v.modChan ch fun c => { c with count := c.count - BitVec.ofNat 32 q.len }).chanWriting ch = true := by
        obtain ⟨x, hx, hne, k, hpur⟩ := hmore
        exact Block.chanWriting_iff.2 ⟨x, (hmem x).2 ⟨hx, hne⟩, k, hpur⟩
      have hb := (Block.chanAccepted_of_run hvc hrun hstopped q.len).trans (Block.finishChunks_of_writing hwriting)
      refine ⟨_, hexec, ?_⟩
      rw [hb]
      exact ⟨(hvonly.trans (Block.chanOnly_modChan _)).state, hvbus, hcounted⟩
    · have hquiet' : (v.modChan ch fun c => { c with count := c.count - BitVec.ofNat 32 q.len }).chanWriting ch = false := by
        refine Bool.eq_false_iff.2 fun h => ?_
        obtain ⟨x, hx, k, hpur⟩ := Block.chanWriting_iff.1 h
        obtain ⟨hx, hne⟩ := (hmem x).1 hx
        exact hquiet x hx hne k hpur
      have hb := (Block.chanAccepted_of_run hvc hrun hstopped q.len).trans
        (Block.finishChunks_of_written hcounted hrun hwritten hreadback hquiet' hsel hcount)
      refine ⟨_, hexec, ?_⟩
      rw [hb]
      refine ⟨(((hvonly.trans (Block.chanOnly_modChan _)).trans (Block.chanOnly_ask _ _ _ _ _ _ _ _ _)).trans (Block.chanOnly_modRun _)).state, ?_, ?_, ?_⟩
      · exact congrArg (· ++ _) hvbus
      · exact List.any_eq_true.2 ⟨_, List.mem_append_right _ (List.mem_singleton.2 rfl), beq_self_eq_true _⟩
      · rw [Block.chan_modRun, Block.chan_ask, hcounted]
        simp only [hrun, Option.map_some]
    · have hb := Block.chanAccepted_of_stopped hvc hrun hstopped q.len fun x hx => hquiet x ((hmem x).1 hx).1 ((hmem x).1 hx).2
      refine ⟨_, hexec, ?_⟩
      rw [hb]
      refine ⟨(hvonly.trans (Block.chanOnly_modChan _)).state, hvbus, ?_⟩
      rw [Block.chan_modChan, if_pos rfl, hvc]
  · intro r hrun hstopped hawaits hirq
    have hb : b.chanDone ch = (b.arrived (.chanReadback ch)).chanComplete ch := by
      unfold Block.chanDone
      simp only [show (b.chan ch).run = some r from hrun, hawaits, hstopped]
      rfl
    refine ⟨_, next_congr hb, ?_⟩
    rw [Block.chanComplete_of_quiet (b := b.arrived (.chanReadback ch)) hch hirq]
    refine ⟨((Block.ChanOnly.of_ports rfl).trans (Block.chanOnly_modChan _)).state, rfl, ?_⟩
    rw [Block.chan_modChan, if_pos rfl]
    rfl
  · intro r hrun hstopped
    obtain ⟨honly, hbus, hchan⟩ := Block.muleDisable_of_run (b := b.okWrite) (ch := ch) (data := data ||| 2) (c := c) rfl hrun hstopped
    have hexec : exec (.muleDisable ch 0 data) s = .next { s with blk := b.okWrite.muleDisable ch (data ||| 2) } := by
      show s.run (fun b => b.chanWriteBy ch 0 0x18 fun b => b.muleCtl ch (data ||| 2)) = _
      refine next_congr ((if_neg (by simp [hup])).trans ((if_pos ⟨rfl, hch⟩).trans (if_pos ?_)))
      simp
    have hok : Block.ChanOnly ch b b.okWrite := .of_ports rfl
    refine ⟨_, hexec, (hok.trans honly).state, hbus, ?_⟩
    rw [hchan]
    exact ⟨rfl, rfl, rfl, rfl⟩
  · intro r srcL dstL cause a hrun hstopped hread hawaits hfault hcause
    have hb := Block.chanLists_of_fault (b := b) (c := c) rfl hrun hstopped hread hawaits hfault hcause
    refine ⟨_, next_congr hb, ?_⟩
    rw [Block.chanError_of_host hch]
    refine ⟨((Block.ChanOnly.of_ports rfl).trans (Block.chanOnly_modChan _)).state, rfl, ?_⟩
    rw [Block.chan_modChan, if_pos rfl]
    exact ⟨rfl, rfl, rfl, rfl⟩
  · intro r srcL hrun hstopped hread hsrcSg hdstSg hawaits _ hpass hdst
    exact next_congr (Block.chanLists_of_source (c := c) rfl hrun hstopped hread hsrcSg hdstSg hawaits hpass hdst)
  · intro u x blk rest hblocks hbusy hserving hidle hmode
    have hcore : 188 + u - 188 = u := Nat.add_sub_cancel_left 188 u
    show s.run (fun b => b.blockStart (188 + u - 188)) = _
    rw [hcore]
    exact next_congr (Block.blockStart_of_first hblocks hbusy hserving hidle hmode)

end Sys2Proof.Machine

/-! Resets (O47): what PORST_N, its release and a drained warm reset leave. -/

namespace Sys2Proof.Machine

open Sys2Proof

section
variable {b b' b'' : Block}

/-! ## Units -/

/-- A value read from a table whose values, and whose default, satisfy P. -/
theorem Table.get_of_all {α : Type} {d : α} {P : α → Prop} (hd : P d) {t : Table α} (h : ∀ x ∈ t, P x.2) (k : Nat) : P (Table.get d t k) := by
  induction t with
  | nil => exact hd
  | cons e t ih =>
    unfold Table.get
    split
    · exact h e List.mem_cons_self
    · exact ih fun x hx => h x (List.mem_cons_of_mem _ hx)

/-- After a reset of the compute die every unit is a spare or stays retired. -/
theorem Block.unit_computeReset (f : Fuses) (warm : Bool) (u : Nat) :
    ((Block.computeReset f b warm).unit u).st = .spare ∨ ((Block.computeReset f b warm).unit u).st = .retired := by
  have hunits : (Block.computeReset f b warm).health.units =
      (b.health.units.map fun x => (x.1, Block.computeReset.kept x.2)).filter fun x => x.2 ≠ {} := by
    unfold Block.computeReset
    exact (apply_ite (fun x : Block => x.health.units) _ _ _).trans (ite_self _)
  refine Table.get_of_all (P := fun r : UnitRec => r.st = .spare ∨ r.st = .retired) (.inl rfl) (fun x hx => ?_) u
  rw [hunits] at hx
  obtain ⟨y, _, rfl⟩ := List.mem_map.1 (List.mem_filter.1 hx).1
  show (if y.2.st = .retired then UnitState.retired else .spare) = _ ∨ (if y.2.st = .retired then UnitState.retired else .spare) = _
  by_cases hy : y.2.st = .retired
  · exact .inr (if_pos hy)
  · exact .inl (if_neg hy)

/-- The compute die at its reset values, but for what a reset keeps. -/
theorem Block.computeReset_cleared (f : Fuses) (warm : Bool) :
    let r := Block.computeReset f b warm
    r.rings = [] ∧ r.entries = [] ∧ r.ctxs = [] ∧ r.lanes = {} ∧ r.ox = {} ∧ r.lat = {} ∧ r.keys = {} ∧ r.pay = {} ∧ r.mule = [] ∧
      r.irq = [] ∧ r.hen = {} ∧ r.store = {} ∧ r.sched = {} ∧ r.power = {} ∧ r.sport = {} ∧ r.ownerWrites = [] ∧
      r.time.interval = b.time.interval ∧ r.time.timeValid = false ∧ r.gander = { b.gander with nonce := none, ceremony := none } ∧
      r.mport.outst = [] := by
  have h : Block.computeReset f b warm = _ ∨ Block.computeReset f b warm = _ := ite_eq_or_eq _ _ _
  rcases h with h | h <;> rw [h] <;>
    exact ⟨rfl, rfl, rfl, rfl, rfl, rfl, rfl, rfl, rfl, rfl, rfl, rfl, rfl, rfl, rfl, rfl, rfl, rfl, rfl, rfl⟩

theorem Block.recorder_computeReset (f : Fuses) (warm : Bool) : (Block.computeReset f b warm).recorder = b.recorder := by
  unfold Block.computeReset
  exact (apply_ite Block.recorder _ _ _).trans (ite_self _)

/-- A cold reset keeps neither time, tables of partitions and tags, nor the image. -/
theorem Block.computeReset_cold (f : Fuses) :
    let r := Block.computeReset f b false
    r.time.sched = 0 ∧ r.time.synced = false ∧ r.parts = [] ∧ r.earlyWrites = [] ∧ r.img = {} ∧ 
      r.mode = { mode := if f.factoryOpen then .factory else .configure, releasedAt := b.now, wiping := true } := by
  have h : Block.computeReset f b false = _ ∨ Block.computeReset f b false = _ := ite_eq_or_eq _ _ _
  rcases h with h | h <;> rw [h] <;> exact ⟨rfl, rfl, rfl, rfl, rfl, rfl⟩

/-- What a warm reset keeps. -/
theorem Block.computeReset_warm (f : Fuses) :
    let r := Block.computeReset f b true
    r.time.sched = b.time.sched ∧ r.time.synced = b.time.synced ∧ r.earlyWrites = b.earlyWrites ∧
      r.img = { addr := b.img.addr, loads := b.img.loads } ∧ 
      r.mode = { mode := if f.factoryOpen then .factory else .configure, releasedAt := b.now, wiping := true, warmCount := satAdd 16 b.mode.warmCount 1, handoverFailed := b.mode.handoverFailed } := by
  have h : Block.computeReset f b true = _ ∨ Block.computeReset f b true = _ := ite_eq_or_eq _ _ _
  rcases h with h | h <;> rw [h] <;> exact ⟨rfl, rfl, rfl, rfl, rfl⟩

/-! ## An occurrence of severity 3 before the end of boot -/

/-- From b to b' nothing changes but the sentinel and the recorder. -/
def Block.SentinelOnly (b b' : Block) : Prop := b' = { b with gander := b'.gander, recorder := b'.recorder }

theorem Block.SentinelOnly.trans (h : Block.SentinelOnly b b') (h' : Block.SentinelOnly b' b'') : Block.SentinelOnly b b'' := by
  unfold Block.SentinelOnly at *
  rw [h', h]

theorem Block.OnlyRec.sentinelOnly (h : Block.OnlyRec b b') : Block.SentinelOnly b b' := by
  unfold Block.OnlyRec at h
  unfold Block.SentinelOnly
  rw [h]

theorem RecCopy.powerCycles_counted (c : RecCopy) (kind subject : Nat) : (c.counted kind subject).powerCycles = c.powerCycles := by
  rw [RecCopy.counted_eq]

/-- A record of severity 3 changes the sentinel and the recorder alone, and counts no power cycle. -/
theorem Block.noteHigh_spec (kind subject detail : Nat) :
    b.SentinelOnly (b.noteHigh kind subject detail) ∧
      (b.noteHigh kind subject detail).recorder.copy.powerCycles = b.recorder.copy.powerCycles := by
  have hcommit : ∀ v : Block, b.SentinelOnly v → v.recorder.copy.powerCycles = b.recorder.copy.powerCycles →
      b.SentinelOnly v.startCommit ∧ v.startCommit.recorder.copy.powerCycles = b.recorder.copy.powerCycles :=
    fun v hv hpower => ⟨hv.trans (Block.OnlyRec.sentinelOnly (Block.onlyRec_startCommit v)),
      (congrArg RecCopy.powerCycles v.copy_startCommit).trans hpower⟩
  unfold Block.noteHigh
  refine iteInduction (motive := fun x : Block => b.SentinelOnly x ∧ x.recorder.copy.powerCycles = b.recorder.copy.powerCycles)
    (fun _ => hcommit _ rfl (RecCopy.powerCycles_counted _ _ _)) fun _ => hcommit _ ?_ ?_
  · exact iteInduction (motive := fun x : Block => b.SentinelOnly x) (fun _ => rfl) fun _ => rfl
  · exact iteInduction (motive := fun x : Block => x.recorder.copy.powerCycles = b.recorder.copy.powerCycles)
      (fun _ => RecCopy.powerCycles_counted _ _ _) fun _ => RecCopy.powerCycles_counted _ _ _

/-- Before the end of boot a record changes no mode. -/
theorem Block.note_of_early (kind sev subject detail : Nat) (hmode : (b.noteRec kind sev subject detail).mode.mode.early = true) :
    b.note kind sev subject detail = b.noteRec kind sev subject detail := by
  unfold Block.note
  have hstays : (b.noteRec kind sev subject detail).enterLocked 3 = b.noteRec kind sev subject detail := by
    unfold Block.enterLocked
    cases hm : (b.noteRec kind sev subject detail).mode.mode <;> rw [hm] at hmode
    case operational | maintenance | zeroized => cases hmode
  simp only [hstays, ite_self]

/-- The check of the store at power-up changes the sentinel and the recorder alone. -/
theorem Block.storeCheck_of_early (hmode : b.mode.mode.early = true) :
    b.SentinelOnly b.storeCheck ∧ b.storeCheck.recorder.copy.powerCycles = b.recorder.copy.powerCycles := by
  have hlost : ∀ v : Block, b.SentinelOnly v → v.recorder = b.recorder →
      b.SentinelOnly (v.note 0x0003 3 13 0) ∧ (v.note 0x0003 3 13 0).recorder.copy.powerCycles = b.recorder.copy.powerCycles := by
    intro v hv hrec
    obtain ⟨honly, hpower⟩ := Block.noteHigh_spec (b := v) 0x0003 13 0
    have hwhole := hv.trans honly
    have hearly : (v.noteRec 0x0003 3 13 0).mode.mode.early = true := by
      have hmode' : (v.noteHigh 0x0003 13 0).mode = b.mode := (congrArg Block.mode hwhole).trans rfl
      show (v.noteHigh 0x0003 13 0).mode.mode.early = true
      rw [hmode']
      exact hmode
    rw [Block.note_of_early _ _ _ _ hearly]
    exact ⟨hwhole, hpower.trans (by rw [hrec])⟩
  unfold Block.storeCheck
  refine iteInduction (motive := fun x : Block => b.SentinelOnly x ∧ x.recorder.copy.powerCycles = b.recorder.copy.powerCycles)
    (fun _ => ⟨rfl, rfl⟩) fun _ => ?_
  refine iteInduction (motive := fun x : Block => b.SentinelOnly x ∧ x.recorder.copy.powerCycles = b.recorder.copy.powerCycles)
    (fun _ => ⟨rfl, rfl⟩) fun _ => hlost _ rfl rfl


/-! ## Commands -/

/-- Work has drained when no entry, no request and nothing of a ring is left. -/
theorem Block.warmDrained_of_quiet {f : Fuses} {t0 : Nat} (hwarm : b.mode.warm = some (false, t0)) (hentries : b.entries = [])
    (houtst : b.mport.outst = [])
    (hrings : ∀ x ∈ b.rings, x.2.burst = none ∧ x.2.held = [] ∧ x.2.failedW = [] ∧ x.2.sig = []) :
    b.warmDrained f = if (Block.computeReset f b true).mode.mode = .configure ∧ (Block.computeReset f b true).img.addr ≠ 0
      then (Block.computeReset f b true).startLoad else Block.computeReset f b true := by
  have hcutting : b.mode.cutting.isNone = false := by
    unfold ModeCtl.cutting
    rw [hwarm]
    rfl
  have hquiet : (b.rings.any fun x => x.2.burst.isSome || !x.2.held.isEmpty || !x.2.failedW.isEmpty || !x.2.sig.isEmpty) = false := by
    refine List.any_eq_false.2 fun x hx => ?_
    obtain ⟨hburst, hheld, hfailed, hsig⟩ := hrings x hx
    simp [hburst, hheld, hfailed, hsig]
  unfold Block.warmDrained
  exact if_neg (by simp [hcutting, hentries, houtst, hquiet])

end

/-! ## The obligation -/

/-- Settles O47: what PORST_N brings to its reset values, what its release counts, what a drained warm reset keeps. -/
theorem resets : Obligations.Resets := by
  unfold Obligations.Resets
  intro s b first cleared
  have hclears : ∀ (warm : Bool) (m : ModeCtl) (i : ImageCtl) (r : Recorder), m.ready = false → i.inForce = {} →
      r.copy = b.recorder.copy →
      cleared { s with blk := { Block.computeReset s.fuses b warm with mode := m, img := i, recorder := r } } := by
    intro warm m i r hready hforce hcopy
    obtain ⟨hrings, hentries, hctxs, hlanes, hox, hlat, hkeys, hpay, hmule, hirq, hhen, hstore, hsched, hpower, hsport, howner,
      hinterval, hvalid, hgander, houtst⟩ := Block.computeReset_cleared (b := b) s.fuses warm
    exact ⟨rfl, rfl, hrings, hentries, hctxs, hlanes, hox, hlat, hkeys, hpay, hmule, hirq, hhen, hstore, hsched, hpower, hsport, howner,
      hinterval, hvalid, hgander, hcopy, hforce, houtst, hready, Block.unit_computeReset s.fuses warm⟩
  refine ⟨?_, ?_, ?_⟩
  · intro hup
    obtain ⟨hsched, hsynced, hparts, hearly, himg, hmode⟩ := Block.computeReset_cold (b := b) s.fuses
    have hassert : Block.assertPorst s.fuses b = _ := if_neg (by simp [hup])
    refine ⟨_, next_congr hassert, hclears false _ _ _ ?_ ?_ ?_, rfl, hsched, hsynced, hparts, hearly, himg, ?_⟩
    · exact congrArg ModeCtl.ready hmode
    · rw [himg]
    · exact (congrArg Recorder.copy (Block.recorder_computeReset s.fuses false) : _)
    · exact congrArg ModeCtl.mode hmode
  · intro hlow
    obtain ⟨v, hv⟩ : ∃ v : Block, v = Block.modRec { b with
        mode := { mode := if s.fuses.factoryOpen then .factory else .configure, releasedAt := b.now }
        recorder := { b.recorder with minuteAt := b.now - b.recorder.minuteAt } }
      fun c => { c with powerCycles := satAdd 32 c.powerCycles 1 } := ⟨_, rfl⟩
    have hrelease : Block.releaseReset s.fuses b = v.storeCheck := by
      rw [hv]
      exact if_neg (by simp [hlow])
    have hvmode : v.mode = { mode := first, releasedAt := b.time.interval } := by rw [hv]; rfl
    have hearly : v.mode.mode.early = true := by
      rw [hvmode]
      show first.early = true
      exact iteInduction (motive := fun m : Mode => m.early = true) (fun _ => rfl) fun _ => rfl
    obtain ⟨honly, hpower⟩ := Block.storeCheck_of_early hearly
    have hframe : v.storeCheck = { b with
        mode := v.storeCheck.mode, gander := v.storeCheck.gander, recorder := v.storeCheck.recorder } := by
      unfold Block.SentinelOnly at honly
      refine honly.trans ?_
      rw [show v.storeCheck.mode = v.mode from (congrArg Block.mode honly).trans rfl, hv]
      rfl
    refine ⟨_, next_congr hrelease, ((congrArg Block.mode honly).trans rfl).trans hvmode, ?_, ?_⟩
    · refine hpower.trans ?_
      rw [hv]
      rfl
    · exact congrArg (fun x : Block => { s with blk := x }) hframe
  · intro t0 hwarm hentries houtst hrings
    obtain ⟨hsched, hsynced, hearly, himg, hmode⟩ := Block.computeReset_warm (b := b) s.fuses
    have hend := Block.warmDrained_of_quiet (f := s.fuses) hwarm hentries houtst hrings
    obtain ⟨r, hr⟩ : ∃ r, r = Block.computeReset s.fuses b true := ⟨_, rfl⟩
    have hrecorder : r.recorder = b.recorder := hr ▸ Block.recorder_computeReset s.fuses true
    have hcleared := hclears true
    simp only [← hr] at hsched hsynced hearly himg hmode hend hcleared
    have hfirst : r.mode.mode = first := congrArg ModeCtl.mode hmode
    have haddr : r.img.addr = b.img.addr := by rw [himg]
    have hload : (r.mode.mode = .configure ∧ r.img.addr ≠ 0) ↔ (s.fuses.factoryOpen = false ∧ b.img.addr ≠ 0) := by
      rw [hfirst, haddr]
      refine and_congr_left fun _ => ?_
      show (if s.fuses.factoryOpen then Mode.factory else .configure) = _ ↔ _
      cases s.fuses.factoryOpen <;> simp
    refine ⟨_, next_congr hend, ?_⟩
    by_cases hagain : s.fuses.factoryOpen = false ∧ b.img.addr ≠ 0
    · rw [if_pos (hload.2 hagain), if_pos hagain]
      refine ⟨hcleared r.mode _ r.recorder ?_ ?_ (congrArg Recorder.copy hrecorder), hsched, hsynced, hearly, haddr, ?_, hfirst, ?_, rfl⟩
      · rw [hmode]
      · rw [himg]
      · exact congrArg ModeCtl.warmCount hmode
      · exact congrArg ModeCtl.warm hmode
    · rw [if_neg (hload.not.2 hagain), if_neg hagain]
      refine ⟨hcleared r.mode r.img r.recorder ?_ ?_ (congrArg Recorder.copy hrecorder), hsched, hsynced, hearly, haddr, ?_, hfirst, ?_, ?_⟩
      · rw [hmode]
      · rw [himg]
      · exact congrArg ModeCtl.warmCount hmode
      · exact congrArg ModeCtl.warm hmode
      · exact congrArg ImageCtl.st himg

end Sys2Proof.Machine

/-! Warm and partition resets under way (O48). -/

namespace Sys2Proof.Machine

open Sys2Proof

section
variable {b : Block} {s : State} {p tag k : Nat}

/-! ## Warm resets -/

theorem exec_warm (hup : s.blk.mode.porstLow = false) : exec (.warm 0) s =
    .next { s with blk := if s.blk.mode.warm.isSome then s.blk.okWrite else s.blk.okWrite.cutForWarm } :=
  next_congr (Block.globalWrite_of_owner (f := fun b => if b.mode.warm.isSome then b else b.cutForWarm) (addr := 0x1010) hup)

/-- A handover with no paired partition has nothing to wait for. -/
theorem Block.warmHandover_of_no_paired (hpaired : b.pairedParts = []) :
    b.warmHandover = if b.mode.warm.isSome then b else b.cutForWarm := by
  obtain ⟨w, hw⟩ : ∃ w : Block, w = { b with mode := { b.mode with warm := some (true, b.now) } } := ⟨_, rfl⟩
  have hwpaired : w.pairedParts = [] := by rw [hw]; exact hpaired
  have hexamine : w.examineHandovers = w := by
    unfold Block.examineHandovers
    rw [hwpaired]
    rfl
  have hsettle : w.settleWarm = w.cutForWarm := by
    have hwarm : w.mode.warm = some (true, b.now) := by rw [hw]
    unfold Block.settleWarm
    rw [hwarm]
    show (if w.pairedParts.any w.executes then w else w.cutForWarm) = _
    rw [hwpaired]
    rfl
  have hcut : w.cutForWarm = b.cutForWarm := by rw [hw]; rfl
  unfold Block.warmHandover
  rw [← hw, hexamine, hsettle, hcut]

/-! ## PART_RESET -/

theorem exec_partReset (h : s.blk.TakesPartWrite p tag) (hfree : s.blk.forwarding (StateItem.resets p) = false) :
    exec (.partReset p tag) s = .next { s with blk := s.blk.okWrite.writePartReset p } := by
  have hgoes : s.blk.accessUnless (s.blk.forwarding (StateItem.resets p))
      (fun b => b.partWrite p tag 0 fun b => b.writePartReset p) = s.blk.okWrite.writePartReset p := by
    rw [hfree]
    exact h.partWrite 0 (Block.writePartReset · p)
  exact next_congr hgoes

/-! ## The end of a partition reset -/

/-- Rings are disabled one by one. -/
theorem Block.disableRings_spec (l : List Nat) (b : Block) :
    (∀ k ∈ l, ((l.foldl Block.disableRing b).ring k).st = .disabled) ∧ (∀ k, k ∉ l → (l.foldl Block.disableRing b).ring k = b.ring k) ∧
      l.foldl Block.disableRing b = { b with rings := (l.foldl Block.disableRing b).rings } := by
  induction l generalizing b with
  | nil => exact ⟨fun k hk => absurd hk List.not_mem_nil, fun _ _ => rfl, rfl⟩
  | cons x l ih =>
    obtain ⟨hin, hout, honly⟩ := ih (b.disableRing x)
    have hx : ∀ k, (b.disableRing x).ring k = if x = k then (b.ring x).disabled else b.ring k := Block.ring_modRing b x _
    refine ⟨fun k hk => ?_, fun k hk => ?_, honly.trans rfl⟩
    · by_cases hl : k ∈ l
      · exact hin k hl
      · obtain rfl | hl' := List.mem_cons.1 hk
        · exact (congrArg RingRec.st ((hout k hl).trans ((hx k).trans (if_pos rfl)))).trans rfl
        · exact absurd hl' hl
    · obtain ⟨hne, hl⟩ := not_or.1 (List.mem_cons.not.1 hk)
      exact (hout k hl).trans ((hx k).trans (if_neg (Ne.symm hne)))

/-- A ring that is not listed is as at reset. -/
theorem Block.ring_of_not_listed (h : ∀ x ∈ b.rings, x.1 ≠ k) : b.ring k = {} := by
  show Table.get {} b.rings k = {}
  revert h
  induction b.rings with
  | nil => exact fun _ => rfl
  | cons e t ih =>
    intro h
    unfold Table.get
    rw [if_neg (h e List.mem_cons_self)]
    exact ih fun x hx => h x (List.mem_cons_of_mem _ hx)

theorem Block.mem_liveRings : k ∈ b.liveRings p ↔ (∃ x ∈ b.rings, x.1 = k) ∧ b.owner k = some p := by
  unfold Block.liveRings
  simp only [List.mem_map, List.mem_filter, beq_iff_eq]
  constructor
  · rintro ⟨x, ⟨hx, howner⟩, rfl⟩
    exact ⟨⟨x, hx, rfl⟩, howner⟩
  · rintro ⟨⟨x, hx, rfl⟩, howner⟩
    exact ⟨x, ⟨hx, howner⟩, rfl⟩

/-- A partition whose reset has ended and counts. -/
def PartRec.resetOver (q : PartRec) : PartRec :=
  { q with resetting := none, halted := false, haltRing := 0, resets := satAdd 16 q.resets 1 }

/-- With nothing of the partition left its reset ends. -/
theorem Block.endPartReset_of_quiet {t0 : Nat} (hresetting : (b.part p).resetting = some t0) (hentries : ∀ e ∈ b.entries, e.part ≠ p)
    (houtst : ∀ r ∈ b.mport.outst, b.ofReset p r = false) (hwipes : b.resetWipes p = false)
    (hrings : ∀ k, b.owner k = some p → (b.ring k).burst = none ∧ (b.ring k).held = [] ∧ (b.ring k).failedW = [] ∧ (b.ring k).sig = []) :
    b.endPartReset p = ((b.liveRings p).foldl Block.disableRing b).modPart p PartRec.resetOver := by
  have hnoentry : (b.entries.any fun e => e.part == p) = false := List.any_eq_false.2 fun e he => by simpa using hentries e he
  have hnoreq : b.mport.outst.any (b.ofReset p) = false := List.any_eq_false.2 fun r hr => by simp [houtst r hr]
  have hnoring : ((b.liveRings p).any fun k =>
      (b.ring k).burst.isSome || !(b.ring k).held.isEmpty || !(b.ring k).failedW.isEmpty || !(b.ring k).sig.isEmpty) = false := by
    refine List.any_eq_false.2 fun k hk => ?_
    obtain ⟨hburst, hheld, hfailed, hsig⟩ := hrings k (Block.mem_liveRings.1 hk).2
    simp [hburst, hheld, hfailed, hsig]
  unfold Block.endPartReset
  exact if_neg (by simp [hresetting, hnoentry, hnoreq, hwipes, hnoring])

/-! ## Completions that find no room -/

theorem Block.dropHeld_eq : ∃ es, b.dropHeld k = { b.modRing k fun r => { r with held := [] } with entries := es } := by
  obtain ⟨v, hv⟩ : ∃ v : Block, v = b.modRing k fun r => { r with held := [] } := ⟨_, rfl⟩
  refine ⟨(b.dropHeld k).entries, ?_⟩
  rw [← hv]
  unfold Block.dropHeld
  rw [← hv]
  refine List.foldlRecOn (motive := fun x : Block => x = { v with entries := x.entries }) _ _ rfl fun x hx c _ => ?_
  refine iteInduction (motive := fun y : Block => y = { v with entries := y.entries }) (fun _ => hx) fun _ => ?_
  exact congrArg (fun y : Block => { y with entries := (x.dropEntry k c.sub).entries }) hx

/-- A ring whose held completions, failed writes and their signals are gone. -/
def RingRec.dropped (r : RingRec) (k : Nat) : RingRec := { r with
  held := [], failedW := [], sig := r.sig.filter fun x => !r.failedW.any fun w => w.purpose == .completion k x.q }

/-- Completions that a reset has not seen written for 1,000 ticks are dropped, counted and noted. -/
theorem Block.dropAborts_of_late {t0 : Nat} (hwarm : b.mode.warm = none) (howner : b.ownerD k = p)
    (hresetting : (b.part p).resetting = some t0) (hlate : t0 + 1000 ≤ b.now) (hheld : (b.ring k).held ≠ []) :
    let b' := b.dropAborts k
    b'.ring k = (b.ring k).dropped k ∧ (∀ j, j ≠ k → b'.ring j = b.ring j) ∧
      (b'.part p).abortDropped = satAdd 16 (b.part p).abortDropped (b.ring k).held.length ∧
      b' = { b with rings := b'.rings, parts := b'.parts, entries := b'.entries, recorder := b'.recorder } := by
  have hsince : b.resetSince p = some t0 := by
    unfold Block.resetSince ModeCtl.cutting
    rw [hwarm]
    exact hresetting
  obtain ⟨es, hes⟩ := Block.dropHeld_eq (b := b) (k := k)
  obtain ⟨v, hv⟩ : ∃ v : Block, v = (b.dropHeld k).modRing k fun r => { r with
      failedW := [], sig := r.sig.filter fun s => !(b.ring k).failedW.any fun x => x.purpose == .completion k s.q } := ⟨_, rfl⟩
  obtain ⟨w, hw⟩ : ∃ w : Block, w = v.modPart p fun q => { q with abortDropped := satAdd 16 q.abortDropped (b.ring k).held.length } :=
    ⟨_, rfl⟩
  have hdrop : b.dropAborts k = w.note 0x0023 1 p (b.ring k).held.length := by
    rw [hw, hv]
    unfold Block.dropAborts
    simp only [howner, hsince]
    exact if_pos ⟨hlate, List.length_pos_of_ne_nil hheld⟩
  have hnote : w.OnlyRec (b.dropAborts k) := by
    rw [hdrop]
    exact Block.onlyRec_note (by decide) w 0x0023 p _
  have hring : ∀ j, (b.dropHeld k).ring j = if k = j then { b.ring k with held := [] } else b.ring j := by
    intro j
    rw [hes]
    exact Block.ring_modRing b k (fun r => { r with held := [] }) j
  have hvring : ∀ j, v.ring j = if k = j then (b.ring k).dropped k else b.ring j := by
    intro j
    rw [hv, Block.ring_modRing, hring, hring, if_pos rfl]
    by_cases hj : k = j
    · rw [if_pos hj, if_pos hj]
      rfl
    · rw [if_neg hj, if_neg hj, if_neg hj]
  have hvrest : v = { b with rings := v.rings, entries := v.entries } := by
    rw [hv, hes]
    rfl
  intro b'
  have hrings : ∀ j, b'.ring j = v.ring j := by
    intro j
    refine (congrArg (fun x : Block => x.ring j) hnote).trans ?_
    rw [hw]
    rfl
  refine ⟨?_, fun j hj => ?_, ?_, ?_⟩
  · rw [hrings, hvring, if_pos rfl]
  · rw [hrings, hvring, if_neg (Ne.symm hj)]
  · refine (congrArg (fun x : Block => (x.part p).abortDropped) hnote).trans ?_
    show (w.part p).abortDropped = _
    rw [hw, Block.part_modPart, if_pos rfl]
    show satAdd 16 (v.part p).abortDropped _ = _
    rw [hvrest]
    rfl
  · have hwrest : w = { v with parts := w.parts } := by rw [hw]; rfl
    have h : b' = { w with recorder := b'.recorder } := hnote
    have hrings' : b'.rings = v.rings := (congrArg Block.rings h).trans ((congrArg Block.rings hwrest).trans rfl)
    have hentries' : b'.entries = v.entries := (congrArg Block.entries h).trans ((congrArg Block.entries hwrest).trans rfl)
    have hparts' : b'.parts = w.parts := (congrArg Block.parts h).trans rfl
    rw [hrings', hentries', hparts']
    calc b' = { w with recorder := b'.recorder } := h
      _ = { v with parts := w.parts, recorder := b'.recorder } := congrArg (fun x : Block => { x with recorder := b'.recorder }) hwrest
      _ = _ := congrArg (fun x : Block => { x with parts := w.parts, recorder := b'.recorder }) hvrest


end

/-! ## The obligation -/

/-- Settles O48: each command of a reset under way. -/
theorem resetsUnderWay : Obligations.ResetsUnderWay := by
  unfold Obligations.ResetsUnderWay
  intro s p tag b now
  refine ⟨?_, ?_, ?_, ?_, ?_, ?_, ?_, ?_, ?_⟩
  · intro hup hwarm
    exact (exec_warm hup).trans (next_congr (if_neg (by simp [show s.blk.mode.warm = none from hwarm])))
  · intro hup hwarm
    exact (exec_warm hup).trans (next_congr (if_pos hwarm))
  · intro hup hpaired
    refine Eq.trans ?_ (exec_warm hup).symm
    exact next_congr ((Block.globalWrite_of_owner (f := fun b => b.warmHandover) (addr := 0x1010) hup).trans
      (Block.warmHandover_of_no_paired (b := s.blk.okWrite) hpaired))
  · intro t0 hwarm
    have hexec : exec .warmHandoverTimeout s = .next { s with blk :=
        if t0 + 2000 ≤ now then ({ b with mode := { b.mode with handoverFailed := true } } : Block).cutForWarm else b } := by
      show s.run (fun b => match b.mode.warm with
        | some (true, t) =>
          if t + 2000 ≤ b.now then ({ b with mode := { b.mode with handoverFailed := true } } : Block).cutForWarm else b
        | _ => b) = _
      exact next_congr (by simp only [show s.blk.mode.warm = some (true, t0) from hwarm]; rfl)
    exact ⟨fun h => hexec.trans (next_congr (if_pos h)), fun h => hexec.trans (next_congr (if_neg (Nat.not_le.2 h)))⟩
  · intro htakes hen hfree hwarm hresetting hroute
    refine (exec_partReset htakes hfree).trans (next_congr ?_)
    have hroute' : s.blk.okWrite.route p = .apply := hroute
    have hen' : b.okWrite.enabled p = true := hen
    have hidle : ¬ ((b.okWrite.part p).resetting.isSome = true ∨ b.okWrite.mode.warm.isSome = true) := by
      rintro (h | h)
      · exact Bool.false_ne_true ((congrArg Option.isSome hresetting).symm.trans h)
      · exact Bool.false_ne_true ((congrArg Option.isSome hwarm).symm.trans h)
    refine (if_neg (by rw [hen']; decide)).trans ((if_neg hidle).trans ?_)
    simp only [hroute']
    rfl
  · intro htakes hen hfree
    have hen' : s.blk.okWrite.enabled p = false := hen
    exact (exec_partReset htakes hfree).trans (next_congr (if_pos (by rw [hen']; decide)))
  · intro htakes hen hfree hbusy
    have hen' : s.blk.okWrite.enabled p = true := hen
    have hb : s.blk.okWrite.writePartReset p = s.blk.okWrite.modPart p fun q => { q with resetRefused := true } :=
      (if_neg (by rw [hen']; decide)).trans (if_pos hbusy)
    refine ⟨_, (exec_partReset htakes hfree).trans (next_congr hb), (OnlyPart.okWrite s p).modPart _, ?_⟩
    exact (Block.part_modPart _ p _ p).trans (if_pos rfl)
  · intro t0 hresetting hentries houtst hwipes hrings
    have hb := Block.endPartReset_of_quiet hresetting hentries houtst hwipes hrings
    obtain ⟨w, hw⟩ : ∃ w, w = (b.liveRings p).foldl Block.disableRing b := ⟨_, rfl⟩
    obtain ⟨hin, hout, honly⟩ := Block.disableRings_spec (b.liveRings p) b
    rw [← hw] at hin hout honly hb
    have hpart : ∀ q, w.part q = b.part q := fun q => (congrArg (fun x : Block => x.part q) honly).trans rfl
    refine ⟨_, next_congr hb, fun k howner => ?_, fun k howner => ?_, fun q hq => ?_, ?_, ?_⟩
    · show (w.ring k).st = .disabled
      by_cases hk : k ∈ b.liveRings p
      · exact hin k hk
      · rw [hout k hk, Block.ring_of_not_listed fun x hx hxk => hk (Block.mem_liveRings.2 ⟨⟨x, hx, hxk⟩, howner⟩)]
    · exact hout k fun hk => howner (Block.mem_liveRings.1 hk).2
    · exact (Block.part_modPart w p _ q).trans ((if_neg (Ne.symm hq)).trans (hpart q))
    · refine (Block.part_modPart w p _ p).trans ((if_pos rfl).trans ?_)
      rw [hpart]
      rfl
    · refine congrArg (fun x : Block => { s with blk := x }) ?_
      exact congrArg (fun x : Block => { x with parts := (w.modPart p PartRec.resetOver).parts }) honly
  · intro k t0 hwarm howner hresetting hlate hheld
    obtain ⟨hring, hother, hcount, honly⟩ := Block.dropAborts_of_late hwarm howner hresetting hlate hheld
    exact ⟨_, rfl, hring, hother, hcount, congrArg (fun x : Block => { s with blk := x }) honly⟩

end Sys2Proof.Machine

/-! What the work on descriptors leaves alone: the time base, the mode, the image, the health manager's records and the power
registers. Each function that completes, cuts off or releases work keeps them, up to the entry to LOCKED. -/

namespace Sys2Proof.Machine

open Sys2Proof

/-- The parts of the block that the work on descriptors leaves alone. -/
def Block.fixed (b : Block) : TimeBase × ModeCtl × ImageCtl × Health × Power := (b.time, b.mode, b.img, b.health, b.power)

section
variable {b b' : Block}

theorem Block.mode_of_fixed (h : b'.fixed = b.fixed) : b'.mode = b.mode := congrArg (fun x => x.2.1) h

theorem Block.img_of_fixed (h : b'.fixed = b.fixed) : b'.img = b.img := congrArg (fun x => x.2.2.1) h

theorem Block.health_of_fixed (h : b'.fixed = b.fixed) : b'.health = b.health := congrArg (fun x => x.2.2.2.1) h

theorem Block.power_of_fixed (h : b'.fixed = b.fixed) : b'.power = b.power := congrArg (fun x => x.2.2.2.2) h

theorem Block.fixed_of_onlyRec (h : b.OnlyRec b') : b'.fixed = b.fixed := by
  rw [h]
  rfl

end

section
variable (b : Block)

/-! ## Requests, vectors and the recorder -/

@[simp] theorem Block.fixed_modRing (k f) : (b.modRing k f).fixed = b.fixed := rfl
@[simp] theorem Block.fixed_modPart (p f) : (b.modPart p f).fixed = b.fixed := rfl
@[simp] theorem Block.fixed_modTw (p f) : (b.modTw p f).fixed = b.fixed := rfl
@[simp] theorem Block.fixed_modEntry (k i f) : (b.modEntry k i f).fixed = b.fixed := rfl
@[simp] theorem Block.fixed_modVec (v f) : (b.modVec v f).fixed = b.fixed := rfl
@[simp] theorem Block.fixed_modLane (l f) : (b.modLane l f).fixed = b.fixed := rfl
@[simp] theorem Block.fixed_modCore (u f) : (b.modCore u f).fixed = b.fixed := rfl
@[simp] theorem Block.fixed_modCx (u c f) : (b.modCx u c f).fixed = b.fixed := rfl
@[simp] theorem Block.fixed_modChan (k f) : (b.modChan k f).fixed = b.fixed := rfl
@[simp] theorem Block.fixed_modSlot (i f) : (b.modSlot i f).fixed = b.fixed := rfl
@[simp] theorem Block.fixed_disown (f) : (b.disown f).fixed = b.fixed := rfl
@[simp] theorem Block.fixed_freeLock (p) : (b.freeLock p).fixed = b.fixed := rfl

@[simp] theorem Block.fixed_issueOrdered (port part ring addr data pur again) :
    (b.issueOrdered port part ring addr data pur again).fixed = b.fixed := rfl

@[simp] theorem Block.fixed_issueCas (part addr e n pur) : (b.issueCas part addr e n pur).fixed = b.fixed := rfl

@[simp] theorem Block.fixed_issueRead (port part ring addr len pur) : (b.issueRead port part ring addr len pur).fixed = b.fixed := by
  refine foldl_keeps Block.fixed (fun v x => ?_) _ _
  rfl

@[simp] theorem Block.fixed_note_of_low (kind sev subject detail) (h : sev < 3) : (b.noteRec kind sev subject detail).fixed = b.fixed :=
  Block.fixed_of_onlyRec (Block.onlyRec_noteRec _ _ _ _ _ h)

theorem Block.fixed_countPort (port) : (b.countPort port).fixed = b.fixed := by
  unfold Block.countPort
  split <;> rfl

@[simp] theorem Block.fixed_sendIrq (v woke) : (b.sendIrq v woke).fixed = b.fixed := by
  unfold Block.sendIrq
  simp only
  split
  · simp [Block.fixed_countPort]
  · simp

@[simp] theorem Block.fixed_fallDue (v) : (b.fallDue v).fixed = b.fixed := by
  unfold Block.fallDue
  simp only
  split <;> simp

@[simp] theorem Block.fixed_examineVec (v) : (b.examineVec v).fixed = b.fixed := by
  unfold Block.examineVec
  simp only
  split <;> simp

@[simp] theorem Block.fixed_raise (v port) : (b.raise v port).fixed = b.fixed := by
  unfold Block.raise
  split
  · rfl
  · simp only
    split <;> simp

/-! ## Completions -/

@[simp] theorem Block.fixed_markStall (k) : (b.markStall k).fixed = b.fixed := by
  unfold Block.markStall
  split <;> rfl

@[simp] theorem Block.fixed_modRec (f) : (b.modRec f).fixed = b.fixed := rfl

@[simp] theorem Block.fixed_dropEntry (k i) : (b.dropEntry k i).fixed = b.fixed := rfl

@[simp] theorem Block.fixed_countLatency (p us) : (b.countLatency p us).fixed = b.fixed := by
  unfold Block.countLatency
  simp

@[simp] theorem Block.fixed_settle (e) : (b.settle e).fixed = b.fixed := rfl

@[simp] theorem Block.fixed_settleRing (k) : (b.settleRing k).fixed = b.fixed := by
  unfold Block.settleRing
  simp only
  split
  · split <;> rfl
  · rfl

@[simp] theorem Block.fixed_placeOverrun (k) : (b.placeOverrun k).fixed = b.fixed := by
  unfold Block.placeOverrun
  split <;> rfl

@[simp] theorem Block.fixed_writeCompletion (c) : (b.writeCompletion c).fixed = b.fixed := by
  have hends : ∀ v : Block, (if c.overrun then v else
      match v.entry? c.ring c.sub with
      | some e => ((v.settle e).countLatency e.part (v.now - e.fetchedAt)).dropEntry c.ring c.sub
      | none => v).fixed = v.fixed := by
    intro v
    split
    · rfl
    · split <;> simp
  have hring : ∀ (v : Block) f g y, ({ (v.modRing c.ring f).modRing c.ring g with pay := y } : Block).fixed = v.fixed :=
    fun _ _ _ _ => rfl
  unfold Block.writeCompletion
  exact (hring _ _ _ _).trans ((hends _).trans (Block.fixed_issueOrdered _ _ _ _ _ _ _ _))

theorem Block.fixed_flushHeldAux (k fuel) : (Block.flushHeldAux k fuel b).fixed = b.fixed := by
  induction fuel generalizing b with
  | zero => rfl
  | succ fuel ih =>
    unfold Block.flushHeldAux
    simp only
    split
    · simp
    · split
      · simp
      · split
        · simp
        · rw [ih]
          simp

@[simp] theorem Block.fixed_flushHeld (k) : (b.flushHeld k).fixed = b.fixed := by
  unfold Block.flushHeld
  rw [Block.fixed_settleRing, Block.fixed_flushHeldAux]

@[simp] theorem Block.fixed_emit (c) : (b.emit c).fixed = b.fixed := by
  unfold Block.emit
  simp

/-! ## Frames -/

@[simp] theorem Block.fixed_sendFrame (words mk) : (b.sendFrame words mk).fixed = b.fixed := by
  unfold Block.sendFrame
  split <;> rfl

@[simp] theorem Block.fixed_flushCommit : b.flushCommit.fixed = b.fixed := by
  unfold Block.flushCommit
  split
  · rfl
  · split
    · rfl
    · exact Block.fixed_sendFrame b _ _

theorem Block.fixed_flushCommit_if (c : Bool) : (if c then b.flushCommit else b).fixed = b.fixed := by
  cases c <;> simp

@[simp] theorem Block.fixed_addPart (i) : (b.addPart i).fixed = b.fixed := by
  unfold Block.addPart
  refine (Block.fixed_flushCommit_if _ _).trans ?_
  exact Block.fixed_flushCommit_if b _

@[simp] theorem Block.fixed_commitEntry (e c) : (b.commitEntry e c).fixed = b.fixed := by
  unfold Block.commitEntry
  rw [foldl_keeps Block.fixed Block.fixed_addPart, Block.fixed_modEntry]

/-! ## The end of an entry's work -/

@[simp] theorem Block.fixed_releaseRefs (e) : (b.releaseRefs e).fixed = b.fixed := by
  unfold Block.releaseRefs
  split
  · rw [Block.fixed_modEntry]
    refine foldl_keeps Block.fixed (fun v x => ?_) _ _
    rfl
  · rfl

@[simp] theorem Block.fixed_unqueue (j) : (b.unqueue j).fixed = b.fixed := rfl
@[simp] theorem Block.fixed_markCut (j) : (b.markCut j).fixed = b.fixed := rfl
@[simp] theorem Block.fixed_unask (w) : (b.unask w).fixed = b.fixed := rfl

theorem Block.fixed_countLane (l) : (b.countLane l).fixed = b.fixed := by
  unfold Block.countLane
  simp only
  split <;> rfl

@[simp] theorem Block.fixed_freeUnit (j) : (b.freeUnit j).fixed = b.fixed := by
  unfold Block.freeUnit
  exact foldl_keeps Block.fixed Block.fixed_countLane _ _

@[simp] theorem Block.fixed_stopChan (k) : (b.stopChan k).fixed = b.fixed := by
  unfold Block.stopChan
  split <;> rfl

@[simp] theorem Block.fixed_endFunction (u c) : (b.endFunction u c).fixed = b.fixed := by
  unfold Block.endFunction
  simp only [Block.fixed_modCx, Block.fixed_modCore, apply_ite Block.fixed, Block.fixed_stopChan, Block.fixed_unask, Block.fixed_freeUnit,
    Block.fixed_unqueue, ite_self]

@[simp] theorem Block.fixed_cutWork (e) : (b.cutWork e).fixed = b.fixed := by
  have hcontext : ∀ v : Block, (match v.contextOf e with
      | some (u, c) => (v.markCut (.call u c.val)).endFunction u c | none => v).fixed = v.fixed := by
    intro v
    split <;> simp
  unfold Block.cutWork
  refine (Block.fixed_releaseRefs _ _).trans ((hcontext _).trans ?_)
  simp

@[simp] theorem Block.fixed_completeNow (e c) : (b.completeNow e c).fixed = b.fixed := by
  unfold Block.completeNow
  split
  · simp
  · split
    · simp only
      split <;> simp
    · simp

theorem Block.fixed_drainChainAux (k fuel) : (Block.drainChainAux k fuel b).fixed = b.fixed := by
  induction fuel generalizing b with
  | zero => rfl
  | succ fuel ih =>
    unfold Block.drainChainAux
    split
    · split
      · rw [ih]
        simp
      · rfl
    · rfl

@[simp] theorem Block.fixed_conclude (e c) : (b.conclude e c).fixed = b.fixed := Block.fixed_cutWork b e

@[simp] theorem Block.fixed_dropKept (e) : (b.dropKept e).fixed = b.fixed := rfl
@[simp] theorem Block.fixed_failChain (e st) : (b.failChain e st).fixed = b.fixed := rfl

@[simp] theorem Block.fixed_forfeit (e) : (b.forfeit e).fixed = b.fixed := by
  unfold Block.forfeit
  split <;> rfl

@[simp] theorem Block.fixed_abandon (e) : (b.abandon e).fixed = b.fixed := by
  show ((b.cutWork e).forfeit e).fixed = _
  simp

@[simp] theorem Block.fixed_cutAll (sel st det) : (b.cutAll sel st det).fixed = b.fixed := by
  unfold Block.cutAll
  simp only
  rw [foldl_keeps Block.fixed (fun v e => Block.fixed_drainChainAux v _ _), foldl_keeps Block.fixed, foldl_keeps Block.fixed]
  · intro v e
    simp
  · intro v e
    split <;> simp

/-! ## Release to the twin -/

@[simp] theorem Block.fixed_noteTwin (p code) : (b.noteTwin p code).fixed = b.fixed := Block.fixed_note_of_low b _ _ _ _ (by decide)

@[simp] theorem Block.fixed_swapLease (p new pur) : (b.swapLease p new pur).fixed = b.fixed := rfl

@[simp] theorem Block.fixed_abandonAll (p sel) : (b.abandonAll p sel).fixed = b.fixed := foldl_keeps Block.fixed Block.fixed_abandon _ _

@[simp] theorem Block.fixed_releasePart (p) : (b.releasePart p).fixed = b.fixed := by
  have hrings : ((b.liveRings p).foldl (fun b k => ((b.markStall k).disown (Purpose.ofFetch k)).modRing k fun r => { r with
      push := List.replicate 4 {}, burst := none, failedF := none }) b).fixed = b.fixed := by
    refine foldl_keeps Block.fixed (fun v k => ?_) _ _
    simp
  unfold Block.releasePart
  split
  · rfl
  · refine (Block.fixed_noteTwin _ _ _).trans ?_
    have hlease : ∀ v : Block, (if v.awaits (.leaseRenew p) then v else v.setReleased p).fixed = v.fixed := by
      intro v
      split <;> rfl
    have htwin : ∀ (v : Block) f g y, (({ v.modTw p f with twin := y } : Block).modRec g).fixed = v.fixed := fun _ _ _ _ => rfl
    exact (htwin _ _ _ _).trans ((hlease _).trans ((Block.fixed_abandonAll _ _ _).trans hrings))

@[simp] theorem Block.fixed_releaseAll (ps cause) : (b.releaseAll ps cause).fixed = b.fixed := by
  unfold Block.releaseAll
  simp only
  split
  · rw [Block.fixed_sendFrame, foldl_keeps Block.fixed Block.fixed_releasePart]
  · rw [foldl_keeps Block.fixed Block.fixed_releasePart]

/-! ## Entry to LOCKED -/

@[simp] theorem Block.fixed_stopMirroring (p) : (b.stopMirroring p).fixed = b.fixed := by
  unfold Block.stopMirroring
  split <;> rfl

@[simp] theorem Block.fixed_lockBursts : b.lockBursts.fixed = b.fixed := by
  refine foldl_keeps Block.fixed (fun v k => ?_) _ _
  split <;> rfl

/-- Entry to LOCKED changes the mode, the pending change and LOCK_CAUSE, and nothing else of these parts. -/
theorem Block.fixed_enterLocked (cause) :
    (b.enterLocked cause).fixed = b.fixed ∨
      (b.enterLocked cause).fixed =
        ({ b with mode := { b.mode with mode := .locked, transition := none, lockCause := cause } } : Block).fixed := by
  unfold Block.enterLocked
  split
  case h_4 => exact .inl rfl
  all_goals
    refine .inr ?_
    rw [foldl_keeps Block.fixed Block.fixed_freeLock, Block.fixed_cutAll, Block.fixed_lockBursts,
      foldl_keeps Block.fixed Block.fixed_stopMirroring, Block.fixed_releaseAll]

end

end Sys2Proof.Machine

/-! Boot and structure images (O49): BIST sorts the units, an image is loaded and checked, the end of boot puts it in force. -/

namespace Sys2Proof.Machine

open Sys2Proof

/-! ## Sorting the units of a type -/

/-- The units of a type that passed BIST. -/
def UnitType.passed (failed : List Nat) (t : UnitType) : List Nat := t.units.filter fun u => !failed.contains u

/-- The state of a unit after BIST. -/
def UnitType.sorted (failed : List Nat) (t : UnitType) (u : Nat) : UnitState :=
  if u ∈ failed then .quarantined else if u ∈ (t.passed failed).take t.inServiceCount then .inService else .spare

theorem UnitType.mem_units {t : UnitType} {u : Nat} : u ∈ t.units ↔ t.first ≤ u ∧ u < t.first + t.count := by
  unfold UnitType.units
  simp only [List.mem_map, List.mem_range]
  exact ⟨fun ⟨i, hi, h⟩ => by omega, fun h => ⟨u - t.first, by omega, by omega⟩⟩

theorem UnitType.nodup_units (t : UnitType) : t.units.Nodup :=
  List.Nodup.map (fun _ _ h => Nat.add_right_cancel h) List.nodup_range

theorem UnitType.nodup_passed (failed : List Nat) (t : UnitType) : (t.passed failed).Nodup := t.nodup_units.filter _

theorem UnitType.mem_passed {failed : List Nat} {t : UnitType} {u : Nat} : u ∈ t.passed failed ↔ u ∈ t.units ∧ u ∉ failed := by
  unfold UnitType.passed
  simp

section
variable {b : Block}

/-- Steps that set one unit each to the same state. -/
theorem Block.st_foldl_units {β : Type} (step : Block → β → Block) (key : β → Nat) (c : UnitState)
    (h : ∀ b x v, ((step b x).unit v).st = if key x = v then c else (b.unit v).st) (l : List β) (b : Block) (v : Nat) :
    ((l.foldl step b).unit v).st = if v ∈ l.map key then c else (b.unit v).st := by
  induction l generalizing b with
  | nil => rfl
  | cons x l ih =>
    rw [List.foldl_cons, ih, h]
    simp only [List.map_cons, List.mem_cons]
    by_cases hl : v ∈ l.map key
    · rw [if_pos hl, if_pos (.inr hl)]
    · by_cases hx : key x = v
      · rw [if_neg hl, if_pos hx, if_pos (.inl hx.symm)]
      · rw [if_neg hl, if_neg hx, if_neg (by rintro (h | h); exacts [hx h.symm, hl h])]

theorem Block.st_modUnit (u : Nat) (c : UnitState) (f : UnitRec → UnitRec) (hf : ∀ r, (f r).st = c) (v : Nat) :
    ((b.modUnit u f).unit v).st = if u = v then c else (b.unit v).st := by
  rw [Block.unit_modUnit]
  by_cases h : u = v
  · rw [if_pos h, if_pos h, hf]
  · rw [if_neg h, if_neg h]

theorem Block.unit_congr {b' : Block} (h : b'.health = b.health) (u : Nat) : b'.unit u = b.unit u :=
  congrArg (fun x : Health => Table.get ({} : UnitRec) x.units u) h

/-- An occurrence of severity 0 to 2 keeps mode and units. -/
theorem Block.health_note_of_low {sev : Nat} (h : sev < 3) (b : Block) (kind subject detail : Nat) :
    (b.note kind sev subject detail).health = b.health ∧ (b.note kind sev subject detail).mode = b.mode := by
  have hrec := Block.onlyRec_note h b kind subject detail
  exact ⟨(congrArg Block.health hrec).trans rfl, (congrArg Block.mode hrec).trans rfl⟩

theorem Block.mode_countQuarantine (u before : Nat) : (b.countQuarantine u before).mode = b.mode := by
  unfold Block.countQuarantine
  exact (Block.health_note_of_low (by decide) _ _ _ _).2

theorem Block.st_countQuarantine (u before v : Nat) :
    ((b.countQuarantine u before).unit v).st = if u = v then .quarantined else (b.unit v).st := by
  unfold Block.countQuarantine
  simp only
  rw [Block.unit_congr (Block.health_note_of_low (by decide) _ _ _ _).1]
  refine Eq.trans ?_ (Block.st_modUnit (b := b) u .quarantined (fun r => { r with
    st := .quarantined, quarantinedAt := b.now, before := before
    quarantines := b.recorder.copy.opMinutes :: r.quarantines.filter fun m => decide (b.recorder.copy.opMinutes < m + dayMinutes) })
    (fun _ => rfl) v)
  rfl

/-- Neither retired nor quarantined: a unit that BIST finds as a reset leaves it. -/
def UnitRec.fresh (r : UnitRec) : Prop := r.st ≠ .retired ∧ r.st ≠ .quarantined

/-- Where all units of a type are fresh, BIST takes out those that failed alone. -/
theorem Block.sortUnits_of_fresh {failed : List Nat} {t : UnitType} (h : ∀ u ∈ t.units, (b.unit u).fresh) :
    ∃ lost, b.sortUnits failed t =
      lost.foldl (fun b u => b.note 0x0030 0 u 3)
        (((t.passed failed).drop t.inServiceCount).foldl (fun b u => b.modUnit u fun r => { r with st := .spare })
          ((((t.passed failed).take t.inServiceCount).zipIdx).foldl (fun b x => b.modUnit x.1 fun r => { r with st := .inService, pos := x.2 })
            ((t.units.filter fun u => failed.contains u).foldl (fun b u => b.countQuarantine u 65) b))) ∧
      (failed = [] → lost = []) := by
  have hout : t.units.filter (fun u => (b.unit u).st == .retired) = [] :=
    List.filter_eq_nil_iff.2 fun u hu => by simpa using (h u hu).1
  have hheld : t.units.filter (fun u => (b.unit u).st == .quarantined) = [] :=
    List.filter_eq_nil_iff.2 fun u hu => by simpa using (h u hu).2
  have hbad : t.units.filter (fun u => failed.contains u && !([] : List Nat).contains u && !([] : List Nat).contains u) =
      t.units.filter fun u => failed.contains u := by simp
  have hgood : t.units.filter (fun u => !failed.contains u && !([] : List Nat).contains u && !([] : List Nat).contains u) =
      t.passed failed := by simp [UnitType.passed]
  unfold Block.sortUnits
  simp only [hout, hheld, hbad, hgood, List.nil_append]
  refine ⟨_, rfl, ?_⟩
  rintro rfl
  simp

theorem Block.st_sortUnits_of_fresh {failed : List Nat} {t : UnitType} (h : ∀ u ∈ t.units, (b.unit u).fresh) (v : Nat) :
    ((b.sortUnits failed t).unit v).st = if v ∈ t.units then t.sorted failed v else (b.unit v).st := by
  obtain ⟨lost, hsort, _⟩ := Block.sortUnits_of_fresh (failed := failed) h
  rw [hsort]
  have hnotes : ∀ w : Block, (lost.foldl (fun b u => b.note 0x0030 0 u 3) w).health = w.health := fun w =>
    foldl_keeps Block.health (fun x u => (Block.health_note_of_low (by decide) x _ _ _).1) _ _
  rw [Block.unit_congr (hnotes _),
    Block.st_foldl_units _ id .spare (fun w u v => Block.st_modUnit u .spare _ (fun _ => rfl) v),
    Block.st_foldl_units _ Prod.fst .inService (fun w x v => Block.st_modUnit x.1 .inService _ (fun _ => rfl) v),
    Block.st_foldl_units _ id .quarantined (fun w u v => Block.st_countQuarantine u 65 v)]
  have hmem : ∀ u, u ∈ t.passed failed ↔ u ∈ (t.passed failed).take t.inServiceCount ∨ u ∈ (t.passed failed).drop t.inServiceCount := by
    intro u
    rw [← List.mem_append, List.take_append_drop]
  have hdisjoint : ∀ u, u ∈ (t.passed failed).take t.inServiceCount → u ∉ (t.passed failed).drop t.inServiceCount :=
    fun u ht hd => List.disjoint_take_drop (UnitType.nodup_passed failed t) le_rfl ht hd
  simp only [List.map_id, List.zipIdx_map_fst, List.mem_filter, List.contains_iff_mem]
  unfold UnitType.sorted
  by_cases hv : v ∈ t.units
  · by_cases hf : v ∈ failed
    · have hnot : v ∉ t.passed failed := fun hp => (UnitType.mem_passed.1 hp).2 hf
      rw [hmem, not_or] at hnot
      simp [hv, hf, hnot]
    · have hp := (hmem v).1 (UnitType.mem_passed.2 ⟨hv, hf⟩)
      by_cases ht : v ∈ (t.passed failed).take t.inServiceCount
      · simp [hv, hf, ht, hdisjoint v ht]
      · simp [hv, hf, ht, hp.resolve_left ht]
  · have hnot : v ∉ t.passed failed := fun hp => hv (UnitType.mem_passed.1 hp).1
    rw [hmem, not_or] at hnot
    simp [hv, hnot]

theorem Block.mode_sortUnits_of_fresh {failed : List Nat} {t : UnitType} (h : ∀ u ∈ t.units, (b.unit u).fresh) :
    (b.sortUnits failed t).mode = b.mode := by
  obtain ⟨lost, hsort, _⟩ := Block.sortUnits_of_fresh (failed := failed) h
  rw [hsort, foldl_keeps Block.mode (fun x u => (Block.health_note_of_low (by decide) x _ _ _).2), foldl_keeps Block.mode,
    foldl_keeps Block.mode, foldl_keeps Block.mode (fun x u => x.mode_countQuarantine u 65)]
  · exact fun _ _ => rfl
  · exact fun _ _ => rfl

/-- From b to b' nothing changes but the health manager's records. -/
def Block.HealthOnly (b b' : Block) : Prop := b' = { b with health := b'.health }

theorem Block.HealthOnly.trans {b b' b'' : Block} (h : b.HealthOnly b') (h' : b'.HealthOnly b'') : b.HealthOnly b'' := by
  unfold Block.HealthOnly at *
  rw [h', h]

theorem Block.HealthOnly.foldl {β : Type} {step : Block → β → Block} (h : ∀ (b : Block) x, b.HealthOnly (step b x)) (l : List β) (b : Block) :
    b.HealthOnly (l.foldl step b) := by
  induction l generalizing b with
  | nil => rfl
  | cons x l ih => exact (h b x).trans (ih (step b x))

/-- A clean BIST changes the health manager's records alone. -/
theorem Block.sortUnits_of_clean {t : UnitType} (h : ∀ u ∈ t.units, (b.unit u).fresh) :
    b.HealthOnly (b.sortUnits [] t) := by
  obtain ⟨lost, hsort, hlost⟩ := Block.sortUnits_of_fresh (failed := []) h
  rw [hlost rfl] at hsort
  rw [hsort]
  have hnone : t.units.filter (fun u => ([] : List Nat).contains u) = [] := by simp
  rw [hnone]
  refine (Block.HealthOnly.foldl ?_ _ _).trans (Block.HealthOnly.foldl ?_ _ _)
  · exact fun _ _ => rfl
  · exact fun _ _ => rfl

end

/-! ## All types -/

section
variable {b : Block} {failed : List Nat}

/-- The types hold the units from 0 to 273, each once. -/
theorem unitTypes_cover {u : Nat} (h : u < 274) : u ∈ (typeOf u).units ∧ typeOf u ∈ unitTypes := by
  unfold typeOf
  simp only [UnitType.mem_units, unitTypes, laneType, oxType, latType, drakeType, bankType]
  split_ifs <;> simp <;> omega

theorem unitTypes_apart : unitTypes.Pairwise fun t t' => ∀ u ∈ t.units, u ∉ t'.units := by
  have happart : unitTypes.Pairwise fun t t' => t.first + t.count ≤ t'.first := by decide
  refine happart.imp fun h u hu hu' => ?_
  rw [UnitType.mem_units] at hu hu'
  omega

/-- Sorting types that share no unit. -/
theorem Block.foldl_sortUnits_spec (ts : List UnitType) (hapart : ts.Pairwise fun t t' => ∀ u ∈ t.units, u ∉ t'.units) (b : Block)
    (h : ∀ t ∈ ts, ∀ u ∈ t.units, (b.unit u).fresh) :
    let b' := ts.foldl (Block.sortUnits failed) b
    (∀ t ∈ ts, ∀ v ∈ t.units, (b'.unit v).st = t.sorted failed v) ∧
      (∀ v, (∀ t ∈ ts, v ∉ t.units) → (b'.unit v).st = (b.unit v).st) ∧ b'.mode = b.mode ∧
      (failed = [] → b.HealthOnly b') := by
  induction ts generalizing b with
  | nil => exact ⟨fun _ ht => absurd ht List.not_mem_nil, fun _ _ => rfl, rfl, fun _ => rfl⟩
  | cons t ts ih =>
    obtain ⟨hhead, htail⟩ := List.pairwise_cons.1 hapart
    have hfresh := h t List.mem_cons_self
    have hst := Block.st_sortUnits_of_fresh (failed := failed) hfresh
    obtain ⟨hin, hout, hmode, hclean⟩ := ih htail (b.sortUnits failed t) fun t' ht' u hu => by
      have hu' : u ∉ t.units := fun hut => hhead t' ht' u hut hu
      unfold UnitRec.fresh
      rw [hst, if_neg hu']
      exact h t' (List.mem_cons_of_mem _ ht') u hu
    refine ⟨fun t' ht' v hv => ?_, fun v hv => ?_, hmode.trans (Block.mode_sortUnits_of_fresh hfresh), fun hnone => ?_⟩
    · obtain rfl | ht' := List.mem_cons.1 ht'
      · exact (hout v fun t'' ht'' => hhead t'' ht'' v hv).trans ((hst v).trans (if_pos hv))
      · exact hin t' ht' v hv
    · exact (hout v fun t' ht' => hv t' (List.mem_cons_of_mem _ ht')).trans ((hst v).trans (if_neg (hv t List.mem_cons_self)))
    · subst hnone
      exact (Block.sortUnits_of_clean hfresh).trans (hclean rfl)

/-! ## BIST -/

/-- In a clean BIST the first units of each type enter service. -/
theorem UnitType.sorted_of_clean {u : Nat} (h : u < 274) : (typeOf u).sorted [] u =
    if u < 98 ∨ (112 ≤ u ∧ u < 160) ∨ (168 ≤ u ∧ u < 184) ∨ (188 ≤ u ∧ u < 204) ∨ (206 ≤ u ∧ u < 270) then .inService else .spare := by
  have htake : ∀ t : UnitType, u ∈ (t.passed []).take t.inServiceCount ↔ t.first ≤ u ∧ u < t.first + min t.inServiceCount t.count := by
    intro t
    have hall : t.passed [] = t.units := by simp [UnitType.passed]
    rw [hall, UnitType.units, ← List.map_take, List.take_range]
    simp only [List.mem_map, List.mem_range]
    exact ⟨fun ⟨i, hi, h⟩ => by omega, fun h => ⟨u - t.first, by omega, by omega⟩⟩
  unfold UnitType.sorted
  rw [if_neg List.not_mem_nil]
  simp only [htake]
  refine if_congr ?_ rfl rfl
  unfold typeOf
  split_ifs <;> simp only [laneType, oxType, latType, drakeType, bankType] <;> omega

/-- The units before the boot's BIST, sorted, and the lanes of the key pair picked. -/
def Block.bistSorted (b : Block) (failed : List Nat) : Block := (unitTypes.foldl (Block.sortUnits failed) b).pickKeyLanes

/-- The types that have no unit in service. -/
def Block.deadTypes (b : Block) : List (UnitType × Nat) := unitTypes.zipIdx.filter fun x => b.countUnits x.1 .inService == 0

theorem Block.bistEnd_eq {v w : Block} (hv : b.bistSorted failed = v) (hup : b.mode.porstLow = false) (hbist : b.mode.bistDone = false) (hstep : b.mode.bootStep = 1)
    (hw : w = { v with mode := { v.mode with bistDone := true, wiping := false } }) :
    b.bistEnd failed =
      if w.deadTypes.isEmpty then
        { w with mode := { w.mode with bootStep := 2 }, hen := { w.hen with phase := .warmup, phaseAt := w.now } }
      else w.deadTypes.foldl (fun b x => b.note 0x0034 3 x.2 x.1.inServiceCount) w := by
  unfold Block.bistSorted at hv
  unfold Block.bistEnd
  rw [if_neg (by simp [hup, hbist, hstep]), hv, hw]
  rfl

/-- The key lanes are picked among the lanes: nothing else changes. -/
theorem Block.pickKeyLanes_frame : b.pickKeyLanes = { b with lanes := b.pickKeyLanes.lanes } := by
  unfold Block.pickKeyLanes
  refine List.foldlRecOn (motive := fun x : Block => x = { b with lanes := x.lanes }) _ _ rfl fun x hx l _ => ?_
  exact congrArg (fun y : Block => { y with lanes := (x.modLane l fun r => { r with role := .keyLoading }).lanes }) hx

/-- Every unit after BIST, and the mode. -/
theorem Block.bistSorted_spec (hfresh : ∀ u, (b.unit u).fresh) :
    (∀ v, v < 274 → ((b.bistSorted failed).unit v).st = (typeOf v).sorted failed v) ∧ (b.bistSorted failed).mode = b.mode := by
  obtain ⟨hin, _, hmode, _⟩ := Block.foldl_sortUnits_spec (failed := failed) unitTypes unitTypes_apart b fun _ _ u _ => hfresh u
  have hframe := Block.pickKeyLanes_frame (b := unitTypes.foldl (Block.sortUnits failed) b)
  refine ⟨fun v hv => ?_, ?_⟩
  · obtain ⟨hunits, htypes⟩ := unitTypes_cover hv
    have hhealth : (b.bistSorted failed).health = (unitTypes.foldl (Block.sortUnits failed) b).health := by
      unfold Block.bistSorted
      rw [hframe]
    rw [Block.unit_congr hhealth]
    exact hin _ htypes v hunits
  · unfold Block.bistSorted
    rw [hframe]
    exact hmode

/-- A note of severity 3 keeps the units and that BIST is done. -/
theorem Block.note_keeps_units (kind sev subject detail : Nat) :
    (b.note kind sev subject detail).health = b.health ∧ (b.note kind sev subject detail).mode.bistDone = b.mode.bistDone := by
  have hrec : (b.noteRec kind sev subject detail).health = b.health ∧ (b.noteRec kind sev subject detail).mode = b.mode := by
    unfold Block.noteRec
    split
    · next h =>
      have hnote := Block.onlyRec_noteRec b kind sev subject detail h
      rw [Block.noteRec, if_pos h] at hnote
      exact ⟨(congrArg Block.health hnote).trans rfl, (congrArg Block.mode hnote).trans rfl⟩
    · have hnote := (Block.noteHigh_spec (b := b) kind subject detail).1
      exact ⟨(congrArg Block.health hnote).trans rfl, (congrArg Block.mode hnote).trans rfl⟩
  unfold Block.note
  refine iteInduction (motive := fun x : Block => x.health = b.health ∧ x.mode.bistDone = b.mode.bistDone) (fun _ => ?_) fun _ =>
    ⟨hrec.1, congrArg ModeCtl.bistDone hrec.2⟩
  rcases Block.fixed_enterLocked (b.noteRec kind sev subject detail) 3 with h | h
  · exact ⟨(Block.health_of_fixed h).trans hrec.1, congrArg ModeCtl.bistDone ((Block.mode_of_fixed h).trans hrec.2)⟩
  · have hmode := congrArg ModeCtl.bistDone (Block.mode_of_fixed h)
    exact ⟨(Block.health_of_fixed h).trans hrec.1, hmode.trans (congrArg ModeCtl.bistDone hrec.2 : _)⟩

/-- BIST sorts every unit, whatever it finds. -/
theorem Block.bistEnd_sorts (hup : b.mode.porstLow = false) (hbist : b.mode.bistDone = false) (hstep : b.mode.bootStep = 1)
    (hfresh : ∀ u, (b.unit u).fresh) :
    (b.bistEnd failed).mode.bistDone = true ∧ ∀ v, v < 274 → ((b.bistEnd failed).unit v).st = (typeOf v).sorted failed v := by
  obtain ⟨hst, _⟩ := Block.bistSorted_spec (failed := failed) hfresh
  obtain ⟨v, hv⟩ : ∃ v, b.bistSorted failed = v := ⟨_, rfl⟩
  rw [hv] at hst
  obtain ⟨w, hw⟩ : ∃ w : Block, w = { v with mode := { v.mode with bistDone := true, wiping := false } } := ⟨_, rfl⟩
  have hwst : ∀ u, u < 274 → (w.unit u).st = (typeOf u).sorted failed u := by
    intro u hu
    rw [hw]
    exact hst u hu
  have hwdone : w.mode.bistDone = true := by rw [hw]
  rw [Block.bistEnd_eq hv hup hbist hstep hw]
  refine iteInduction (motive := fun x : Block => x.mode.bistDone = true ∧ ∀ v, v < 274 → (x.unit v).st = (typeOf v).sorted failed v)
    (fun _ => ⟨hwdone, hwst⟩) fun _ => ?_
  have hkeeps := fun l => foldl_keeps (fun x : Block => (x.health, x.mode.bistDone))
    (fun (x : Block) (y : UnitType × Nat) => Prod.ext (x.note_keeps_units 0x0034 3 y.2 y.1.inServiceCount).1
      (x.note_keeps_units 0x0034 3 y.2 y.1.inServiceCount).2) l w
  refine ⟨(congrArg Prod.snd (hkeeps _)).trans hwdone, fun v hv => ?_⟩
  rw [Block.unit_congr (congrArg Prod.fst (hkeeps _))]
  exact hwst v hv


/-! ## A clean BIST -/

/-- The first unit of each type is among those that enter service. -/
theorem unitTypes_first : ∀ t ∈ unitTypes, 0 < t.count ∧ t.first < 274 ∧ (t.first < 98 ∨ (112 ≤ t.first ∧ t.first < 160) ∨
    (168 ≤ t.first ∧ t.first < 184) ∨ (188 ≤ t.first ∧ t.first < 204) ∨ (206 ≤ t.first ∧ t.first < 270)) := by
  decide

/-- Where the units are as a clean BIST leaves them, no type is without one in service. -/
theorem Block.deadTypes_of_clean (h : ∀ u, u < 274 → (b.unit u).st = (typeOf u).sorted [] u) : b.deadTypes = [] := by
  refine List.filter_eq_nil_iff.2 fun x hx => ?_
  obtain ⟨hcount, hlt, hrange⟩ := unitTypes_first x.1 (List.fst_mem_of_mem_zipIdx hx)
  have hserves : b.inService x.1.first = true := by
    unfold Block.inService
    rw [h _ hlt, UnitType.sorted_of_clean hlt, if_pos hrange]
    rfl
  have hmem : x.1.first ∈ x.1.units.filter fun u => (b.unit u).st == .inService :=
    List.mem_filter.2 ⟨UnitType.mem_units.2 ⟨le_rfl, by omega⟩, hserves⟩
  have hpos : 0 < b.countUnits x.1 .inService := List.length_pos_of_mem hmem
  simpa using Nat.ne_of_gt hpos

/-- The highest two lanes in service load the key-management configuration. -/
theorem Block.pickKeyLanes_of_clean (h : ∀ l, l < 112 → b.inService l = decide (l < 98)) :
    (b.pickKeyLanes.lane 96).role = .keyLoading ∧ (b.pickKeyLanes.lane 97).role = .keyLoading := by
  have hunits : laneType.units = List.range 112 := by decide
  have hserving : laneType.units.filter b.inService = List.range 98 := by
    rw [hunits, List.filter_congr fun l hl => h l (List.mem_range.1 hl)]
    decide
  have hlast : (List.range 98).drop ((List.range 98).length - 2) = [96, 97] := by decide
  unfold Block.pickKeyLanes
  simp only [hserving, hlast, List.foldl_cons, List.foldl_nil, Block.lane_modLane]
  exact ⟨rfl, rfl⟩

theorem Block.bistEnd_of_clean (hup : b.mode.porstLow = false) (hbist : b.mode.bistDone = false) (hstep : b.mode.bootStep = 1)
    (hfresh : ∀ u, (b.unit u).fresh) :
    let b' := b.bistEnd []
    (b'.lane 96).role = .keyLoading ∧ (b'.lane 97).role = .keyLoading ∧
      b'.mode = { b.mode with bistDone := true, bootStep := 2, wiping := false } ∧
      b'.hen = { b.hen with phase := .warmup, phaseAt := b.now } ∧
      b' = { b with health := b'.health, lanes := b'.lanes, mode := b'.mode, hen := b'.hen } := by
  obtain ⟨hst, hmode⟩ := Block.bistSorted_spec (failed := []) hfresh
  obtain ⟨x, hx⟩ : ∃ x, x = unitTypes.foldl (Block.sortUnits []) b := ⟨_, rfl⟩
  obtain ⟨_, _, _, hclean⟩ := Block.foldl_sortUnits_spec (failed := []) unitTypes unitTypes_apart b fun _ _ u _ => hfresh u
  have hxonly : b.HealthOnly x := by rw [hx]; exact hclean rfl
  obtain ⟨v, hv⟩ : ∃ v, b.bistSorted [] = v := ⟨_, rfl⟩
  have hvx : v = x.pickKeyLanes := by rw [← hv, hx]; rfl
  have hvframe : v = { b with health := v.health, lanes := v.lanes } := by
    rw [hvx, Block.pickKeyLanes_frame]
    exact congrArg (fun y : Block => { y with lanes := x.pickKeyLanes.lanes }) hxonly
  rw [hv] at hst hmode
  obtain ⟨w, hw⟩ : ∃ w : Block, w = { v with mode := { v.mode with bistDone := true, wiping := false } } := ⟨_, rfl⟩
  have hdead : w.deadTypes = [] := Block.deadTypes_of_clean fun u hu => by rw [hw]; exact hst u hu
  have hend : b.bistEnd [] = { w with
      mode := { w.mode with bootStep := 2 }, hen := { w.hen with phase := .warmup, phaseAt := w.now } } := by
    rw [Block.bistEnd_eq hv hup hbist hstep hw, hdead]
    rfl
  have hserving : ∀ l, l < 112 → x.inService l = decide (l < 98) := by
    intro l hl
    have hunit : x.unit l = v.unit l := by
      rw [hvx, Block.pickKeyLanes_frame]
      rfl
    unfold Block.inService
    rw [hunit, hst l (by omega), UnitType.sorted_of_clean (by omega)]
    by_cases h : l < 98
    · simp [h]
    · rw [if_neg (by omega), decide_eq_false h]
      rfl
  obtain ⟨h96, h97⟩ := Block.pickKeyLanes_of_clean hserving
  rw [← hvx] at h96 h97
  have hnow : v.now = b.now := (congrArg Block.now hvframe).trans rfl
  have hhen : v.hen = b.hen := (congrArg Block.hen hvframe).trans rfl
  intro b'
  have hb' : b' = { v with
      mode := { b.mode with bistDone := true, bootStep := 2, wiping := false }
      hen := { b.hen with phase := .warmup, phaseAt := b.now } } := by
    refine hend.trans ?_
    rw [hw, ← hmode, ← hhen, ← hnow]
    rfl
  refine ⟨?_, ?_, ?_, ?_, ?_⟩
  · rw [hb']
    exact h96
  · rw [hb']
    exact h97
  · rw [hb']
  · rw [hb']
  · rw [hb']
    exact congrArg (fun y : Block => { y with
      mode := { b.mode with bistDone := true, bootStep := 2, wiping := false }
      hen := { b.hen with phase := .warmup, phaseAt := b.now } }) hvframe


/-! ## Image loads -/

/-- Reads that go out one after another, none of them outstanding. -/
theorem Block.readImage_eq (len : Nat) : b.readImage len = { b with bus := (b.bus ++
    (pieces (b.img.addr.toNat * 64 + 256) (len - 256)).map fun x => .read b.pickPort 0 0xFFFF false x.1 x.2) } := by
  have hreads : ∀ (l : List (Nat × Nat)) (v : Block), l.foldl (fun b x => b.put (.read b.pickPort 0 0xFFFF false x.1 x.2)) v =
      { v with bus := (v.bus ++ l.map fun x => .read v.pickPort 0 0xFFFF false x.1 x.2) } := by
    intro l
    induction l with
    | nil =>
      intro v
      rw [List.map_nil, List.append_nil]
      rfl
    | cons x l ih =>
      intro v
      rw [List.foldl_cons, ih, List.map_cons]
      exact congrArg (fun y : List Sent => { v with bus := y }) (List.append_assoc _ _ _)
  exact hreads _ b

/-- A halt changes, of mode and image, the halt alone. -/
theorem Block.haltBlock_spec (cause reason : Nat) :
    (b.haltBlock cause reason).img = b.img ∧
      (b.haltBlock cause reason).mode = { b.mode with halted := true, haltCause := cause } := by
  obtain ⟨v, hv⟩ : ∃ v : Block, v = { b with mode := { b.mode with halted := true, haltCause := cause } } := ⟨_, rfl⟩
  have hfixed : (b.haltBlock cause reason).fixed = v.fixed := by
    unfold Block.haltBlock
    rw [Block.fixed_note_of_low _ _ _ _ _ (by decide), Block.fixed_cutAll, Block.fixed_releaseAll, hv]
  refine ⟨(Block.img_of_fixed hfixed).trans ?_, (Block.mode_of_fixed hfixed).trans ?_⟩
  · rw [hv]
  · rw [hv]

theorem Block.failLoad_of_rejected {reason : Nat} (h : isMalformed reason = false) (off : Nat) : b.failLoad reason off = { b with
    img := { b.img with st := 6, reason := reason, faultOff := 0, staged := none }, mode := { b.mode with bootStep := 3 } } := by
  unfold Block.failLoad
  simp only [h, Bool.false_eq_true, if_false]

theorem Block.failLoad_of_malformed {reason : Nat} (h : isMalformed reason = true) (off : Nat) : b.failLoad reason off =
    ({ b with img := { b.img with st := 7, reason := reason, faultOff := off, staged := none } } : Block).haltBlock 1 reason := by
  unfold Block.failLoad
  simp only [h, if_true]

theorem Block.startImage_of_taken (hmode : b.mode.mode = .configure) (hhalted : b.mode.halted = false) (hloading : b.img.loading = false)
    (haddr : b.img.addr ≠ 0) : b.startImage = b.startLoad :=
  if_pos ⟨hmode, by simpa using hhalted, by simpa using hloading, haddr⟩

theorem Block.startImage_of_refused
    (h : b.mode.mode ≠ .configure ∨ b.mode.halted = true ∨ b.img.loading = true ∨ b.img.addr = 0) :
    b.startImage = { b with img := { b.img with startRefused := true } } := by
  refine if_neg ?_
  rintro ⟨hmode, hhalted, hloading, haddr⟩
  rcases h with h | h | h | h
  · exact h hmode
  · simp [h] at hhalted
  · simp [h] at hloading
  · exact haddr h

/-- The header is read once HEN is seeded. -/
theorem Block.fetchImage_of_seeded (hst : b.img.st = 1) (hseeded : b.mode.henSeeded = true) :
    let b' := b.fetchImage
    b'.img = { b.img with st := 2 } ∧ b'.mode = { b.mode with bootStep := 4 } ∧
      b'.bus = b.bus ++ ((pieces (b.img.addr.toNat * 64) 256).map fun x => .read b.pickPort 0 0xFFFF false x.1 x.2) ∧
      b' = { b with img := b'.img, mode := b'.mode, mport := b'.mport, bus := b'.bus } := by
  obtain ⟨hbus, hentries, honly⟩ := Block.issueRead_spec (b := b) b.pickPort 0 0xFFFF (b.img.addr.toNat * 64) 256 .image
  obtain ⟨v, hv⟩ : ∃ v, b.issueRead b.pickPort 0 0xFFFF (b.img.addr.toNat * 64) 256 .image = v := ⟨_, rfl⟩
  unfold Block.FlowOnly at honly
  rw [hv] at hbus hentries honly
  rw [hentries] at honly
  have hfetch : b.fetchImage = { v with img := { v.img with st := 2 }, mode := { v.mode with bootStep := 4 } } := by
    unfold Block.fetchImage
    rw [if_neg (by simp [hst, hseeded]), hv]
  have himg : v.img = b.img := (congrArg Block.img honly).trans rfl
  have hmode : v.mode = b.mode := (congrArg Block.mode honly).trans rfl
  intro b'
  have hb' : b' = { v with img := { b.img with st := 2 }, mode := { b.mode with bootStep := 4 } } := by
    rw [← himg, ← hmode]
    exact hfetch
  rw [hb']
  exact ⟨rfl, rfl, hbus, congrArg (fun x : Block => { x with img := { b.img with st := 2 }, mode := { b.mode with bootStep := 4 } }) honly⟩

/-- The image's reads have gone out and its bytes have come. -/
def Block.imageRead (b : Block) (image : Bytes) : Block := (b.readImage image.length).arrived .image

theorem Block.imageRead_frame (image : Bytes) : b.imageRead image = { b with mport := (b.imageRead image).mport, bus := (b.bus ++
    (pieces (b.img.addr.toNat * 64 + 256) (image.length - 256)).map fun x => .read b.pickPort 0 0xFFFF false x.1 x.2) } := by
  unfold Block.imageRead
  rw [Block.readImage_eq]
  rfl

theorem Block.imageFetched_of_failed {f : Fuses} {image : Bytes} (hst : b.img.st = 2) :
    b.imageFetched f false image = (b.imageRead image).failLoad 1 0 := by
  unfold Block.imageFetched
  rw [if_neg (by simp [hst])]
  rfl

theorem Block.imageFetched_of_error {f : Fuses} {image : Bytes} {reason off : Nat} (hst : b.img.st = 2)
    (hcheck : checkImage f image = .error (reason, off)) : b.imageFetched f true image = (b.imageRead image).failLoad reason off := by
  unfold Block.imageFetched
  rw [if_neg (by simp [hst])]
  simp only [hcheck]
  rfl

theorem Block.imageFetched_of_ok {f : Fuses} {image : Bytes} {v : Block} (hv : b.imageRead image = v) (hst : b.img.st = 2)
    (hcheck : checkImage f image = .ok ()) :
    b.imageFetched f true image = { v with
      img := { v.img with
        st := 4, staged := some (imageOf image)
        advanceTo := if (imageOf image).advance = true ∧ f.rollback < (imageOf image).rollback then
          some ((imageOf image).rollback, v.now + 100) else none }
      mode := { v.mode with bootStep := 5 } } := by
  unfold Block.imageRead at hv
  unfold Block.imageFetched
  rw [if_neg (by simp [hst]), hv]
  simp only [hcheck]
  rfl

/-! ## The end of boot -/

/-- Mode, image, power registers and the sentinel. -/
def Block.kept (b : Block) : (TimeBase × ModeCtl × ImageCtl × Health × Power) × Gander := (b.fixed, b.gander)

theorem Block.kept_fitStaging : b.fitStaging.kept = b.kept := by
  unfold Block.fitStaging
  refine foldl_keeps Block.kept (fun v k => ?_) _ _
  rfl

theorem Block.kept_seedLane (l : Nat) : (b.seedLane l).kept = b.kept := by
  unfold Block.seedLane
  exact (apply_ite Block.kept _ _ _).trans (ite_self _)

theorem Block.kept_loadLanes : b.loadLanes.kept = b.kept := by
  have hlanes : ∀ (v : Block) l, ({ v with lanes := l } : Block).kept = v.kept := fun _ _ => rfl
  unfold Block.loadLanes
  refine (hlanes _ _).trans ((foldl_keeps Block.kept (fun v l => v.kept_seedLane l) _ _).trans ?_)
  refine (foldl_keeps Block.kept (fun v l => ?_) _ _).trans ((foldl_keeps Block.kept (fun v x => ?_) _ _).trans ?_)
  · rfl
  · rfl
  · rfl

theorem Block.kept_loadFirmware : b.loadFirmware.kept = b.kept := by
  unfold Block.loadFirmware
  refine (foldl_keeps Block.kept (fun v u => ?_) _ _).trans ?_
  · rfl
  · rfl

theorem Block.fixed_beginFrame : b.beginFrame.fixed = b.fixed := by
  unfold Block.beginFrame
  refine (foldl_keeps Block.fixed (fun v p => ?_) _ _).trans ?_
  · rfl
  · rfl

theorem Block.fixed_beginTwin : b.beginTwin.fixed = b.fixed := by
  unfold Block.beginTwin
  refine (foldl_keeps Block.fixed (fun v p => ?_) _ _).trans ?_
  · exact Block.fixed_issueRead _ _ _ _ _ _ _
  · rfl

/-- The mode that follows CONFIGURE. -/
def Gander.firstMode (g : Gander) : Mode :=
  if g.lockLatch || g.eraseLatch then .locked else if g.masterKey.isSome then .operational else .zeroized

theorem Block.leaveConfigure_spec :
    b.leaveConfigure.img = b.img ∧ b.leaveConfigure.power = b.power ∧ b.leaveConfigure.mode.ready = true ∧
      b.leaveConfigure.mode.bootStep = 0 ∧ b.leaveConfigure.mode.imgLoaded = true ∧ b.leaveConfigure.mode.mode = b.gander.firstMode :=
  ⟨rfl, rfl, rfl, rfl, rfl, rfl⟩

/-- The end of boot puts the staged image in force. -/
theorem Block.bootEnd_of_staged {f : Fuses} {i : Image} (hstaged : b.img.staged = some i) (hst : b.img.st = 4)
    (hdone : b.img.advanceTo = none) (hmode : b.mode.mode = .configure) :
    let b' := b.bootEnd f
    b'.img = { b.img with st := 5, staged := none, inForce := i, imageId := i.imageId } ∧ b'.mode.ready = true ∧ b'.mode.bootStep = 0 ∧
      b'.mode.imgLoaded = true ∧ b'.power.freq = ((List.range 140).map fun d => min 10 (b.power.ceilingOf d)) ∧
      b'.mode.mode = b.gander.firstMode := by
  obtain ⟨v, hv⟩ : ∃ v : Block, v = { b with
      img := { b.img with st := 5, staged := none, inForce := i, imageId := i.imageId }
      gander := { b.gander with cfg := sentinelCfg f i.sentinel }
      power := { b.power with freq := (List.range 140).map fun d => min 10 (b.power.ceilingOf d) } } := ⟨_, rfl⟩
  obtain ⟨w, hw⟩ : ∃ w, w = (v.fitStaging.loadLanes).loadFirmware := ⟨_, rfl⟩
  have hwkept : w.kept = v.kept := by
    rw [hw, Block.kept_loadFirmware, Block.kept_loadLanes, Block.kept_fitStaging]
  have hwfixed : w.fixed = v.fixed := congrArg Prod.fst hwkept
  have hwgander : w.gander = v.gander := congrArg Prod.snd hwkept
  have hend : b.bootEnd f = w.leaveConfigure.beginFrame.beginTwin := by
    unfold Block.bootEnd
    simp only [hstaged]
    rw [if_neg (by simp [hst, hdone, hmode]), hw, hv]
  have hfixed : (b.bootEnd f).fixed = w.leaveConfigure.fixed := by
    rw [hend, Block.fixed_beginTwin, Block.fixed_beginFrame]
  obtain ⟨himg, hpower, hready, hstep, hloaded, hfirst⟩ := Block.leaveConfigure_spec (b := w)
  have hmode' := Block.mode_of_fixed hfixed
  refine ⟨?_, ?_, ?_, ?_, ?_, ?_⟩
  · rw [Block.img_of_fixed hfixed, himg, Block.img_of_fixed hwfixed, hv]
  · rw [hmode', hready]
  · rw [hmode', hstep]
  · rw [hmode', hloaded]
  · rw [Block.power_of_fixed hfixed, hpower, Block.power_of_fixed hwfixed, hv]
  · rw [hmode', hfirst, hwgander, hv]
    rfl

end

/-! ## The obligation -/

/-- Settles O49: BIST, the load of an image, the fuse counter, the end of boot and calibration, one by one. -/
theorem boot : Obligations.Boot := by
  unfold Obligations.Boot
  intro s b i now
  refine ⟨?_, ?_, ?_, ?_, ?_, ?_, ?_, ?_⟩
  · intro hup hbist hstep hfresh
    obtain ⟨h96, h97, hmode, hhen, honly⟩ := Block.bistEnd_of_clean hup hbist hstep hfresh
    obtain ⟨_, hst⟩ := Block.bistEnd_sorts (failed := []) hup hbist hstep hfresh
    obtain ⟨w, hw⟩ : ∃ w, b.bistEnd [] = w := ⟨_, rfl⟩
    rw [hw] at h96 h97 hmode hhen honly hst
    exact ⟨_, next_congr hw, fun u hu => (hst u hu).trans (UnitType.sorted_of_clean hu), h96, h97, hmode, hhen,
      congrArg (fun x : Block => { s with blk := x }) honly⟩
  · intro failed hup hbist hstep hfresh
    obtain ⟨hdone, hst⟩ := Block.bistEnd_sorts (failed := failed) hup hbist hstep hfresh
    obtain ⟨w, hw⟩ : ∃ w, b.bistEnd failed = w := ⟨_, rfl⟩
    rw [hw] at hdone hst
    refine ⟨_, next_congr hw, hdone, fun u hu => ?_⟩
    rw [hst u hu]
    unfold UnitType.sorted
    by_cases hf : u ∈ failed
    · simp [hf]
    · by_cases ht : u ∈ ((typeOf u).passed failed).take (typeOf u).inServiceCount
      · simp [hf, ht]
      · simp [hf, ht]
  · intro hup
    have hexec : exec (.imageLoadStart 0) s = .next { s with blk := s.blk.okWrite.startImage } :=
      next_congr (Block.globalWrite_of_owner (f := fun b => b.startImage) (addr := 0x10008) hup)
    exact ⟨fun hmode hhalted hloading haddr =>
        hexec.trans (next_congr (Block.startImage_of_taken (b := s.blk.okWrite) hmode hhalted hloading haddr)),
      fun hrefused => hexec.trans (next_congr (Block.startImage_of_refused (b := s.blk.okWrite) hrefused))⟩
  · intro hst hseeded
    obtain ⟨himg, hmode, hbus, honly⟩ := Block.fetchImage_of_seeded hst hseeded
    exact ⟨_, rfl, himg, hmode, hbus, congrArg (fun x : Block => { s with blk := x }) honly⟩
  · intro bytes hst
    have hframe := Block.imageRead_frame (b := b) bytes
    obtain ⟨v, hv⟩ : ∃ v, b.imageRead bytes = v := ⟨_, rfl⟩
    rw [hv] at hframe
    have hvimg : v.img = i := (congrArg Block.img hframe).trans rfl
    have hvmode : v.mode = b.mode := (congrArg Block.mode hframe).trans rfl
    refine ⟨?_, ?_⟩
    · cases hcheck : checkImage s.fuses bytes with
      | error x =>
        obtain ⟨reason, off⟩ := x
        have hend := Block.imageFetched_of_error hst hcheck
        rw [hv] at hend
        refine ⟨_, next_congr hend, fun hreason => ?_, fun hreason _ _ => ?_⟩
        · have hkind : isMalformed reason = false := by
            simp only [isMalformed, Bool.or_eq_false_iff, Bool.and_eq_false_iff, decide_eq_false_iff_not]
            omega
          rw [Block.failLoad_of_rejected hkind, hvimg, hvmode]
          exact ⟨rfl, rfl⟩
        · have hkind : isMalformed reason = true := by
            simp only [isMalformed, Bool.or_eq_true, Bool.and_eq_true, decide_eq_true_eq]
            omega
          rw [Block.failLoad_of_malformed hkind]
          obtain ⟨himg, hmode⟩ := Block.haltBlock_spec (b := { v with
            img := { v.img with st := 7, reason := reason, faultOff := off, staged := none } }) 1 reason
          exact ⟨himg.trans (congrArg (fun x : ImageCtl => { x with st := 7, reason := reason, faultOff := off, staged := none }) hvimg),
            hmode.trans (congrArg (fun x : ModeCtl => { x with halted := true, haltCause := 1 }) hvmode)⟩
      | ok x =>
        have hvnow : v.now = now := (congrArg Block.now hframe).trans rfl
        have hend := Block.imageFetched_of_ok hv hst hcheck
        rw [hvimg, hvmode, hvnow] at hend
        have hbus : v.bus = b.bus ++ ((pieces (b.img.addr.toNat * 64 + 256) (bytes.length - 256)).map fun x =>
          .read b.pickPort 0 0xFFFF false x.1 x.2) := (congrArg Block.bus hframe).trans rfl
        refine ⟨_, next_congr hend, rfl, rfl, hbus, ?_⟩
        rw [← hbus] at hframe
        exact congrArg (fun x : Block => ({ s with blk := { x with
          img := { b.img with
            st := 4, staged := some (imageOf bytes)
            advanceTo := if (imageOf bytes).advance = true ∧ s.fuses.rollback < (imageOf bytes).rollback then
              some ((imageOf bytes).rollback, b.now + 100) else none }
          mode := { b.mode with bootStep := 5 } } } : State)) hframe
    · have hend := Block.imageFetched_of_failed (f := s.fuses) (image := bytes) hst
      rw [hv, Block.failLoad_of_rejected rfl] at hend
      refine ⟨_, next_congr hend, ?_⟩
      rw [hvimg, hvmode]
      exact ⟨rfl, rfl⟩
  · intro r t0 hadvance hdue hmore
    show execFuseAdvanceStep s = _
    unfold execFuseAdvanceStep
    rw [show s.blk.img.advanceTo = some (r, t0) from hadvance]
    exact if_pos ⟨hdue, hmore⟩
  · intro image hstaged hst hdone hmode
    obtain ⟨himg, hready, hstep, hloaded, hfreq, hfirst⟩ := Block.bootEnd_of_staged (f := s.fuses) hstaged hst hdone hmode
    refine ⟨_, rfl, himg, hready, hstep, hloaded, fun d hd => ?_, hfirst⟩
    exact (congrArg (nth 0 · d) hfreq).trans (nth_map_range 0 _ hd)
  · intro hready hcal
    have hb : (if b.mode.ready && !b.mode.calDone then ({ b with
        mode := { b.mode with calDone := true }, power := b.power.mapFreq fun d _ => b.power.ceilingOf d } : Block) else b) = _ :=
      if_pos (by simp [hready, hcal])
    refine ⟨_, next_congr hb, rfl, fun d hd => ?_, rfl⟩
    refine (Power.nth_mapFreq _ _ _).trans (if_congr ?_ rfl rfl)
    exact and_iff_left hd

end Sys2Proof.Machine

/-! Modes and health (O50): mode requests and their drains, retests, self-tests, store errors and migrations. -/

namespace Sys2Proof.Machine

open Sys2Proof

section
variable {b : Block} {u : Nat}

/-! ## Mode requests -/

theorem Block.requestMode_of_operational (h : b.mode.mode = .operational) :
    b.requestMode 4 = { b with mode := { b.mode with transition := some .maintenance } } := by
  unfold Block.requestMode
  rw [h]
  rfl

theorem Block.requestMode_of_maintenance (h : b.mode.mode = .maintenance) :
    b.requestMode 3 = { b with mode := { b.mode with transition := some .operational } } := by
  unfold Block.requestMode
  rw [h]
  rfl

/-- A request that the table of 03 R59 does not hold. -/
theorem Block.requestMode_of_refused {n : Nat} (hn : n ≠ 0) (h4 : b.mode.mode = .operational → n ≠ 4)
    (h3 : b.mode.mode = .maintenance → n ≠ 3) : b.requestMode n = { b with mode := { b.mode with reqRefused := true } } := by
  unfold Block.requestMode
  split
  · exact absurd rfl hn
  · next h => exact absurd rfl (h4 h)
  · next h => exact absurd rfl (h3 h)
  · rfl

/-! ## Retests -/

/-- A retired unit keeps all but its state, and is counted; the others stay. -/
theorem Block.retire_spec (b : Block) (u : Nat) :
    (b.retire u).unit u = { b.unit u with st := .retired } ∧
      (b.retire u).health.retirements = min (b.health.retirements + 1) (2 ^ 16 - 1) ∧ ∀ v, v ≠ u → (b.retire u).unit v = b.unit v := by
  obtain ⟨w, hw⟩ : ∃ w : Block, w = b.modUnit u fun r => { r with st := .retired } := ⟨_, rfl⟩
  have hhealth : (b.retire u).health = { w.health with retirements := satAdd 16 w.health.retirements 1 } := by
    unfold Block.retire
    rw [(Block.health_note_of_low (by decide) _ _ _ _).1, hw]
    rfl
  have hunit : ∀ v, (b.retire u).unit v = w.unit v := fun v => by
    unfold Block.unit
    rw [hhealth]
  refine ⟨?_, ?_, fun v hv => ?_⟩
  · rw [hunit, hw, Block.unit_modUnit, if_pos rfl]
  · rw [hhealth, hw]
    rfl
  · rw [hunit, hw, Block.unit_modUnit, if_neg hv.symm]

/-- A unit below the banks is retired without a change of staging. -/
theorem Block.retireUnit_of_engine (hu : u < 206) : b.retireUnit u = b.retire u := if_neg (Nat.not_le.2 hu)

/-- Quarantines of a unit within the last 24 operating hours. -/
def Block.recentQuarantines (b : Block) (u : Nat) : List Nat :=
  (b.unit u).quarantines.filter fun m => decide (b.recorder.copy.opMinutes < m + dayMinutes)

theorem Block.retested_of_failed (hst : (b.unit u).st = .quarantined) : b.retested u false = b.retireUnit u := by
  unfold Block.retested
  simp only [hst]
  rfl

/-- A passed retest, by the quarantines of the last 24 operating hours. -/
theorem Block.retested_of_passed (hst : (b.unit u).st = .quarantined) :
    let c : Block := { b with health := { b.health with retestPass := satAdd 16 b.health.retestPass 1 } }
    b.retested u true = if 3 ≤ (b.recentQuarantines u).length then c.retireUnit u else c.restore u := by
  unfold Block.retested
  simp only [hst]
  rfl

/-- With another spare of its type, a unit that passed becomes a spare. -/
theorem Block.restore_of_spares (h : (b.spares (typeOf u)).isEmpty = false) : b.restore u = b.modUnit u fun r => { r with st := .spare } :=
  if_neg (by simp [h])

/-! ## Store errors -/

/-- A bank in service is among those that migrate. -/
theorem Block.mem_migrating_migrate (h : b.inService u = true) : u ∈ (b.migrate u).store.migrating := by
  unfold Block.migrate
  by_cases hm : b.store.migrating.contains u = true
  · rw [if_pos (by simp only [hm, Bool.or_true])]
    simpa using hm
  · rw [if_neg (by simp only [h, hm]; decide)]
    exact List.mem_append_right _ (List.mem_singleton.2 rfl)

/-- Migration changes the list of migrating banks alone. -/
theorem Block.migrate_frame (b : Block) (u : Nat) :
    b.migrate u = { b with store := { b.store with migrating := (b.migrate u).store.migrating } } := by
  unfold Block.migrate
  split <;> rfl

end

/-! ## The obligation -/

/-- Settles O50: mode requests, retests, self-tests and store errors, one by one. -/
theorem modesAndHealth : Obligations.ModesAndHealth := by
  unfold Obligations.ModesAndHealth
  intro s u b m r now asks
  refine ⟨?_, ?_, ?_, ?_, ?_, ?_, ?_, ?_⟩
  · intro hup
    have hask : ∀ (c : Instr) (n : Nat), exec c s = s.run (fun b => b.globalWrite 0 0x1000 fun b => b.requestMode n) →
        exec c s = .next { s with blk := s.blk.okWrite.requestMode n } := fun c n hc =>
      hc.trans (next_congr (Block.globalWrite_of_owner (f := fun b => b.requestMode n) hup))
    refine ⟨fun hmode => ?_, fun hmode => ?_, fun hmode => ?_, fun hmode => ?_, fun n h0 h3 h4 => ?_⟩
    · exact (hask _ 4 rfl).trans (next_congr (Block.requestMode_of_operational (b := s.blk.okWrite) hmode))
    · exact (hask _ 3 rfl).trans (next_congr (Block.requestMode_of_maintenance (b := s.blk.okWrite) hmode))
    · exact (hask _ 4 rfl).trans (next_congr (Block.requestMode_of_refused (b := s.blk.okWrite) (by decide)
        (fun h => absurd h hmode) fun _ => by decide))
    · exact (hask _ 3 rfl).trans (next_congr (Block.requestMode_of_refused (b := s.blk.okWrite) (by decide)
        (fun _ => by decide) fun h => absurd h hmode))
    · exact (hask _ n rfl).trans (next_congr (Block.requestMode_of_refused (b := s.blk.okWrite) h0 (fun _ => h4) fun _ => h3))
  · intro hmode htransition hentries hrings
    have hentries' : s.blk.entries.any (fun e => e.part != 0) = false :=
      List.any_eq_false.2 fun e he => by simpa using hentries e he
    have hnone : ∀ x ∈ s.blk.rings, x.2.burst = none := hrings
    refine next_congr (if_pos ⟨hmode, htransition, ?_⟩)
    rw [Bool.not_eq_true', Bool.or_eq_false_iff]
    exact ⟨hentries', List.any_eq_false.2 fun x hx => by simp [hnone x hx]⟩
  · intro hmode htransition hidle
    exact next_congr (if_pos ⟨hmode, htransition, by simpa using hidle⟩)
  · intro hst hu
    obtain ⟨hretired, hcount, hothers⟩ := Block.retire_spec b u
    refine ⟨?_, fun hthree => ?_, fun hspares hfew => ?_⟩
    · exact ⟨_, next_congr ((Block.retested_of_failed hst).trans (Block.retireUnit_of_engine hu)), hretired, hcount, hothers⟩
    · obtain ⟨c, hc⟩ : ∃ c : Block, c = { b with health := { b.health with retestPass := satAdd 16 b.health.retestPass 1 } } := ⟨_, rfl⟩
      have hunit : ∀ v, c.unit v = b.unit v := fun v => by rw [hc]; rfl
      have hend := Block.retested_of_passed hst
      simp only [← hc] at hend
      obtain ⟨hretired', _, hothers'⟩ := Block.retire_spec c u
      rw [hunit] at hretired'
      exact ⟨_, next_congr (hend.trans ((if_pos hthree).trans (Block.retireUnit_of_engine hu))), hretired',
        fun v hv => (hothers' v hv).trans (hunit v)⟩
    · obtain ⟨c, hc⟩ : ∃ c : Block, c = { b with health := { b.health with retestPass := satAdd 16 b.health.retestPass 1 } } := ⟨_, rfl⟩
      have hunit : ∀ v, c.unit v = b.unit v := fun v => by rw [hc]; rfl
      have hend := Block.retested_of_passed hst
      simp only [← hc] at hend
      have hspares' : (c.spares (typeOf u)).isEmpty = false := by rw [hc]; exact hspares
      refine ⟨_, next_congr (hend.trans ((if_neg (Nat.not_le.2 hfew)).trans (Block.restore_of_spares hspares'))), ?_, ?_, fun v hv => ?_⟩
      · refine (Block.unit_modUnit c u _ u).trans ((if_pos rfl).trans ?_)
        rw [hunit]
      · rw [hc]
        rfl
      · exact (Block.unit_modUnit c u _ v).trans ((if_neg hv.symm).trans (hunit v))
  · intro hst hidle hdue hfree
    have htest : b.selfTest u true = b.modUnit u fun r => { r with tested := b.now } := by
      have hdue' : decide ((b.unit u).tested + 10000000 ≤ b.now) = true := decide_eq_true hdue
      unfold Block.selfTest
      simp only [hdue']
      rw [if_pos ⟨.inl hst, trivial, hfree, hidle⟩]
      rfl
    refine ⟨_, next_congr htest, ?_, fun v hv => ?_, rfl⟩
    · exact (Block.unit_modUnit b u _ u).trans (if_pos rfl)
    · exact (Block.unit_modUnit b u _ v).trans (if_neg hv.symm)
  · intro recent
    obtain ⟨c, hc⟩ : ∃ c : Block, c = { b with store := { b.store with
      corrected := satAdd 32 b.store.corrected 1, bankErrs := recent } } := ⟨_, rfl⟩
    have hend : b.corrected u = if 16 ≤ (recent.filter fun x => x.1 == u).length then c.migrate u else c := by
      rw [hc]
      rfl
    have hserves : b.inService u = true → c.inService u = true := fun h => by rw [hc]; exact h
    by_cases hmany : 16 ≤ (recent.filter fun x => x.1 == u).length
    · rw [if_pos hmany] at hend
      have hframe := Block.migrate_frame c u
      refine ⟨_, next_congr hend, ?_, ?_, fun _ h => Block.mem_migrating_migrate (hserves h), fun h => absurd hmany (Nat.not_le.2 h), ?_⟩
      · show (c.migrate u).store.corrected = _
        rw [hframe, hc]
        rfl
      · show (c.migrate u).store.bankErrs = _
        rw [hframe, hc]
      · refine congrArg (fun x : Block => { s with blk := x }) (hframe.trans ?_)
        rw [hframe, hc]
    · rw [if_neg hmany] at hend
      refine ⟨_, next_congr hend, ?_, ?_, fun h => absurd h hmany, fun _ => ?_, ?_⟩
      · rw [hc]
        rfl
      · rw [hc]
      · rw [hc]
      · rw [hc]
  · intro k i hserves
    obtain ⟨c, hc⟩ : ∃ c : Block, c = { b with store := { b.store with
      uncorrectable := satAdd 16 b.store.uncorrectable 1, lastBank := u - 206 } } := ⟨_, rfl⟩
    obtain ⟨d, hd⟩ : ∃ d : Block, d = (c.note 0x0032 0 (u - 206) 1).modCtx k fun x => { x with invalid := true } := ⟨_, rfl⟩
    have hend : b.uncorrectable u 1 k i = d.migrate u := by
      rw [hd, hc]
      rfl
    have hnote := Block.onlyRec_note (sev := 0) (by decide) c 0x0032 (u - 206) 1
    have hstore : d.store = c.store := by
      rw [hd]
      exact (congrArg Block.store hnote).trans rfl
    have hserves' : d.inService u = true := by
      refine Eq.trans ?_ hserves
      rw [hd]
      refine (congrArg (fun x : Block => x.inService u) hnote).trans ?_
      rw [hc]
      rfl
    have hframe := Block.migrate_frame d u
    refine ⟨_, next_congr hend, ?_, ?_, ?_, Block.mem_migrating_migrate hserves'⟩
    · show (d.migrate u).store.uncorrectable = _
      rw [hframe, hstore, hc]
      rfl
    · show (d.migrate u).store.lastBank = _
      rw [hframe, hstore, hc]
    · show ((d.migrate u).ctx k).invalid = true
      rw [hframe]
      show (d.ctx k).invalid = true
      rw [hd, Block.ctx_modCtx, if_pos rfl]
  · intro hmem
    exact next_congr (if_pos (by simpa using hmem))

end Sys2Proof.Machine

/-! O51: the draw of a handshake. `Block.unask` counts the request that a generator is serving (15 R348). -/

namespace Sys2Proof.Machine

open Sys2Proof

/-- A block with a pairing record, its link up and its HELLO due, while generator 0 serves an earlier request of the handshake. -/
def drawingBlock : Block :=
  { mode := { ready := true, mode := .operational }, twin := { record := true, linkUp := true }
    hen := { phase := .running, waiting := [{ prio := 2, bytes := 32, asked := 0, who := .handshake, inst := some 0 }] } }

/-- The HELLO that is due withdraws the earlier request, which generator 0 counts. -/
theorem requests_helloTick (f : Fuses) : (nth {} (Block.helloTick f drawingBlock).hen.insts 0).requests = 1 := rfl

/-- Refutes O51: HELLO_SEND withdraws the handshake's earlier request before it asks for a nonce; where a generator was serving that
request, as in `drawingBlock`, its count rises (15 R348), so more of HEN changes than the list of waiting requests. -/
theorem not_twinHandshake : ¬ Obligations.TwinHandshake := by
  unfold Obligations.TwinHandshake
  intro h
  obtain ⟨-, -, -, -, hsend, -⟩ := h { State.reset with blk := drawingBlock } 0 { ring := 0, sub := 0, part := 0 } ⟨0, 0, true, true⟩
  obtain ⟨t, ht, -, hdraws, -⟩ := hsend rfl rfl (Nat.le_refl 0) (by decide)
  have hrun : t = { State.reset with blk := Block.helloTick State.reset.fuses drawingBlock } := (Host.Outcome.next.inj ht).symm
  have hinsts := congrArg (fun h : Hen => (nth {} h.insts 0).requests) (hdraws)
  rw [hrun] at hinsts
  exact absurd ((requests_helloTick _).symm.trans hinsts) (by decide)

end Sys2Proof.Machine

/-! O52: frames of a session. What reception does with a frame is said once (`Block.receive_of_*`); then one lemma per frame kind on the
block that takes the frame. -/

namespace Sys2Proof.Machine

open Sys2Proof

section
variable {b : Block} {p : Nat}

/-! ## Twin state and roles -/

theorem Block.tw_modTw (f : PartTwin → PartTwin) : ((b.modTw p f).part p).tw = f (b.part p).tw := by
  unfold Block.modTw
  rw [Block.part_modPart, if_pos rfl]

theorem Block.part_modTw_ne {q : Nat} (f : PartTwin → PartTwin) (h : q ≠ p) : (b.modTw p f).part q = b.part q := by
  unfold Block.modTw
  rw [Block.part_modPart, if_neg h.symm]

/-- A role other than UNPAIRED and STANDBY is that of a paired partition. -/
theorem Block.paired_of_role {r : Role} (h : b.role p = r) (hr : r ≠ .unpaired) (hs : r ≠ .standby) :
    b.paired p = true ∧ (b.part p).tw.role = r := by
  by_cases hp : b.paired p = true
  · exact ⟨hp, by rw [← h, Block.role]; exact (if_pos hp).symm⟩
  · rw [Block.role, if_neg hp] at h
    by_cases hc : (p != 0 && (b.cfg p).paired && (b.cfg p).enabled && (b.part p).tw.detached) = true
    · exact absurd ((if_pos hc).symm.trans h).symm hs
    · exact absurd ((if_neg hc).symm.trans h).symm hr

theorem Block.not_executes_of_role {r : Role} (h : b.role p = r) (hr : r.executes = false) : b.executes p = false := by
  rw [Block.executes, h, hr, Bool.and_false]

/-! ## Requests -/

theorem Block.twin_of_flowOnly {b' : Block} (h : b.FlowOnly b') : b'.twin = b.twin := by
  rw [h]

theorem Block.part_of_flowOnly {b' : Block} (h : b.FlowOnly b') (q : Nat) : b'.part q = b.part q := by
  rw [h]
  rfl

@[simp] theorem Block.twin_issueRead (port part ring addr len pur) : (b.issueRead port part ring addr len pur).twin = b.twin :=
  Block.twin_of_flowOnly (b.issueRead_spec port part ring addr len pur).2.2

@[simp] theorem Block.part_issueRead (port part ring addr len pur) (q : Nat) :
    (b.issueRead port part ring addr len pur).part q = b.part q :=
  Block.part_of_flowOnly (b.issueRead_spec port part ring addr len pur).2.2 q

/-- Eight bytes at a multiple of eight are one piece. -/
theorem pieces_word {addr : Nat} (h : addr % 8 = 0) : pieces addr 8 = [(addr, 8)] := by
  show piecesAux 4 addr 8 = _
  rw [piecesAux]
  by_cases h64 : addr % 64 = 0
  · simp [h64, piecesAux]
  · have hmin : min 8 (64 - addr % 64) = 8 := by omega
    simp [h64, hmin, piecesAux]

/-- The read of a lease word is one request. -/
theorem Block.bus_readLease : (b.readLease p).bus = b.bus ++ [.read 0 p 0xFFFF false (b.leaseAddr p) 8] := by
  have hword : b.leaseAddr p % 8 = 0 := by
    unfold Block.leaseAddr
    omega
  exact (b.issueRead_spec 0 p 0xFFFF (b.leaseAddr p) 8 (.leaseRead p)).1.trans (by rw [pieces_word hword]; rfl)

/-! ## Reception -/

theorem Block.acknowledge_none : b.acknowledge (BitVec.allOnes 64) = b := by
  unfold Block.acknowledge
  split
  · rfl
  · exact if_pos (Or.inl (Nat.zero_le _))

variable {x : Session} {hdr : FrameHdr} {hs : Bool} {act : Block → Block}

/-- The block with the session's next frame counted. -/
def Block.heard (b : Block) (x : Session) : Block :=
  { b with twin := { b.twin with session := some { x with seqIn := x.seqIn + 1 } } }

theorem Block.receive_of_badCrc (hup : b.mode.porstLow = false) (hlink : b.twin.linkUp = true) (hcrc : hdr.crcOk = false) :
    b.receive hdr hs act = { b with twin := { b.twin with crcErr := min (b.twin.crcErr + 1) (2 ^ 16 - 1) } } := by
  unfold Block.receive
  rw [if_neg (by simp [hup, hlink]), if_pos (by simp [hcrc]), satAdd_eq]

theorem Block.receive_in_session (hup : b.mode.porstLow = false) (hlink : b.twin.linkUp = true) (hx : b.twin.session = some x)
    (hcrc : hdr.crcOk = true) (htag : hdr.tagOk = true) :
    b.receive hdr hs act = if hdr.seq.toNat ≠ x.seqIn then b else act ((b.heard x).acknowledge hdr.ack) := by
  unfold Block.receive
  rw [if_neg (by simp [hup, hlink]), if_neg (by simp [hcrc])]
  simp only [hx, htag]
  rfl

/-! ## Loss of the twin -/

theorem Block.loseTwinOf_of_home (h : (b.part p).tw.role = .home) :
    b.loseTwinOf p = (b.modTw p fun t => { t with handover := none, syncDone := none }).renewLease p true := by
  unfold Block.loseTwinOf
  rw [h]

theorem Block.loseTwinOf_of_shadow (h : (b.part p).tw.role = .shadow) :
    b.loseTwinOf p = Block.startWatch (b.modTw p fun t => { t with wasShadow := t.role == .shadow }) p := by
  unfold Block.loseTwinOf
  rw [h]

theorem Block.twin_startWatch : (b.startWatch p).twin = b.twin := Block.twin_issueRead ..

theorem Block.twin_loseTwinOf : (b.loseTwinOf p).twin = b.twin := by
  unfold Block.loseTwinOf
  split
  · rfl
  · rfl
  · rfl
  · exact Block.twin_startWatch
  · exact Block.twin_startWatch
  · exact Block.twin_startWatch
  · rfl

/-- At the loss of the twin a partition at home renews its lease. -/
theorem Block.loseTwinOf_home_spec (h : (b.part p).tw.role = .home) :
    (b.loseTwinOf p).bus =
      b.bus ++ [.cas 0 p 0xFFFF false (b.leaseAddr p) (b.part p).tw.lease (leaseRenewed (b.part p).tw.lease)] ∧
    ((b.loseTwinOf p).part p).tw.atLoss = true ∧ ((b.loseTwinOf p).part p).tw.role = .home := by
  rw [Block.loseTwinOf_of_home h]
  obtain ⟨v, hv⟩ : ∃ v, v = b.modTw p fun t => { t with handover := none, syncDone := none } := ⟨_, rfl⟩
  have htw : (v.part p).tw = { (b.part p).tw with handover := none, syncDone := none } := by rw [hv, Block.tw_modTw]
  have hbus : v.bus = b.bus := by rw [hv]; rfl
  have haddr : v.leaseAddr p = b.leaseAddr p := by rw [hv]; rfl
  rw [← hv]
  have hrenew : ((v.renewLease p true).part p).tw = { (v.part p).tw with
      offered := some (leaseRenewed (v.part p).tw.lease), renewDue := v.now + 500, retryAt := none
      atLoss := (v.part p).tw.atLoss || true } := by
    rw [Block.renewLease, Block.tw_modTw, Block.swapLease, Block.tw_modTw]
    rfl
  refine ⟨?_, ?_, ?_⟩
  · show v.bus ++ [Sent.cas 0 p 0xFFFF false (v.leaseAddr p) (v.part p).tw.lease (leaseRenewed (v.part p).tw.lease)] = _
    rw [hbus, haddr, htw]
  · rw [hrenew]
    exact Bool.or_true _
  · rw [hrenew, htw]
    exact h

/-- At the loss of the twin a shadow watches the lease. -/
theorem Block.loseTwinOf_shadow_spec (h : (b.part p).tw.role = .shadow) :
    (b.loseTwinOf p).bus = b.bus ++ [.read 0 p 0xFFFF false (b.leaseAddr p) 8] ∧
    ((b.loseTwinOf p).part p).tw.watching = true ∧ ((b.loseTwinOf p).part p).tw.wasShadow = true := by
  rw [Block.loseTwinOf_of_shadow h]
  have htw : (((b.modTw p fun t => { t with wasShadow := t.role == .shadow }).startWatch p).part p).tw =
      { (b.part p).tw with wasShadow := (b.part p).tw.role == .shadow, watching := true, watch := none } := by
    rw [Block.startWatch, Block.readLease, Block.part_issueRead, Block.tw_modTw, Block.tw_modTw]
  refine ⟨Block.bus_readLease, ?_, ?_⟩
  · rw [htw]
  · rw [htw]
    exact beq_iff_eq.2 h

/-- A block without entries writes nothing that waited for the twin. -/
theorem Block.writeUncommitted_of_no_entries (h : b.entries = []) (q : Nat) : b.writeUncommitted q = b := by
  unfold Block.writeUncommitted
  rw [h]
  rfl

theorem Block.settleDetach_of_not (h : b.twin.detaching = false) : b.settleDetach = b := by
  unfold Block.settleDetach
  rw [h]
  rfl

theorem Block.settleAttach_of_none (h : b.twin.attach = none) : b.settleAttach = b := by
  unfold Block.settleAttach
  rw [h]
  rfl

/-- The block at the loss of its twin: the session gone and the loss noted. -/
def Block.bereft (b : Block) : Block :=
  ({ b.unask .handshake with twin := { b.twin with
    lost := true, lossSeen := true, session := none, hs := none, peer := none, fill := [], unacked := [], parts := [] } } : Block).noteTwin 0xFFFF 1

theorem Block.bereft_spec : b.bereft = { b with
    hen := (b.unask .handshake).hen, recorder := b.bereft.recorder
    twin := { b.twin with
      lost := true, lossSeen := true, session := none, hs := none, peer := none, fill := [], unacked := [], parts := [] } } :=
  Block.onlyRec_noteRec { b.unask .handshake with twin := { b.twin with
    lost := true, lossSeen := true, session := none, hs := none, peer := none, fill := [], unacked := [], parts := [] } }
    0x0050 2 0xFFFF 1 (by decide)

/-- With one paired partition, and nothing that waits for the twin, its loss moves that partition. -/
theorem Block.twinLost_of_one (hx : b.twin.session = some x) (hp : b.pairedParts = [p]) (he : b.entries = []) (hf : b.twin.forwarded = [])
    (ha : b.twin.attach = none) (hd : b.twin.detaching = false) : b.twinLost = b.bereft.loseTwinOf p := by
  have hspec := b.bereft_spec
  have hentries : b.bereft.entries = [] := (congrArg Block.entries hspec).trans he
  have hpaired : b.bereft.pairedParts = [p] := (congrArg Block.pairedParts hspec).trans hp
  have hlose : (b.unask .handshake).loseTwin = b.bereft.loseTwinOf p := by
    show (b.bereft.writeUncommitted 0).pairedParts.foldl Block.loseTwinOf (b.bereft.writeUncommitted 0) = _
    rw [Block.writeUncommitted_of_no_entries hentries, hpaired]
    rfl
  have htwin : (b.bereft.loseTwinOf p).twin = { b.twin with
      lost := true, lossSeen := true, session := none, hs := none, peer := none, fill := [], unacked := [], parts := [] } :=
    Block.twin_loseTwinOf.trans (congrArg Block.twin hspec)
  obtain ⟨v, hv⟩ : ∃ v, v = b.bereft.loseTwinOf p := ⟨_, rfl⟩
  rw [← hv] at htwin hlose ⊢
  have hfw : ({ v with twin := { v.twin with forwarded := [] } } : Block) = v := by
    have : v.twin.forwarded = [] := (congrArg Twin.forwarded htwin).trans hf
    rw [← this]
  unfold Block.twinLost
  rw [if_neg (by simp [hx]), hlose, hf]
  simp only [List.foldl_nil]
  rw [hfw, Block.settleDetach_of_not ((congrArg Twin.detaching htwin).trans hd),
    Block.settleAttach_of_none ((congrArg Twin.attach htwin).trans ha)]

/-! ## Frames sent -/

/-- The session after a frame of some words has been sent. -/
def Session.sent (y : Session) (now words : Nat) : Session := { y with
  seqOut := y.seqOut + 1, frames := y.frames + 1, replay := y.replay ++ [(y.seqOut, words)]
  ackAt := if y.replay.isEmpty then now else y.ackAt }

theorem Block.sendFrame_of_session (hx : b.twin.session = some x) (words : Nat) (mk : Nat → Sent) :
    b.sendFrame words mk = { b with
      bus := b.bus ++ [mk x.seqOut], twin := { b.twin with session := some (x.sent b.time.interval words) } } := by
  unfold Block.sendFrame
  rw [hx]
  rfl

theorem Block.flushCommit_of_fill (hx : b.twin.session = some x) (hf : b.twin.fill ≠ []) :
    ∃ words, b.flushCommit = { b with
      bus := b.bus ++ [.commit x.seqOut b.twin.fill]
      twin := { b.twin with
        session := some (x.sent b.time.interval words), fill := []
        unacked := b.twin.unacked ++
          [(x.seqOut, b.time.interval, (b.twin.fill.filter fun i => !i.split).map fun i => (i.ring, i.subIndex), false)] } } := by
  refine ⟨2 + sumBy (fun i : CommitItem => 2 + i.deltaWords) b.twin.fill, ?_⟩
  unfold Block.flushCommit
  rw [if_neg (by simpa using hf), if_neg (by simp [hx])]
  simp only [hx]
  rw [Block.sendFrame_of_session hx]
  rfl

theorem Block.replay_of_due (hx : b.twin.session = some x) (hne : x.replay ≠ []) (hdue : x.ackAt + 4 ≤ b.time.interval) :
    b.replay = { b with
      bus := b.bus ++ [.replay x.acked]
      twin := { b.twin with replays := min (b.twin.replays + 1) (2 ^ 16 - 1), session := some { x with ackAt := b.time.interval } } } := by
  have hgo : ¬ (x.replay.isEmpty = true ∨ b.now < x.ackAt + 4) := by
    rintro (h | h)
    · exact hne (List.isEmpty_iff.1 h)
    · exact Nat.not_le.2 h hdue
  unfold Block.replay
  simp only [hx]
  rw [if_neg hgo, satAdd_eq]
  rfl

theorem Block.replay_of_early (hx : b.twin.session = some x) (h : b.time.interval < x.ackAt + 4) : b.replay = b := by
  unfold Block.replay
  simp only [hx]
  exact if_pos (Or.inr h)

theorem Block.sendHeartbeat_of_due (hx : b.twin.session = some x) (hdue : b.twin.heartbeatDue ≤ b.time.interval) :
    b.sendHeartbeat = { b with
      bus := b.bus ++ [.heartbeat { tk := b.time.sched, mode := b.mode.mode.code, avail := b.avail, henStopped := b.hen.phase == .stopped
                                    lost := b.twin.lost }]
      twin := { b.twin with session := some (x.sent b.time.interval 3), heartbeatDue := b.time.interval + 20 } } := by
  have hgo : ¬ (b.twin.session.isNone || decide (b.now < b.twin.heartbeatDue)) = true := by
    rw [hx, Bool.or_eq_true, decide_eq_true_iff]
    rintro (h | h)
    · exact Bool.noConfusion h
    · exact Nat.not_le.2 h hdue
  unfold Block.sendHeartbeat
  rw [if_neg hgo]
  simp only
  rw [Block.sendFrame_of_session hx]
  rfl

theorem Block.sendCopy_of_first (hx : b.twin.session = some x) (h : b.toCopy.head? = some p) :
    b.sendCopy p =
      let d := (b.copyOf p).foldl (fun d i => d.sendFrame (SyncItem.words i) fun _ => .syncData i) b
      let seq := match d.twin.session with | some y => y.seqOut | none => 0
      (d.sendFrame 3 fun _ => .syncDone p).modTw p fun t => { t with syncDone := some seq } :=
  if_neg (by simp [hx, h])

theorem Block.sendCopy_of_other (h : b.toCopy.head? ≠ some p) : b.sendCopy p = b :=
  if_pos (by simpa using Or.inr h)

/-! ## Heartbeats and handovers -/

theorem Block.examineHandovers_of_none (h : ∀ q ∈ b.pairedParts, b.wantsHandover q = false) : b.examineHandovers = b := by
  unfold Block.examineHandovers
  refine List.foldlRecOn (motive := fun c => c = b) _ _ rfl fun c hc q hq => ?_
  rw [hc, h q hq]
  rfl

theorem Block.moveHandovers_of_none (h : ∀ q ∈ b.pairedParts, (b.part q).tw.handover = none) : b.moveHandovers = b := by
  have hnone : b.handing = [] := List.filter_eq_nil_iff.2 fun q hq => by simp [h q hq]
  rw [Block.moveHandovers, hnone]
  rfl

/-! ## COMMIT -/

theorem Block.becomeTarget_of_not_standby (h : b.role p ≠ .standby) : b.becomeTarget p = b := if_neg h

theorem joinParts_single {i : CommitItem} (hs : i.split = false) (hd : i.deltas = []) : joinParts [i] = some i := by
  obtain ⟨⟩ := i
  subst hs hd
  rfl

/-- A shadow takes a whole entry without deltas. -/
theorem Block.takeItem_of_shadow {i : CommitItem} (hp : b.role (b.ownerD i.ring) = .shadow) (hparts : b.twin.parts = [])
    (hs : i.split = false) (hd : i.deltas = []) : b.takeItem i = b.modRing i.ring fun r => r.commitEntry i := by
  have hpaired : b.paired (b.ownerD i.ring) = true := (Block.paired_of_role hp (by decide) (by decide)).1
  have hexec : b.executes (b.ownerD i.ring) = false := Block.not_executes_of_role hp rfl
  have happly : b.applyEntry i = b.modRing i.ring fun r => r.commitEntry i := by
    unfold Block.applyEntry
    simp only
    rw [if_neg (by simp [hexec, hpaired]), Block.becomeTarget_of_not_standby (by rw [hp]; decide), hd]
    rfl
  have hsame : ({ b with twin := { b.twin with parts := [] } } : Block) = b := by rw [← hparts]
  unfold Block.takeItem
  rw [hparts, if_neg (by simp [hs]), hsame, List.nil_append, joinParts_single hs hd]
  exact happly

theorem Block.takeItem_of_split {i : CommitItem} (h : i.split = true) :
    b.takeItem i = { b with twin := { b.twin with parts := b.twin.parts ++ [i] } } := if_pos h

/-! ## COMMIT_ACK -/

theorem Block.releaseAcked_of_waiting {n at0 : Nat} {ids : List (Nat × Index)} {rest : List (Nat × Nat × List (Nat × Index) × Bool)}
    (h : b.twin.unacked = (n, at0, ids, false) :: rest) (fuel : Nat) : Block.releaseAcked fuel b = b := by
  cases fuel with
  | zero => rfl
  | succ fuel => simp only [Block.releaseAcked, h]

theorem Block.commitAcked_of_waiting {n at0 : Nat} {ids : List (Nat × Index)} {rest : List (Nat × Nat × List (Nat × Index) × Bool)}
    {seqs : List Nat} (hquiet : ∀ q ∈ b.pairedParts, (b.part q).tw.handover = none) (h : b.twin.unacked = (n, at0, ids, false) :: rest)
    (hn : n ∉ seqs) : b.commitAcked seqs = { b with twin := { b.twin with
      unacked := b.twin.unacked.map fun y => (y.1, y.2.1, y.2.2.1, y.2.2.2 || seqs.contains y.1) } } := by
  unfold Block.commitAcked
  simp only
  rw [Block.releaseAcked_of_waiting (n := n) (at0 := at0) (ids := ids)
    (rest := rest.map fun y => (y.1, y.2.1, y.2.2.1, y.2.2.2 || seqs.contains y.1)) (by simp [h, hn])]
  exact Block.moveHandovers_of_none hquiet

theorem Block.releaseAcked_of_one {n at0 k : Nat} {sub : Index} {e : Entry} {cpl : Completion}
    (h : b.twin.unacked = [(n, at0, [(k, sub)], true)]) (he : b.entry? k sub = some e) (hc : e.done = some cpl)
    (hstage : e.stage = .commit) (hheld : (b.ring k).held = []) : Block.releaseAcked 1 b =
      ({ b with twin := { b.twin with unacked := [], commits := min (b.twin.commits + 1) (2 ^ 32 - 1) } } : Block).emit cpl := by
  obtain ⟨v, hv⟩ : ∃ v : Block,
    v = { b with twin := { b.twin with unacked := [], commits := min (b.twin.commits + 1) (2 ^ 32 - 1) } } := ⟨_, rfl⟩
  have hve : v.entry? k sub = some e := by rw [hv]; exact he
  have hring : (v.ring e.ring).held = [] := by
    rw [(Block.key_of_entry? he).1, hv]
    exact hheld
  simp only [Block.releaseAcked, h, satAdd_eq, List.length_singleton, List.foldl_cons, List.foldl_nil, ← hv, hve, hc, hstage, hring]
  exact if_pos rfl

theorem Block.commitAcked_of_one {n at0 k : Nat} {sub : Index} {a : Bool} {seqs : List Nat} {e : Entry} {cpl : Completion}
    (h : b.twin.unacked = [(n, at0, [(k, sub)], a)]) (hn : n ∈ seqs) (he : b.entry? k sub = some e) (hc : e.done = some cpl)
    (hstage : e.stage = .commit) (hheld : (b.ring k).held = []) : b.commitAcked seqs =
      (({ b with twin := { b.twin with unacked := [], commits := min (b.twin.commits + 1) (2 ^ 32 - 1) } } : Block).emit cpl).moveHandovers := by
  have hfront : b.twin.unacked.map (fun y => (y.1, y.2.1, y.2.2.1, y.2.2.2 || seqs.contains y.1)) = [(n, at0, [(k, sub)], true)] := by
    simp [h, hn]
  unfold Block.commitAcked
  simp only
  rw [hfront]
  exact congrArg Block.moveHandovers (Block.releaseAcked_of_one (b := { b with twin := { b.twin with
    unacked := [(n, at0, [(k, sub)], true)] } }) rfl he hc hstage hheld)

theorem Block.part_bereft (q : Nat) : b.bereft.part q = b.part q :=
  (congrArg (fun v : Block => v.part q) b.bereft_spec).trans rfl

theorem Block.leaseAddr_bereft (q : Nat) : b.bereft.leaseAddr q = b.leaseAddr q :=
  (congrArg (fun v : Block => v.leaseAddr q) b.bereft_spec).trans rfl

theorem Block.bus_bereft : b.bereft.bus = b.bus := (congrArg Block.bus b.bereft_spec).trans rfl

/-! ## STATE, SYNC_DATA and SYNC_DONE -/

theorem Block.ring_stopMirror_ne {k j : Nat} (h : j ≠ k) : (b.stopMirror k).ring j = b.ring j :=
  (Block.ring_modRing ..).trans (if_neg h.symm)

theorem Block.ring_stopMirror_of_disabled {k : Nat} (h : (b.ring k).st = .disabled) : (b.stopMirror k).ring k = b.ring k := by
  rw [Block.stopMirror, Block.ring_modRing, if_pos rfl, if_pos h]

theorem Block.st_stopMirror_of_live {k : Nat} (h : (b.ring k).st ≠ .disabled) : ((b.stopMirror k).ring k).st = .stopping := by
  rw [Block.stopMirror, Block.ring_modRing, if_pos rfl, if_neg h]

theorem Block.mirrorState_stop {k : Nat} (h : b.executes (b.ownerD k) = false) : b.mirrorState (.stop k) = b.stopMirror k := by
  show (if _ then _ else _) = _
  rw [h]
  rfl

theorem Block.mirrorState_retract {k : Nat} {d : Index} (h : b.executes (b.ownerD k) = false) :
    b.mirrorState (.retract k d) = b.modRing k fun r => { r with tw := { r.tw with doorbell := d } } := by
  show (if _ then _ else _) = _
  rw [h]
  rfl

theorem Block.mirrorState_of_executes {k : Nat} (h : b.executes (b.ownerD k) = true) (d : Index) :
    b.mirrorState (.stop k) = b ∧ b.mirrorState (.retract k d) = b := by
  constructor <;> exact if_pos h

theorem Block.role_becomeTarget (h : b.role p = .standby) : ((b.becomeTarget p).part p).tw.role = .syncTarget := by
  unfold Block.becomeTarget
  rw [if_pos h, Block.tw_modTw]

end

/-- Settles O52: `Block.receive_of_badCrc` and `Block.receive_in_session` say what reception lets through; the content of each frame acts
by the lemmas above. -/
theorem twinFrames : Obligations.TwinFrames := by
  unfold Obligations.TwinFrames
  intro s x hdr p b t0 now c sent frames hx
  have hframe (f : Instr) (hf : f ∈ frames) : ∃ act : Block → Block, exec f s = s.run fun b => b.receive hdr false act := by
    simp only [frames, List.mem_cons, List.not_mem_nil, or_false] at hf
    obtain rfl | rfl | rfl | rfl | rfl := hf <;> exact ⟨_, rfl⟩
  refine ⟨?_, ?_, ?_, ?_, ?_, ?_, ?_, ?_, ?_, ?_, ?_⟩
  · exact fun hne hdue => next_congr (Block.replay_of_due hx hne hdue)
  · exact fun hearly => next_congr (Block.replay_of_early hx hearly)
  · exact fun hdue => next_congr (Block.sendHeartbeat_of_due hx hdue)
  · exact fun hempty => next_congr (if_pos (List.isEmpty_iff.2 hempty))
  · intro hfill
    obtain ⟨words, hflush⟩ := Block.flushCommit_of_fill (b := b) hx hfill
    exact ⟨_, words, rfl, congrArg (fun v => { s with blk := v }) hflush⟩
  · exact fun h => next_congr (if_pos h)
  · exact fun h => next_congr (if_neg (by rw [h]; decide))
  · intro hp he hf ha hd
    rw [Block.twinLost_of_one hx hp he hf ha hd]
    refine ⟨Block.twin_loseTwinOf.trans (congrArg Block.twin b.bereft_spec), fun hrole => ?_, fun hrole => ?_⟩
    · have := Block.loseTwinOf_home_spec (b := b.bereft) (p := p) (by rw [Block.part_bereft]; exact hrole)
      rwa [Block.bus_bereft, Block.leaseAddr_bereft, Block.part_bereft] at this
    · have := Block.loseTwinOf_shadow_spec (b := b.bereft) (p := p) (by rw [Block.part_bereft]; exact hrole)
      rwa [Block.bus_bereft, Block.leaseAddr_bereft] at this
  · exact fun hfirst => next_congr (Block.sendCopy_of_first hx hfirst)
  · exact fun hother => next_congr (Block.sendCopy_of_other hother)
  · intro hup hlink
    have hhear (handshake : Bool) (act : Block → Block) (hcrc : hdr.crcOk = true) (htag : hdr.tagOk = true)
        (hseq : hdr.seq.toNat = x.seqIn) (hack : hdr.ack = BitVec.allOnes 64) : b.receive hdr handshake act = act c := by
      rw [Block.receive_in_session hup hlink hx hcrc htag, if_neg (not_not.2 hseq), hack, Block.acknowledge_none]
      rfl
    refine ⟨fun hcrc f hf => ?_, fun hcrc htag hseq f hf => ?_, fun hcrc htag hseq hack => ?_⟩
    · obtain ⟨act, hact⟩ := hframe f hf
      exact hact.trans (next_congr (Block.receive_of_badCrc hup hlink hcrc))
    · obtain ⟨act, hact⟩ := hframe f hf
      exact hact.trans (next_congr ((Block.receive_in_session hup hlink hx hcrc htag).trans (if_pos hseq)))
    · have hrun {f : Instr} (act : Block → Block) {v : Block} (hf : exec f s = s.run fun b => b.receive hdr false act) (hv : act c = v) :
          exec f s = .next { s with blk := v } :=
        hf.trans (next_congr ((hhear false act hcrc htag hseq hack).trans hv))
      refine ⟨?_, ?_, ?_, ?_, ?_, ?_, ?_, ?_, ?_, ?_, ?_, ?_, ?_, ?_, ?_, ?_, ?_, ?_⟩
      · exact fun msg hq => hrun _ rfl (Block.examineHandovers_of_none (b := { c with twin := { c.twin with hbAge := 0, peer := some msg } }) hq)
      · exact fun cause ps => hrun _ rfl rfl
      · exact fun items => hrun _ rfl rfl
      · intro i howner hrole hparts hsplit hdeltas
        have hitem : [i].foldl Block.takeItem c = c.modRing i.ring fun r => r.commitEntry i :=
          Block.takeItem_of_shadow (b := c) ((congrArg b.role howner).trans hrole) hparts hsplit hdeltas
        have hring (j : Nat) : (c.modRing i.ring fun r => r.commitEntry i).ring j =
            if i.ring = j then (b.ring i.ring).commitEntry i else b.ring j := Block.ring_modRing ..
        refine ⟨_, hrun _ rfl ((congrArg (fun v : Block => v.sendFrame 3 _) hitem).trans (Block.sendFrame_of_session rfl 3 _)), ?_, ?_, ?_, ?_, ?_⟩
        · exact (hring i.ring).trans (if_pos rfl)
        · exact congrArg RingRec.q ((hring i.ring).trans (if_pos rfl))
        · exact fun j hj => (hring j).trans (if_neg (Ne.symm hj))
        · rfl
        · rfl
      · intro i hsplit
        have hitem : [i].foldl Block.takeItem c = { c with twin := { c.twin with parts := c.twin.parts ++ [i] } } :=
          Block.takeItem_of_split hsplit
        exact ⟨_, hrun _ rfl ((congrArg (fun v : Block => v.sendFrame 3 _) hitem).trans (Block.sendFrame_of_session rfl 3 _)),
          rfl, rfl, rfl, rfl, rfl⟩
      · intro seqs hquiet
        refine ⟨fun n at0 ids rest hfront hn => ?_, fun n at0 a k sub e cpl hone hn he hc hstage hheld => ?_⟩
        · exact hrun _ rfl (Block.commitAcked_of_waiting (b := c) hquiet hfront hn)
        · exact hrun _ rfl (Block.commitAcked_of_one (b := c) hone hn he hc hstage hheld)
      · intro k hexec
        have hring (f : RingRec → RingRec) (j : Nat) : (c.modRing k f).ring j = if k = j then f (b.ring k) else b.ring j :=
          Block.ring_modRing ..
        refine ⟨fun i => hrun _ rfl rfl, ⟨_, hrun _ rfl (Block.mirrorState_stop (b := c) hexec), ?_, ?_, ?_, rfl⟩,
          fun d => ⟨_, hrun _ rfl (Block.mirrorState_retract (b := c) hexec), ?_, ?_, rfl⟩⟩
        · exact fun j hj => Block.ring_stopMirror_ne (b := c) hj
        · exact Block.st_stopMirror_of_live (b := c)
        · exact Block.ring_stopMirror_of_disabled (b := c)
        · exact fun j hj => (hring _ j).trans (if_neg (Ne.symm hj))
        · exact (hring _ k).trans (if_pos rfl)
      · intro k d hexec
        have hsame := Block.mirrorState_of_executes (b := c) hexec d
        exact ⟨hrun _ rfl hsame.2, hrun _ rfl hsame.1⟩
      · intro item howner hpaired hexec
        exact hrun _ rfl (by
          simp only [howner]
          exact if_neg (by rw [show c.executes p = false from hexec, show c.paired p = true from hpaired]; decide))
      · intro item howner hexec
        exact hrun _ rfl (by
          simp only [howner]
          exact if_pos (by rw [show c.executes p = true from hexec]; rfl))
      · exact Block.role_becomeTarget (b := c)
      · intro hrole hattach
        obtain ⟨hpaired, -⟩ := Block.paired_of_role hrole (by decide) (by decide)
        have hexec : b.executes p = false := Block.not_executes_of_role hrole rfl
        have hdone : (c.becomeTarget p).setRole p .shadow = c.setRole p .shadow :=
          congrArg (fun v : Block => v.setRole p .shadow) (Block.becomeTarget_of_not_standby (b := c) (hrole.trans_ne (by decide)))
        refine ⟨{ s with blk := c.setRole p .shadow }, hrun _ rfl ?_, ?_, ?_, rfl⟩
        · refine (if_pos ?_).trans ?_
          · rw [show c.executes p = false from hexec, show c.paired p = true from hpaired]
            rfl
          · rw [hdone]
            exact Block.settleAttach_of_none hattach
        · exact congrArg PartTwin.role (Block.tw_modTw (b := c) _)
        · exact fun q hq => Block.part_modTw_ne (b := c) _ hq
      · intro hexec
        exact hrun _ rfl (if_neg (by rw [show c.executes p = true from hexec, Bool.not_true, Bool.and_false]; decide))
      · exact hrun _ rfl rfl
      · intro hrec
        exact hrun _ rfl (if_neg (by rw [show c.twin.record = false from hrec]; decide))
      · exact fun hrec => hrun _ rfl (if_pos hrec)
      · exact fun epoch hrole => hrun _ rfl (if_neg hrole)
      · exact fun epoch hrole => hrun _ rfl (if_pos hrole)

end Sys2Proof.Machine

/-! O53: leases. The fields of a lease word, what a swap leaves, then the watch, the take and the ends of handover and release. -/

namespace Sys2Proof.Machine

open Sys2Proof

/-! ## Lease words -/

theorem toNat_leaseWord (renewals epoch holder : Nat) (valid released : Bool) : (leaseWord renewals epoch holder valid released).toNat =
    renewals % 2 ^ 32 + 2 ^ 32 * (epoch % 2 ^ 16) + 2 ^ 48 * (holder % 2) + 2 ^ 49 * flag valid + 2 ^ 50 * flag released := by
  have hflag (x : Bool) : flag x ≤ 1 := by cases x <;> decide
  have hv := hflag valid
  have hr := hflag released
  have hsum : renewals % 2 ^ 32 + at_ 32 (epoch % 2 ^ 16) + at_ 48 (holder % 2) + at_ 49 (flag valid) + at_ 50 (flag released) =
      renewals % 2 ^ 32 + 2 ^ 32 * (epoch % 2 ^ 16) + 2 ^ 48 * (holder % 2) + 2 ^ 49 * flag valid + 2 ^ 50 * flag released := by
    simp only [at_, Nat.shiftLeft_eq, Nat.mul_comm]
  rw [leaseWord, hsum, BitVec.toNat_ofNat]
  omega

section
variable (renewals epoch holder : Nat) (valid released : Bool)

theorem leaseRenewals_leaseWord : leaseRenewals (leaseWord renewals epoch holder valid released) = renewals % 2 ^ 32 := by
  rw [leaseRenewals, toNat_leaseWord, field_eq]
  omega

theorem leaseEpoch_leaseWord : leaseEpoch (leaseWord renewals epoch holder valid released) = epoch % 2 ^ 16 := by
  rw [leaseEpoch, toNat_leaseWord, field_eq]
  omega

theorem leaseHolder_leaseWord : leaseHolder (leaseWord renewals epoch holder valid released) = holder % 2 := by
  rw [leaseHolder, toNat_leaseWord, field_eq]
  omega

theorem leaseValid_leaseWord : leaseValid (leaseWord renewals epoch holder valid released) = valid := by
  rw [leaseValid, BitVec.getLsbD, toNat_leaseWord, Nat.testBit_eq_decide_div_mod_eq]
  cases valid
  · simp only [flag]
    exact decide_eq_false (by simp only [Bool.false_eq_true, if_false]; omega)
  · simp only [flag]
    exact decide_eq_true (by simp only [if_true]; omega)

end

theorem leaseEpoch_lt (w : BitVec 64) : leaseEpoch w < 2 ^ 16 := by
  rw [leaseEpoch, field_eq]
  exact Nat.mod_lt _ (by decide)

theorem leaseHolder_lt (w : BitVec 64) : leaseHolder w < 2 := by
  rw [leaseHolder, field_eq]
  exact Nat.mod_lt _ (by decide)

/-- A renewed word is the word with RENEWALS one higher. -/
theorem leaseRenewed_fields (w : BitVec 64) : leaseRenewals (leaseRenewed w) = (leaseRenewals w + 1) % 2 ^ 32 ∧
    leaseEpoch (leaseRenewed w) = leaseEpoch w ∧ leaseHolder (leaseRenewed w) = leaseHolder w ∧
    leaseValid (leaseRenewed w) = leaseValid w :=
  ⟨leaseRenewals_leaseWord .., (leaseEpoch_leaseWord ..).trans (Nat.mod_eq_of_lt (leaseEpoch_lt w)),
    (leaseHolder_leaseWord ..).trans (Nat.mod_eq_of_lt (leaseHolder_lt w)), leaseValid_leaseWord ..⟩

/-! ## Updates of one partition's twin state -/

section
variable {b : Block} {p : Nat} {w : BitVec 64}

/-- From b to b' the twin state of partition p becomes t, and nothing else changes but the requests outstanding. -/
structure Block.Retw (b b' : Block) (p : Nat) (t : PartTwin) : Prop where
  state : b' = { b with parts := b'.parts, mport := b'.mport }
  part : ∀ q, q ≠ p → b'.part q = b.part q
  tw : (b'.part p).tw = t

theorem Block.Retw.modTw {b' : Block} {t : PartTwin} (h : b.Retw b' p t) (f : PartTwin → PartTwin) : b.Retw (b'.modTw p f) p (f t) where
  state := (congrArg (fun v : Block => { v with parts := (b'.modTw p f).parts }) h.state).trans rfl
  part q hq := (Block.part_modTw_ne f hq).trans (h.part q hq)
  tw := (Block.tw_modTw f).trans (congrArg f h.tw)

theorem Block.retw_arrived (pur : Purpose) : b.Retw (b.arrived pur) p (b.part p).tw := ⟨rfl, fun _ _ => rfl, rfl⟩

theorem Block.retw_modTw (f : PartTwin → PartTwin) : b.Retw (b.modTw p f) p (f (b.part p).tw) :=
  Block.Retw.modTw (b' := b) ⟨rfl, fun _ _ => rfl, rfl⟩ f

/-- From b to b' the lease of partition p is to be swapped for a word, its twin state becomes t, and nothing else changes. -/
structure Block.Swaps (b b' : Block) (p : Nat) (expected new : BitVec 64) (t : PartTwin) : Prop where
  state : b' = { b with parts := b'.parts, mport := b'.mport, bus := b'.bus }
  part : ∀ q, q ≠ p → b'.part q = b.part q
  tw : (b'.part p).tw = t
  bus : b'.bus = b.bus ++ [.cas 0 p 0xFFFF false (b.leaseAddr p) expected new]

theorem Block.Swaps.modTw {b' : Block} {old new : BitVec 64} {t : PartTwin} (h : b.Swaps b' p old new t) (f : PartTwin → PartTwin) :
    b.Swaps (b'.modTw p f) p old new (f t) where
  state := (congrArg (fun v : Block => { v with parts := (b'.modTw p f).parts }) h.state).trans rfl
  part q hq := (Block.part_modTw_ne f hq).trans (h.part q hq)
  tw := (Block.tw_modTw f).trans (congrArg f h.tw)
  bus := h.bus

/-- A swap expects the word that was last seen. -/
theorem Block.Retw.swapLease {b' : Block} {t : PartTwin} (h : b.Retw b' p t) (new : BitVec 64) (pur : Purpose) :
    b.Swaps (b'.swapLease p new pur) p t.lease new { t with offered := some new } where
  state := (congrArg (fun v : Block => { v with
    parts := (b'.swapLease p new pur).parts, mport := (b'.swapLease p new pur).mport, bus := (b'.swapLease p new pur).bus }) h.state).trans rfl
  part q hq := (Block.part_modTw_ne _ hq).trans (h.part q hq)
  tw := (Block.tw_modTw _).trans (congrArg (fun t : PartTwin => { t with offered := some new }) h.tw)
  bus := by
    have haddr : b'.leaseAddr p = b.leaseAddr p := (congrArg (fun v : Block => v.leaseAddr p) h.state).trans rfl
    have hbus : b'.bus = b.bus := (congrArg Block.bus h.state).trans rfl
    show b'.bus ++ [Sent.cas 0 p 0xFFFF false (b'.leaseAddr p) (b'.part p).tw.lease new] = _
    rw [hbus, haddr, h.tw]

theorem Block.retw_disown (f : Purpose → Bool) : b.Retw (b.disown f) p (b.part p).tw := ⟨rfl, fun _ _ => rfl, rfl⟩

/-! ## Renewals -/

theorem Block.swaps_renewLease : b.Swaps (b.renewLease p false) p (b.part p).tw.lease (leaseRenewed (b.part p).tw.lease)
    { (b.part p).tw with
      offered := some (leaseRenewed (b.part p).tw.lease), renewDue := b.time.interval + 500, retryAt := none } := by
  have h := ((Block.Retw.swapLease (b' := b) (p := p) ⟨rfl, fun _ _ => rfl, rfl⟩ (leaseRenewed (b.part p).tw.lease) (.leaseRenew p)).modTw
    fun t => { t with renewDue := b.now + 500, retryAt := none, atLoss := t.atLoss || false })
  exact { h with tw := h.tw.trans (by rw [Bool.or_false]; rfl) }

theorem Block.renewalTick_of_due (hp : b.paired p = true) (he : (b.part p).tw.role.executes = true) (ho : (b.part p).tw.offered = none)
    (hd : (b.part p).tw.renewDue ≤ b.time.interval) : b.renewalTick p = b.renewLease p false := by
  have hdue : decide ((b.part p).tw.renewDue ≤ b.now) = true := decide_eq_true hd
  exact if_pos (by rw [hp, he, ho, hdue]; rfl)

/-- A swap made again, the first one disowned. -/
theorem Block.swaps_again (ho : (b.part p).tw.offered = some w) (mine : Purpose → Bool) (pur : Purpose) :
    b.Swaps (((b.disown mine).swapLease p w pur).modTw p fun t => { t with retryAt := none }) p (b.part p).tw.lease w
      { (b.part p).tw with retryAt := none } := by
  have h := ((b.retw_disown (p := p) mine).swapLease w pur).modTw fun t => { t with retryAt := none }
  exact { h with tw := h.tw.trans (by rw [← ho]) }

theorem Block.swaps_retryLease (hp : b.paired p = true) (ho : (b.part p).tw.offered = some w) (hd : b.retryDue p = true) :
    b.Swaps (b.retryLease p) p (b.part p).tw.lease w { (b.part p).tw with retryAt := none } := by
  obtain ⟨mine, pur, hrun⟩ : ∃ mine pur, b.retryLease p =
      ((b.disown mine).swapLease p w pur).modTw p fun t => { t with retryAt := none } := by
    unfold Block.retryLease
    simp only [ho]
    exact ⟨_, _, if_pos (by rw [hp, hd]; rfl)⟩
  rw [hrun]
  exact Block.swaps_again ho mine pur

theorem Block.resumeOutput_of_going (h : (b.part p).tw.stopped = false) : b.resumeOutput p = b :=
  if_pos (by rw [h]; rfl)

theorem Block.giveUp_of_none (h : (b.part p).tw.releaseAt = none) : b.giveUp p = b := if_neg (by rw [h]; decide)

theorem Block.moveHandover_of_none (h : (b.part p).tw.handover = none) : b.moveHandover p = b := by
  unfold Block.moveHandover
  simp only [h]

/-- A renewal that leaves nothing else to do. -/
theorem Block.retw_renewalResponse (hg : b.awaits (.leaseGive p) = false) (hr : b.awaits (.leaseRenew p) = true)
    (hs : (b.part p).tw.stopped = false) (hl : (b.part p).tw.atLoss = false) (hrel : (b.part p).tw.releaseAt = none)
    (hh : (b.part p).tw.handover = none) (ho : (b.part p).tw.offered = some w) :
    b.Retw (b.renewalResponse p (b.part p).tw.lease) p
      { (b.part p).tw with lease := w, offered := none, renewedAt := b.time.interval, retryAt := none } := by
  have h := (b.retw_arrived (p := p) (.leaseRenew p)).modTw fun t => { t with
    lease := t.offered.getD t.lease, offered := none, renewedAt := b.now, retryAt := none, atLoss := false }
  obtain ⟨v, hv⟩ : ∃ v, v = (b.arrived (.leaseRenew p)).modTw p fun t => { t with
    lease := t.offered.getD t.lease, offered := none, renewedAt := b.now, retryAt := none, atLoss := false } := ⟨_, rfl⟩
  rw [← hv] at h
  have htw := h.tw
  have hgoing : v.resumeOutput p = v := Block.resumeOutput_of_going ((congrArg PartTwin.stopped htw).trans hs)
  have hkeeps : v.giveUp p = v := Block.giveUp_of_none ((congrArg PartTwin.releaseAt htw).trans hrel)
  have hstays : v.moveHandover p = v := Block.moveHandover_of_none ((congrArg PartTwin.handover htw).trans hh)
  have hrenewed : (b.arrived (.leaseRenew p)).renewed p = v := by
    refine Eq.trans ?_ hgoing
    rw [hv]
    exact if_neg (by rw [show ((b.arrived (.leaseRenew p)).part p).tw.atLoss = false from hl]; decide)
  have hrun : b.renewalResponse p (b.part p).tw.lease = v := by
    unfold Block.renewalResponse
    simp only
    rw [if_neg (by rw [hg]; decide), if_pos hr, if_pos trivial, hrenewed, hkeeps, hstays]
  rw [hrun]
  exact { h with tw := htw.trans (by rw [ho, ← hl]; rfl) }

theorem Block.renewalResponse_of_other (hg : b.awaits (.leaseGive p) = false) (hr : b.awaits (.leaseRenew p) = true)
    (h : w ≠ (b.part p).tw.lease) : b.renewalResponse p w = (b.arrived (.leaseRenew p)).fence p := by
  unfold Block.renewalResponse
  simp only
  rw [if_neg (by rw [hg]; decide), if_pos hr, if_neg h]

theorem Block.fence_spec : (b.fence p).twin.fencedSeen = true ∧ ((b.fence p).part p).tw.role = .standby := by
  obtain ⟨v, hv⟩ : ∃ v, v = ((b.abandonAll p fun _ => true).rewindRings p).modTw p fun t =>
    { t with role := .standby, stopped := false, offered := none, atLoss := false, retryAt := none, handover := none } := ⟨_, rfl⟩
  have hrole : (v.part p).tw.role = .standby := by rw [hv, Block.tw_modTw]
  obtain ⟨x, hx⟩ : ∃ x : Block, x = { v with twin := { v.twin with fencedSeen := true, fences := satAdd 16 v.twin.fences 1 } } := ⟨_, rfl⟩
  have hfence : b.fence p = x.noteTwin p 3 := by rw [hx, hv]; rfl
  have hnote : x.OnlyRec (x.noteTwin p 3) := x.onlyRec_noteRec 0x0050 2 p 3 (by decide)
  rw [hfence]
  constructor
  · rw [hnote, hx]
  · rw [hnote, hx]
    exact hrole

/-! ## The watch -/

section
variable (hr : leaseReleased w = false) (hv : leaseValid w = true)
include hr hv

/-- A watch that finds a valid lease of the other side and goes on. -/
theorem Block.watchWord_of_held (hw : (b.part p).tw.watching = true) (hs : (b.part p).tw.wasShadow = false) : b.watchWord p w =
    let v := b.modTw p fun t => { t with lease := w }
    match (b.part p).tw.watch with
    | none => v.modTw p fun t => { t with watch := some (w, b.now, b.now + 100) }
    | some (w0, t0, _) =>
      if w ≠ w0 then v.modTw p fun t => { t with watching := false, watch := none, role := .standby, wasShadow := false }
      else if t0 + 1000 ≤ b.now then v.takeLease p
      else v.modTw p fun t => { t with watch := some (w0, t0, b.now + 100) } := by
  unfold Block.watchWord
  simp only
  rw [if_neg (by rw [hw]; decide), if_neg (by rw [hr, hv]; simp), if_neg (by rw [hs]; simp)]
  rfl

end

theorem Block.watchRead_of_awaited (hp : b.paired p = true) (ha : b.awaits (.leaseRead p) = true) :
    b.watchRead p w = (b.arrived (.leaseRead p)).watchWord p w := by
  unfold Block.watchRead
  simp only
  rw [if_neg (by rw [hp]; decide), if_pos ha]

/-- The lease that was last read is taken, with the next EPOCH and this side as HOLDER. -/
theorem Block.Retw.takeLease {b' : Block} {t : PartTwin} (h : b.Retw b' p t) :
    b.Swaps (b'.takeLease p) p t.lease (leaseWord 0 (leaseEpoch t.lease + 1) b.twin.side true false)
      { t with offered := some (leaseWord 0 (leaseEpoch t.lease + 1) b.twin.side true false), watching := false, watch := none } := by
  have hside : b'.twin.side = b.twin.side := (congrArg (fun v : Block => v.twin.side) h.state).trans rfl
  have hrun : b'.takeLease p = (b'.swapLease p (leaseWord 0 (leaseEpoch t.lease + 1) b.twin.side true false) (.leaseTake p)).modTw p
      fun t => { t with watching := false, watch := none } := by
    rw [← hside, ← h.tw]
    rfl
  rw [hrun]
  exact (h.swapLease _ _).modTw _

/-! ## The take -/

theorem Block.takeResponse_of_other {old : BitVec 64} (ha : b.awaits (.leaseTake p) = true) (ho : (b.part p).tw.offered = some w)
    (h : old ≠ (b.part p).tw.lease) : b.takeResponse p old = (b.arrived (.leaseTake p)).modTw p fun t =>
      { t with role := .standby, lease := old, offered := none, retryAt := none, wasShadow := false } := by
  unfold Block.takeResponse
  simp only
  rw [if_neg (by rw [ha]; decide)]
  simp only [ho]
  exact if_pos h

/-- A partition without live rings is taken over as it is. -/
theorem Block.takeOver_of_no_rings (h : b.liveRings p = []) (shadow : Bool) : b.takeOver p shadow = b := by
  unfold Block.takeOver
  cases shadow <;> simp only [Bool.false_eq_true, if_false, if_true, h, List.foldl_nil]

theorem Block.runAlone_of_alone (hs : b.twin.session = none) (ha : b.twin.attach = none) (hd : b.twin.detaching = false) :
    b.runAlone p = b := by
  unfold Block.runAlone
  rw [if_neg (by rw [hs]; decide), Block.settleAttach_of_none ha, Block.settleDetach_of_not hd]

/-- The block that has taken the lease of partition p, before it adopts the partition. -/
def Block.taken (b : Block) (p : Nat) : Block :=
  (({ b.arrived (.leaseTake p) with twin := { b.twin with takeovers := satAdd 16 b.twin.takeovers 1 } } : Block).modRec fun c =>
    { c with failovers := satAdd 32 c.failovers 1 }).noteTwin p 2

theorem Block.taken_spec : b.taken p = { b with
    mport := (b.arrived (.leaseTake p)).mport, recorder := (b.taken p).recorder
    twin := { b.twin with takeovers := satAdd 16 b.twin.takeovers 1 } } := by
  have h := (({ b.arrived (.leaseTake p) with twin := { b.twin with takeovers := satAdd 16 b.twin.takeovers 1 } } : Block).modRec fun c =>
    { c with failovers := satAdd 32 c.failovers 1 }).onlyRec_noteRec 0x0050 2 p 2 (by decide)
  exact h

theorem Block.takeResponse_of_expected (ha : b.awaits (.leaseTake p) = true) (ho : (b.part p).tw.offered = some w)
    (hk : b.liveRings p = []) (hs : b.twin.session = none) (hat : b.twin.attach = none) (hd : b.twin.detaching = false) :
    b.takeResponse p (b.part p).tw.lease = (b.taken p).holdLease p w .solo := by
  have hspec := b.taken_spec (p := p)
  obtain ⟨v, hv⟩ : ∃ v, v = (b.taken p).holdLease p w .solo := ⟨_, rfl⟩
  have htwin : v.twin = { b.twin with takeovers := satAdd 16 b.twin.takeovers 1 } := by
    rw [hv]
    exact (congrArg Block.twin hspec).trans rfl
  have hrings : v.liveRings p = [] := by
    rw [hv]
    exact ((congrArg (fun c : Block => c.liveRings p) hspec).trans rfl).trans hk
  unfold Block.takeResponse
  simp only
  rw [if_neg (by rw [ha]; decide)]
  simp only [ho]
  rw [if_neg (not_not.2 rfl)]
  refine Eq.trans (b := (v.takeOver p (b.part p).tw.wasShadow).runAlone p) ?_ ?_
  · rw [hv]
    rfl
  · rw [Block.takeOver_of_no_rings hrings, Block.runAlone_of_alone ((congrArg Twin.session htwin).trans hs)
      ((congrArg Twin.attach htwin).trans hat) ((congrArg Twin.detaching htwin).trans hd), hv]

/-! ## Output stop and fence -/

theorem Block.holds_until (hp : b.paired p = true) (he : (b.part p).tw.role.executes = true) (n : Nat) :
    (b.paired p && (b.part p).tw.role.executes && decide ((b.part p).tw.renewedAt + n ≤ b.now)) =
      decide ((b.part p).tw.renewedAt + n ≤ b.time.interval) := by
  rw [hp, he]
  rfl

/-! ## The ends of handover and release -/

theorem Block.endRelease_spec : ((b.endRelease p).part p).tw.role = .standby ∧ ((b.endRelease p).part p).tw.releaseAt = none := by
  unfold Block.endRelease
  simp only [Block.tw_modTw, and_self]

end

/-- Settles O53: `Block.Retw` and `Block.Swaps` say what an update of the twin state and a swap of the lease leave. -/
theorem twinLeases : Obligations.TwinLeases := by
  unfold Obligations.TwinLeases
  intro s p w b tw now others swaps becomes
  have hbecomes {c : Instr} {v : Block} {t : PartTwin} (hrun : exec c s = .next { s with blk := v }) (h : b.Retw v p t) : becomes c t :=
    ⟨_, hrun, h.part, h.tw, congrArg (fun v => { s with blk := v }) h.state⟩
  have hswaps {c : Instr} {v : Block} {new : BitVec 64} {t : PartTwin} (hrun : exec c s = .next { s with blk := v })
      (h : b.Swaps v p tw.lease new t) : swaps c new t :=
    ⟨_, hrun, h.part, h.tw, h.bus, congrArg (fun v => { s with blk := v }) h.state⟩
  refine ⟨leaseRenewed_fields w, ?_, ?_, ?_, Block.fence_spec, ?_, ?_, ?_, ?_, ?_⟩
  · intro hpaired hexec
    have hlate {n : Nat} {v v' : Block} (h : tw.renewedAt + n ≤ now) :
        (if b.paired p && (b.part p).tw.role.executes && decide ((b.part p).tw.renewedAt + n ≤ b.now) then v else v') = v :=
      if_pos ((Block.holds_until hpaired hexec n).trans (decide_eq_true h))
    have hearly {n : Nat} {v v' : Block} (h : now < tw.renewedAt + n) :
        (if b.paired p && (b.part p).tw.role.executes && decide ((b.part p).tw.renewedAt + n ≤ b.now) then v else v') = v' :=
      if_neg (by
        rw [Block.holds_until hpaired hexec n, decide_eq_true_iff]
        exact Nat.not_le.2 h)
    refine ⟨fun hoffered hdue => ?_, fun h => ?_, fun h => ?_, fun h => ?_, fun h => ?_⟩
    · exact hswaps (next_congr (Block.renewalTick_of_due hpaired hexec hoffered hdue)) Block.swaps_renewLease
    · exact hbecomes (next_congr (hlate h)) (Block.retw_modTw _)
    · exact next_congr (hearly h)
    · exact next_congr (hlate h)
    · exact next_congr (hearly h)
  · exact fun hpaired hoffered hdue => hswaps rfl (Block.swaps_retryLease hpaired hoffered hdue)
  · intro hgive hrenew
    refine ⟨fun hstopped hloss hrel hhand hoffered => ?_, fun hother => ?_⟩
    · exact hbecomes rfl (Block.retw_renewalResponse hgive hrenew hstopped hloss hrel hhand hoffered)
    · exact next_congr (Block.renewalResponse_of_other hgive hrenew hother)
  · intro hpaired hawaits hwatching hreleased hvalid hshadow
    have hread := (Block.watchRead_of_awaited (w := w) hpaired hawaits).trans
      (Block.watchWord_of_held (b := b.arrived (.leaseRead p)) hreleased hvalid hwatching hshadow)
    have hfirst : b.Retw ((b.arrived (.leaseRead p)).modTw p fun t => { t with lease := w }) p { tw with lease := w } :=
      (b.retw_arrived _).modTw _
    have hnone (h : tw.watch = none) : ((b.arrived (.leaseRead p)).part p).tw.watch = none := h
    have hsome {x : BitVec 64 × Nat × Nat} (h : tw.watch = some x) : ((b.arrived (.leaseRead p)).part p).tw.watch = some x := h
    refine ⟨fun hwatch => ?_, fun w0 t0 due hwatch => ⟨fun hne => ?_, fun heq hearly => ?_, fun heq hlate => ?_⟩⟩
    · simp only [hnone hwatch] at hread
      exact hbecomes (next_congr hread) (hfirst.modTw _)
    · simp only [hsome hwatch] at hread
      have h := hfirst.modTw fun t => { t with watching := false, watch := none, role := .standby, wasShadow := false }
      exact hbecomes (next_congr (hread.trans (if_pos hne))) { h with tw := h.tw.trans (by rw [← hshadow]) }
    · simp only [hsome hwatch] at hread
      subst heq
      exact hbecomes (next_congr (hread.trans ((if_neg (not_not.2 rfl)).trans (if_neg (Nat.not_le.2 hearly))))) (hfirst.modTw _)
    · simp only [hsome hwatch] at hread
      obtain ⟨-, hpart, htw, hbus⟩ := hfirst.takeLease
      exact ⟨_, next_congr (hread.trans ((if_neg (not_not.2 heq)).trans (if_pos hlate))), hpart, htw, hbus⟩
  · intro old hawaits hoffered
    refine ⟨fun hother => ?_, fun hsame hrings hsession hattach hdetach => ?_⟩
    · exact hbecomes (next_congr (Block.takeResponse_of_other hawaits hoffered hother)) ((b.retw_arrived _).modTw _)
    · have hspec := b.taken_spec (p := p)
      have hpart (q : Nat) : (b.taken p).part q = b.part q := (congrArg (fun v : Block => v.part q) hspec).trans rfl
      have hnow : (b.taken p).now = now := (congrArg Block.now hspec).trans rfl
      have htwin : (b.taken p).twin = _ := (congrArg Block.twin hspec).trans rfl
      have htake := Block.takeResponse_of_expected hawaits hoffered hrings hsession hattach hdetach
      refine ⟨{ s with blk := (b.taken p).holdLease p w .solo }, ?_, fun q hq => ?_, ?_, ?_, ?_, ?_⟩
      · rw [hsame]
        exact next_congr htake
      · exact (Block.part_modTw_ne _ hq).trans (hpart q)
      · exact congrArg PartTwin.role (Block.tw_modTw _)
      · exact congrArg PartTwin.lease (Block.tw_modTw _)
      · exact (congrArg PartTwin.renewedAt (Block.tw_modTw _)).trans hnow
      · rw [← satAdd_eq]
        exact htwin
  · intro t0 x y hhandover
    have hrun : exec (.handoverTimeout p) s =
        .next { s with blk := if t0 + 2000 ≤ b.now then (b.disown (· == .leaseGive p)).releaseAll [p] 0 else b } :=
      next_congr (by
        show Block.handoverTimeout b p = _
        unfold Block.handoverTimeout
        simp only [show (b.part p).tw.handover = some (t0, x, y) from hhandover])
    exact ⟨fun h => hrun.trans (next_congr (if_pos h)), fun h => hrun.trans (next_congr (if_neg (Nat.not_le.2 h)))⟩
  · intro t0 hrelease
    have hrun : exec (.releaseAckWaitEnd p) s = .next { s with blk := if t0 + 20 ≤ b.now then (b.endRelease p).settleWarm else b } :=
      next_congr (by
        show Block.ackWaitEnd b p = _
        unfold Block.ackWaitEnd
        simp only [show (b.part p).tw.releaseAt = some t0 from hrelease])
    exact ⟨fun h => ⟨hrun.trans (next_congr (if_pos h)), Block.endRelease_spec⟩,
      fun h => hrun.trans (next_congr (if_neg (Nat.not_le.2 h)))⟩
  · intro req r hfind
    have hrun : exec (.mportPairedNoResponse req) s = .next { s with blk := if r.issued + 200 ≤ b.now then b.releaseFor r else b } :=
      next_congr (by
        show Block.noResponse b req = _
        unfold Block.noResponse
        simp only [show (b.mport.outst.find? fun r => r.id == req) = some r from hfind])
    exact ⟨fun h hrole hwork => hrun.trans (next_congr ((if_pos h).trans (if_pos ⟨hrole, hwork⟩))),
      fun h => hrun.trans (next_congr (if_neg (Nat.not_le.2 h)))⟩

end Sys2Proof.Machine

/-! O54: the sentinel. How a source becomes active and alarms, what the responses LOCK and ERASE leave on main power and on the cell, and
what the supplies and the fuses change. -/

namespace Sys2Proof

/-! ## One element of a list changed -/

theorem modNth_modNth {α : Type} (f g : α → α) (i : Nat) (l : List α) : modNth f i (modNth g i l) = modNth (fun x => f (g x)) i l := by
  induction l generalizing i with
  | nil => cases i <;> rfl
  | cons x r ih =>
    cases i with
    | zero => rfl
    | succ i => simp only [modNth, ih]

theorem exists_nth_of_mem {α : Type} (d : α) {x : α} {l : List α} (h : x ∈ l) : ∃ j, j < l.length ∧ nth d l j = x := by
  obtain ⟨j, hj, hx⟩ := List.mem_iff_getElem.1 h
  exact ⟨j, hj, by rw [nth, List.getD_eq_getElem?_getD, List.getElem?_eq_getElem hj, hx]; rfl⟩

end Sys2Proof

namespace Sys2Proof.Machine

open Sys2Proof

section
variable {b : Block} {f : Fuses} {n : Nat}

/-! ## Sources (R350) -/

/-- A source that comes up. -/
def SrcRec.up (x : SrcRec) : SrcRec := { x with active := true, fired := true }

theorem Block.sourceActive_of_fresh (ha : (nth {} b.gander.sources n).active = false) (hi : (nth {} b.gander.sources n).inactiveAt = none)
    (hd : f.disabled n = false) : Block.sourceActive f b n = { b with gander := { b.gander with
      sources := modNth SrcRec.up n b.gander.sources, confirmed := b.gander.confirmed ++ [n] } } := by
  have hup : (fun x : SrcRec => { x with active := true, fired := x.fired || true }) = SrcRec.up := by
    funext x
    rw [Bool.or_true]
    rfl
  unfold Block.sourceActive
  simp only
  rw [if_neg (by rw [ha, hd]; decide)]
  simp only [hi, if_true]
  rw [hup]

theorem Block.sourceActive_of_active (h : (nth {} b.gander.sources n).active = true) : Block.sourceActive f b n = b :=
  if_pos (by rw [h]; rfl)

theorem Block.sourceActive_of_disabled (h : f.disabled n = true) : Block.sourceActive f b n = b :=
  if_pos (by rw [h, Bool.or_true])

theorem Block.vencPresent_sourceActive : (Block.sourceActive f b n).gander.vencPresent = b.gander.vencPresent := by
  unfold Block.sourceActive
  exact iteInduction (motive := fun x : Block => x.gander.vencPresent = b.gander.vencPresent) (fun _ => rfl) fun _ => rfl

/-- On main power an alarm waits for the next evaluation. -/
theorem Block.alarm_of_powered (h : b.gander.vencPresent = true) : Block.alarm f b n = Block.sourceActive f b n :=
  if_pos (Block.vencPresent_sourceActive.trans h)

/-- A glitch marks its source with the tick of its last event. -/
theorem Block.glitch_of_fresh (hv : b.gander.vencPresent = true) (hup : b.mode.porstLow = false)
    (ha : (nth {} b.gander.sources n).active = false) (hi : (nth {} b.gander.sources n).inactiveAt = none) (hd : f.disabled n = false) :
    Block.glitch f b n = { b with gander := { b.gander with
      sources := modNth (fun x => { x with active := true, fired := true, inactiveAt := some b.time.interval }) n b.gander.sources
      confirmed := b.gander.confirmed ++ [n] } } := by
  unfold Block.glitch
  rw [if_neg (by rw [hv, hup]; decide), Block.alarm_of_powered hv, Block.sourceActive_of_fresh ha hi hd]
  simp only
  rw [modNth_modNth]
  rfl

theorem Block.countMesh_of_pos {k : Nat} (h : 0 < k) :
    b.countMesh n k = { b with gander := { b.gander with lastLoop := n, mismatches := min (b.gander.mismatches + k) (2 ^ 32 - 1) } } :=
  if_neg (Nat.ne_of_gt h)

/-! ## A block without partitions -/

theorem Block.not_paired_of_no_partitions (h : b.partitions = []) (p : Nat) : b.paired p = false := by
  have hnone : ∀ x ∈ b.img.inForce.parts, x.2.enabled = false := by
    intro x hx
    by_contra hen
    have hmem : x.1 ∈ b.partitions := List.mem_map_of_mem (List.mem_filter.2 ⟨hx, by simpa using hen⟩)
    rw [h] at hmem
    exact absurd hmem (List.not_mem_nil)
  have hcfg : (b.cfg p).enabled = false := Table.get_of_all (P := fun c : PartCfg => c.enabled = false) rfl hnone p
  rw [Block.paired, hcfg, Bool.and_false, Bool.false_and]

/-- What the entry to LOCKED does to a burst that is outstanding. -/
def RingRec.cutBurst (r : RingRec) : RingRec := { r with burst := r.burst.map fun u => { u with locked := u.locked || !u.poll } }

theorem RingRec.cutBurst_cutBurst (r : RingRec) : r.cutBurst.cutBurst = r.cutBurst := by
  unfold RingRec.cutBurst
  cases r.burst <;> simp

/-- Every ring of a list has its burst cut off, and nothing else changes. -/
theorem Block.cutBursts_spec (ks : List Nat) (b : Block) :
    (∀ k, (ks.foldl (fun b k => b.modRing k RingRec.cutBurst) b).ring k = if k ∈ ks then (b.ring k).cutBurst else b.ring k) ∧
    ks.foldl (fun b k => b.modRing k RingRec.cutBurst) b =
      { b with rings := (ks.foldl (fun b k => b.modRing k RingRec.cutBurst) b).rings } := by
  induction ks generalizing b with
  | nil => exact ⟨fun k => rfl, rfl⟩
  | cons j ks ih =>
    obtain ⟨hring, hframe⟩ := ih (b.modRing j RingRec.cutBurst)
    refine ⟨fun k => ?_, hframe.trans rfl⟩
    rw [List.foldl_cons, hring, Block.ring_modRing]
    by_cases hk : k ∈ ks
    · rw [if_pos hk, if_pos (List.mem_cons_of_mem _ hk)]
      by_cases hj : j = k
      · rw [if_pos hj, hj, RingRec.cutBurst_cutBurst]
      · rw [if_neg hj]
    · rw [if_neg hk]
      by_cases hj : j = k
      · rw [if_pos hj, if_pos (by rw [hj]; exact List.mem_cons_self), hj]
      · rw [if_neg hj, if_neg (by simp [hk, Ne.symm hj])]

/-- Where no partition is paired the entry to LOCKED spares no ring. -/
theorem Block.cutBursts_of_no_partitions (h : b.partitions = []) (ks : List Nat) :
    ks.foldl (fun b k => if b.paired (b.ownerD k) then b else b.modRing k RingRec.cutBurst) b =
      ks.foldl (fun b k => b.modRing k RingRec.cutBurst) b := by
  induction ks generalizing b with
  | nil => rfl
  | cons k ks ih =>
    rw [List.foldl_cons, List.foldl_cons, if_neg (by rw [Block.not_paired_of_no_partitions h]; decide)]
    exact ih (b := b.modRing k RingRec.cutBurst) h

theorem Block.lockBursts_of_no_partitions (h : b.partitions = []) :
    (∀ k, b.lockBursts.ring k = (b.ring k).cutBurst) ∧ b.lockBursts = { b with rings := b.lockBursts.rings } := by
  have hall : b.lockBursts = (b.rings.map (·.1)).foldl (fun b k => b.modRing k RingRec.cutBurst) b :=
    Block.cutBursts_of_no_partitions h _
  obtain ⟨hring, hframe⟩ := Block.cutBursts_spec (b.rings.map (·.1)) b
  rw [hall]
  refine ⟨fun k => (hring k).trans ?_, hframe⟩
  by_cases hk : k ∈ b.rings.map (·.1)
  · exact if_pos hk
  · have hdefault : b.ring k = {} := Block.ring_of_not_listed fun x hx hxk => hk (List.mem_map.2 ⟨x, hx, hxk⟩)
    rw [if_neg hk, hdefault]
    rfl

/-- A block with neither entries nor partitions: the entry to LOCKED changes its mode and cuts its bursts off. -/
theorem Block.enterLocked_of_idle {cause : Nat} (hm : b.mode.mode = .operational) (he : b.entries = [])
    (hp : b.partitions = []) (hs : b.twin.session = none) :
    (∀ k, (b.enterLocked cause).ring k = (b.ring k).cutBurst) ∧ b.enterLocked cause = { b with
      mode := { b.mode with mode := .locked, transition := none, lockCause := cause }, rings := (b.enterLocked cause).rings } := by
  obtain ⟨v, hv⟩ : ∃ v : Block, v = { b with mode := { b.mode with mode := .locked, transition := none, lockCause := cause } } := ⟨_, rfl⟩
  have hvp : v.partitions = [] := by rw [hv]; exact hp
  have hvpaired : v.pairedParts = [] := by rw [Block.pairedParts, hvp]; rfl
  have hrelease (c : Nat) : v.releaseAll v.pairedParts c = v := by
    rw [hvpaired]
    exact if_neg (by rw [hv]; simp [hs])
  obtain ⟨hring, hframe⟩ := Block.lockBursts_of_no_partitions hvp
  have hcut : v.lockBursts.cutAll (fun e => !(v.lockBursts.paired e.part) && !e.isUnlock) St.locked 3 = v.lockBursts := by
    have hnone : v.lockBursts.entries = [] := ((congrArg Block.entries hframe).trans rfl).trans (by rw [hv]; exact he)
    unfold Block.cutAll
    rw [hnone]
    rfl
  have hlocks : v.lockBursts.partitions = [] := (congrArg Block.partitions hframe).trans hvp
  have hrun : b.enterLocked cause = v.lockBursts := by
    unfold Block.enterLocked
    rw [hm]
    simp only
    rw [← hv, hrelease, hvpaired, List.foldl_nil, hcut, hlocks, List.foldl_nil]
  rw [hrun]
  refine ⟨fun k => (hring k).trans (by rw [hv]; rfl), hframe.trans ?_⟩
  rw [hv]

/-! ## Responses (R356, R357) -/

/-- Without entries no unlock is under way. -/
theorem Block.failUnlock_of_no_entries (h : b.entries = []) : b.failUnlock = b := by
  unfold Block.failUnlock
  rw [h]
  simp only [List.map_nil]
  rw [← h]

theorem RecCopy.sev3_counted (c : RecCopy) (kind subject : Nat) : (c.counted kind subject).sev3 = c.sev3 := by
  rw [RecCopy.counted_eq]

/-- With room in the reserve beyond the next record, a record of severity 3 is added and the mode stays. -/
theorem Block.note_high_of_room {kind subject detail : Nat} (h : b.recorder.copy.sev3.length < 639) :
    b.OnlyRec (b.note kind 3 subject detail) ∧
      (b.note kind 3 subject detail).recorder.copy.sev3.length = b.recorder.copy.sev3.length + 1 := by
  obtain ⟨c, hc⟩ : ∃ c, c = b.recorder.copy.counted kind subject := ⟨_, rfl⟩
  have hlen : c.sev3.length = b.recorder.copy.sev3.length := by rw [hc, RecCopy.sev3_counted]
  have hlock : c.reserveLock = b.recorder.copy.reserveLock := by rw [hc, RecCopy.reserveLock_counted]
  have hfull : (c.sev3.length + 1 == 640) = false := beq_false_of_ne (by omega)
  obtain ⟨r, hr⟩ : ∃ r : Rec, r = { kind, sev := 3, subject, first := c.opMinutes, last := c.opMinutes, cycle := c.powerCycles, detail, id := c.nextId } :=
    ⟨_, rfl⟩
  obtain ⟨v, hv⟩ : ∃ v : Block, v = { b with recorder := { b.recorder with copy :=
    { c with sev3 := c.sev3 ++ [r], nextId := (c.nextId + 1) % 2 ^ 32, reserveLock := c.reserveLock || false } } } := ⟨_, rfl⟩
  have hhigh : b.noteRec kind 3 subject detail = v.startCommit := by
    show b.noteHigh kind subject detail = _
    unfold Block.noteHigh
    simp only [← hc, ← hr, hfull]
    rw [if_neg (by omega), ← hv]
    rfl
  have hcopy : v.startCommit.recorder.copy = v.recorder.copy := v.copy_startCommit
  have hnote : b.note kind 3 subject detail = v.startCommit := by
    unfold Block.note
    simp only [hhigh]
    refine if_neg ?_
    rw [hcopy, hv, ← hlock]
    simp
  rw [hnote, hcopy]
  refine ⟨Block.OnlyRec.trans (b' := v) ?_ (Block.onlyRec_startCommit v), ?_⟩
  · rw [hv]
    rfl
  · rw [hv]
    simp [hlen]

/-- Where no unlock is under way a response takes an OPERATIONAL block to LOCKED. -/
theorem Block.lock_of_idle (hm : b.mode.mode = .operational) (he : b.entries = []) (cause : Nat) :
    (if b.failUnlock.mode.mode.early then b.failUnlock else b.failUnlock.enterLocked cause) = b.enterLocked cause := by
  rw [Block.failUnlock_of_no_entries he, hm]
  rfl

theorem Gander.countLock_of_powered {g : Gander} (h : g.vencPresent = true) :
    g.countLock = { g with lockSeq := g.lockSeq + 1, lockSeqFlash := g.lockSeq + 1, nonce := none, ceremony := none } := by
  rw [Gander.countLock, if_pos h]

theorem Gander.countLock_of_cell {g : Gander} (h : g.vencPresent = false) :
    g.countLock = { g with lockSeq := g.lockSeq + 1, nonce := none, ceremony := none } := by
  rw [Gander.countLock, if_neg (by rw [h]; decide)]

/-- The sentinel after LOCK on main power. -/
def Gander.locked (g : Gander) : Gander := { g.countLock with applied := 1, lockLatch := true }

/-- The sentinel after ERASE on main power. -/
def Gander.wiped (g : Gander) : Gander := { g.countLock.zeroStore with applied := 2, eraseLatch := true, mkInstalled := false }

theorem Block.respond_lock_of_idle (hm : b.mode.mode = .operational) (he : b.entries = []) :
    b.respond 1 = ({ b with gander := b.gander.locked } : Block).enterLocked 1 :=
  Block.lock_of_idle (b := { b with gander := b.gander.locked }) hm he 1

theorem Block.respond_erase_of_idle (hm : b.mode.mode = .operational) (he : b.entries = []) :
    b.respond 2 = (({ b with gander := b.gander.wiped } : Block).enterLocked 2).zeroKeys :=
  congrArg Block.zeroKeys (Block.lock_of_idle (b := { b with gander := b.gander.wiped }) hm he 2)

/-! ## Evaluation (R358) -/

/-- The alarm of one source on main power. -/
theorem Block.evalAlarms_of_one (hc : b.gander.confirmed = [n]) (hv : b.gander.vencPresent = true) :
    let r := if b.gander.applied < (Gander.cfgOf f b.gander n).response then (Gander.cfgOf f b.gander n).response else 0
    Block.evalAlarms f b = Block.noteAlarm f (Block.respond { b with gander := { b.gander with confirmed := [] } } r) n r := by
  unfold Block.evalAlarms
  simp only [hc, hv, List.isEmpty_cons, Bool.false_eq_true, if_false, List.map_cons, List.map_nil, List.foldl_cons, List.foldl_nil,
    Nat.zero_max, if_true]

theorem Block.noteAlarm_of_source (hn : n < 19) (r : Nat) :
    Block.noteAlarm f b n r = b.note 0x0001 ((Gander.cfgOf f b.gander n).response + 1) n r :=
  if_neg (by omega)

theorem Block.evalAlarms_of_none (h : b.gander.confirmed = []) : Block.evalAlarms f b = b := by
  unfold Block.evalAlarms
  rw [h]
  rfl

section
variable (hc : b.gander.confirmed = [n]) (hv : b.gander.vencPresent = true) (hn : n < 19)
include hc hv hn

/-- NOTE, and a response that stands already, are recorded alone. -/
theorem Block.evalAlarms_of_standing
    (h : (Gander.cfgOf f b.gander n).response = 0 ∨ (Gander.cfgOf f b.gander n).response ≤ b.gander.applied) :
    Block.evalAlarms f b = Block.note { b with gander := { b.gander with confirmed := [] } } 0x0001
      ((Gander.cfgOf f b.gander n).response + 1) n 0 := by
  have hnone : ¬ b.gander.applied < (Gander.cfgOf f b.gander n).response := by omega
  rw [Block.evalAlarms_of_one hc hv]
  simp only [if_neg hnone]
  exact Block.noteAlarm_of_source hn 0

variable (hm : b.mode.mode = .operational) (he : b.entries = []) (hp : b.partitions = []) (hs : b.twin.session = none)
  (ha : b.gander.applied = 0)
include hm he hp hs ha

theorem Block.evalAlarms_lock (hr : (Gander.cfgOf f b.gander n).response = 1) :
    let v := Block.evalAlarms f b
    v.gander = { b.gander with
      lockSeq := b.gander.lockSeq + 1, lockSeqFlash := b.gander.lockSeq + 1, nonce := none, ceremony := none
      lockLatch := true, applied := 1, confirmed := [] } ∧
    v.mode = { b.mode with mode := .locked, transition := none, lockCause := 1 } ∧ (∀ k, v.ring k = (b.ring k).cutBurst) ∧
    v = { b with gander := v.gander, mode := v.mode, recorder := v.recorder, rings := v.rings } := by
  obtain ⟨g, hg⟩ : ∃ g, g = ({ b.gander with confirmed := [] } : Gander).locked := ⟨_, rfl⟩
  obtain ⟨w, hw⟩ : ∃ w : Block, w = { b with gander := g } := ⟨_, rfl⟩
  obtain ⟨hring, hframe⟩ := Block.enterLocked_of_idle (b := w) (cause := 1) (by rw [hw]; exact hm) (by rw [hw]; exact he)
    (by rw [hw]; exact hp) (by rw [hw]; exact hs)
  obtain ⟨x, hx⟩ : ∃ x, x = w.enterLocked 1 := ⟨_, rfl⟩
  rw [← hx] at hring hframe
  have hgander : x.gander = g := (congrArg Block.gander hframe).trans (by rw [hw])
  have hcfg : (Gander.cfgOf f x.gander n).response = 1 := by rw [hgander, hg]; exact hr
  have heval : Block.evalAlarms f b = x.note 0x0001 2 n 1 := by
    have happlies : (if b.gander.applied < (Gander.cfgOf f b.gander n).response then (Gander.cfgOf f b.gander n).response else 0) = 1 := by
      rw [hr, ha]
      rfl
    rw [Block.evalAlarms_of_one hc hv, happlies, Block.respond_lock_of_idle (b := { b with gander := { b.gander with confirmed := [] } }) hm he]
    simp only
    rw [← hg, ← hw, ← hx, Block.noteAlarm_of_source hn, hcfg]
  have hnote := Block.onlyRec_note (by decide : 2 < 3) x 0x0001 n 1
  rw [heval]
  obtain ⟨y, hy⟩ : ∃ y, y = x.note 0x0001 2 n 1 := ⟨_, rfl⟩
  rw [← hy] at hnote ⊢
  refine ⟨?_, ?_, fun k => ?_, ?_⟩
  · rw [hnote]
    refine hgander.trans ?_
    rw [hg, Gander.locked, Gander.countLock_of_powered (g := { b.gander with confirmed := [] }) hv]
  · rw [hnote]
    exact (congrArg Block.mode hframe).trans (by rw [hw])
  · rw [hnote]
    exact (hring k).trans (by rw [hw]; rfl)
  · rw [hnote]
    simp only
    rw [hframe, hw]

theorem Block.evalAlarms_erase (hr : (Gander.cfgOf f b.gander n).response = 2) (hroom : b.recorder.copy.sev3.length < 639) :
    let v := Block.evalAlarms f b
    v.gander = { b.gander with
      masterKey := none, mkKcv := [], mkLine := 0, lockSeq := b.gander.lockSeq + 1, lockSeqFlash := b.gander.lockSeq + 1, nonce := none
      ceremony := none, applied := 2, eraseLatch := true, mkInstalled := false, confirmed := [] } ∧
    v.mode = { b.mode with mode := .locked, transition := none, lockCause := 2 } ∧ v.ctxs = [] ∧ v.keys.slots = [] ∧
    v.recorder.copy.sev3.length = b.recorder.copy.sev3.length + 1 := by
  obtain ⟨g, hg⟩ : ∃ g, g = ({ b.gander with confirmed := [] } : Gander).wiped := ⟨_, rfl⟩
  obtain ⟨w, hw⟩ : ∃ w : Block, w = { b with gander := g } := ⟨_, rfl⟩
  obtain ⟨-, hframe⟩ := Block.enterLocked_of_idle (b := w) (cause := 2) (by rw [hw]; exact hm) (by rw [hw]; exact he)
    (by rw [hw]; exact hp) (by rw [hw]; exact hs)
  obtain ⟨x, hx⟩ : ∃ x, x = (w.enterLocked 2).zeroKeys := ⟨_, rfl⟩
  have hgander : x.gander = g := by
    rw [hx]
    exact (congrArg Block.gander hframe).trans (by rw [hw])
  have hmode : x.mode = { b.mode with mode := .locked, transition := none, lockCause := 2 } := by
    rw [hx]
    exact (congrArg Block.mode hframe).trans (by rw [hw])
  have hrec : x.recorder = b.recorder := by
    rw [hx]
    exact (congrArg Block.recorder hframe).trans (by rw [hw])
  have hctxs : x.ctxs = [] := by rw [hx]; rfl
  have hslots : x.keys.slots = [] := by rw [hx]; rfl
  have hcfg : (Gander.cfgOf f x.gander n).response = 2 := by rw [hgander, hg]; exact hr
  have heval : Block.evalAlarms f b = x.note 0x0001 3 n 2 := by
    have happlies : (if b.gander.applied < (Gander.cfgOf f b.gander n).response then (Gander.cfgOf f b.gander n).response else 0) = 2 := by
      rw [hr, ha]
      rfl
    rw [Block.evalAlarms_of_one hc hv, happlies, Block.respond_erase_of_idle (b := { b with gander := { b.gander with confirmed := [] } }) hm he]
    simp only
    rw [← hg, ← hw, ← hx, Block.noteAlarm_of_source hn, hcfg]
  obtain ⟨hnote, hlen⟩ := Block.note_high_of_room (b := x) (kind := 0x0001) (subject := n) (detail := 2) (by rw [hrec]; exact hroom)
  rw [heval]
  obtain ⟨y, hy⟩ : ∃ y, y = x.note 0x0001 3 n 2 := ⟨_, rfl⟩
  rw [← hy] at hnote hlen ⊢
  refine ⟨?_, ?_, ?_, ?_, hlen.trans (by rw [hrec])⟩
  · rw [hnote]
    refine hgander.trans ?_
    rw [hg, Gander.wiped, Gander.countLock_of_powered (g := { b.gander with confirmed := [] }) hv]
    rfl
  · rw [hnote]
    exact hmode
  · rw [hnote]
    exact hctxs
  · rw [hnote]
    exact hslots

end

/-! ## Sources that go inactive -/

/-- A source that goes inactive at a tick. -/
def SrcRec.down (now : Nat) (x : SrcRec) : SrcRec := { x with active := false, inactiveAt := some now }

/-- The sources of a list that are active go inactive. -/
def SrcRec.quieted (now : Nat) (ss : List Nat) (x : SrcRec × Nat) : SrcRec :=
  if (ss.contains x.2 && x.1.active) = true then x.1.down now else x.1

theorem Gander.sources_quiet (g : Gander) (now : Nat) (ss : List Nat) :
    (g.quiet f now ss).sources = g.sources.zipIdx.map (SrcRec.quieted now ss) := rfl

theorem Gander.quiet_spec (g : Gander) (now : Nat) (ss : List Nat) : g.quiet f now ss =
    { g with sources := (g.quiet f now ss).sources, applied := (g.quiet f now ss).applied } := rfl

theorem Gander.inactive_quiet (g : Gander) (now : Nat) {ss : List Nat} (h : n ∈ ss) :
    (nth {} (g.quiet f now ss).sources n).active = false := by
  rw [Gander.sources_quiet, nth, List.getD_eq_getElem?_getD, List.getElem?_map, List.getElem?_zipIdx]
  cases hx : g.sources[n]? with
  | none => rfl
  | some x =>
    have hin : ss.contains (0 + n) = true := by simpa using h
    show (SrcRec.quieted now ss (x, 0 + n)).active = false
    rw [SrcRec.quieted]
    by_cases ha : x.active = true
    · rw [if_pos (by simp only [hin, ha, Bool.and_self])]
      rfl
    · rw [if_neg (by simp only [ha, Bool.and_false]; decide)]
      exact Bool.eq_false_iff.2 ha

/-- No source from a number on is quieted by a lower number. -/
theorem SrcRec.map_quieted_of_past (now k : Nat) (l : List SrcRec) :
    (l.zipIdx (k + 1)).map (SrcRec.quieted now [k]) = l := by
  rw [List.map_congr_left (g := Prod.fst), List.zipIdx_map_fst]
  intro x hx
  have hk : x.2 ≠ k := by
    have := List.le_snd_of_mem_zipIdx hx
    omega
  exact if_neg (by simp [hk])

theorem SrcRec.map_quieted_single (now k : Nat) (l : List SrcRec) (h : (nth {} l n).active = true) :
    (l.zipIdx k).map (SrcRec.quieted now [k + n]) = modNth (SrcRec.down now) n l := by
  induction l generalizing k n with
  | nil => cases n <;> rfl
  | cons x l ih =>
    rw [List.zipIdx_cons, List.map_cons]
    cases n with
    | zero =>
      rw [nth_cons_zero] at h
      show SrcRec.quieted now [k] (x, k) :: (l.zipIdx (k + 1)).map (SrcRec.quieted now [k]) = x.down now :: l
      rw [SrcRec.map_quieted_of_past, SrcRec.quieted, if_pos (by simp [h])]
    | succ n =>
      rw [nth_cons_succ] at h
      have htail := ih (k + 1) h
      rw [show k + 1 + n = k + (n + 1) by omega] at htail
      rw [htail, SrcRec.quieted, if_neg (by simp)]
      rfl

theorem Gander.sources_quiet_single (g : Gander) (now : Nat) (h : (nth {} g.sources n).active = true) :
    (g.quiet f now [n]).sources = modNth (SrcRec.down now) n g.sources := by
  have := SrcRec.map_quieted_single now 0 g.sources h
  rwa [Nat.zero_add] at this

/-- With every source inactive no response stands. -/
theorem Gander.applied_quiet_of_all (g : Gander) (now : Nat) (ss : List Nat)
    (h : ∀ x ∈ (g.quiet f now ss).sources, x.active = false) : (g.quiet f now ss).applied = 0 := by
  refine if_neg ?_
  rw [Bool.not_eq_true, List.any_eq_false]
  intro x hx
  have hin : x.1.active = false := h x.1 (List.fst_mem_of_mem_zipIdx hx)
  simp [hin]

theorem Gander.applied_quiet (g : Gander) (now : Nat) (ss : List Nat) :
    (g.quiet f now ss).applied = g.applied ∨ (g.quiet f now ss).applied = 0 := ite_eq_or_eq _ _ _

theorem Gander.applied_quiet_single (g : Gander) (now : Nat) (h : (nth {} g.sources n).active = true)
    (hall : ∀ i, i ≠ n → (nth {} g.sources i).active = false) : (g.quiet f now [n]).applied = 0 := by
  refine Gander.applied_quiet_of_all g now [n] fun x hx => ?_
  obtain ⟨j, -, rfl⟩ := exists_nth_of_mem {} hx
  by_cases hj : j = n
  · rw [hj]
    exact Gander.inactive_quiet g now List.mem_cons_self
  · rw [Gander.sources_quiet_single g now h, nth_modNth, if_neg (fun hc => hj hc.1.symm)]
    exact hall j hj

theorem Block.sourceInactive_of_active (h : (nth {} b.gander.sources n).active = true) (h15 : n ≠ 15) (h16 : n ≠ 16) (h18 : n ≠ 18) :
    Block.sourceInactive f b n = { b with gander := b.gander.quiet f b.now [n] } := by
  unfold Block.sourceInactive
  simp only
  exact if_neg (by simp [h, h15, h16, h18])

theorem Block.sourceInactive_of_inactive (h : (nth {} b.gander.sources n).active = false) : Block.sourceInactive f b n = b :=
  if_pos (by simp [h])

/-! ## The cell alone (R351, R352, R356) -/

/-- The sentinel after ERASE on the cell, the alarm of source k held. -/
def Gander.erasedOnCell (g : Gander) (k : Nat) : Gander :=
  { g with masterKey := none, mkKcv := [], mkLine := 0, lockSeq := g.lockSeq + 1, nonce := none, ceremony := none, applied := 2
           eraseLatch := true, cellBuf := g.cellBuf ++ [(k, 2)] }

theorem Gander.erase_on_cell {g : Gander} (hv : g.vencPresent = false) (hroom : g.cellBuf.length < 16) (k : Nat) :
    (g.respondCell 2).hold k 2 = g.erasedOnCell k := by
  have hrespond : g.respondCell 2 = { g with
      masterKey := none, mkKcv := [], mkLine := 0, lockSeq := g.lockSeq + 1, nonce := none, ceremony := none, applied := 2
      eraseLatch := true } := by
    show ({ g.countLock.zeroStore with applied := 2, eraseLatch := true } : Gander) = _
    rw [Gander.countLock_of_cell hv]
    rfl
  rw [hrespond]
  exact if_pos hroom

theorem Block.exhaust_of_kept {mv : Nat} (h : 2200 ≤ mv) : b.exhaust mv = b := if_pos (by simp [h])

theorem Block.exhaust_of_powered {mv : Nat} (h : b.gander.vencPresent = true) : b.exhaust mv = b := if_pos (by simp [h])

theorem Block.exhaust_of_low {mv : Nat} (hv : b.gander.vencPresent = false) (hmv : mv < 2200)
    (ha : (nth {} b.gander.sources 13).active = false) (hp : b.gander.applied < 2) (hroom : b.gander.cellBuf.length < 16) :
    b.exhaust mv = { b with gander :=
      ({ b.gander with vbatMv := mv, sources := modNth SrcRec.up 13 b.gander.sources } : Gander).erasedOnCell 32 } := by
  obtain ⟨g, hg⟩ : ∃ g : Gander, g = { b.gander with vbatMv := mv, sources := modNth SrcRec.up 13 b.gander.sources } := ⟨_, rfl⟩
  have happlies : (if g.applied < 2 then 2 else 0) = 2 := if_pos (by rw [hg]; exact hp)
  have herase : (g.respondCell (if g.applied < 2 then 2 else 0)).hold 32 (if g.applied < 2 then 2 else 0) = g.erasedOnCell 32 := by
    rw [happlies]
    exact Gander.erase_on_cell (by rw [hg]; exact hv) (by rw [hg]; exact hroom) 32
  unfold Block.exhaust
  simp only
  rw [if_neg (by simp [hv, hmv, ha]), ← hg, ← herase]
  rw [hg]
  rfl

/-- The alarm of one source on the cell. -/
theorem Block.evalAlarms_of_one_on_cell (hc : b.gander.confirmed = [n]) (hv : b.gander.vencPresent = false) :
    let r := if b.gander.applied < (Gander.cfgOf f b.gander n).response then (Gander.cfgOf f b.gander n).response else 0
    Block.evalAlarms f b = { b with gander := (({ b.gander with confirmed := [] } : Gander).respondCell r).hold n r } := by
  unfold Block.evalAlarms
  simp only [hc, hv, List.isEmpty_cons, Bool.false_eq_true, if_false, List.map_cons, List.map_nil, List.foldl_cons, List.foldl_nil,
    Nat.zero_max]

/-- On the cell an alarm of one source whose response is ERASE is evaluated at once. -/
theorem Block.alarm_on_cell (hv : b.gander.vencPresent = false) (ha : (nth {} b.gander.sources n).active = false)
    (hi : (nth {} b.gander.sources n).inactiveAt = none) (hd : f.disabled n = false) (hc : b.gander.confirmed = [])
    (hp : b.gander.applied < 2) (hr : (Gander.cfgOf f b.gander n).response = 2) (hroom : b.gander.cellBuf.length < 16) :
    Block.alarm f b n = { b with gander := ({ b.gander with sources := modNth SrcRec.up n b.gander.sources } : Gander).erasedOnCell n } := by
  obtain ⟨g, hg⟩ : ∃ g : Gander, g = { b.gander with sources := modNth SrcRec.up n b.gander.sources } := ⟨_, rfl⟩
  have hactive : Block.sourceActive f b n = { b with gander := { g with confirmed := [n] } } := by
    rw [Block.sourceActive_of_fresh ha hi hd, hc, hg]
    rfl
  have hconf : ({ g with confirmed := [] } : Gander) = g := by rw [hg, ← hc]
  have hresponse : (Gander.cfgOf f g n).response = 2 := by rw [hg]; exact hr
  have happlies : (if g.applied < (Gander.cfgOf f g n).response then (Gander.cfgOf f g n).response else 0) = 2 := by
    rw [hresponse]
    exact if_pos (by rw [hg]; exact hp)
  have heval : Block.evalAlarms f { b with gander := { g with confirmed := [n] } } = { b with gander := g.erasedOnCell n } := by
    refine (Block.evalAlarms_of_one_on_cell (b := { b with gander := { g with confirmed := [n] } }) rfl (by rw [hg]; exact hv)).trans ?_
    show ({ b with gander := (({ g with confirmed := [] } : Gander).respondCell (if g.applied < (Gander.cfgOf f g n).response then
      (Gander.cfgOf f g n).response else 0)).hold n (if g.applied < (Gander.cfgOf f g n).response then
      (Gander.cfgOf f g n).response else 0) } : Block) = _
    rw [happlies, hconf, Gander.erase_on_cell (by rw [hg]; exact hv) (by rw [hg]; exact hroom)]
  unfold Block.alarm
  simp only
  rw [hactive, if_neg (by rw [hg]; simp [hv]), heval, hg]

/-- A mesh burst with mismatches of the first loop alone, temperature and bond as they should be. -/
theorem exec_meshBurst_of_one {s : State} {k mv : Nat} {x : Int} (hv : s.blk.gander.vencPresent = false) (hmv : 2200 ≤ mv)
    (hlow : -450 ≤ x) (hhigh : x ≤ 1300) (hk : 0 < k) :
    let v : Block := { s.blk with gander := { s.blk.gander with
      vbatMv := mv, temp := x, lastLoop := 0, mismatches := min (s.blk.gander.mismatches + k) (2 ^ 32 - 1) } }
    exec (.meshBurst [k] mv x false) s = .next { s with blk := if 4 ≤ k then Block.alarm s.fuses v 4 else v } := by
  intro v
  have htemp : tempOut x = false := by
    rw [tempOut, decide_eq_false (by omega), decide_eq_false (by omega)]
    rfl
  have hcount : Block.countMesh { s.blk with gander := { s.blk.gander with vbatMv := mv, temp := x } } 0 k = v := Block.countMesh_of_pos hk
  obtain ⟨w, hw⟩ : ∃ w : Block, w = if 4 ≤ k then Block.alarm s.fuses v 4 else v := ⟨_, rfl⟩
  refine next_congr ((if_neg (by rw [hv]; decide)).trans ?_)
  show Block.exhaust (if tempOut x then Block.alarm s.fuses (if 4 ≤ k then Block.alarm s.fuses (Block.countMesh _ 0 k) 4
    else Block.countMesh _ 0 k) 14 else (if 4 ≤ k then Block.alarm s.fuses (Block.countMesh _ 0 k) 4 else Block.countMesh _ 0 k)) mv = _
  rw [hcount, ← hw, htemp]
  exact Block.exhaust_of_kept hmv

/-! ## Supplies (R354, R360, 17 R378) -/

theorem Block.vencAbsent_of_low (hv : b.gander.vencPresent = true) {mv : Nat} (hmv : mv < 4000) :
    (Block.vencAbsent f b mv).gander = { b.gander.quiet f b.now [12, 13] with vencPresent := false, vencMv := mv } ∧
    (Block.vencAbsent f b mv).recorder.committing = none ∧ (Block.vencAbsent f b mv).recorder.deferred = false ∧
    Block.vencAbsent f b mv =
      { b with gander := (Block.vencAbsent f b mv).gander, recorder := (Block.vencAbsent f b mv).recorder } := by
  unfold Block.vencAbsent
  rw [if_neg (by simp [hv, hmv])]
  exact ⟨rfl, rfl, rfl, rfl⟩

/-- The sentinel when VENC returns, the store kept on the cell or lost. -/
def Gander.poweredUp (f : Fuses) (g : Gander) (now mv : Nat) (kept : Bool) : Gander :=
  let g := if kept then g
    else { g.zeroStore with lockSeq := 0, inverted := false, cellBuf := [], cellOver := [], seeds := List.replicate 8 1 }
  let g : Gander := { g.quiet f now [13] with vencPresent := true, vencMv := mv }
  let seq := if g.lockSeq.toNat < g.lockSeqFlash.toNat then g.lockSeqFlash else g.lockSeq
  { g with lockSeq := seq, lockSeqFlash := seq, cellBuf := [], cellOver := [] }

/-- Bank A alone is valid, and the cell holds no alarm. -/
theorem Block.vencUp_of_bankA {mv : Nat} {kept : Bool} {a : RecCopy} (hv : b.gander.vencPresent = false) (hmv : 4000 ≤ mv)
    (hbuf : b.gander.cellBuf = []) (hover : b.gander.cellOver = []) (ha : b.recorder.bankA = some a) (hb : b.recorder.bankB = none) :
    ∃ r : Recorder, r.copy = a ∧ r.bank = false ∧ Block.vencUp f b mv true kept =
      Block.storeCheck { b with recorder := r, gander := b.gander.poweredUp f b.now mv kept } := by
  obtain ⟨r, hr⟩ : ∃ r, r = b.recorder.powerUp b.now := ⟨_, rfl⟩
  have hpower : r = { bankA := b.recorder.bankA, bankB := b.recorder.bankB, bank := false, commitsA := b.recorder.commitsA
                      commitsB := b.recorder.commitsB, minuteAt := b.now, sampleAt := b.now, copy := a } := by
    rw [hr]
    unfold Recorder.powerUp
    simp only [ha, hb]
  refine ⟨r, by rw [hpower], by rw [hpower], ?_⟩
  obtain ⟨g, hg⟩ : ∃ g : Gander, g = if kept then b.gander
    else { b.gander.zeroStore with lockSeq := 0, inverted := false, cellBuf := [], cellOver := [], seeds := List.replicate 8 1 } := ⟨_, rfl⟩
  have hgbuf : g.cellBuf = [] := by
    rw [hg]
    cases kept
    · rfl
    · exact hbuf
  have hgover : g.cellOver = [] := by
    rw [hg]
    cases kept
    · rfl
    · exact hover
  have hrun : Block.vencUp f b mv true kept =
      g.cellOver.foldl (fun b x => Block.note b 0x0002 0 x.1 x.2) (g.cellBuf.foldl (fun b x => Block.noteAlarm f b x.1 x.2)
        (Block.storeCheck (if r.noneValidSeen then Block.note { b with recorder := r, gander := b.gander.poweredUp f b.now mv kept } 0x0070 0 0 0
          else { b with recorder := r, gander := b.gander.poweredUp f b.now mv kept }))) := by
    rw [hr, hg]
    exact if_neg (by simp [hv, hmv])
  rw [hrun, hgbuf, hgover, List.foldl_nil, List.foldl_nil]
  exact congrArg Block.storeCheck (if_neg (by rw [hpower]; exact Bool.false_ne_true))

theorem Block.storeCheck_of_not_installed (h : b.gander.mkInstalled = false) : b.storeCheck = b := by
  unfold Block.storeCheck
  simp only
  exact if_pos (by simp [h])

/-- A key was installed, and the store has lost it with no ERASE on record. -/
theorem Block.storeCheck_of_lost (hi : b.gander.mkInstalled = true) (hk : b.gander.masterKey = none) (he : b.gander.eraseLatch = false) :
    b.storeCheck = Block.note { b with gander := { b.gander.countLock with eraseLatch := true, mkInstalled := false } } 0x0003 3 13 0 := by
  unfold Block.storeCheck
  simp only
  rw [if_neg (by simp [hi, hk]), if_neg (by simp [he])]

theorem Block.storeInversion_of_early (h : b.time.interval < b.gander.invertedAt + 86400000000) : Block.storeInversion f b = b := if_pos h

theorem Block.storeInversion_of_due (h : b.gander.invertedAt + 86400000000 ≤ b.time.interval) (hc : b.gander.confirmed = []) :
    Block.storeInversion f b = { b with gander := { b.gander with invertedAt := b.time.interval, inverted := !b.gander.inverted } } := by
  have hnone : (b.gander.confirmed.any fun s => (Gander.cfgOf f b.gander s).response == 2) = false := by
    rw [hc]
    rfl
  refine (if_neg (Nat.not_lt.2 h)).trans ?_
  rw [hnone]
  rfl

/-! ## Fuses (R355, R367) -/

section
variable {act : Nat} (hn : n < 19) (hlow : 0 < act) (hhigh : act < 4)
include hn hlow hhigh

/-- The fields of a write of AV_GANDER_FUSE with GO and neither W1C bit. -/
theorem fuseWord_fields : let w := (BitVec.ofNat 64 (256 + 32 * act + n)).toNat % 2 ^ 32
    field w 4 0 = n ∧ field w 6 5 = act ∧ bit w 8 = true ∧ bit w 9 = false ∧ bit w 10 = false := by
  have hw : (BitVec.ofNat 64 (256 + 32 * act + n)).toNat % 2 ^ 32 = 256 + 32 * act + n := by
    rw [BitVec.toNat_ofNat]
    omega
  simp only [hw, field_eq, bit, Nat.testBit_eq_decide_div_mod_eq, decide_eq_true_eq, decide_eq_false_iff_not]
  omega

theorem Block.fuseWrite_go : Block.fuseWrite f b ((BitVec.ofNat 64 (256 + 32 * act + n)).toNat % 2 ^ 32) = { b with gander :=
    if b.mode.mode != .factory || b.gander.blow.isSome || (act == 3 && n == 17) || (act == 1 && decide (1 < f.floorOf n))
    then { b.gander with fuseRefused := true }
    else { b.gander with blow := some (n, act, b.time.interval + 100) } } := by
  obtain ⟨hsrc, hact, h8, h9, h10⟩ := fuseWord_fields hn hlow hhigh
  have h19 : decide (19 ≤ n) = false := decide_eq_false (by omega)
  have hne : ¬ act = 0 := by omega
  unfold Block.fuseWrite
  simp only [hsrc, hact, h8, h9, h10, h19, hne, Bool.not_false, Bool.and_true, Bool.or_false, Bool.not_true, Bool.false_eq_true, if_false]
  rfl

theorem exec_fuseBlow {s : State} (hup : s.blk.mode.porstLow = false) :
    exec (.fuseBlow 0 (BitVec.ofNat 64 (256 + 32 * act + n))) s = .next { s with blk := { s.blk.okWrite with gander :=
      if s.blk.mode.mode != .factory || s.blk.gander.blow.isSome || (act == 3 && n == 17) || (act == 1 && decide (1 < s.fuses.floorOf n))
      then { s.blk.gander with fuseRefused := true }
      else { s.blk.gander with blow := some (n, act, s.blk.time.interval + 100) } } } :=
  next_congr ((Block.globalWrite_of_owner hup).trans (Block.fuseWrite_go (b := s.blk.okWrite) hn hlow hhigh))

end

end

/-- Settles O54: the sources by `Block.sourceActive_of_fresh` and its companions, the responses by `Block.evalAlarms_lock` and
`Block.evalAlarms_erase` on main power and by `Gander.erase_on_cell` on the cell. -/
theorem sentinel : Obligations.Sentinel := by
  unfold Obligations.Sentinel
  intro s n b g f now src becomes alarms glitches erased
  have halarms {c : Instr} {i : Nat} {g' : Gander} (hsrc : g'.sources = g.sources) (hconf : g'.confirmed = g.confirmed)
      (hrun : exec c s = .next { s with blk := Block.sourceActive f { b with gander := g' } i }) : alarms c i g' := by
    have hnth : nth {} ({ b with gander := g' } : Block).gander.sources i = src i := congrArg (fun l => nth {} l i) hsrc
    refine ⟨fun ha hi hd => ?_, fun ha => ?_, fun hd => ?_⟩
    · rw [← hsrc, ← hconf]
      exact hrun.trans (next_congr (Block.sourceActive_of_fresh (by rw [hnth]; exact ha) (by rw [hnth]; exact hi) hd))
    · exact hrun.trans (next_congr (Block.sourceActive_of_active (by rw [hnth]; exact ha)))
    · exact hrun.trans (next_congr (Block.sourceActive_of_disabled hd))
  refine ⟨fun hv => ⟨?_, ?_, ?_, ?_, ?_, ?_, ?_, ?_, ?_, ?_, ?_, ?_, ?_, ?_, ?_⟩, ?_, ?_, fun hv => ⟨?_, ?_, ?_, ?_⟩, ?_, ?_, ?_, ?_, ?_, ?_⟩
  · exact halarms rfl rfl (next_congr (Block.alarm_of_powered hv))
  · intro k hk
    have hcount : b.countMesh n k = { b with gander := { g with
      lastLoop := n, mismatches := min (g.mismatches + k) (2 ^ 32 - 1) } } := Block.countMesh_of_pos (by omega)
    have hrun : exec (.meshAlarm n k) s = .next { s with blk := Block.alarm f (b.countMesh n k) (4 + n) } :=
      next_congr ((if_neg (by rw [hv]; decide)).trans (if_pos hk))
    refine halarms rfl rfl (hrun.trans (next_congr ?_))
    rw [hcount]
    exact Block.alarm_of_powered hv
  · intro k hk h8
    exact next_congr ((if_neg (by rw [hv]; decide)).trans ((if_neg (by omega)).trans (Block.countMesh_of_pos hk)))
  · intro hout
    refine halarms rfl rfl (next_congr ((if_pos ?_).trans (Block.alarm_of_powered hv)))
    rw [hv]
    simpa using hout
  · intro hlow hhigh
    refine next_congr (if_neg ?_)
    rw [hv]
    simp only [Bool.true_and, Bool.or_eq_true, Bool.and_eq_true, decide_eq_true_eq]
    omega
  · intro hout
    refine halarms rfl rfl (next_congr ((if_pos ?_).trans (Block.alarm_of_powered hv)))
    rw [hv]
    simpa using hout
  · intro hlow hhigh
    refine next_congr (if_neg ?_)
    rw [hv]
    simp only [Bool.true_and, Bool.or_eq_true, decide_eq_true_eq]
    omega
  · intro x hout
    refine halarms rfl rfl (next_congr ((if_pos ?_).trans (Block.alarm_of_powered hv)))
    simpa [tempOut] using hout
  · exact halarms rfl rfl (next_congr (Block.alarm_of_powered hv))
  · exact fun hup => ⟨fun ha hi hd => next_congr (Block.glitch_of_fresh hv hup ha hi hd),
      fun ha hi hd => next_congr (Block.glitch_of_fresh hv hup ha hi hd)⟩
  · intro hdown
    have hoff : (!b.gander.vencPresent || b.mode.porstLow) = true := by rw [hdown, Bool.or_true]
    exact ⟨next_congr (if_pos hoff), next_congr (if_pos hoff)⟩
  · exact fun mv => next_congr (Block.exhaust_of_powered hv)
  · exact fun mv ok kept => next_congr (if_pos (by rw [hv]; rfl))
  · intro hconf hn
    refine ⟨fun hstands => next_congr (Block.evalAlarms_of_standing hconf hv hn hstands), fun hm he hp hs ha => ⟨fun hr => ?_, fun hr hroom => ?_⟩⟩
    · obtain ⟨hg, hmode, hring, hframe⟩ := Block.evalAlarms_lock hconf hv hn hm he hp hs ha hr
      exact ⟨{ s with blk := Block.evalAlarms f b }, rfl, hg, hmode, hring, congrArg (fun v => { s with blk := v }) hframe⟩
    · exact ⟨{ s with blk := Block.evalAlarms f b }, rfl, Block.evalAlarms_erase hconf hv hn hm he hp hs ha hr hroom⟩
  · intro hn
    obtain ⟨hg, hcommit, hdefer, hframe⟩ := Block.vencAbsent_of_low (f := f) hv hn
    refine ⟨{ s with blk := Block.vencAbsent f b n }, rfl, ?_, ?_, ?_, hcommit, hdefer, ?_, congrArg (fun v => { s with blk := v }) hframe⟩
    · exact congrArg Gander.vencPresent hg
    · exact congrArg Gander.vencMv hg
    · exact (congrArg (fun g : Gander => (nth {} g.sources 13).active) hg).trans (Gander.inactive_quiet (f := f) g b.now (by decide))
    · exact (congrArg Gander.masterKey hg).trans rfl
  · exact fun hc => next_congr (Block.evalAlarms_of_none hc)
  · intro x hlow hhigh
    refine next_congr (if_neg ?_)
    simp only [tempOut, Bool.or_eq_true, decide_eq_true_eq]
    omega
  · exact fun hmv ha hp hroom => next_congr (Block.exhaust_of_low hv hmv ha hp hroom)
  · exact fun hmv => next_congr (Block.exhaust_of_kept hmv)
  · intro k mv x hmv hlow hhigh hk
    have hrun := exec_meshBurst_of_one (s := s) hv hmv hlow hhigh hk
    refine ⟨fun hfew => hrun.trans (next_congr (if_neg (by omega))), fun hmany ha hi hd hc hp hr hroom => ?_⟩
    refine hrun.trans (next_congr ((if_pos hmany).trans ?_))
    exact Block.alarm_on_cell (b := { b with gander := { g with
      vbatMv := mv, temp := x, lastLoop := 0, mismatches := min (g.mismatches + k) (2 ^ 32 - 1) } }) hv ha hi hd hc hp hr hroom
  · intro a kept hmv hbuf hover ha hb
    obtain ⟨r, hcopy, hbank, hup⟩ := Block.vencUp_of_bankA (f := f) (kept := kept) hv hmv hbuf hover ha hb
    refine ⟨_, next_congr hup, fun hkept hinst => ?_, fun hlost hinst herase hroom => ?_⟩
    · subst hkept
      rw [Block.storeCheck_of_not_installed (by exact hinst)]
      exact ⟨rfl, rfl, rfl, rfl, hcopy, hbank, rfl⟩
    · subst hlost
      rw [Block.storeCheck_of_lost (by exact hinst) rfl (by exact herase)]
      obtain ⟨w, hw⟩ : ∃ w : Block, w = { b with recorder := r, gander := { (g.poweredUp f b.now n false).countLock with
        eraseLatch := true, mkInstalled := false } } := ⟨_, rfl⟩
      obtain ⟨honly, hlen⟩ := Block.note_high_of_room (b := w) (kind := 0x0003) (subject := 13) (detail := 0)
        (by rw [hw, hcopy]; exact hroom)
      have hgander : (w.note 0x0003 3 13 0).gander = w.gander := by rw [honly]
      have hstate : ({ ({ b with recorder := r, gander := g.poweredUp f b.now n false } : Block) with
        gander := { (g.poweredUp f b.now n false).countLock with eraseLatch := true, mkInstalled := false } } : Block) = w := hw.symm
      show (Block.note _ 0x0003 3 13 0).gander.eraseLatch = true ∧ (Block.note _ 0x0003 3 13 0).gander.mkInstalled = false ∧
        (Block.note _ 0x0003 3 13 0).gander.masterKey = none ∧ (Block.note _ 0x0003 3 13 0).recorder.copy.sev3.length = _
      rw [hstate, hgander, hlen, hw, hcopy]
      exact ⟨rfl, rfl, rfl, rfl⟩
  · intro ha h15 h16 h18
    refine ⟨{ s with blk := { b with gander := g.quiet f b.now [n] } }, next_congr (Block.sourceInactive_of_active ha h15 h16 h18), ?_,
      Gander.applied_quiet g b.now [n], fun hall => Gander.applied_quiet_single g b.now ha hall, rfl⟩
    rw [Gander.quiet_spec, Gander.sources_quiet_single g b.now ha]
    rfl
  · exact fun ha => next_congr (Block.sourceInactive_of_inactive ha)
  · exact fun h => next_congr (Block.storeInversion_of_early h)
  · exact fun h hc => next_congr (Block.storeInversion_of_due h hc)
  · intro act hn hup hlow hhigh
    have hrun := exec_fuseBlow hn hlow hhigh hup
    refine ⟨fun hm hb h3 h1 => hrun.trans (next_congr ?_), fun hm => hrun.trans (next_congr ?_)⟩
    · rw [if_neg]
      rw [show s.blk.mode.mode = .factory from hm, show s.blk.gander.blow = none from hb]
      simpa using ⟨fun h h' => h3 ⟨h, h'⟩, fun h => Nat.not_lt.1 fun h' => h1 ⟨h, h'⟩⟩
    · rw [if_pos]
      simp [show s.blk.mode.mode ≠ .factory from hm]
  · intro act t0 hblow
    have hrun : exec .fuseBlowDone s = if t0 ≤ b.now then .next { s with
        fuses := f.blow n act, blk := { b with gander := { g with blow := none, fuseDone := true } } } else .next s := by
      show execFuseBlowDone s = _
      unfold execFuseBlowDone
      simp only [show s.blk.gander.blow = some (n, act, t0) from hblow]
      rfl
    refine ⟨fun h => hrun.trans (if_pos h), fun h => hrun.trans (if_neg (Nat.not_le.2 h))⟩

end Sys2Proof.Machine

/-! O56: the event recorder. Commits, stamps and extremes, the archive, the read-out window. -/

namespace Sys2Proof

theorem mem_insertBy {α : Type} {f : α → Nat} {x y : α} {l : List α} : y ∈ insertBy f x l ↔ y = x ∨ y ∈ l := by
  induction l with
  | nil => simp [insertBy]
  | cons z l ih =>
    unfold insertBy
    split
    · simp
    · simp [ih, or_left_comm]

/-- Sorting keeps the members of a list. -/
theorem mem_sortBy {α : Type} {f : α → Nat} {y : α} {l : List α} : y ∈ sortBy f l ↔ y ∈ l := by
  have hfold (acc : List α) : y ∈ l.foldl (fun acc x => insertBy f x acc) acc ↔ y ∈ acc ∨ y ∈ l := by
    induction l generalizing acc with
    | nil => simp
    | cons x l ih => simp [ih, mem_insertBy, or_assoc, or_left_comm]
  exact (hfold []).trans (by simp)

end Sys2Proof

namespace Sys2Proof.Machine

open Sys2Proof

section
variable {b : Block}

/-! ## Commits (R377) -/

/-- The bank that the next commit writes: the other one, or A where neither is valid. -/
def Recorder.nextBank (r : Recorder) : Bool := if r.bankA.isNone && r.bankB.isNone then false else !r.bank

theorem Block.startCommit_of_idle (h : b.recorder.committing = none) : b.startCommit = { b with recorder := { b.recorder with
    committing := some ({ b.recorder.copy with seq := b.recorder.copy.seq + 1 }, b.recorder.nextBank) } } := by
  unfold Block.startCommit
  simp only [h]
  rfl

theorem Block.startCommit_of_busy (h : b.recorder.committing.isSome = true) :
    b.startCommit = { b with recorder := { b.recorder with queued := true } } := by
  obtain ⟨x, hx⟩ := Option.isSome_iff_exists.1 h
  unfold Block.startCommit
  simp only [hx]

theorem Block.spacedCommit_of_early {t0 : Nat} (hs : b.recorder.spacedAt = some t0) (h : b.now < t0 + 1000000) :
    b.spacedCommit = { b with recorder := { b.recorder with deferred := true } } := by
  unfold Block.spacedCommit
  simp only [hs]
  exact if_neg (by simpa using h)

theorem Block.spacedCommit_of_free {t0 : Nat} (hs : b.recorder.spacedAt = some t0) (h : t0 + 1000000 ≤ b.now)
    (hc : b.recorder.committing = none) : b.spacedCommit = { b with recorder := { b.recorder with
      committing := some ({ b.recorder.copy with seq := b.recorder.copy.seq + 1 }, b.recorder.nextBank)
      spacedAt := some b.now, deferred := false } } := by
  unfold Block.spacedCommit
  simp only [hs]
  rw [if_pos (by simpa using h), if_neg (by simp [hc]), Block.startCommit_of_idle hc]
  rfl

/-- The banks after a commit that has ended. -/
def Recorder.ended (r : Recorder) (toB : Bool) (bank : Option RecCopy) : Recorder :=
  let r := { r with committing := none }
  if toB then { r with commitsB := satAdd 32 r.commitsB 1, bankB := bank } else { r with commitsA := satAdd 32 r.commitsA 1, bankA := bank }

theorem Block.commitDone_ok {c : RecCopy} {toB : Bool} (hc : b.recorder.committing = some (c, toB)) (hq : b.recorder.queued = false) :
    b.commitDone true = { b with recorder := { b.recorder.ended toB (some c) with
      bank := toB, copy := { (b.recorder.ended toB (some c)).copy with seq := c.seq } } } := by
  unfold Block.commitDone Recorder.ended
  simp only [hc, hq]
  rfl

theorem Block.commitDone_failed {c : RecCopy} {toB : Bool} (hc : b.recorder.committing = some (c, toB)) (hq : b.recorder.queued = false) :
    b.commitDone false =
      Block.note { b with recorder := { b.recorder.ended toB none with commitFail := true } } 0x0071 0 (flag toB) 0 := by
  unfold Block.commitDone Recorder.ended
  simp only [hc, hq]
  rfl

theorem Block.commitDone_of_idle (ok : Bool) (h : b.recorder.committing = none) : b.commitDone ok = b := by
  unfold Block.commitDone
  simp only [h]

/-- A record below severity 3 leaves the banks and the commit in progress alone. -/
theorem Block.recorder_noteLow (kind sev subject detail : Nat) : (b.noteLow kind sev subject detail).recorder =
    { b.recorder with copy := (b.noteLow kind sev subject detail).recorder.copy
                      dropped := (b.noteLow kind sev subject detail).recorder.dropped } := by
  unfold Block.noteLow
  simp only
  split
  · rfl
  · split <;> rfl

theorem Block.note_of_severity_zero (kind subject detail : Nat) : b.note kind 0 subject detail = b.noteLow kind 0 subject detail :=
  (Block.note_of_low (by decide) b kind subject detail).trans rfl

/-! ## Stamps and extremes (R368, R370) -/

section
variable (hup : b.mode.porstLow = false) (hdue : b.recorder.minuteAt + 60000000 ≤ b.now)
include hup hdue

/-- The block with a minute counted. -/
def Block.minuted (b : Block) : Block := { b with recorder := { b.recorder with
  copy := { b.recorder.copy with opMinutes := min (b.recorder.copy.opMinutes + 1) (2 ^ 32 - 1) }
  minuteAt := b.recorder.minuteAt + 60000000 } }

theorem Block.opMinute_within_hour (h : min (b.recorder.copy.opMinutes + 1) (2 ^ 32 - 1) % 60 ≠ 0) : b.opMinute = b.minuted := by
  unfold Block.opMinute
  rw [if_neg (by simpa [hup] using hdue)]
  exact if_neg h

theorem Block.opMinute_on_hour (h : min (b.recorder.copy.opMinutes + 1) (2 ^ 32 - 1) % 60 = 0) (hc : b.recorder.committing = none) :
    b.opMinute = { b with recorder := { b.minuted.recorder with
      hourAt := some b.now
      committing := some ({ b.minuted.recorder.copy with seq := b.recorder.copy.seq + 1 }, b.recorder.nextBank) } } := by
  have hidle : ¬ (b.minuted.recorder.spacedAt == some b.minuted.now && b.minuted.recorder.committing.isSome &&
      !b.minuted.recorder.queued) = true := by
    rw [show b.minuted.recorder.committing = none from hc]
    simp
  have hstart : (if b.minuted.recorder.spacedAt == some b.minuted.now && b.minuted.recorder.committing.isSome &&
      !b.minuted.recorder.queued then b.minuted.joinCommit else b.minuted.startCommit) =
      { b.minuted with recorder := { b.minuted.recorder with
        committing := some ({ b.minuted.recorder.copy with seq := b.recorder.copy.seq + 1 }, b.recorder.nextBank) } } :=
    (if_neg hidle).trans (Block.startCommit_of_idle (b := b.minuted) hc)
  unfold Block.opMinute
  rw [if_neg (by simpa [hup] using hdue)]
  exact (if_pos h).trans ((congrArg (fun v : Block => { v with recorder := { v.recorder with hourAt := some v.now } }) hstart).trans rfl)

end

theorem Block.opMinute_of_early (h : b.now < b.recorder.minuteAt + 60000000) : b.opMinute = b := if_pos (by simp [h])

theorem Block.extremesSample_of_early (ts tj : Int) (venc vbat : Nat) (h : b.now < b.recorder.sampleAt + 1000) :
    b.extremesSample ts tj venc vbat = b := if_pos (by simp [h])

/-- The entry of the hour that a minute lies in, as a sample finds it. -/
def RecCopy.hourEntry (c : RecCopy) : Extremes :=
  let h := c.opMinutes / 60
  let old : Extremes := Table.get {} c.hours (h % 168)
  if old.hour = h then old else { hour := h }

theorem Block.extremesSample_of_due (ts tj : Int) (venc vbat : Nat) (hup : b.mode.porstLow = false)
    (hdue : b.recorder.sampleAt + 1000 ≤ b.now) : b.extremesSample ts tj venc vbat = { b with
      gander := { b.gander with vencMv := venc, vbatMv := vbat, temp := ts }
      recorder := { b.recorder with
        sampleAt := b.now
        copy := { b.recorder.copy with
          life := b.recorder.copy.life.sample ts tj venc vbat
          hours := Table.set {} b.recorder.copy.hours (b.recorder.copy.opMinutes / 60 % 168)
            (b.recorder.copy.hourEntry.sample ts tj venc vbat) } } } := by
  refine (if_neg ?_).trans rfl
  simpa [hup] using hdue

/-! ## Archive (R379) -/

section
variable {c : RecCopy} {n : Nat}

theorem RecCopy.archiveTo_of_read (h : ∀ x ∈ c.sev3, x.id ≤ n → x.read = 0xF) :
    let gone := sortBy (fun x : Rec => x.id) (c.sev3.filter fun x => decide (x.id ≤ n))
    let kept := sortBy (fun x : Rec => x.id) (c.sev3.filter fun x => decide (n < x.id))
    c.archiveTo n = some { c with
      digest := Hash.hash .sha3_256 (c.digest ++ gone.flatMap Rec.bytes), archived := min (c.archived + gone.length) (2 ^ 32 - 1)
      sev3 := kept, reserveLock := c.reserveLock && decide (512 < kept.length) } := by
  intro gone kept
  refine if_pos (List.all_eq_true.2 fun x hx => ?_)
  obtain ⟨hmem, hid⟩ := List.mem_filter.1 (mem_sortBy.1 hx)
  exact beq_iff_eq.2 (h x hmem (of_decide_eq_true hid))

theorem RecCopy.archiveTo_of_unread {x : Rec} (hx : x ∈ c.sev3) (hid : x.id ≤ n) (hread : x.read ≠ 0xF) : c.archiveTo n = none := by
  refine if_neg fun hall => ?_
  have hmem : x ∈ sortBy (fun x : Rec => x.id) (c.sev3.filter fun x => decide (x.id ≤ n)) :=
    mem_sortBy.2 (List.mem_filter.2 ⟨hx, decide_eq_true hid⟩)
  exact hread (beq_iff_eq.1 (List.all_eq_true.1 hall x hmem))

end

/-- The word that is written to AV_REC_ARCHIVE for an ID, its REFUSED bit clear. -/
theorem archiveWord_fields {n : Nat} (h : n < 2 ^ 32) :
    field (BitVec.ofNat 64 n).toNat 31 0 = n ∧ bit (BitVec.ofNat 64 n).toNat 32 = false := by
  have hn : (BitVec.ofNat 64 n).toNat = n := by
    rw [BitVec.toNat_ofNat]
    exact Nat.mod_eq_of_lt (by omega)
  rw [hn, field_eq, bit]
  exact ⟨by omega, Nat.testBit_lt_two_pow h⟩

theorem Block.archiveWrite_of_word {n : Nat} (h : n < 2 ^ 32) : b.archiveWrite (BitVec.ofNat 64 n).toNat =
    match b.recorder.copy.archiveTo n with
    | some c => Block.spacedCommit { b with recorder := { b.recorder with copy := c } }
    | none => { b with recorder := { b.recorder with refused := true } } := by
  obtain ⟨hid, hbit⟩ := archiveWord_fields h
  unfold Block.archiveWrite
  simp only [hid, hbit, Bool.not_false, Bool.and_true] <;> rfl

/-- An archive that is done changes the recorder alone, and asks for a commit. -/
theorem Block.archiveWrite_of_done {n : Nat} {c : RecCopy} (h : n < 2 ^ 32) (hc : b.recorder.copy.archiveTo n = some c) :
    (b.archiveWrite (BitVec.ofNat 64 n).toNat).recorder.copy = c ∧ b.OnlyRec (b.archiveWrite (BitVec.ofNat 64 n).toNat) := by
  have hrun : b.archiveWrite (BitVec.ofNat 64 n).toNat = Block.spacedCommit { b with recorder := { b.recorder with copy := c } } := by
    rw [Block.archiveWrite_of_word h]
    simp only [hc]
  rw [hrun]
  exact ⟨Block.copy_spacedCommit _, Block.OnlyRec.trans (b' := { b with recorder := { b.recorder with copy := c } }) rfl
    (Block.onlyRec_spacedCommit _)⟩

theorem Block.archiveWrite_of_refused {n : Nat} (h : n < 2 ^ 32) (hc : b.recorder.copy.archiveTo n = none) :
    b.archiveWrite (BitVec.ofNat 64 n).toNat = { b with recorder := { b.recorder with refused := true } } := by
  rw [Block.archiveWrite_of_word h]
  simp only [hc]

/-! ## Read-out (R379) -/

theorem Block.recWordRead_of_copy {n : Nat} (hup : b.mode.porstLow = false) (h : n < 8192) :
    b.recWordRead (0x200000 + 8 * n) 8 0 = (b.answer (b.recorder.copy.word (8 * n))).modRec fun c => c.markRead (8 * n) := by
  have hoff : 0x200000 + 8 * n - 0x200000 = 8 * n := Nat.add_sub_cancel_left ..
  unfold Block.recWordRead
  rw [if_neg (by omega), Block.access_of_aligned hup (Or.inl rfl) (by omega), if_pos rfl, Block.recRead]
  simp only [hoff]
  exact if_pos (by omega)

theorem RecCopy.markRead_below {c : RecCopy} {n : Nat} (h : 8 * n < 0xB000) : c.markRead (8 * n) = c := if_neg (by omega)

theorem RecCopy.markRead_of_reserve {c : RecCopy} {n : Nat} (h : 0xB000 ≤ 8 * n) : c.markRead (8 * n) = { c with
    sev3 := modNth (fun x => { x with read := x.read ||| BitVec.ofNat 4 (2 ^ (n % 4)) }) ((8 * n - 0xB000) / 32) c.sev3 } := by
  have hword : 8 * n % 32 / 8 = n % 4 := by omega
  refine (if_pos h).trans ?_
  rw [hword]

end

/-- Settles O56, by what `Block.startCommit` and `Block.commitDone` leave, the entry that a sample widens, `RecCopy.archiveTo` and
`RecCopy.markRead`. -/
theorem eventRecorder : Obligations.EventRecorder := by
  unfold Obligations.EventRecorder
  intro s n b r c now becomes toB
  refine ⟨fun hup => ⟨fun hc => ?_, fun hc => ?_⟩, fun hd => ?_, fun t0 hd hs => ⟨fun h => ?_, fun h hc => ?_⟩,
    fun d hq => ⟨fun hc => ?_, fun hc => ?_, fun hc => ?_⟩, fun hc => ?_, fun hup hdue => ⟨fun h => ?_, fun h hc => ?_⟩, fun h => ?_,
    fun ts tj venc vbat hup hdue => ?_, fun ts tj venc vbat h => ?_, fun hup hn => ⟨fun hread => ?_, fun hunread => ?_⟩, fun hup hn => ?_⟩
  · exact next_congr ((Block.globalWrite_of_owner hup).trans (Block.startCommit_of_idle (b := s.blk.okWrite) hc))
  · exact next_congr ((Block.globalWrite_of_owner hup).trans (Block.startCommit_of_busy (b := s.blk.okWrite) hc))
  · exact next_congr (if_neg (by rw [hd]; decide))
  · refine next_congr ((if_pos hd).trans ((Block.spacedCommit_of_early hs h).trans ?_))
    rw [← hd]
  · exact next_congr ((if_pos hd).trans (Block.spacedCommit_of_free hs h hc))
  · have hdone := Block.commitDone_ok hc hq
    rw [Recorder.ended, if_neg (by decide), satAdd_eq] at hdone
    exact next_congr hdone
  · have hdone := Block.commitDone_ok hc hq
    rw [Recorder.ended, if_pos rfl, satAdd_eq] at hdone
    exact next_congr hdone
  · obtain ⟨v, hv⟩ : ∃ v : Block, v = { b with recorder := { r.ended false none with commitFail := true } } := ⟨_, rfl⟩
    have hfail : b.commitDone false = v.noteLow 0x0071 0 (flag false) 0 := by
      rw [Block.commitDone_failed hc hq, ← Block.note_of_severity_zero, hv]
    have honly : v.OnlyRec (v.noteLow 0x0071 0 (flag false) 0) := v.onlyRec_noteLow _ _ _ _
    have hrec := Block.recorder_noteLow (b := v) 0x0071 0 (flag false) 0
    obtain ⟨w, hw⟩ : ∃ w, w = v.noteLow 0x0071 0 (flag false) 0 := ⟨_, rfl⟩
    rw [← hw] at hfail honly hrec
    refine ⟨{ s with blk := w }, next_congr hfail, ?_, ?_, ?_, ?_, ?_, ?_⟩
    · exact (congrArg Recorder.bankA hrec).trans (by rw [hv]; rfl)
    · exact (congrArg Recorder.bankB hrec).trans (by rw [hv]; rfl)
    · exact (congrArg Recorder.bank hrec).trans (by rw [hv]; rfl)
    · exact (congrArg Recorder.commitFail hrec).trans (by rw [hv])
    · exact (congrArg Recorder.committing hrec).trans (by rw [hv]; rfl)
    · unfold Block.OnlyRec at honly
      rw [hv] at honly
      exact congrArg (fun v : Block => { s with blk := v }) honly
  · exact next_congr (Block.commitDone_of_idle true hc)
  · exact next_congr (Block.opMinute_within_hour hup hdue h)
  · exact next_congr (Block.opMinute_on_hour hup hdue h hc)
  · exact next_congr (Block.opMinute_of_early h)
  · refine ⟨_, next_congr (Block.extremesSample_of_due ts tj venc vbat hup hdue), rfl, rfl, rfl, ⟨?_, fun i hi => ?_⟩, rfl⟩
    · exact (Table.get_set ..).trans (if_pos rfl)
    · exact (Table.get_set ..).trans (if_neg (Ne.symm hi))
  · exact next_congr (Block.extremesSample_of_early ts tj venc vbat h)
  · obtain ⟨hcopy, honly⟩ := Block.archiveWrite_of_done (b := s.blk.okWrite) hn (RecCopy.archiveTo_of_read hread)
    exact ⟨{ s with blk := s.blk.okWrite.archiveWrite (BitVec.ofNat 64 n).toNat }, next_congr (Block.globalWrite_of_owner hup), hcopy,
      congrArg (fun v : Block => { s with blk := v }) honly⟩
  · obtain ⟨x, hx, hid, hbits⟩ := hunread
    exact next_congr ((Block.globalWrite_of_owner hup).trans
      (Block.archiveWrite_of_refused (b := s.blk.okWrite) hn (RecCopy.archiveTo_of_unread hx hid hbits)))
  · refine ⟨_, next_congr (Block.recWordRead_of_copy hup hn), rfl, rfl, fun h => ?_, fun h => ?_, rfl⟩
    · exact congrArg (fun c : RecCopy => { r with copy := c }) (RecCopy.markRead_below h)
    · exact congrArg (fun c : RecCopy => { r with copy := c }) (RecCopy.markRead_of_reserve h)

end Sys2Proof.Machine

/-! O40: payment functions. One equation for each way a run goes on (`Block.payOn_of_*`), one for the result of each function
(`Entry.payResult_of_*`). -/

namespace Sys2Proof.Machine

open Sys2Proof

section
variable {b : Block} {u : Nat} {c : Fin 8} {op : Nat} {k : Nat} {i : Index} {e : Entry} {hashed : Bytes} {off : Nat}

/-- The function of an operation that runs in a context. -/
theorem Block.onCore_of_fn (hfn : (b.cx u c).fn = some (k, i)) (he : b.entry? k i = some e) (hstage : e.stage = .dispatched)
    (hop : e.d.op = op) : b.onCore u c op = some e := by
  unfold Block.onCore
  simp only [hfn, he]
  exact Option.filter_some_pos (by simp [hstage, hop])

/-! ## How a run goes on -/

/-- The entry as its firmware has it, with the fill that the bank holds. -/
def Block.filledEntry (b : Block) (u : Nat) (c : Fin 8) (e : Entry) : Entry :=
  { e with rnd := bankRead (b.cx u c).bank fillAt (Pay.fillBytes ((e.formats.2).getD 0)) }

/-- What the firmware does next. -/
def Block.payNext (b : Block) (u : Nat) (c : Fin 8) (e : Entry) (hashed : Bytes) (off : Nat) : Option PayStep :=
  if e.d.op = 0x40 ∧ e.fieldFault = true then none
  else (b.filledEntry u c e).payStep (b.input e) (b.cx u c).run hashed off

/-- The keys' attributes come first, and pass once. -/
theorem Block.payAttr_done (hattr : (b.cx u c).run = 0 → b.payAttr e = none) :
    (if (b.cx u c).run = 0 then b.payAttr e else none) = none := by
  by_cases h : (b.cx u c).run = 0
  · rw [if_pos h, hattr h]
  · exact if_neg h

section
variable (hon : b.onCore u c op = some e)
include hon

theorem Block.payOn_of_waiting (h : (b.cx u c).call.isSome = true ∨ (b.cx u c).block = true) : b.payOn u c op hashed off = b := by
  unfold Block.payOn
  simp only [hon]
  exact if_pos (by simpa using h)

variable (hcall : (b.cx u c).call = none) (hblock : (b.cx u c).block = false)
include hcall hblock

theorem Block.payOn_of_attr {det : Nat} (hrun : (b.cx u c).run = 0) (hattr : b.payAttr e = some det) :
    b.payOn u c op hashed off = b.endPay u c e { status := St.keyUsage, detail := det } := by
  unfold Block.payOn
  simp only [hon, hcall, hblock, hrun, hattr]
  rfl

variable (hattr : (b.cx u c).run = 0 → b.payAttr e = none)
include hattr

theorem Block.payOn_of_readFault {r : Result} (hread : b.payReadFault u c e (b.input e) = some r) :
    b.payOn u c op hashed off = b.endPay u c e r := by
  have hdone := Block.payAttr_done hattr
  unfold Block.payOn
  simp only [hon, hcall, hblock, hdone, hread]
  rfl

variable (hread : b.payReadFault u c e (b.input e) = none) (hop : e.d.op = op)
include hread hop

theorem Block.payOn_of_step {step : PayStep} (hnext : b.payNext u c e hashed off = some step) : b.payOn u c op hashed off =
    (b.modCx u c fun w => { w with got := b.payTaken u c e (b.input e) }).payPost u c e (b.input e) step := by
  have hdone := Block.payAttr_done hattr
  unfold Block.payNext Block.filledEntry at hnext
  rw [hop] at hnext
  unfold Block.payOn
  simp only [hon, hcall, hblock, hdone, hread, Bool.and_eq_true, decide_eq_true_eq, hnext]
  rfl

variable (hnext : b.payNext u c e hashed off = none)
include hnext

theorem Block.payOn_of_recordFault {st det : Nat} (hrecord : e.recordFault = some (st, det)) :
    b.payOn u c op hashed off = b.endPay u c e { status := st, detail := det } := by
  have hdone := Block.payAttr_done hattr
  unfold Block.payNext Block.filledEntry at hnext
  rw [hop] at hnext
  unfold Block.payOn
  simp only [hon, hcall, hblock, hdone, hread, Bool.and_eq_true, decide_eq_true_eq, hnext, hrecord]
  rfl

theorem Block.payOn_of_result (hrecord : e.recordFault = none) : b.payOn u c op hashed off =
    b.endPay u c e ((b.filledEntry u c e).payResult (b.input e) (b.payTaken u c e (b.input e))) := by
  have hdone := Block.payAttr_done hattr
  unfold Block.payNext Block.filledEntry at hnext
  rw [hop] at hnext
  unfold Block.payOn
  simp only [hon, hcall, hblock, hdone, hread, Bool.and_eq_true, decide_eq_true_eq, hnext, hrecord]
  rfl

end

theorem Entry.payStep_of_other (hop : e.d.op ≠ 0x40) (src : Bytes) (j : Nat) (hashed' : Bytes) (off' : Nat) :
    e.payStep src j hashed off = e.payStep src j hashed' off' := by
  unfold Entry.payStep
  rw [if_neg hop, if_neg hop]

/-- Only SLH_VERIFY takes what its firmware gives it. -/
theorem Block.payNext_congr {hashed' : Bytes} {off' : Nat} (h : e.d.op = 0x40 → hashed' = hashed ∧ off' = off) :
    b.payNext u c e hashed' off' = b.payNext u c e hashed off := by
  by_cases hop : e.d.op = 0x40
  · obtain ⟨rfl, rfl⟩ := h hop
    rfl
  · have hother : (b.filledEntry u c e).d.op ≠ 0x40 := hop
    unfold Block.payNext
    rw [Entry.payStep_of_other hother]

/-! ## SLH_VERIFY (R256) -/

theorem Entry.payStep_of_window (hop : e.d.op = 0x40) {j : Nat} (hj : j < e.windows) (src : Bytes) :
    e.payStep src j hashed off = some (.read (ofLE (e.aux.take 8) + 16384 * j) (min 16384 (ofLE (slice 8 4 e.aux) - 16384 * j))) :=
  (if_pos hop).trans (if_pos hj)

theorem Block.payReadFault_of_err {j addr n : Nat} {src : Bytes} (hrun : (b.cx u c).run = j + 1)
    (hstep : e.payStep src j = some (.read addr n)) (herr : (b.cx u c).mcs.getLsbD 1 = true)
    (hcause : field (b.cx u c).mcs.toNat 15 8 % 64 = 3) : b.payReadFault u c e src =
      some { status := St.sgFault, detail := field (b.cx u c).mcs.toNat 15 8
             result := BitVec.ofNat 64 (b.chan (b.fwChan u)).errAddr } := by
  unfold Block.payReadFault
  simp only [hrun, Nat.add_one_ne_zero, if_false, Nat.add_sub_cancel, hstep, herr, hcause]
  rfl

/-! ## Results (R246 to R256) -/

theorem Entry.translated_of_sound {inp out : Modes.Cipher} {src : Bytes} {fi fo : Nat} (hf : e.formats = (some fi, some fo))
    (h : Pay.pinFault fi (Pay.pinOpen fi inp e.pan src) = none) : e.translated inp out src =
      { out := Pay.pinSeal fo out e.pan (Pay.pinField fo (Pay.pinDigits (Pay.pinOpen fi inp e.pan src)) e.rnd) } := by
  unfold Entry.translated
  simp only [hf, Option.getD_some, h]

theorem Entry.translated_of_fault {inp out : Modes.Cipher} {src : Bytes} {fi fo det : Nat} (hf : e.formats = (some fi, some fo))
    (h : Pay.pinFault fi (Pay.pinOpen fi inp e.pan src) = some det) :
    e.translated inp out src = { status := St.pinFormat, detail := det } := by
  unfold Entry.translated
  simp only [hf, Option.getD_some, h]
  rfl

section
variable {src got : Bytes}

theorem Entry.payResult_of_pinTranslate (hop : e.d.op = 0x01) : e.payResult src got =
    e.translated (Modes.cipherOf (e.payCode 0) (e.payKey 0)) (Modes.cipherOf (e.payCode 1) (e.payKey 1)) src := by
  unfold Entry.payResult
  simp only [hop]

theorem Entry.payResult_of_pinVerify (hop : e.d.op = 0x02) : e.payResult src got = e.pinVerified src := by
  unfold Entry.payResult
  simp only [hop]

/-- The cipher of a DUKPT function under a working key. -/
def Entry.under (e : Entry) (key : Bytes) : Modes.Cipher := if e.d.dukptAes then Modes.aes key else Modes.tdea key

theorem Entry.payResult_of_dukptDecrypt (hop : e.d.op = 0x10) : e.payResult src got =
    let w := e.under (e.dukptKey (.data e.response) (nth 0 e.aux 0x0D).toNat)
    { out := (Modes.cbcDec w (slice 0x10 w.b e.aux) src).1 } := by
  unfold Entry.payResult
  simp only [hop]
  rfl

theorem Entry.payResult_of_dukptPinTranslate (hop : e.d.op = 0x11) : e.payResult src got =
    e.translated (e.under (e.dukptKey .pin 2)) (Modes.cipherOf (e.payCode 1) (e.payKey 1)) src := by
  unfold Entry.payResult
  simp only [hop]
  rfl

/-- A verdict: success, or a status and a detail. -/
def verdict (ok : Bool) (st det : Nat) : Result := if ok then {} else { status := st, detail := det }

theorem Entry.payResult_of_dukptMacVerify (hop : e.d.op = 0x12) {mac : Bytes}
    (hmac : (if e.d.dukptAes then Modes.cmac (Modes.aes (e.dukptKey (.mac e.response) (nth 0 e.aux 0x0D).toNat)) src
      else Modes.mac3Finish (e.dukptKey (.mac e.response) (nth 0 e.aux 0x0D).toNat) 1 (zeros 8) src src.length) = mac) :
    e.payResult src got =
      verdict (mac.take (nth 0 e.aux 0x0F).toNat == slice 0x30 (nth 0 e.aux 0x0F).toNat e.aux) St.verifyFail 8 := by
  subst hmac
  unfold Entry.payResult
  simp only [hop]
  rfl

section
variable {m : Nat} (hm : m = e.d.var % 16)
  (hsound : Pay.pinFault m (Pay.pinOpen m (Modes.cipherOf (e.payCode 0) (e.payKey 0)) e.pan src) = none)
include hm hsound

theorem Entry.pinVerified_of_offset (hvar : e.d.var / 16 = 0) : e.pinVerified src =
    let pin := Pay.pinDigits (Pay.pinOpen m (Modes.cipherOf (e.payCode 0) (e.payKey 0)) e.pan src)
    let n := (nth 0 e.aux 0x18).toNat
    verdict (decide (n ≤ pin.length) && pin.take n == Pay.referencePin (Modes.cipherOf (e.payCode 1) (e.payKey 1))
      ((e.payKey 2).map (·.toNat)) (slice 0x10 8 e.aux) n ((Pay.nibbles (slice 0x19 6 e.aux)).take n)) St.pinCheck 1 := by
  subst hm
  unfold Entry.pinVerified
  simp only [hsound, hvar, if_true]
  rfl

theorem Entry.pinVerified_of_pvv (hvar : e.d.var / 16 ≠ 0) : e.pinVerified src =
    verdict (Pay.pvv (Modes.cipherOf (e.payCode 1) (e.payKey 1)) e.pan (nth 0 e.aux 0x10).toNat
      (Pay.pinDigits (Pay.pinOpen m (Modes.cipherOf (e.payCode 0) (e.payKey 0)) e.pan src)) == Pay.nibbles (slice 0x11 2 e.aux)) St.pinCheck 1 := by
  subst hm
  unfold Entry.pinVerified
  simp only [hsound, hvar, if_false]
  rfl

end

theorem Entry.payResult_of_emvArqcVerify (hop : e.d.op = 0x20) : e.payResult src got =
    verdict (Pay.emvMac (e.d.var % 16) e.emvKey src == slice 0x18 8 e.aux) St.verifyFail 7 := by
  unfold Entry.payResult
  simp only [hop]
  rfl

theorem Entry.payResult_of_emvArpcGenerate (hop : e.d.op = 0x21) : e.payResult src got =
    if Pay.emvMac (e.d.var % 16) e.emvKey src = slice 0x18 8 e.aux then
      { out := Pay.arpc (e.d.var % 16) (e.d.var / 16) e.emvKey (slice 0x18 8 e.aux)
          (if e.d.var / 16 = 0 then slice 0x20 2 e.aux else slice 0x20 4 e.aux ++ slice 0x24 (nth 0 e.aux 0x2C).toNat e.aux) }
    else { status := St.verifyFail, detail := 7 } := by
  unfold Entry.payResult
  simp only [hop]
  by_cases h : Pay.emvMac (e.d.var % 16) e.emvKey src = slice 0x18 8 e.aux
  · rw [if_pos h, if_neg (by simp [h])]
  · rw [if_neg h, if_pos (by simp [h])]
    rfl

/-- The response cryptogram of a method, where the request cryptogram is right. -/
theorem Entry.payResult_of_arqc (hop : e.d.op = 0x21) {method : Nat} (hm : e.d.var / 16 = method)
    (harqc : Pay.emvMac (e.d.var % 16) e.emvKey src = slice 0x18 8 e.aux) : e.payResult src got =
      { out := Pay.arpc (e.d.var % 16) method e.emvKey (slice 0x18 8 e.aux)
          (if method = 0 then slice 0x20 2 e.aux else slice 0x20 4 e.aux ++ slice 0x24 (nth 0 e.aux 0x2C).toNat e.aux) } := by
  rw [Entry.payResult_of_emvArpcGenerate hop, if_pos harqc, hm]

theorem Entry.payResult_of_emvScriptMac (hop : e.d.op = 0x22) : e.payResult src got = { out := Pay.emvMac (e.d.var % 16) e.emvKey src } := by
  unfold Entry.payResult
  simp only [hop]

theorem Entry.payResult_of_emvSessionDerive (hop : e.d.op = 0x23) : e.payResult src got = e.res.getD {} := by
  unfold Entry.payResult
  simp only [hop]

theorem Entry.payResult_of_kcv (hop : e.d.op = 0x30) :
    e.payResult src got = { result := BitVec.ofNat 64 (ofLE (Pay.kcv e.d.var (e.payCode 0) (e.payKey 0))) } := by
  unfold Entry.payResult
  simp only [hop]

theorem Entry.payResult_of_slhVerify (hop : e.d.op = 0x40) : e.payResult src got =
    let n := slhN e.d.var
    let ctx := e.aux.drop (16 + 2 * n)
    let set := nth (Slh.Params.mk false 0 0 0 0 0 0) (Slh.sizes (e.d.var % 2 == 1)) ((e.d.var - 1) / 2)
    verdict (Slh.verify set (slice 16 (2 * n) e.aux) ([0, byte ctx.length] ++ ctx ++ src) got) St.verifyFail 10 := by
  unfold Entry.payResult
  simp only [hop]
  rfl

end

end

/-- Command cmd runs the function of an operation on context x of core u. -/
def RunsPay (s : State) (u x : Nat) (hashed : Bytes) (off : Nat) (z : Nat × Instr) : Prop :=
  ∃ hashed' off', exec z.2 s = .next { s with blk := s.blk.payOn u (ctxIx x) z.1 hashed' off' } ∧
    (z.1 = 0x40 → hashed' = hashed ∧ off' = off)

theorem runsPay (s : State) (u x : Nat) (hashed : Bytes) (off : Nat) :
    ∀ z ∈ [((0x01 : Nat), Instr.pinTranslate (188 + u) x), (0x02, .pinVerify (188 + u) x),
      (0x10, .dukptDecrypt (188 + u) x), (0x11, .dukptPinTranslate (188 + u) x), (0x12, .dukptMacVerify (188 + u) x),
      (0x20, .emvArqcVerify (188 + u) x), (0x21, .emvArpcGenerate (188 + u) x), (0x22, .emvScriptMac (188 + u) x),
      (0x23, .emvSessionDerive (188 + u) x), (0x30, .kcv (188 + u) x), (0x40, .slhVerify (188 + u) x hashed off)],
      RunsPay s u x hashed off z := by
  have hcore : 188 + u - 188 = u := Nat.add_sub_cancel_left ..
  have hplain {op : Nat} {cmd : Instr} (hop : op ≠ 0x40)
      (hrun : exec cmd s = .next { s with blk := s.blk.payOn (188 + u - 188) (ctxIx x) op [] outputAt }) : RunsPay s u x hashed off (op, cmd) :=
    ⟨[], outputAt, by rw [hcore] at hrun; exact hrun, fun h => absurd h hop⟩
  simp only [List.forall_mem_cons]
  refine ⟨hplain (by decide) rfl, hplain (by decide) rfl, hplain (by decide) rfl, hplain (by decide) rfl, hplain (by decide) rfl,
    hplain (by decide) rfl, hplain (by decide) rfl, hplain (by decide) rfl, hplain (by decide) rfl, hplain (by decide) rfl,
    ⟨hashed, off, ?_, fun _ => ⟨rfl, rfl⟩⟩, fun _ h => absurd h List.not_mem_nil⟩
  exact next_congr (by rw [hcore])

/-- Settles O40: each command runs `Block.payOn` for its operation, which goes on as the `Block.payOn_of_*` lemmas say and ends with the
result that the `Entry.payResult_of_*` lemmas give. -/
theorem paymentFunctions : Obligations.PaymentFunctions := by
  unfold Obligations.PaymentFunctions
  intro s u x c k i e hashed off b src y fill next ends verdict runs sound m c1 c2 under arqc hc hfn he hstage
  subst hc
  have hon {op : Nat} (hop : e.d.op = op) : b.onCore u (ctxIx x) op = some e := Block.onCore_of_fn hfn he hstage hop
  have hnext {z : Nat × Instr} {hashed' : Bytes} {off' : Nat} (hop : e.d.op = z.1) (h : z.1 = 0x40 → hashed' = hashed ∧ off' = off) :
      b.payNext u (ctxIx x) e hashed' off' = next := Block.payNext_congr fun h40 => h (hop ▸ h40)
  have hresult {z : Nat × Instr} (hz : RunsPay s u x hashed off z) (hsound : sound z.1) {r : Result}
      (hr : (b.filledEntry u (ctxIx x) e).payResult src (b.payTaken u (ctxIx x) e src) = r) : ends z.2 r := by
    obtain ⟨⟨hop, hcall, hblock, hattr, hread⟩, hnone, hrecord⟩ := hsound
    obtain ⟨hashed', off', hrun, hgiven⟩ := hz
    rw [← hr]
    exact hrun.trans (next_congr (Block.payOn_of_result (hon hop) hcall hblock hattr hread hop ((hnext hop hgiven).trans hnone) hrecord))
  have hall := runsPay s u x hashed off
  refine ⟨fun z hz => ?_, ?_⟩
  · obtain ⟨hashed', off', hrun, hgiven⟩ := hall z hz
    refine ⟨fun hop hwaits => ?_, fun det hop hcall hblock hrun0 hattr => ?_, fun step hruns hstep => ?_, fun st det hruns hnone hrecord => ?_⟩
    · exact hrun.trans (next_congr (Block.payOn_of_waiting (hon hop) hwaits))
    · exact hrun.trans (next_congr (Block.payOn_of_attr (hon hop) hcall hblock hrun0 hattr))
    · obtain ⟨hop, hcall, hblock, hattr, hread⟩ := hruns
      exact hrun.trans (next_congr (Block.payOn_of_step (hon hop) hcall hblock hattr hread hop ((hnext hop hgiven).trans hstep)))
    · obtain ⟨hop, hcall, hblock, hattr, hread⟩ := hruns
      exact hrun.trans (next_congr (Block.payOn_of_recordFault (hon hop) hcall hblock hattr hread hop ((hnext hop hgiven).trans hnone) hrecord))
  simp only [List.forall_mem_cons] at hall
  obtain ⟨htranslate, hverify, hdecrypt, hpin, hmac, harqc, harpc, hscript, hderive, hkcv, hslh, -⟩ := hall
  obtain ⟨e', he'⟩ : ∃ e', e' = b.filledEntry u (ctxIx x) e := ⟨_, rfl⟩
  have hop {op : Nat} (hsound : sound op) : e'.d.op = op := by
    obtain ⟨⟨hop, -⟩, -⟩ := hsound
    rw [he']
    exact hop
  rw [← he'] at hresult
  refine ⟨fun fi fo o hs hf ho => ⟨fun h => ?_, fun det h => ?_⟩, fun n pin hs hvar h hn hpin' => ?_, fun hs hvar h => ?_, fun w hw hs => ?_,
    fun fi fo o hs hf ho h => ?_, fun hs haes => ?_, fun hs haes => ?_, fun hs => ?_, fun hs hne => ?_, fun hs heq hvar => ?_,
    fun hs heq hvar => ?_, fun hs => ?_, fun hs => ?_, fun hs => ?_, fun hs => ?_, fun j h40 hj => ?_,
    fun j addr n h40 hcall hblock hattr hrun hstep herr hcause => ?_⟩
  · refine hresult htranslate hs ((Entry.payResult_of_pinTranslate (hop hs)).trans ?_)
    subst ho he'
    exact Entry.translated_of_sound hf h
  · refine hresult htranslate hs ((Entry.payResult_of_pinTranslate (hop hs)).trans ?_)
    subst ho he'
    exact Entry.translated_of_fault hf h
  · refine hresult hverify hs ((Entry.payResult_of_pinVerify (hop hs)).trans ?_)
    subst hn hpin' he'
    exact Entry.pinVerified_of_offset rfl h (Nat.div_eq_of_lt hvar)
  · refine hresult hverify hs ((Entry.payResult_of_pinVerify (hop hs)).trans ?_)
    subst he'
    exact Entry.pinVerified_of_pvv rfl h (Nat.ne_of_gt (Nat.div_pos hvar (by decide)))
  · refine hresult hdecrypt hs ((Entry.payResult_of_dukptDecrypt (hop hs)).trans ?_)
    subst hw he'
    rfl
  · refine hresult hpin hs ((Entry.payResult_of_dukptPinTranslate (hop hs)).trans ?_)
    subst ho he'
    exact Entry.translated_of_sound hf h
  · refine hresult hmac hs ((Entry.payResult_of_dukptMacVerify (hop hs) (if_pos (by rw [he']; exact haes))).trans ?_)
    subst he'
    rfl
  · refine hresult hmac hs ((Entry.payResult_of_dukptMacVerify (hop hs) (if_neg (by
      rw [he']
      exact ne_true_of_eq_false haes))).trans ?_)
    subst he'
    rfl
  · refine hresult harqc hs ((Entry.payResult_of_emvArqcVerify (hop hs)).trans ?_)
    subst he'
    rfl
  · refine hresult harpc hs ((Entry.payResult_of_emvArpcGenerate (hop hs)).trans ?_)
    subst he'
    exact if_neg hne
  · refine hresult harpc hs ((Entry.payResult_of_arqc (method := 0) (hop hs) (by rw [he']; exact hvar) (by rw [he']; exact heq)).trans ?_)
    subst he'
    rfl
  · refine hresult harpc hs ((Entry.payResult_of_arqc (method := 1) (hop hs) (by rw [he']; exact hvar) (by rw [he']; exact heq)).trans ?_)
    subst he'
    rfl
  · refine hresult hscript hs ((Entry.payResult_of_emvScriptMac (hop hs)).trans ?_)
    subst he'
    rfl
  · refine hresult hderive hs ((Entry.payResult_of_emvSessionDerive (hop hs)).trans ?_)
    subst he'
    rfl
  · refine hresult hkcv hs ((Entry.payResult_of_kcv (hop hs)).trans ?_)
    subst he'
    rfl
  · refine hresult hslh hs ((Entry.payResult_of_slhVerify (hop hs)).trans ?_)
    subst he'
    rfl
  · exact Entry.payStep_of_window h40 hj src
  · obtain ⟨hashed', off', hexec, -⟩ := hslh
    exact hexec.trans (next_congr (Block.payOn_of_readFault (hon h40) hcall hblock hattr (Block.payReadFault_of_err hrun hstep herr hcause)))

end Sys2Proof.Machine
